-- ==== Sys2Proof/Word.lean ====
section
/-! DEFINITION. The word types of the machine and their plainest arithmetic. -/

namespace Sys2Proof

/-- A byte (R3). -/
abbrev Byte := BitVec 8
/-- The contents of a scalar register (R171). -/
abbrev Word := BitVec 64
/-- The contents of an address register (R171). -/
abbrev Addr := BitVec 80
/-- A 5-bit register field. -/
abbrev Reg := BitVec 5
/-- One lane of a vector register, or one FP32 element. -/
abbrev Lane := BitVec 32
/-- A code-stream position in halfwords (R147). -/
abbrev Pos := Nat
/-- A vector register: lane 64ρ + κ is element (ρ, κ) (R5). -/
abbrev VReg := Vector Lane 1024
/-- A mask over the 1,024 lanes (R200). -/
abbrev LaneMask := BitVec 1024

/-- The integer value of the low `n` bits of `x` as two's complement (R174). -/
def sextInt (x : Nat) (n : Nat) : Int :=
  let m := x % 2 ^ n
  if 2 * m < 2 ^ n then (m : Int) else (m : Int) - (2 ^ n : Nat)

end Sys2Proof
end

