-- ==== Sys2Proof/Config.lean ====
section
/-! DEFINITION. What an implementation of the device fixes and the manual does not: constants of the
part, and the free values. A constant with no body has no value that a proof could use. -/

namespace Sys2Proof

/-- The free value with number `n`: what a value the manual leaves open turns out to be. The step
applies it to a counter of the state, so two uses need not agree (log 5). -/
opaque Config.free : Nat → Nat

/-- Whether a racing access observes a store that it may observe (R123): the access's number, the address of its single-copy
atomic unit, the store's number (log 10). -/
opaque Config.sees : Nat → Nat → Nat → Bool

/-- Whether a racing access returns a store that was published in its phase though the snapshot is later in coherence order
(R123): the access's number and the address of its unit (log 10). -/
opaque Config.drops : Nat → Nat → Bool

/-- The same two choices for a race between tasks of one Meridian gang, which repeat from run to run (R458; log 100): by the reader's
task index and τ, the address of its unit, and the storing task's index and τ. -/
opaque Config.seesMer : Nat → Nat → Nat → Nat → Nat → Bool
opaque Config.dropsMer : Nat → Nat → Nat → Bool

/-- A choice that the manual gives the translation hardware: which entry of an ill-formed group translates an access (R417),
which entry a full cache replaces (R420); by the number of the walk (log 49). -/
opaque Config.pick : Nat → Nat

/-- The reading of a converter for true charge sum `q` with `n` charge planes, before the bound of
R95 is applied (log 8): the error it makes, reduced into the bound by `Machine.readingOf`. -/
opaque Config.converterError : Nat → Int

/-- The serial number of the part (R444, R464). -/
opaque Config.serial : BitVec 128
/-- The public key of the device, x then y (R464). -/
opaque Config.deviceKey : BitVec 512
/-- SM3 measurement of the custodian image (R463). -/
opaque Config.custodianMeasurement : BitVec 256
/-- SM3 measurement of the queue-processor image (R463). -/
opaque Config.qpMeasurement : BitVec 256
/-- The SM3 hash of a list of bytes (R463): the manual names the standard and does not state it. -/
opaque Config.sm3 : List Byte → BitVec 256
/-- The SM2 signature of a hash under the device key (R464). -/
opaque Config.sm2Sign : BitVec 256 → BitVec 512
/-- The 64 bytes that are stored of a line held encrypted (R441): the data key, the physical address, the line's bytes. -/
opaque Config.sm4Line : BitVec 128 → Nat → List Byte → List Byte
/-- The first 64 bits of the SM4 CBC-MAC of bytes under a MAC key (R441). -/
opaque Config.sm4Mac : BitVec 128 → List Byte → BitVec 64
/-- The data key and the MAC key that a KEY_LOAD carries, SM2-encrypted to the device key (R454). -/
opaque Config.sm2Open : List Byte → BitVec 128 × BitVec 128
/-- The firmware image of the queue processors, as the boot ROM loads it into their instruction memories (R395; log 3). -/
opaque Config.firmware : List Byte
/-- Where its dictionary and code stream lie in that memory: offset and length of each (R395). -/
opaque Config.firmwareParts : Nat × Nat × Nat × Nat
/-- Its entry position (R395, R408). -/
opaque Config.firmwareEntry : Nat

end Sys2Proof
end

