-- ==== Sys2Proof/Syntax.lean ====
section
/-! DEFINITION. The instructions and events of the device: the slot forms of R160 to R165 with the
field names of the manual, and one constructor per row of the opcode table. -/

namespace Sys2Proof

/-- The SR form of the S slot (R160). -/
structure SR where
  g  : Bool
  fn : BitVec 9
  b  : Reg
  a  : Reg
  d  : Reg
  deriving DecidableEq, Repr

/-- The SI form of the S slot (R160). -/
structure SI where
  g   : Bool
  fn  : BitVec 9
  imm : BitVec 32
  a   : Reg
  d   : Reg
  deriving DecidableEq, Repr

/-- The SB form of the S slot (R160). -/
structure SB where
  g    : Bool
  imm8 : BitVec 8
  off  : BitVec 32
  b    : Reg
  a    : Reg
  cc   : BitVec 4
  deriving DecidableEq, Repr

/-- The SS form of the S slot (R160). -/
structure SS where
  g   : Bool
  sel : BitVec 2
  spr : BitVec 12
  isA : Bool
  d   : Reg
  deriving DecidableEq, Repr

/-- The form of the A slot (R161); mod[59] of the manual is bit 0 of `mod`. -/
structure AForm where
  g     : Bool
  mod   : BitVec 4
  off   : BitVec 24
  tid   : BitVec 4
  scope : BitVec 3
  size  : BitVec 3
  as    : BitVec 3
  idx   : Reg
  base  : BitVec 4
  t     : Reg
  deriving DecidableEq, Repr

/-- The form of the two V slots (R163), with the slot it stands in: `v1` is the V1 slot. -/
structure VForm where
  v1   : Bool
  imm8 : BitVec 8
  tid  : BitVec 4
  p    : Bool
  sat  : Bool
  rm   : BitVec 3
  fn   : BitVec 6
  ty   : BitVec 5
  c    : Reg
  b    : Reg
  a    : Reg
  d    : Reg
  deriving DecidableEq, Repr

/-- The form of the M slot (R164); bit 22 of the manual's flags is bit 0 of `flags`. -/
structure MForm where
  imm   : BitVec 12
  row   : BitVec 4
  flags : BitVec 8
  q     : BitVec 2
  split : BitVec 4
  plane : BitVec 4
  mac   : BitVec 3
  bnk   : Bool
  acc   : BitVec 2
  deriving DecidableEq, Repr

/-- The form of the X slot (R165). -/
structure XForm where
  g     : Bool
  imm   : BitVec 24
  fn    : BitVec 8
  scope : BitVec 3
  base  : BitVec 4
  b     : Reg
  a     : Reg
  d     : Reg
  deriving DecidableEq, Repr

/-- The header of a bundle (R141); bits 15 to 10 are zero in every legal header. -/
structure Header where
  sig : BitVec 16
  blk : Bool
  rdv : Bool
  seg : Bool
  pop : BitVec 2
  st  : BitVec 5
  deriving DecidableEq, Repr

/-- A translation asked of a walker (R414, R418). -/
structure WalkReq where
  ctx   : BitVec 12
  va    : Addr
  deriving DecidableEq, Repr

/-- One reading of a column temperature sensor (R459), in sixteenths of a degree, with the power of its cluster in watts. -/
structure SensorReading where
  cluster : Nat
  column  : Nat
  reading : Int
  power   : Nat
  deriving DecidableEq, Repr

/-- The operands of PART_CREATE (R454). -/
structure PartCreate where
  port       : Nat
  p          : Nat
  clusters   : BitVec 8
  taskArea   : Addr
  spillPool  : Addr
  spillStride : Nat
  savePool   : Addr
  saveCount  : Nat
  streamTable : Addr
  shares     : List Nat
  tableSize  : Nat
  deriving DecidableEq, Repr

/-- A participant of a collective group (R342, R454). -/
structure Participant where
  node : BitVec 16
  lid  : Nat
  task : Nat
  deriving DecidableEq, Repr

/-- An entry of the Verby route table: a node and a port that reaches it (R454, R455). -/
structure Route where
  node  : BitVec 16
  vport : Nat
  deriving DecidableEq, Repr

/-- A fabric request that arrives from another device (R134, R347, FABRIC_INGRESS): the bytes an FPUT
writes with the check values that its whole lines carry in order (R442), the length an FGET reads, or the row of a CMBPUT with its
handle and position. -/
structure Ingress where
  ctx   : BitVec 12
  va    : Addr
  put   : Bool
  data  : List Byte
  len   : Nat
  src   : BitVec 16
  checks : List (BitVec 32) := []
  row   : Option (BitVec 64 × Nat) := none
  deriving DecidableEq, Repr

/-- The operands of an event: what the party that makes it says (a host, a sensor, a walker), or which of
several pending things it concerns. An event reads the fields that its row needs; the rest are 0. -/
structure EventData where
  /-- which outstanding operation, in-flight store or forwarding entry -/
  index   : Nat := 0
  /-- the host port, or the Verby port -/
  port    : Nat := 0
  /-- the partition -/
  part    : Nat := 0
  /-- the task slot or the combine slot -/
  slot    : Nat := 0
  /-- the physical core -/
  core    : Nat := 0
  /-- the dome -/
  dome    : Nat := 0
  /-- the array of the core, 0 to 7 -/
  arr     : Nat := 0
  /-- the collective group -/
  group   : Nat := 0
  /-- a row, a layer and bus, a byte offset, a physical address or a first sequence number -/
  addr    : Nat := 0
  /-- a count or a length -/
  count   : Nat := 0
  /-- a value written, a bit count, watts, or a key id -/
  value   : Nat := 0
  /-- the outcome that the party reports -/
  ok      : Bool := true
  ctx     : BitVec 12 := 0
  va      : Addr := 0
  node    : BitVec 16 := 0
  win     : BitVec 6 := 0
  nonce   : BitVec 256 := 0
  data    : List Byte := []
  params  : List Nat := []
  members : List Participant := []
  routes  : List Route := []
  walk    : WalkReq := { ctx := 0, va := 0 }
  sensor  : SensorReading := { cluster := 0, column := 0, reading := 0, power := 0 }
  create  : PartCreate := { port := 0, p := 0, clusters := 0, taskArea := 0, spillPool := 0, spillStride := 0, savePool := 0,
                            saveCount := 0, streamTable := 0, shares := [], tableSize := 0 }
  /-- an error on a vertical bus of the memory (R431): bus (0 read, 1 write, 2 command), attempts that failed, layer -/
  bus     : Option (Nat × Nat × Nat) := none
  /-- in Meridian mode, by how many cycles an access has exceeded its declared latency (R457) -/
  late    : Nat := 0
  /-- where an uncorrectable error was found (R376): 0 a line of the L1, 1 to 4 the spaces P, K, D and L, 5 the L2 or a memory tier -/
  space   : Nat := 0
  ingress : Ingress := { ctx := 0, va := 0, put := false, data := [], len := 0, src := 0 }
  deriving DecidableEq, Repr

/-- One constructor per row of the opcode table: the operations of the six slots, which hold their slot
form, the all-zero bundle, and the events, whose operands stand in the state (`EventData`). -/
inductive Instr where
  /-- ADD: Writes the 64-bit wrapping sum of two scalar registers. (R192) -/
  | add (o : SR)
  /-- SUB: Writes the 64-bit wrapping difference of two scalar registers. (R192) -/
  | sub (o : SR)
  /-- MUL: Writes the low 64 bits of the product, with latency 3. (R192) -/
  | mul (o : SR)
  /-- MULH: Writes the high 64 bits of the signed product. (R192) -/
  | mulh (o : SR)
  /-- MULHU: Writes the high 64 bits of the unsigned product. (R192) -/
  | mulhu (o : SR)
  /-- DIV: Starts a signed division on the core's divider. (R193) -/
  | div (o : SR)
  /-- DIVU: Starts an unsigned division on the core's divider. (R193) -/
  | divu (o : SR)
  /-- REM: Starts a signed remainder on the core's divider. (R193) -/
  | rem (o : SR)
  /-- REMU: Starts an unsigned remainder on the core's divider. (R193) -/
  | remu (o : SR)
  /-- AND: Writes the bitwise AND of two scalar registers. (R192) -/
  | and (o : SR)
  /-- OR: Writes the bitwise OR of two scalar registers. (R192) -/
  | or (o : SR)
  /-- XOR: Writes the bitwise XOR of two scalar registers. (R192) -/
  | xor (o : SR)
  /-- SHL: Shifts left by b[5:0]. (R192) -/
  | shl (o : SR)
  /-- SHR: Shifts right logically by b[5:0]. (R192) -/
  | shr (o : SR)
  /-- SRA: Shifts right arithmetically by b[5:0]. (R192) -/
  | sra (o : SR)
  /-- MIN: Writes the signed minimum. (R192) -/
  | min (o : SR)
  /-- MAX: Writes the signed maximum. (R192) -/
  | max (o : SR)
  /-- MINU: Writes the unsigned minimum. (R192) -/
  | minu (o : SR)
  /-- MAXU: Writes the unsigned maximum. (R192) -/
  | maxu (o : SR)
  /-- SLT: Writes 1 if a is less than b as signed values, else 0. (R192) -/
  | slt (o : SR)
  /-- SLTU: Writes 1 if a is less than b as unsigned values, else 0. (R192) -/
  | sltu (o : SR)
  /-- SEL: Writes a when s_c is nonzero, else b. (R192) -/
  | sel (o : SR)
  /-- ADDI: Adds a sign-extended 32-bit immediate. (R194) -/
  | addi (o : SI)
  /-- ANDI: ANDs with a sign-extended immediate. (R194) -/
  | andi (o : SI)
  /-- ORI: ORs with a sign-extended immediate. (R194) -/
  | ori (o : SI)
  /-- XORI: XORs with a sign-extended immediate. (R194) -/
  | xori (o : SI)
  /-- SHLI: Shifts left by an immediate amount. (R194) -/
  | shli (o : SI)
  /-- SHRI: Shifts right logically by an immediate amount. (R194) -/
  | shri (o : SI)
  /-- SRAI: Shifts right arithmetically by an immediate amount. (R194) -/
  | srai (o : SI)
  /-- LI: Loads a sign-extended 32-bit immediate. (R194) -/
  | li (o : SI)
  /-- LIH: Puts the immediate in the high half and keeps the low 32 bits of s_a. (R194) -/
  | lih (o : SI)
  /-- CLZ: Counts the leading zero bits. (R195) -/
  | clz (o : SR)
  /-- CTZ: Counts the trailing zero bits. (R195) -/
  | ctz (o : SR)
  /-- POPC: Counts the one bits. (R195) -/
  | popc (o : SR)
  /-- BSWAP: Reverses the eight bytes of s_a. (R195) -/
  | bswap (o : SR)
  /-- EXTS: Extracts a bit field with sign extension. (R196) -/
  | exts (o : SI)
  /-- EXTZ: Extracts a bit field with zero extension. (R196) -/
  | extz (o : SI)
  /-- INS: Inserts the low bits of s_a into a field of s_d. (R196) -/
  | ins (o : SI)
  /-- CMP: Compares two scalars and pushes a predicate entry. (R199) -/
  | cmp (o : SB)
  /-- CMPI: Compares a scalar with an immediate and pushes a predicate entry. (R199) -/
  | cmpi (o : SI)
  /-- PELSE: Replaces the top predicate entry with its complement under its parent. (R202) -/
  | pelse (o : SR)
  /-- PRD: Reads the predicate stack's scalar bits, depth and live-mask bits. (R203) -/
  | prd (o : SR)
  /-- PWR: Rebuilds the predicate stack from scalar bits and a depth. (R203) -/
  | pwr (o : SR)
  /-- BR: Branches relatively when two scalars meet the condition. (R205) -/
  | br (o : SB)
  /-- BRI: Branches relatively when a scalar meets the condition against an 8-bit immediate. (R205) -/
  | bri (o : SB)
  /-- JMP: Jumps relatively, always. (R205) -/
  | jmp (o : SB)
  /-- CALL: Writes the return position into s31 and jumps relatively. (R205) -/
  | call (o : SB)
  /-- RET: Jumps to the position in s_a, s31 by default. (R207) -/
  | ret (o : SR)
  /-- JR: Jumps to the position in s_a. (R207) -/
  | jr (o : SR)
  /-- CALLR: Writes the link register and jumps to the position in s_a. (R207) -/
  | callr (o : SR)
  /-- DBNZ: Decrements s_a and branches when the result is nonzero. (R206) -/
  | dbnz (o : SB)
  /-- WFE: Consumes a set event latch, or suspends the task in WAITEV. (R211) -/
  | wfe (o : SR)
  /-- SEV: Sets the event latch of one gang task and wakes it if it waits. (R210) -/
  | sev (o : SR)
  /-- SEV_ALL: Sets the event latch of every other task of the gang. (R210) -/
  | sevAll (o : SR)
  /-- YIELD: Suspends the task as READY and leaves its footprint in place. (R212) -/
  | yield (o : SR)
  /-- SUSP: Suspends the task, writes its footprint to the spill area and frees the core. (R212) -/
  | susp (o : SR)
  /-- EXIT: Checks the result queues, lets results and engines finish, publishes at DEVICE scope and ends the task. (R214) -/
  | exit (o : SR)
  /-- TRAP: Lets its bundle issue and then enters the trap path with TRAPI. (R221) -/
  | trap (o : SI)
  /-- TRAPF: Waits for pending flag setters, then raises CLIPT or ARITH for enabled sticky flags. (R222) -/
  | trapf (o : SR)
  /-- TRET: Restores the state saved at handler entry, resumes frozen results and returns to TPC. (R223) -/
  | tret (o : SR)
  /-- RDSR: Reads a task special register into a scalar or address register. (R218) -/
  | rdsr (o : SS)
  /-- WRSR: Writes a task special register. (R218) -/
  | wrsr (o : SS)
  /-- TIDX: Computes one coordinate of a linear index under a shape entry. (R217) -/
  | tidx (o : SR)
  /-- MRET: Restores the frozen task and resumes it at MTPC. (R373) -/
  | mret (o : SR)
  /-- MRET_REQUEUE: Writes a SAVED continuation record for the checkpointed task and idles the core. (R373) -/
  | mretRequeue (o : SR)
  /-- MRET_END: Ends the frozen task and fails its launch, or ends monitor duty. (R373) -/
  | mretEnd (o : SR)
  /-- PRDSR: Reads a privileged special register or the frozen task's register. (R372) -/
  | prdsr (o : SS)
  /-- PWRSR: Writes a privileged special register or the frozen task's register. (R372) -/
  | pwrsr (o : SS)
  /-- XLINV_PAGE: Drops cached translations for one page and completes unmapping under R422. (R373) -/
  | xlinvPage (o : SR)
  /-- XLINV_CTX: Drops cached translations for the frozen task's context. (R373) -/
  | xlinvCtx (o : SR)
  /-- XLINV_PART: Drops cached translations for every context of the partition. (R373) -/
  | xlinvPart (o : SR)
  /-- CTXSV: Writes the frozen task's full state to its context save area. (R373) -/
  | ctxsv (o : SR)
  /-- CTXLD: Reloads the frozen task's state and banks from the save area. (R373) -/
  | ctxld (o : SR)
  /-- CORESTOP: Stops the core and removes it from dispatch. (R373) -/
  | corestop (o : SR)
  /-- JRNL: Appends a durable 16-byte record to the dome's journal and returns its sequence number. (R373) -/
  | jrnl (o : SR)
  /-- KICKSCAN: Finds and clears the next pending-kick bit of a partition. (R373) -/
  | kickscan (o : SR)
  /-- CMPLHOLD_HOLD: Makes dispatch keep completion signals in arrival order. (R373) -/
  | cmplholdHold (o : SR)
  /-- CMPLHOLD_RELEASE: Fires the held completion signals in arrival order and ends the hold. (R409) -/
  | cmplholdRelease (o : SR)
  /-- AADD: Adds a sign-extended scalar to an address register. (R197) -/
  | aadd (o : AForm)
  /-- AADDI: Adds a 24-bit immediate to an address register. (R197) -/
  | aaddi (o : AForm)
  /-- AMOV: Copies an address register. (R197) -/
  | amov (o : AForm)
  /-- ASET: Builds an 80-bit address from a scalar and 16 high bits. (R197) -/
  | aset (o : AForm)
  /-- AGET: Reads the low 64 bits or the high 16 bits of an address register. (R197) -/
  | aget (o : AForm)
  /-- ACMP: Compares two address registers and pushes a predicate entry. (R198) -/
  | acmp (o : AForm)
  /-- ASCL: Adds a scalar scaled by 2^k to an address register. (R197) -/
  | ascl (o : AForm)
  /-- LD: Starts a scalar load of 1 to 8 bytes. (R307) -/
  | ld (o : AForm)
  /-- LDC: Starts a load-consume at a scope, which taints its destination. (R126) -/
  | ldc (o : AForm)
  /-- ST: Stores the low bytes of a scalar register. (R307) -/
  | st (o : AForm)
  /-- VLD: Loads 1 to 16 rows or a whole tile into a vector register. (R308) -/
  | vld (o : AForm)
  /-- VST: Stores rows or a tile of a vector register, with an optional bound check. (R308) -/
  | vst (o : AForm)
  /-- VST_QUEUE: Pops a value quarter of a result-queue entry and stores it. (R308) -/
  | vstQueue (o : AForm)
  /-- VLDS: Loads rows at a scalar stride. (R307) -/
  | vlds (o : AForm)
  /-- VGATH: Gathers one element per active lane. (R309) -/
  | vgath (o : AForm)
  /-- VSCAT: Scatters one element per active lane. (R309) -/
  | vscat (o : AForm)
  /-- LSLD: Loads each lane from its own lane-private slice. (R310) -/
  | lsld (o : AForm)
  /-- LSST: Stores each lane into its own lane-private slice. (R310) -/
  | lsst (o : AForm)
  /-- PREF: Brings a line into the L1. (R311) -/
  | pref (o : AForm)
  /-- WBL: Writes back a dirty line to the level of its scope. (R311) -/
  | wbl (o : AForm)
  /-- INVL: Writes back and invalidates a line. (R311) -/
  | invl (o : AForm)
  /-- LPIN: Increments the pin count of a page. (R312) -/
  | lpin (o : AForm)
  /-- LPIN_LINE: Holds a line in its home L2. (R312) -/
  | lpinLine (o : AForm)
  /-- LUNPIN: Decrements a page's pin count and retries a deferred migration at zero. (R312) -/
  | lunpin (o : AForm)
  /-- LUNPIN_LINE: Releases a line pin. (R312) -/
  | lunpinLine (o : AForm)
  /-- AMO: Performs an atomic read-modify-write and returns the old value. (R313) -/
  | amo (o : AForm)
  /-- AMOS: Performs an atomic read-modify-write with no return. (R313) -/
  | amos (o : AForm)
  /-- CAS: Compares and swaps atomically, returning the old value. (R313) -/
  | cas (o : AForm)
  /-- VADD: Adds per lane. (R231) -/
  | vadd (o : VForm)
  /-- VSUB: Subtracts per lane. (R231) -/
  | vsub (o : VForm)
  /-- VMUL: Multiplies per lane. (R231) -/
  | vmul (o : VForm)
  /-- VFMA: Performs a fused multiply-add per lane. (R231) -/
  | vfma (o : VForm)
  /-- VFMS: Performs a fused multiply-subtract per lane. (R231) -/
  | vfms (o : VForm)
  /-- VFNMA: Writes c minus a times b per lane. (R231) -/
  | vfnma (o : VForm)
  /-- VMIN: Writes the per-lane minimum. (R232) -/
  | vmin (o : VForm)
  /-- VMAX: Writes the per-lane maximum. (R232) -/
  | vmax (o : VForm)
  /-- VABS: Writes the per-lane absolute value. (R231) -/
  | vabs (o : VForm)
  /-- VNEG: Negates per lane. (R231) -/
  | vneg (o : VForm)
  /-- VAND: ANDs per lane. (R231) -/
  | vand (o : VForm)
  /-- VOR: ORs per lane. (R231) -/
  | vor (o : VForm)
  /-- VXOR: XORs per lane. (R231) -/
  | vxor (o : VForm)
  /-- VNOT: Inverts per lane. (R231) -/
  | vnot (o : VForm)
  /-- VSHL: Shifts left per lane. (R231) -/
  | vshl (o : VForm)
  /-- VSHR: Shifts right logically per lane. (R231) -/
  | vshr (o : VForm)
  /-- VSRA: Shifts right arithmetically per lane. (R231) -/
  | vsra (o : VForm)
  /-- VMULH: Writes the high 32 bits of the per-lane product. (R231) -/
  | vmulh (o : VForm)
  /-- VADDS: Adds per lane with saturation. (R231) -/
  | vadds (o : VForm)
  /-- VSUBS: Subtracts per lane with saturation. (R231) -/
  | vsubs (o : VForm)
  /-- VRCP: Writes the correctly rounded reciprocal. (R233) -/
  | vrcp (o : VForm)
  /-- VRSQ: Writes the correctly rounded reciprocal square root. (R233) -/
  | vrsq (o : VForm)
  /-- VSQRT: Writes the correctly rounded square root. (R233) -/
  | vsqrt (o : VForm)
  /-- VDIV: Writes the correctly rounded quotient. (R233) -/
  | vdiv (o : VForm)
  /-- VEXP2: Writes 2 to the power a. (R233) -/
  | vexp2 (o : VForm)
  /-- VLOG2: Writes the base-2 logarithm. (R233) -/
  | vlog2 (o : VForm)
  /-- VTANH: Writes tanh a. (R233) -/
  | vtanh (o : VForm)
  /-- VSIGM: Writes the logistic sigmoid. (R233) -/
  | vsigm (o : VForm)
  /-- VSINP: Writes sin of pi times a. (R233) -/
  | vsinp (o : VForm)
  /-- VERF: Writes erf a. (R233) -/
  | verf (o : VForm)
  /-- VCMP: Compares per lane and pushes a mask entry. (R235) -/
  | vcmp (o : VForm)
  /-- VCLS: Tests float classes per lane and pushes a mask entry. (R236) -/
  | vcls (o : VForm)
  /-- VSEL: Selects per lane by the top mask. (R237) -/
  | vsel (o : VForm)
  /-- VMTOV: Moves the top mask into a vector register. (R238) -/
  | vmtov (o : VForm)
  /-- VVTOM: Pushes a mask entry taken from a vector register. (R238) -/
  | vvtom (o : VForm)
  /-- VMCNT: Counts the set mask bits or finds the first one. (R239) -/
  | vmcnt (o : VForm)
  /-- VMOV: Copies a vector register. (R240) -/
  | vmov (o : VForm)
  /-- VSPLAT: Broadcasts a scalar or immediate to every lane. (R240) -/
  | vsplat (o : VForm)
  /-- VIOTA: Writes an arithmetic sequence by lane, column or row. (R240) -/
  | viota (o : VForm)
  /-- VBCR: Broadcasts one column along each row. (R241) -/
  | vbcr (o : VForm)
  /-- VBCC: Broadcasts one row down each column. (R241) -/
  | vbcc (o : VForm)
  /-- VROTR: Rotates along the row axis. (R241) -/
  | vrotr (o : VForm)
  /-- VROTC: Rotates along the column axis. (R241) -/
  | vrotc (o : VForm)
  /-- VPERMR: Permutes within each row by index. (R242) -/
  | vpermr (o : VForm)
  /-- VEXT: Reads one lane into a scalar register. (R243) -/
  | vext (o : VForm)
  /-- VINS: Writes a scalar into one lane. (R243) -/
  | vins (o : VForm)
  /-- VTRN: Transposes each 16 by 16 block. (R244) -/
  | vtrn (o : VForm)
  /-- VREDR: Reduces each row by a fixed tree. (R246) -/
  | vredr (o : VForm)
  /-- VREDC: Reduces each column by a fixed tree. (R246) -/
  | vredc (o : VForm)
  /-- VSCANR: Scans each row, inclusively or exclusively. (R247) -/
  | vscanr (o : VForm)
  /-- VCVT: Converts each lane between element formats. (R248) -/
  | vcvt (o : VForm)
  /-- VQNT: Quantises each row into FP4, FP6, FP8 or PSB blocks. (R251) -/
  | vqnt (o : VForm)
  /-- VDQT: Dequantises blocks into FP32 lanes. (R252) -/
  | vdqt (o : VForm)
  /-- VSCL: Scales each lane by a power of two. (R249) -/
  | vscl (o : VForm)
  /-- VPACK: Packs lane-form elements into a packed run. (R250) -/
  | vpack (o : VForm)
  /-- VUNPK: Unpacks a packed run into lane form. (R250) -/
  | vunpk (o : VForm)
  /-- VSPUSH: Appends the records of active lanes to the stream buffer. (R257) -/
  | vspush (o : VForm)
  /-- VSPOP: Refills a register from the stream sub-queues and pushes a filled-lane mask. (R258) -/
  | vspop (o : VForm)
  /-- VSBAL: Rebalances the records across the four sub-queues. (R259) -/
  | vsbal (o : VForm)
  /-- VTIDX: Computes a tensor coordinate per lane. (R255) -/
  | vtidx (o : VForm)
  /-- VBCHK: Applies a bound check on demand. (R254) -/
  | vbchk (o : VForm)
  /-- VCLMP: Clamps each lane between two bounds. (R254) -/
  | vclmp (o : VForm)
  /-- VQPOP: Pops the next value quarter of a result-queue head entry. (R260) -/
  | vqpop (o : VForm)
  /-- VQPOP_SIDE: Reads a sidecar quarter of the head entry without popping. (R260) -/
  | vqpopSide (o : VForm)
  /-- VQPOP_INFO: Reads the head entry's OVC and tile without popping. (R260) -/
  | vqpopInfo (o : VForm)
  /-- MPUSH: Latches the next activation row and sets the plane and row pointers. (R277) -/
  | mpush (o : MForm)
  /-- MBEAT: Applies one activation plane to the live bank and accumulates into the named tiles. (R278) -/
  | mbeat (o : MForm)
  /-- MSHIFT: Advances the plane pointer, skipping planes. (R280) -/
  | mshift (o : MForm)
  /-- MDRAIN: Optionally checksums a tile and drains it to a result queue. (R288) -/
  | mdrain (o : MForm)
  /-- MZERO: Resets a tile, keeping its epoch. (R283) -/
  | mzero (o : MForm)
  /-- MSWAP: Exchanges the live and shadow banks once the shadow WLOAD is done. (R295) -/
  | mswap (o : MForm)
  /-- MEPOCH: Records a tile's epoch with the whole feeder state. (R285) -/
  | mepoch (o : MForm)
  /-- MRETRY: Restores a tile and the feeder from the epoch and sets a split override. (R286) -/
  | mretry (o : MForm)
  /-- MCKLOC: Locates the pending checksum fault into CKLOC. (R292) -/
  | mckloc (o : MForm)
  /-- MCKFIX: Corrects a single-element fault and drains the tile, or sets RETRY. (R293) -/
  | mckfix (o : MForm)
  /-- MCAL: Starts recalibration of the named arrays. (R296) -/
  | mcal (o : MForm)
  /-- MFBK: Places arrays in fully digital fallback. (R296) -/
  | mfbk (o : MForm)
  /-- MCTX_SAVE: Saves the matrix context to the handler region and enables the M slot. (R298) -/
  | mctxSave (o : MForm)
  /-- MCTX_RESTORE: Reloads the saved matrix context. (R298) -/
  | mctxRestore (o : MForm)
  /-- MCTX_KEEP: Discards the saved matrix context and keeps the current one. (R298) -/
  | mctxKeep (o : MForm)
  /-- MINJ_ACC: Inverts one bit of an accumulator element. (R297) -/
  | minjAcc (o : MForm)
  /-- MINJ_CKS: Inverts one bit of a checksum entry. (R297) -/
  | minjCks (o : MForm)
  /-- MINJ_PAR: Arms a digital-path parity error on arrays. (R297) -/
  | minjPar (o : MForm)
  /-- FMTW: Writes FMT, taking effect five bundles later. (R300) -/
  | fmtw (o : XForm)
  /-- FMTR: Reads the FMT in effect. (R300) -/
  | fmtr (o : XForm)
  /-- FMTR_PEND: Reads the value of the latest FMTW. (R300) -/
  | fmtrPend (o : XForm)
  /-- BNDW: Writes a bound register. (R301) -/
  | bndw (o : XForm)
  /-- BNDR: Reads a bound register's bounds. (R301) -/
  | bndr (o : XForm)
  /-- BNDR_FA: Reads a bound register's format and action. (R301) -/
  | bndrFa (o : XForm)
  /-- SHPW: Writes one size of a shape entry and computes its multiplier. (R303) -/
  | shpw (o : XForm)
  /-- FEEDCFG: Reads a feeder descriptor, resets the feeder and starts the reads of rows 0–2. (R276) -/
  | feedcfg (o : XForm)
  /-- RBCFG: Sets the random-bit generator's key and counter and empties the queue. (R355) -/
  | rbcfg (o : XForm)
  /-- RBPOP: Pops a random word into a scalar register. (R355) -/
  | rbpop (o : XForm)
  /-- CKTOL: Writes a checksum tolerance entry. (R304) -/
  | cktol (o : XForm)
  /-- CKTOL_RD: Reads a checksum tolerance entry. (R304) -/
  | cktolRd (o : XForm)
  /-- LNEST: Reads and configures a loop-nest descriptor. (R317) -/
  | lnest (o : XForm)
  /-- LBODY: Captures a loop body and runs the replay. (R318) -/
  | lbody (o : XForm)
  /-- LBRK: Ends a replay after the current iteration. (R320) -/
  | lbrk (o : XForm)
  /-- LBRK_DRAIN: Ends a replay after the started iterations drain. (R320) -/
  | lbrkDrain (o : XForm)
  /-- LSTAT: Reads the replay iteration, an index or the rotating base. (R320) -/
  | lstat (o : XForm)
  /-- CPY: Starts a multi-dimensional copy on an engine. (R326) -/
  | cpy (o : XForm)
  /-- CPYX: Starts a converting copy. (R327) -/
  | cpyx (o : XForm)
  /-- WLOAD: Starts loading a weight image into the shadow bank after checking its source. (R331) -/
  | wload (o : XForm)
  /-- SCWAIT: Waits until a scoreboard counter is at most n, then acquires. (R333) -/
  | scwait (o : XForm)
  /-- SCRD: Reads a scoreboard counter. (R333) -/
  | scrd (o : XForm)
  /-- ENQ: Appends an item to a hardware queue or hands it to the oldest waiter. (R335) -/
  | enq (o : XForm)
  /-- DEQ: Removes the head item and acquires, or suspends on an empty queue. (R336) -/
  | deq (o : XForm)
  /-- DEQT: Removes the head item within a bounded wait. (R336) -/
  | deqt (o : XForm)
  /-- QSTAT: Reads a queue's item count and capacity. (R337) -/
  | qstat (o : XForm)
  /-- SPAWN: Creates a new task of the launch at a position. (R338) -/
  | spawn (o : XForm)
  /-- PHASE: Releases and then acquires at a scope. (R340) -/
  | phase (o : XForm)
  /-- BARR: Releases and counts an arrival at a barrier. (R341) -/
  | barr (o : XForm)
  /-- BARW: Waits for the barrier generation, then acquires. (R341) -/
  | barw (o : XForm)
  /-- BARQ: Tests barrier completion without waiting. (R341) -/
  | barq (o : XForm)
  /-- TRIG: Releases and ends the task's trigger obligation. (R340) -/
  | trig (o : XForm)
  /-- COLL: Joins a collective operation. (R342) -/
  | coll (o : XForm)
  /-- FPUT: Starts a copy into another device's memory. (R330) -/
  | fput (o : XForm)
  /-- FGET: Starts a copy from another device's memory. (R330) -/
  | fget (o : XForm)
  /-- CMBOPEN: Opens a combine slot, waiting for a free one. (R346) -/
  | cmbopen (o : XForm)
  /-- CMBOPEN_TRY: Opens a combine slot, or returns 2^63 at once. (R346) -/
  | cmbopenTry (o : XForm)
  /-- CMBPUT: Sends an expert's row to a combine slot. (R347) -/
  | cmbput (o : XForm)
  /-- CMBPOLL: Reads a slot's bitmap, state and the discard count. (R350) -/
  | cmbpoll (o : XForm)
  /-- CMBCLOSE: Applies the deadline step to an open slot at once. (R350) -/
  | cmbclose (o : XForm)
  /-- PHINT: Declares a matrix burst. (R352) -/
  | phint (o : XForm)
  /-- PHCLR: Ends the burst declaration. (R352) -/
  | phclr (o : XForm)
  /-- PCSET: Claims and validates a launch record into a scheduler entry. (R399) -/
  | pcset (o : XForm)
  /-- PCDEC: Decrements a launch's predecessor counter. (R399) -/
  | pcdec (o : XForm)
  /-- PCDEC_FAIL: Marks a launch failed. (R399) -/
  | pcdecFail (o : XForm)
  /-- DISP: Submits the head of the ready queue. (R400) -/
  | disp (o : XForm)
  /-- PREEMPT: Pre-empts every resident task of a launch under a policy. (R401) -/
  | preempt (o : XForm)
  /-- QCFGP: Configures a hardware queue. (R402) -/
  | qcfgp (o : XForm)
  /-- QCFGP_OFF: Removes a hardware queue's configuration. (R402) -/
  | qcfgpOff (o : XForm)
  /-- MIGRATE: Requests migration of a page. (R403) -/
  | migrate (o : XForm)
  /-- SCRUBCFG: Sets a tier's patrol-scrub period. (R403) -/
  | scrubcfg (o : XForm)
  /-- OBSLOG: Appends a software event to the Observing Log. (R403) -/
  | obslog (o : XForm)
  /-- HEALTHW: Posts an Almanac item value to the custodian. (R403) -/
  | healthw (o : XForm)
  /-- ALL_ZERO_BUNDLE: A bundle that holds no slot operation, such as dictionary entry 0 or a replay filler, issues; its header st, pop, seg and rdv act, and it counts toward FMTW effect points. (R146) -/
  | allZeroBundle (h : Header)
  /-- DIVISION_COMPLETE: The divider finishes after 8 to 40 cycles, writes the interlocked result and ORs DZ or OF into STICKY. (R193) -/
  | divisionComplete
  /-- QHB_WRITE: A write to QHB marks a queue-processor heartbeat. (R395) -/
  | qhbWrite
  /-- LOAD_RETURN: A load's data arrives and is written into its interlocked destination. (R154) -/
  | loadReturn
  /-- K_STORE_LAND: A K- or D-space store lands in its target scratchpad. (R120) -/
  | kStoreLand
  /-- FORWARD_EXPIRE: A footprint's forwarding entry ends after 65,536 cycles. (R40) -/
  | forwardExpire
  /-- ATOMIC_PERFORMED: An atomic is performed at its coherence point and its result returns. (R136) -/
  | atomicPerformed
  /-- TRANSLATION_WALK: A page-table walk completes, fills the caches and sets A or D. (R414) -/
  | translationWalk
  /-- FIXED_RESULT_WRITEBACK: A fixed-latency result lands in its register when its latency elapses in τ. (R153) -/
  | fixedResultWriteback
  /-- BEAT_LAND: A beat lands in its tile 8 cycles of τ after issue and sets its flags. (R279) -/
  | beatLand
  /-- DRAIN_ENTER_QUEUE: A drained entry enters its result queue 16 cycles of τ after issue. (R287) -/
  | drainEnterQueue
  /-- MCAL_COMPLETE: Calibration ends after 4,096 cycles, the arrays free and their age restarts. (R98) -/
  | mcalComplete
  /-- MONITOR_CALIBRATION: The monitor calibrates idle cores' arrays on the CALPER period. (R98) -/
  | monitorCalibration
  /-- FMT_TAKE_EFFECT: A pending FMTW becomes the value in effect at bundle n + 5. (R84) -/
  | fmtTakeEffect
  /-- FEEDER_ROW_ARRIVE: A prefetched activation row arrives in the feeder. (R273) -/
  | feederRowArrive
  /-- RB_GENERATE: The generator appends one word per cycle while the queue holds fewer than 16. (R354) -/
  | rbGenerate
  /-- COPY_COMPLETE: A copy publishes its bytes, writes its token and decrements its counter. (R328) -/
  | copyComplete
  /-- WLOAD_COMPLETE: A WLOAD writes its token with success or rejection status and records the bank's image. (R331) -/
  | wloadComplete
  /-- DEQT_TIMEOUT: A DEQT's wait of n cycles expires and it writes 0 into both registers. (R336) -/
  | deqtTimeout
  /-- COLL_COMPLETE: The collective writes every receive buffer and then every participant's token. (R344) -/
  | collComplete
  /-- FABRIC_COPY_COMPLETE: An FPUT or FGET writes its token. (R334) -/
  | fabricCopyComplete
  /-- CMBPUT_ARRIVAL: A put arrives, is stored or discarded, and writes its token. (R347) -/
  | cmbputArrival
  /-- CMB_DEADLINE: A slot's deadline expires and it completes under its policy. (R348) -/
  | cmbDeadline
  /-- CMB_RELEASE_ENQUEUE: A held release record is enqueued when its order and queue room allow, freeing the slot. (R349) -/
  | cmbReleaseEnqueue
  /-- BURST_WINDOW_END: A 256-cycle window ends and BURSTCNT counts an overrun. (R353) -/
  | burstWindowEnd
  /-- POWER_WINDOW_END: A 1 ms power window ends and the factor f moves. (R462) -/
  | powerWindowEnd
  /-- GANG_START: The dispatcher places a ready gang on free cores and binds its barriers. (R44) -/
  | gangStart
  /-- SPAWNED_TASK_START: A spawned task is placed on a core and starts at its target. (R49) -/
  | spawnedTaskStart
  /-- COLD_START_RELEASE: A delayed cold gang start is released 1,200 cycles after the previous one. (R407) -/
  | coldStartRelease
  /-- TASK_RESUME: The dispatcher resumes a ready task, restores its state and re-raises a pending TILECK. (R37) -/
  | taskResume
  /-- FOOTPRINT_MOVE: The footprint streamer finishes copying a footprint and the gang map changes. (R37) -/
  | footprintMove
  /-- GANG_WAIT_PREEMPT: A barrier wait of 65,536 cycles with a member lacking a core checkpoints the waiter. (R45) -/
  | gangWaitPreempt
  /-- CHECKPOINT_PREEMPT: Saves a running task's whole state and frees its core. (R382) -/
  | checkpointPreempt
  /-- KILL_PREEMPT: Stops an idempotent task, publishes its stores and restarts it later. (R382) -/
  | killPreempt
  /-- DRAIN_PREEMPT: Lets the task run on while the core takes no new work. (R382) -/
  | drainPreempt
  /-- DRAIN_WINDOW_EXPIRE: A drained task that has not ended within the drain window is checkpointed. (R382) -/
  | drainWindowExpire
  /-- PREEMPTION_WAIT_EXPIRE: A ready gang that waits the pre-emption wait gets room by pre-empting lower classes. (R406) -/
  | preemptionWaitExpire
  /-- AGING_LIMIT_EXPIRE: Work whose age passes the aging limit reserves a cluster. (R53) -/
  | agingLimitExpire
  /-- DOORBELL: A host doorbell write sets a pending-kick bit. (R386) -/
  | doorbell
  /-- HEARTBEAT_EXPIRE: No QHB write for 3 × 2^20 cycles starts takeover. (R408) -/
  | heartbeatExpire
  /-- STANDBY_RECOVERY: The failed queue processor reloads, tests itself and becomes the standby. (R408) -/
  | standbyRecovery
  /-- MIGRATE_PAGE: The migration engine moves a page between tiers and swaps its leaf by CAS. (R424) -/
  | migratePage
  /-- DWIN_BIND: Binds a dome-scratchpad window to a G-space range. (R428) -/
  | dwinBind
  /-- DWIN_REVOKE: Writes a window back and ends its binding. (R428) -/
  | dwinRevoke
  /-- PATROL_SCRUB: The scrubber reads a line, corrects or poisons it and checks page integrity tags. (R440) -/
  | patrolScrub
  /-- LANE_REPAIR: A bus lane with 16 parity errors is remapped to a spare. (R432) -/
  | laneRepair
  /-- SENSOR_READ: A column temperature sensor is read, with failure, stuck, throttle and trip handling. (R459) -/
  | sensorRead
  /-- ALMANAC_SNAPSHOT: The custodian rebuilds the Almanac from a snapshot. (R444) -/
  | almanacSnapshot
  /-- HOST_BAR4_READ: A host reads device memory through the BAR4 window. (R451) -/
  | hostBar4Read
  /-- HOST_BAR4_WRITE: A host writes device memory through the BAR4 window, if the unit is assigned. (R451) -/
  | hostBar4Write
  /-- HOST_REGISTER_WRITE: A host writes a BAR0 register with no row of its own, or an unlisted offset. (R449) -/
  | hostRegisterWrite
  /-- PART_CREATE: Creates a partition in state DRAINED. (R454) -/
  | partCreate
  /-- PART_STATE_ONLINE: Moves a partition to ONLINE. (R446) -/
  | partStateOnline
  /-- PART_STATE_DRAIN: Moves an ONLINE partition to DRAINING. (R446) -/
  | partStateDrain
  /-- PART_STATE_FENCE: Fences a partition and stops its tasks. (R446) -/
  | partStateFence
  /-- PART_STATE_RESET: Moves a fenced partition to DRAINED. (R446) -/
  | partStateReset
  /-- PART_DESTROY: Destroys a drained partition. (R454) -/
  | partDestroy
  /-- CTX_SET: Writes a translation context entry. (R454) -/
  | ctxSet
  /-- PART_CTX: Sets a partition's current context. (R454) -/
  | partCtx
  /-- DISP_PARAM: Sets a partition's dispatch parameters. (R454) -/
  | dispParam
  /-- CMB_CFG: Sets a combine configuration. (R454) -/
  | cmbCfg
  /-- KEY_LOAD: Loads an encryption key id. (R454) -/
  | keyLoad
  /-- COLL_GROUP: Configures a collective group. (R454) -/
  | collGroup
  /-- NODE_SET: Sets the node id and the Verby route table. (R454) -/
  | nodeSet
  /-- MONITOR_LOAD: Measures and installs a partition's core monitor. (R454) -/
  | monitorLoad
  /-- MEM_ASSIGN: Assigns 256 MiB units to a port for BAR4 writes. (R454) -/
  | memAssign
  /-- LOG_READ: Copies Observing Log entries to host memory. (R439) -/
  | logRead
  /-- ATTEST: Returns a signed attestation report. (R464) -/
  | attest
  /-- POWER_LIMIT: Sets the package power limit. (R462) -/
  | powerLimit
  /-- GRADE_CLEAR: Clears a partition's worst grade. (R454) -/
  | gradeClear
  /-- PORT_LINK_LOSS: A hot reset or link loss fences the port's partitions. (R452) -/
  | portLinkLoss
  /-- VERBY_LINK_DOWN: A fabric port fails its link and routes move to other ports. (R455) -/
  | verbyLinkDown
  /-- DEVICE_RESET: Power-on or reset runs bring-up and ends every task and partition. (R465) -/
  | deviceReset
  /-- QUEUE_RESULT_RETURN: The interlocked status of an ENQ, or the item of a DEQ or DEQT that found one, arrives in its destination register some cycles after issue. (R335) -/
  | queueResultReturn
  /-- FABRIC_INGRESS: An FPUT write or an FGET read request arriving on a Verby port from another device is performed in this device's memory, in the job's context there. (R134) -/
  | fabricIngress
  deriving DecidableEq, Repr

end Sys2Proof
end

