-- ==== Sys2Proof/Decode.lean ====
section
/-! DEFINITION. Bundles and encodings (R140 to R147, R160 to R170): the forms as numbers, the opcode
maps, the checks of R143, the encoder and the decoder. -/

namespace Sys2Proof

/-- The six slots, and the header, as TCAUSE.SLOT codes them (R188). -/
inductive Slot where
  | s | a | v0 | v1 | m | x | header | none
  deriving DecidableEq, Repr

/-- The code of a slot in TCAUSE.SLOT (R188). -/
def Slot.code : Slot → Nat
  | .s => 0 | .a => 1 | .v0 => 2 | .v1 => 3 | .m => 4 | .x => 5 | .header => 6 | .none => 7

/-- Bits [lo + n - 1 : lo] of `w`. -/
def fieldOf (w lo n : Nat) : BitVec n := BitVec.ofNat n (w / 2 ^ lo)

/-- Bit `k` of `w`. -/
def bitOf (w k : Nat) : Bool := w / 2 ^ k % 2 == 1

/-- The SR form at its bit places, with opcode `op` (R160). -/
def SR.toNat (o : SR) (op : Nat) : Nat :=
  op + o.d.toNat * 2 ^ 8 + o.a.toNat * 2 ^ 13 + o.b.toNat * 2 ^ 18 + o.fn.toNat * 2 ^ 23 + o.g.toNat * 2 ^ 63

/-- The SR form read from its bit places (R160). -/
def SR.ofNat (w : Nat) : SR :=
  { g := bitOf w 63, fn := fieldOf w 23 9, b := fieldOf w 18 5, a := fieldOf w 13 5, d := fieldOf w 8 5 }

/-- The SI form at its bit places (R160). -/
def SI.toNat (o : SI) (op : Nat) : Nat :=
  op + o.d.toNat * 2 ^ 8 + o.a.toNat * 2 ^ 13 + o.imm.toNat * 2 ^ 18 + o.fn.toNat * 2 ^ 50 + o.g.toNat * 2 ^ 63

/-- The SI form read from its bit places (R160). -/
def SI.ofNat (w : Nat) : SI :=
  { g := bitOf w 63, fn := fieldOf w 50 9, imm := fieldOf w 18 32, a := fieldOf w 13 5, d := fieldOf w 8 5 }

/-- The SB form at its bit places (R160). -/
def SB.toNat (o : SB) (op : Nat) : Nat :=
  op + o.cc.toNat * 2 ^ 8 + o.a.toNat * 2 ^ 12 + o.b.toNat * 2 ^ 17 + o.off.toNat * 2 ^ 22
    + o.imm8.toNat * 2 ^ 54 + o.g.toNat * 2 ^ 63

/-- The SB form read from its bit places (R160). -/
def SB.ofNat (w : Nat) : SB :=
  { g := bitOf w 63, imm8 := fieldOf w 54 8, off := fieldOf w 22 32, b := fieldOf w 17 5,
    a := fieldOf w 12 5, cc := fieldOf w 8 4 }

/-- The SS form at its bit places (R160). -/
def SS.toNat (o : SS) (op : Nat) : Nat :=
  op + o.d.toNat * 2 ^ 8 + o.isA.toNat * 2 ^ 13 + o.spr.toNat * 2 ^ 14 + o.sel.toNat * 2 ^ 26 + o.g.toNat * 2 ^ 63

/-- The SS form read from its bit places (R160). -/
def SS.ofNat (w : Nat) : SS :=
  { g := bitOf w 63, sel := fieldOf w 26 2, spr := fieldOf w 14 12, isA := bitOf w 13, d := fieldOf w 8 5 }

/-- The A-slot form at its bit places (R161). -/
def AForm.toNat (o : AForm) (op : Nat) : Nat :=
  op + o.t.toNat * 2 ^ 8 + o.base.toNat * 2 ^ 13 + o.idx.toNat * 2 ^ 17 + o.as.toNat * 2 ^ 22 + o.size.toNat * 2 ^ 25
    + o.scope.toNat * 2 ^ 28 + o.tid.toNat * 2 ^ 31 + o.off.toNat * 2 ^ 35 + o.mod.toNat * 2 ^ 59 + o.g.toNat * 2 ^ 63

/-- The A-slot form read from its bit places (R161). -/
def AForm.ofNat (w : Nat) : AForm :=
  { g := bitOf w 63, mod := fieldOf w 59 4, off := fieldOf w 35 24, tid := fieldOf w 31 4, scope := fieldOf w 28 3,
    size := fieldOf w 25 3, as := fieldOf w 22 3, idx := fieldOf w 17 5, base := fieldOf w 13 4, t := fieldOf w 8 5 }

/-- The V-slot form at its bit places (R163). -/
def VForm.toNat (o : VForm) (op : Nat) : Nat :=
  op + o.d.toNat * 2 ^ 8 + o.a.toNat * 2 ^ 13 + o.b.toNat * 2 ^ 18 + o.c.toNat * 2 ^ 23 + o.ty.toNat * 2 ^ 28
    + o.fn.toNat * 2 ^ 33 + o.rm.toNat * 2 ^ 39 + o.sat.toNat * 2 ^ 42 + o.p.toNat * 2 ^ 43 + o.tid.toNat * 2 ^ 44
    + o.imm8.toNat * 2 ^ 48

/-- The V-slot form read from its bit places (R163). -/
def VForm.ofNat (v1 : Bool) (w : Nat) : VForm :=
  { v1 := v1, imm8 := fieldOf w 48 8, tid := fieldOf w 44 4, p := bitOf w 43, sat := bitOf w 42, rm := fieldOf w 39 3,
    fn := fieldOf w 33 6, ty := fieldOf w 28 5, c := fieldOf w 23 5, b := fieldOf w 18 5, a := fieldOf w 13 5,
    d := fieldOf w 8 5 }

/-- The M-slot form at its bit places (R164). -/
def MForm.toNat (o : MForm) (op : Nat) : Nat :=
  op + o.acc.toNat * 2 ^ 6 + o.bnk.toNat * 2 ^ 8 + o.mac.toNat * 2 ^ 9 + o.plane.toNat * 2 ^ 12 + o.split.toNat * 2 ^ 16
    + o.q.toNat * 2 ^ 20 + o.flags.toNat * 2 ^ 22 + o.row.toNat * 2 ^ 30 + o.imm.toNat * 2 ^ 34

/-- The M-slot form read from its bit places (R164). -/
def MForm.ofNat (w : Nat) : MForm :=
  { imm := fieldOf w 34 12, row := fieldOf w 30 4, flags := fieldOf w 22 8, q := fieldOf w 20 2, split := fieldOf w 16 4,
    plane := fieldOf w 12 4, mac := fieldOf w 9 3, bnk := bitOf w 8, acc := fieldOf w 6 2 }

/-- The X-slot form at its bit places (R165). -/
def XForm.toNat (o : XForm) (op : Nat) : Nat :=
  op + o.d.toNat * 2 ^ 8 + o.a.toNat * 2 ^ 13 + o.b.toNat * 2 ^ 18 + o.base.toNat * 2 ^ 23 + o.scope.toNat * 2 ^ 27
    + o.fn.toNat * 2 ^ 30 + o.imm.toNat * 2 ^ 38 + o.g.toNat * 2 ^ 63

/-- The X-slot form read from its bit places (R165). -/
def XForm.ofNat (w : Nat) : XForm :=
  { g := bitOf w 63, imm := fieldOf w 38 24, fn := fieldOf w 30 8, scope := fieldOf w 27 3, base := fieldOf w 23 4,
    b := fieldOf w 18 5, a := fieldOf w 13 5, d := fieldOf w 8 5 }

/-- The header at its bit places (R141). -/
def Header.toNat (h : Header) : Nat :=
  h.st.toNat + h.pop.toNat * 2 ^ 5 + h.seg.toNat * 2 ^ 7 + h.rdv.toNat * 2 ^ 8 + h.blk.toNat * 2 ^ 9 + h.sig.toNat * 2 ^ 16

/-- The header read from its bit places (R141). -/
def Header.ofNat (w : Nat) : Header :=
  { sig := fieldOf w 16 16, blk := bitOf w 9, rdv := bitOf w 8, seg := bitOf w 7, pop := fieldOf w 5 2, st := fieldOf w 0 5 }

/-- The zero fields of an SR operation: each argument says whether the entry uses the field, `fm` which
bits of fn it uses (R9, R142). -/
def SR.zeros (o : SR) (d a b : Bool) (fm : BitVec 9) (g : Bool) : Bool :=
  (d || o.d == 0) && (a || o.a == 0) && (b || o.b == 0) && (o.fn &&& ~~~fm == 0) && (g || !o.g)

/-- The zero fields of an SI operation; `im` is the mask of the immediate bits in use. -/
def SI.zeros (o : SI) (d a : Bool) (im : BitVec 32) (fm : BitVec 9) (g : Bool) : Bool :=
  (d || o.d == 0) && (a || o.a == 0) && (o.imm &&& ~~~im == 0) && (o.fn &&& ~~~fm == 0) && (g || !o.g)

/-- The zero fields of an SB operation. -/
def SB.zeros (o : SB) (imm8 off b a cc g : Bool) : Bool :=
  (imm8 || o.imm8 == 0) && (off || o.off == 0) && (b || o.b == 0) && (a || o.a == 0) && (cc || o.cc == 0) && (g || !o.g)

/-- The zero fields of an A-slot operation; `mm` and `om` are the masks of mod and off24. -/
def AForm.zeros (o : AForm) (mm : BitVec 4) (om : BitVec 24) (tid scope size as idx base t g : Bool) : Bool :=
  (o.mod &&& ~~~mm == 0) && (o.off &&& ~~~om == 0) && (tid || o.tid == 0) && (scope || o.scope == 0)
    && (size || o.size == 0) && (as || o.as == 0) && (idx || o.idx == 0) && (base || o.base == 0) && (t || o.t == 0) && (g || !o.g)

/-- The zero fields of a V-slot operation (R228). -/
def VForm.zeros (o : VForm) (im : BitVec 8) (fm : BitVec 6) (tid p sat rm ty c b a d : Bool) : Bool :=
  (o.imm8 &&& ~~~im == 0) && (o.fn &&& ~~~fm == 0) && (tid || o.tid == 0) && (p || !o.p) && (sat || !o.sat)
    && (rm || o.rm == 0) && (ty || o.ty == 0) && (c || o.c == 0) && (b || o.b == 0) && (a || o.a == 0) && (d || o.d == 0)

/-- The zero fields of an M-slot operation (R264). -/
def MForm.zeros (o : MForm) (im : BitVec 12) (fm : BitVec 8) (row q split plane mac bnk acc : Bool) : Bool :=
  (o.imm &&& ~~~im == 0) && (o.flags &&& ~~~fm == 0) && (row || o.row == 0) && (q || o.q == 0) && (split || o.split == 0)
    && (plane || o.plane == 0) && (mac || o.mac == 0) && (bnk || !o.bnk) && (acc || o.acc == 0)

/-- The zero fields of an X-slot operation. -/
def XForm.zeros (o : XForm) (im : BitVec 24) (fm : BitVec 8) (scope base b a d g : Bool) : Bool :=
  (o.imm &&& ~~~im == 0) && (o.fn &&& ~~~fm == 0) && (scope || o.scope == 0) && (base || o.base == 0)
    && (b || o.b == 0) && (a || o.a == 0) && (d || o.d == 0) && (g || !o.g)

/-- The operand mode of R229. -/
def VForm.mode (o : VForm) : Nat := o.fn.toNat % 4

/-- True for the integer lane types of R231. -/
def VForm.isInt (o : VForm) : Bool := o.ty == 0x0F || o.ty == 0x10

/-- Zero fields of a binary or ternary element operation under R229: `fm` the fn bits beyond the mode. -/
def VForm.elemZeros (o : VForm) (fm : BitVec 6) (p sat rm c d : Bool) : Bool :=
  o.zeros (if o.mode == 2 then 0xFF else 0) (fm ||| 3) false p sat rm true c (o.mode != 2) true d

/-- Legal lane type and operand mode of an element operation (R229, R231). -/
def VForm.elemLegal (o : VForm) (f32 : Bool) : Bool :=
  ((f32 && o.ty == 0) || o.isInt) && o.mode != 3 && (o.mode != 2 || o.isInt)

/-- Check 4 of R143 for the fields that the form itself holds: a zero field is zero (R9, R142). The
other zero bits of a slot are those that `encodeSlot` does not write. -/
def zerosOk : Instr → Bool
  | .add o | .sub o | .mul o | .mulh o | .mulhu o | .div o | .divu o | .rem o | .remu o | .and o | .or o | .xor o
  | .shl o | .shr o | .sra o | .min o | .max o | .minu o | .maxu o | .slt o | .sltu o => o.zeros true true true 0 true
  | .sel o => o.zeros true true true 0x1F true
  | .clz o | .ctz o | .popc o | .bswap o => o.zeros true true false 0 true
  | .pelse o => o.zeros false false false 0 false
  | .prd o => o.zeros true false false 0 true
  | .pwr o | .ret o | .jr o => o.zeros false true false 0 true
  | .callr o => o.zeros true true false 0 true
  | .wfe o | .yield o | .susp o | .exit o | .trapf o | .tret o => o.zeros false false false 0 true
  | .sev o | .sevAll o => o.zeros false true false 1 true
  | .tidx o => o.zeros true true false 0x7F true
  | .mret o | .mretRequeue o | .mretEnd o => o.zeros false false false 3 false
  | .xlinvPage o => o.zeros false true false 3 false
  | .xlinvCtx o | .xlinvPart o => o.zeros false false false 3 false
  | .ctxsv o | .ctxld o => o.zeros true false false 0 false
  | .corestop o => o.zeros false false false 0 false
  | .jrnl o => o.zeros true true true 0 false
  | .kickscan o => o.zeros true true false 0 false
  | .cmplholdHold o | .cmplholdRelease o => o.zeros false false false 1 false
  | .addi o | .andi o | .ori o | .xori o | .lih o => o.zeros true true (-1) 0 true
  | .shli o | .shri o | .srai o => o.zeros true true 0x3F 0 true
  | .li o => o.zeros true false (-1) 0 true
  | .exts o | .extz o | .ins o => o.zeros true true 0xFFF 0 true
  | .cmpi o => o.zeros false true (-1) 0xF false
  | .trap o => o.zeros false false (-1) 0 true
  | .cmp o => o.zeros false false true true true false
  | .br o => o.zeros false true true true true true
  | .bri o => o.zeros true true false true true true
  | .jmp o | .call o => o.zeros false true false false false true
  | .dbnz o => o.zeros false true false true false true
  | .rdsr _ | .wrsr _ => true
  | .prdsr o | .pwrsr o => !o.g
  | .aadd o => o.zeros 0 0 false false false false true true true true
  | .aaddi o => o.zeros 0 (-1) false false false false false true true true
  | .amov o => o.zeros 0 0 false false false false false true true true
  | .aset o => o.zeros 0 0xFFFF false false false false true false true true
  | .aget o => o.zeros (-1) 0 false false false false false true true true
  | .acmp o => o.zeros (-1) 0 false false false false false true true false
  | .ascl o => o.zeros (-1) 0 false false false false true true true true
  | .ld o | .st o | .lsld o | .lsst o | .vgath o => o.zeros 1 (-1) false false true true true true true true
  | .ldc o => o.zeros 1 (-1) false true true true true true true true
  | .vld o | .vlds o => o.zeros (-1) (-1) false false true true true true true true
  | .vst o => o.zeros (-1) (-1) true false true true true true true true
  | .vstQueue o => o.zeros (-1) (-1) true false true true true true false true
  | .vscat o => o.zeros 1 (-1) true false true true true true true true
  | .pref o | .lpin o | .lpinLine o | .lunpin o | .lunpinLine o => o.zeros 1 (-1) false false false true true true false true
  | .amo o => o.zeros (-1) (-1) false true true true true true true true
  | .amos o => o.zeros (-1) (-1) false true true true true true false true
  | .cas o => o.zeros 0 (-1) false true true true true true true true
  | .wbl o | .invl o => o.zeros 1 (-1) false true false true true true false true
  | .vadd o | .vsub o | .vmul o => o.elemZeros 0 true (o.ty == 0) (o.ty == 0) false true
  | .vfma o | .vfms o | .vfnma o => o.elemZeros 0 true (o.ty == 0) (o.ty == 0) true true
  | .vmin o | .vmax o | .vand o | .vor o | .vxor o | .vshl o | .vshr o | .vsra o | .vmulh o | .vadds o | .vsubs o =>
    o.elemZeros 0 true false false false true
  | .vabs o | .vneg o => o.zeros 0 0 false true o.isInt false true false false true true
  | .vnot o => o.zeros 0 0 false true false false true false false true true
  | .vrcp o | .vrsq o | .vsqrt o | .vexp2 o | .vlog2 o | .vtanh o | .vsigm o | .vsinp o | .verf o =>
    o.zeros 0 0 false true true true true false false true true
  | .vdiv o => o.elemZeros 0 true true true false true
  | .vcmp o => o.elemZeros 0x3C false false false false false
  | .vcls o => o.zeros (-1) 1 false false false false true false false true false
  | .vsel o => o.elemZeros 0 false false false false true
  | .vmtov o | .vmcnt o => o.zeros 0 1 false false false false false false false false true
  | .vvtom o => o.zeros 0 1 false false false false false false false true false
  | .vmov o | .vtrn o => o.zeros 0 0 false true false false false false false true true
  | .vsplat o => if o.fn.getLsbD 0 then o.zeros (-1) 1 false true false false false false false false true
      else o.zeros 0 1 false true false false false false false true true
  | .viota o => o.zeros (-1) 3 false true false false false false false true true
  | .vbcr o => if o.fn.getLsbD 0 then o.zeros 0 1 false true false false false false true true true
      else o.zeros 0x3F 1 false true false false false false false true true
  | .vbcc o => if o.fn.getLsbD 0 then o.zeros 0 1 false true false false false false true true true
      else o.zeros 0xF 1 false true false false false false false true true
  | .vrotr o | .vrotc o => if o.fn.getLsbD 0 then o.zeros 0 1 false true false false false false true true true
      else o.zeros (-1) 1 false true false false false false false true true
  | .vpermr o | .vins o => o.zeros 0 0 false true false false false false true true true
  | .vext o => o.zeros 0 0 false false false false true false true true true
  | .vredr o | .vredc o => o.zeros 0 7 false true (o.isInt && o.fn.toNat % 8 == 0) (o.ty == 0 && o.fn.toNat % 8 == 0) true false false true true
  | .vscanr o => o.zeros 0 0xF false true (o.isInt && o.fn.toNat % 8 == 0) (o.ty == 0 && o.fn.toNat % 8 == 0) true false false true true
  | .vcvt o => o.zeros 0 0x1F true true true true true false false true true
  | .vqnt o => o.zeros 0 0xF true false false true true true false true true
  | .vdqt o => o.zeros 0 0xF true true true true true true false true true
  | .vscl o => o.zeros (if o.mode == 2 then 0xFF else 0) 3 true true true true true false (o.mode != 2) true true
  | .vpack o | .vunpk o => o.zeros 0 0xF false false false false true false false true true
  | .vspush o => o.zeros 0 1 false true false false false false (o.fn.getLsbD 0) true false
  | .vspop o => o.zeros 0 1 false false false false false (o.fn.getLsbD 0) false false true
  | .vsbal o => o.zeros 0 1 false false false false false false false false false
  | .vtidx o => o.zeros 7 0xF false true false false false false false true true
  | .vbchk o => o.zeros 0 0 true true false false true false false true true
  | .vclmp o => o.zeros 0 0 false true false false true true true true true
  | .vqpop o | .vqpopInfo o => o.zeros 0 0xF false true false false false false false false true
  | .vqpopSide o => o.zeros 3 0xF false true false false false false false false true
  | .mpush o => o.zeros 0 0x10 true false false false false false (o.flags.getLsbD 4)
  | .mbeat o => o.zeros 0 0x1B true false true false false false true
  | .mshift o => o.zeros 0 0x10 false false false true false false (o.flags.getLsbD 4)
  | .mdrain o => o.zeros 0x1F 0x04 false true false false false false true
  | .mzero o | .mepoch o | .mretry o => o.zeros 0 0 false false false false false false true
  | .mswap o | .mckloc o | .mckfix o => o.zeros 0 0 false false false false false false false
  | .mcal o | .mfbk o => o.zeros 0 0 false false false false true true false
  | .mctxSave o | .mctxRestore o | .mctxKeep o => o.zeros 3 0 false false false false false false false
  | .minjAcc o => o.zeros 0xFF 0 true false true true false false true
  | .minjCks o => o.zeros 0xFF 0 false false true true true true false
  | .minjPar o => o.zeros 0 0 false false false true true true false
  | .fmtw o | .feedcfg o | .lnest o => o.zeros 0 0 false false false true false true
  | .fmtr o | .fmtrPend o => o.zeros 0 1 false false false false true true
  | .bndw o => o.zeros 0xF 0x7F false false true true false true
  | .bndr o | .bndrFa o => o.zeros 0xF 1 false false false false true true
  | .shpw o => o.zeros 0x7F 7 false false false true false true
  | .rbcfg o => o.zeros 0 0 false false true true false true
  | .rbpop o => o.zeros 0 0 false false false false true true
  | .cktol o => o.zeros 0x3F 1 false false true true false true
  | .cktolRd o => o.zeros 0x3F 1 false false false false true true
  | .lbody o => o.zeros 1 0x1F false false true true false false
  | .lbrk o | .lbrkDrain o => o.zeros 0 1 false false false false false true
  | .lstat o => o.zeros 0 0xF false false false false true true
  | .cpy o | .cpyx o => o.zeros 0 0xF true false false true true true
  | .wload o => o.zeros 0 0xF false true false false true true
  | .coll o | .fput o | .fget o => o.zeros 0 0xF false false false true true true
  | .cmbput o => o.zeros 0 0xF false true true true true true
  | .scwait o => o.zeros 0xFFFF 7 false false false false false true
  | .scrd o => o.zeros 0 7 false false false false true true
  | .enq o => o.zeros (if o.fn.getLsbD 0 then 0 else 0xFF) 1 false false (o.fn.getLsbD 0) true true true
  | .deq o | .qstat o => o.zeros (if o.fn.getLsbD 0 then 0 else 0xFF) 1 false false (o.fn.getLsbD 0) false true true
  | .deqt o => o.zeros (if o.fn.getLsbD 0 then 0xFFFF00 else 0xFFFFFF) 1 false false (o.fn.getLsbD 0) true true true
  | .spawn o => o.zeros 0 0 false false true true true true
  | .phase o | .trig o => o.zeros 0 0 true false false false false true
  | .barr o | .barw o => o.zeros 0x3F 0 true false false false false true
  | .barq o => o.zeros 0x3F 0 true false false false true true
  | .cmbopen o | .cmbopenTry o => o.zeros 0 1 false false false true true true
  | .cmbpoll o | .cmbclose o => o.zeros 0 0 false false false true true true
  | .phint o => o.zeros 0x1F 0 false false true true false true
  | .phclr o => o.zeros 0 0 false false false false false true
  | .pcset o => o.zeros 7 0 false true false false true false
  | .pcdec o | .pcdecFail o => o.zeros 7 1 false false false true true false
  | .disp o => o.zeros 7 0 false false false false true false
  | .preempt o => o.zeros 7 3 false false false true true false
  | .qcfgp o => o.zeros 0x7FF 1 false true false true true false
  | .qcfgpOff o => o.zeros 0x7FF 1 false false false false true false
  | .migrate o => o.zeros 0 3 false true false true true false
  | .scrubcfg o => o.zeros 0 3 false false false true true false
  | .obslog o => o.zeros 0xFFFF 0 false false true true true false
  | .healthw o => o.zeros 0xFFF 0 false false true true true false
  | _ => true

/-- The formats that VCVT and VBCHK accept (R248, R254). -/
def cvtFormat (f : Nat) : Bool := f ≤ 4 || f == 0x0B || f == 0x0C || f == 0x0D || f == 0x0E || f == 0x0F || f == 0x10 || f == 0x11

/-- The formats that BNDW accepts (R301). -/
def boundFormat (f : Nat) : Bool := f ≤ 4 || f == 0x0B || f == 0x0C || f == 0x11 || f == 0x0F || f == 0x10

/-- The formats that VPACK and VUNPK accept (R250). -/
def packFormat (f : Nat) : Bool :=
  f == 1 || f == 2 || f == 0x11 || f == 3 || f == 4 || f == 8 || f == 0x0B || f == 0x0C || f == 7 || f == 0x0D || f == 0x0E

/-- Element bits of a format code (R12). -/
def formatBits (f : Nat) : Nat :=
  match f with
  | 0x00 => 32 | 0x01 => 16 | 0x02 => 16 | 0x03 => 8 | 0x04 => 8 | 0x05 => 6 | 0x06 => 6 | 0x07 => 4
  | 0x08 => 8 | 0x09 => 5 | 0x0A => 3 | 0x0B => 8 | 0x0C => 8 | 0x0D => 4 | 0x0E => 2 | 0x0F => 32 | 0x10 => 32 | _ => 16

/-- The largest part number of VQNT and VDQT for a format, none for a format they do not take (R251). -/
def quantPart (f : Nat) : Option Nat :=
  match f with
  | 0x07 => some 7 | 0x05 => some 4 | 0x06 => some 4 | 0x03 => some 3 | 0x04 => some 3
  | 0x0A => some 9 | 0x09 => some 5 | 0x08 => some 3 | _ => none

/-- Special registers below 0x800: number, readable and writable widths as R172 lists them. The result
is none for an unlisted number, else whether WRSR may write it. -/
def sprWritable (n : Nat) : Option Bool :=
  if n == 0x012 || n == 0x020 || n == 0x021 || n == 0x031 || n == 0x033 then some true
  else if (1 ≤ n && n ≤ 8) || n == 0x010 || n == 0x011 || (0x022 ≤ n && n ≤ 0x024) || n == 0x030 || n == 0x032
      || n == 0x040 || n == 0x041 then some false
  else none

/-- The rule of R172 and R218 for the fields of a special-register access: an a-register number below 16, and
`sel` only for CLIPMASK. Which numbers a unit lets it reach is the meanings' own (R172, R363, R397). -/
def SS.legal (o : SS) : Bool := (!o.isA || o.d.toNat < 16) && (o.sel == 0 || o.spr == 0x021)

/-- Check 5 of R143: every assigned field holds an assigned value, and the variant bits are those of the
constructor. Conditions that read the state are the meanings' own. The ILLOP of a special function in slot V1 (R168) is judged
here, after the zero fields (DESIGN CHOICE, log 113). -/
def legalOk : Instr → Bool
  | .sev o | .cmplholdHold o => !o.fn.getLsbD 0
  | .sevAll o | .cmplholdRelease o => o.fn.getLsbD 0
  | .mret o => o.fn.toNat % 4 == 0
  | .mretRequeue o | .xlinvCtx o => o.fn.toNat % 4 == 1
  | .mretEnd o | .xlinvPart o => o.fn.toNat % 4 == 2
  | .xlinvPage o => o.fn.toNat % 4 == 0 && o.a.toNat < 16
  | .tidx o => o.fn.toNat / 16 % 8 ≤ 4
  | .exts o | .extz o | .ins o => o.imm.toNat % 64 + (o.imm.toNat / 64 % 64 + 1) ≤ 64
  | .cmpi o => o.fn.toNat % 16 < 10
  | .cmp o | .br o | .bri o => o.cc.toNat < 10
  | .dbnz o => o.a != 0
  | .rdsr o | .wrsr o | .prdsr o | .pwrsr o => o.legal
  | .aadd o | .aaddi o | .amov o | .aset o | .ascl o => o.t.toNat < 16
  | .aget o => o.mod.toNat ≤ 1
  | .acmp o => o.t.toNat < 16 && (o.mod == 0 || o.mod == 1 || o.mod == 4 || o.mod == 5 || o.mod == 8 || o.mod == 9)
  | .ld o | .st o => o.as.toNat ≤ 3 && o.size.toNat ≤ 3
  | .ldc o => o.as.toNat ≤ 3 && o.size.toNat ≤ 3 && o.scope.toNat ≤ 5
  | .vld o => o.as.toNat ≤ 3 && (o.size == 4 || (o.size == 5 && o.mod == 15))
  | .vst o => o.as.toNat ≤ 3 && (o.size == 4 || (o.size == 5 && o.mod == 15))
  | .vstQueue o => o.as.toNat ≤ 3 && o.size == 5 && o.mod.toNat < 4
  | .vlds o => o.as.toNat ≤ 3 && o.size == 4
  | .vgath o | .vscat o => o.as.toNat ≤ 4 && o.size.toNat ≤ 2 && (o.as != 4 || o.base == 0)
  | .lsld o | .lsst o => o.as == 4 && o.size.toNat ≤ 2 && o.base == 0
  | .pref o => o.as == 0
  | .lpin o | .lunpin o => o.as == 0 && !o.mod.getLsbD 0
  | .lpinLine o | .lunpinLine o => o.as == 0 && o.mod.getLsbD 0
  | .amo o | .amos o => o.as.toNat ≤ 3 && (o.size == 2 || o.size == 3) && o.scope.toNat ≤ 5 && o.mod.toNat ≤ 11
      && (o.mod.toNat ≤ 8 || o.size == 2)
  | .cas o => o.as.toNat ≤ 3 && (o.size == 2 || o.size == 3) && o.scope.toNat ≤ 5
  | .wbl o | .invl o => o.as == 0 && 1 ≤ o.scope.toNat && o.scope.toNat ≤ 5
  | .vadd o | .vsub o | .vmul o | .vfma o | .vfms o | .vfnma o => o.elemLegal true && o.rm.toNat ≤ 4
  | .vmin o | .vmax o | .vand o | .vor o | .vxor o | .vsel o => o.elemLegal true
  | .vabs o | .vneg o | .vnot o | .vclmp o => o.ty == 0 || o.isInt
  | .vext o => o.ty == 0 || o.isInt
  | .vshl o | .vshr o | .vsra o | .vmulh o | .vadds o | .vsubs o => o.elemLegal false
  | .vrcp o | .vrsq o | .vsqrt o | .vexp2 o | .vlog2 o | .vtanh o | .vsigm o | .vsinp o | .verf o =>
    o.ty == 0 && o.rm.toNat ≤ 4 && !o.v1
  | .vdiv o => o.ty == 0 && o.rm.toNat ≤ 4 && !o.v1 && o.mode ≤ 1
  | .vcmp o => o.elemLegal true && o.fn.toNat / 4 < (if o.ty == 0 then 8 else 10)
  | .vcls o => o.ty == 0
  | .viota o => o.fn.toNat % 4 != 3
  | .vredr o | .vredc o | .vscanr o => (o.ty == 0 || o.isInt) && o.fn.toNat % 8 ≤ 5 && o.rm.toNat ≤ 4
  | .vcvt o => cvtFormat o.ty.toNat && cvtFormat (o.fn.toNat % 32) && o.rm.toNat ≤ 5
  | .vqnt o => (match quantPart o.ty.toNat with | none => false | some p => o.fn.toNat % 16 ≤ p) && o.rm.toNat ≤ 5 && o.d != o.c
  | .vdqt o => (match quantPart o.ty.toNat with | none => false | some p => o.fn.toNat % 16 ≤ p) && o.rm.toNat ≤ 5
  | .vscl o => o.ty == 0 && o.mode ≤ 1 && o.rm.toNat ≤ 5
  | .vpack o | .vunpk o => packFormat o.ty.toNat && o.fn.toNat % 16 < 32 / formatBits o.ty.toNat
  | .vspop o => !(o.fn.getLsbD 0 && o.d == o.c)
  | .vtidx o => o.imm8.toNat % 8 ≤ 4
  | .vbchk o => cvtFormat o.ty.toNat && o.tid != 0
  | .vqpop o => o.fn.toNat / 4 % 4 == 0
  | .vqpopSide o => o.fn.toNat / 4 % 4 == 1
  | .vqpopInfo o => o.fn.toNat / 4 % 4 == 2
  | .mcal o | .mfbk o => o.mac.toNat ≤ 4
  | .mctxSave o => o.imm.toNat % 4 == 0
  | .mctxRestore o => o.imm.toNat % 4 == 1
  | .mctxKeep o => o.imm.toNat % 4 == 2
  | .minjAcc o => o.plane.toNat ≤ 1
  | .minjCks o => o.plane == 2 && o.mac.toNat ≤ 3
  | .minjPar o => o.plane == 3 && o.mac.toNat ≤ 4
  | .fmtr o | .lbrk o | .cmbopen o | .pcdec o | .qcfgp o => !o.fn.getLsbD 0
  | .fmtrPend o | .lbrkDrain o | .cmbopenTry o | .pcdecFail o | .qcfgpOff o => o.fn.getLsbD 0
  | .bndr o => !o.fn.getLsbD 0 && o.imm.toNat % 16 != 0
  | .bndrFa o => o.fn.getLsbD 0 && o.imm.toNat % 16 != 0
  | .cktol o => !o.fn.getLsbD 0 && o.imm.toNat % 64 < 56
  | .cktolRd o => o.fn.getLsbD 0 && o.imm.toNat % 64 < 56
  | .bndw o => o.imm.toNat % 16 != 0 && boundFormat (o.fn.toNat % 32) && o.fn.toNat / 32 % 4 != 3
  | .shpw o => o.fn.toNat % 8 ≤ 5 && o.imm.toNat / 16 % 8 ≤ 4
  | .lstat o => o.fn.toNat % 16 < 8
  | .cpy o | .cpyx o => o.d != 0 && o.scope.toNat ≤ 5
  | .wload o | .coll o | .fput o | .fget o | .cmbput o => o.d != 0
  | .spawn o => o.b.toNat < 29
  | .phase o => o.scope.toNat ≤ 5
  | .barr o | .barw o | .barq o => 1 ≤ o.scope.toNat && o.scope.toNat ≤ 5
  | .trig o => 3 ≤ o.scope.toNat && o.scope.toNat ≤ 5
  | .phint o => 1 ≤ o.imm.toNat % 32 && o.imm.toNat % 32 ≤ 16
  | .migrate o => o.fn.toNat % 4 ≤ 1
  | .scrubcfg o => o.fn.toNat % 4 ≤ 2
  | .obslog o => 0x8000 ≤ o.imm.toNat % 65536
  | _ => true

/-- A privileged opcode of the S or the X slot (R2, R371, R398). -/
def isPrivileged : Instr → Bool
  | .mret _ | .mretRequeue _ | .mretEnd _ | .prdsr _ | .pwrsr _ | .xlinvPage _ | .xlinvCtx _ | .xlinvPart _ | .ctxsv _
  | .ctxld _ | .corestop _ | .jrnl _ | .kickscan _ | .cmplholdHold _ | .cmplholdRelease _ | .pcset _ | .pcdec _
  | .pcdecFail _ | .disp _ | .preempt _ | .qcfgp _ | .qcfgpOff _ | .migrate _ | .scrubcfg _ | .obslog _ | .healthw _ => true
  | _ => false

/-- The slot of an operation and its slot word (R160 to R170); none for a row that no slot encodes. -/
def encodeSlot : Instr → Option (Slot × Nat)
  | .add o => some (.s, o.toNat 0x01)
  | .sub o => some (.s, o.toNat 0x02)
  | .mul o => some (.s, o.toNat 0x03)
  | .mulh o => some (.s, o.toNat 0x04)
  | .mulhu o => some (.s, o.toNat 0x05)
  | .div o => some (.s, o.toNat 0x06)
  | .divu o => some (.s, o.toNat 0x07)
  | .rem o => some (.s, o.toNat 0x08)
  | .remu o => some (.s, o.toNat 0x09)
  | .and o => some (.s, o.toNat 0x0A)
  | .or o => some (.s, o.toNat 0x0B)
  | .xor o => some (.s, o.toNat 0x0C)
  | .shl o => some (.s, o.toNat 0x0D)
  | .shr o => some (.s, o.toNat 0x0E)
  | .sra o => some (.s, o.toNat 0x0F)
  | .min o => some (.s, o.toNat 0x10)
  | .max o => some (.s, o.toNat 0x11)
  | .minu o => some (.s, o.toNat 0x12)
  | .maxu o => some (.s, o.toNat 0x13)
  | .slt o => some (.s, o.toNat 0x14)
  | .sltu o => some (.s, o.toNat 0x15)
  | .sel o => some (.s, o.toNat 0x16)
  | .addi o => some (.s, o.toNat 0x20)
  | .andi o => some (.s, o.toNat 0x21)
  | .ori o => some (.s, o.toNat 0x22)
  | .xori o => some (.s, o.toNat 0x23)
  | .shli o => some (.s, o.toNat 0x24)
  | .shri o => some (.s, o.toNat 0x25)
  | .srai o => some (.s, o.toNat 0x26)
  | .li o => some (.s, o.toNat 0x27)
  | .lih o => some (.s, o.toNat 0x28)
  | .clz o => some (.s, o.toNat 0x29)
  | .ctz o => some (.s, o.toNat 0x2A)
  | .popc o => some (.s, o.toNat 0x2B)
  | .bswap o => some (.s, o.toNat 0x2F)
  | .exts o => some (.s, o.toNat 0x2C)
  | .extz o => some (.s, o.toNat 0x2D)
  | .ins o => some (.s, o.toNat 0x2E)
  | .cmp o => some (.s, o.toNat 0x30)
  | .cmpi o => some (.s, o.toNat 0x31)
  | .pelse o => some (.s, o.toNat 0x32)
  | .prd o => some (.s, o.toNat 0x33)
  | .pwr o => some (.s, o.toNat 0x34)
  | .br o => some (.s, o.toNat 0x40)
  | .bri o => some (.s, o.toNat 0x41)
  | .jmp o => some (.s, o.toNat 0x42)
  | .call o => some (.s, o.toNat 0x43)
  | .ret o => some (.s, o.toNat 0x44)
  | .jr o => some (.s, o.toNat 0x45)
  | .callr o => some (.s, o.toNat 0x46)
  | .dbnz o => some (.s, o.toNat 0x47)
  | .wfe o => some (.s, o.toNat 0x48)
  | .sev o => some (.s, o.toNat 0x49)
  | .sevAll o => some (.s, o.toNat 0x49)
  | .yield o => some (.s, o.toNat 0x4A)
  | .susp o => some (.s, o.toNat 0x4B)
  | .exit o => some (.s, o.toNat 0x4C)
  | .trap o => some (.s, o.toNat 0x4D)
  | .trapf o => some (.s, o.toNat 0x4E)
  | .tret o => some (.s, o.toNat 0x4F)
  | .rdsr o => some (.s, o.toNat 0x50)
  | .wrsr o => some (.s, o.toNat 0x51)
  | .tidx o => some (.s, o.toNat 0x52)
  | .mret o => some (.s, o.toNat 0x70)
  | .mretRequeue o => some (.s, o.toNat 0x70)
  | .mretEnd o => some (.s, o.toNat 0x70)
  | .prdsr o => some (.s, o.toNat 0x71)
  | .pwrsr o => some (.s, o.toNat 0x72)
  | .xlinvPage o => some (.s, o.toNat 0x73)
  | .xlinvCtx o => some (.s, o.toNat 0x73)
  | .xlinvPart o => some (.s, o.toNat 0x73)
  | .ctxsv o => some (.s, o.toNat 0x74)
  | .ctxld o => some (.s, o.toNat 0x75)
  | .corestop o => some (.s, o.toNat 0x76)
  | .jrnl o => some (.s, o.toNat 0x77)
  | .kickscan o => some (.s, o.toNat 0x78)
  | .cmplholdHold o => some (.s, o.toNat 0x79)
  | .cmplholdRelease o => some (.s, o.toNat 0x79)
  | .aadd o => some (.a, o.toNat 0x01)
  | .aaddi o => some (.a, o.toNat 0x02)
  | .amov o => some (.a, o.toNat 0x03)
  | .aset o => some (.a, o.toNat 0x04)
  | .aget o => some (.a, o.toNat 0x05)
  | .acmp o => some (.a, o.toNat 0x06)
  | .ascl o => some (.a, o.toNat 0x07)
  | .ld o => some (.a, o.toNat 0x10)
  | .ldc o => some (.a, o.toNat 0x11)
  | .st o => some (.a, o.toNat 0x12)
  | .vld o => some (.a, o.toNat 0x13)
  | .vst o => some (.a, o.toNat 0x14)
  | .vstQueue o => some (.a, o.toNat 0x14)
  | .vlds o => some (.a, o.toNat 0x15)
  | .vgath o => some (.a, o.toNat 0x16)
  | .vscat o => some (.a, o.toNat 0x17)
  | .lsld o => some (.a, o.toNat 0x18)
  | .lsst o => some (.a, o.toNat 0x19)
  | .pref o => some (.a, o.toNat 0x1A)
  | .wbl o => some (.a, o.toNat 0x28)
  | .invl o => some (.a, o.toNat 0x29)
  | .lpin o => some (.a, o.toNat 0x1B)
  | .lpinLine o => some (.a, o.toNat 0x1B)
  | .lunpin o => some (.a, o.toNat 0x1C)
  | .lunpinLine o => some (.a, o.toNat 0x1C)
  | .amo o => some (.a, o.toNat 0x20)
  | .amos o => some (.a, o.toNat 0x21)
  | .cas o => some (.a, o.toNat 0x22)
  | .vadd o => some (if o.v1 then .v1 else .v0, o.toNat 0x01)
  | .vsub o => some (if o.v1 then .v1 else .v0, o.toNat 0x02)
  | .vmul o => some (if o.v1 then .v1 else .v0, o.toNat 0x03)
  | .vfma o => some (if o.v1 then .v1 else .v0, o.toNat 0x04)
  | .vfms o => some (if o.v1 then .v1 else .v0, o.toNat 0x05)
  | .vfnma o => some (if o.v1 then .v1 else .v0, o.toNat 0x06)
  | .vmin o => some (if o.v1 then .v1 else .v0, o.toNat 0x07)
  | .vmax o => some (if o.v1 then .v1 else .v0, o.toNat 0x08)
  | .vabs o => some (if o.v1 then .v1 else .v0, o.toNat 0x09)
  | .vneg o => some (if o.v1 then .v1 else .v0, o.toNat 0x0A)
  | .vand o => some (if o.v1 then .v1 else .v0, o.toNat 0x0B)
  | .vor o => some (if o.v1 then .v1 else .v0, o.toNat 0x0C)
  | .vxor o => some (if o.v1 then .v1 else .v0, o.toNat 0x0D)
  | .vnot o => some (if o.v1 then .v1 else .v0, o.toNat 0x0E)
  | .vshl o => some (if o.v1 then .v1 else .v0, o.toNat 0x0F)
  | .vshr o => some (if o.v1 then .v1 else .v0, o.toNat 0x10)
  | .vsra o => some (if o.v1 then .v1 else .v0, o.toNat 0x11)
  | .vmulh o => some (if o.v1 then .v1 else .v0, o.toNat 0x12)
  | .vadds o => some (if o.v1 then .v1 else .v0, o.toNat 0x13)
  | .vsubs o => some (if o.v1 then .v1 else .v0, o.toNat 0x14)
  | .vrcp o => some (if o.v1 then .v1 else .v0, o.toNat 0x20)
  | .vrsq o => some (if o.v1 then .v1 else .v0, o.toNat 0x21)
  | .vsqrt o => some (if o.v1 then .v1 else .v0, o.toNat 0x22)
  | .vdiv o => some (if o.v1 then .v1 else .v0, o.toNat 0x23)
  | .vexp2 o => some (if o.v1 then .v1 else .v0, o.toNat 0x24)
  | .vlog2 o => some (if o.v1 then .v1 else .v0, o.toNat 0x25)
  | .vtanh o => some (if o.v1 then .v1 else .v0, o.toNat 0x26)
  | .vsigm o => some (if o.v1 then .v1 else .v0, o.toNat 0x27)
  | .vsinp o => some (if o.v1 then .v1 else .v0, o.toNat 0x28)
  | .verf o => some (if o.v1 then .v1 else .v0, o.toNat 0x29)
  | .vcmp o => some (if o.v1 then .v1 else .v0, o.toNat 0x30)
  | .vcls o => some (if o.v1 then .v1 else .v0, o.toNat 0x31)
  | .vsel o => some (if o.v1 then .v1 else .v0, o.toNat 0x32)
  | .vmtov o => some (if o.v1 then .v1 else .v0, o.toNat 0x33)
  | .vvtom o => some (if o.v1 then .v1 else .v0, o.toNat 0x34)
  | .vmcnt o => some (if o.v1 then .v1 else .v0, o.toNat 0x35)
  | .vmov o => some (if o.v1 then .v1 else .v0, o.toNat 0x40)
  | .vsplat o => some (if o.v1 then .v1 else .v0, o.toNat 0x41)
  | .viota o => some (if o.v1 then .v1 else .v0, o.toNat 0x4C)
  | .vbcr o => some (if o.v1 then .v1 else .v0, o.toNat 0x42)
  | .vbcc o => some (if o.v1 then .v1 else .v0, o.toNat 0x43)
  | .vrotr o => some (if o.v1 then .v1 else .v0, o.toNat 0x44)
  | .vrotc o => some (if o.v1 then .v1 else .v0, o.toNat 0x45)
  | .vpermr o => some (if o.v1 then .v1 else .v0, o.toNat 0x4D)
  | .vext o => some (if o.v1 then .v1 else .v0, o.toNat 0x4A)
  | .vins o => some (if o.v1 then .v1 else .v0, o.toNat 0x4B)
  | .vtrn o => some (if o.v1 then .v1 else .v0, o.toNat 0x49)
  | .vredr o => some (if o.v1 then .v1 else .v0, o.toNat 0x46)
  | .vredc o => some (if o.v1 then .v1 else .v0, o.toNat 0x47)
  | .vscanr o => some (if o.v1 then .v1 else .v0, o.toNat 0x48)
  | .vcvt o => some (if o.v1 then .v1 else .v0, o.toNat 0x50)
  | .vqnt o => some (if o.v1 then .v1 else .v0, o.toNat 0x51)
  | .vdqt o => some (if o.v1 then .v1 else .v0, o.toNat 0x52)
  | .vscl o => some (if o.v1 then .v1 else .v0, o.toNat 0x53)
  | .vpack o => some (if o.v1 then .v1 else .v0, o.toNat 0x54)
  | .vunpk o => some (if o.v1 then .v1 else .v0, o.toNat 0x55)
  | .vspush o => some (if o.v1 then .v1 else .v0, o.toNat 0x60)
  | .vspop o => some (if o.v1 then .v1 else .v0, o.toNat 0x61)
  | .vsbal o => some (if o.v1 then .v1 else .v0, o.toNat 0x62)
  | .vtidx o => some (if o.v1 then .v1 else .v0, o.toNat 0x63)
  | .vbchk o => some (if o.v1 then .v1 else .v0, o.toNat 0x64)
  | .vclmp o => some (if o.v1 then .v1 else .v0, o.toNat 0x65)
  | .vqpop o => some (if o.v1 then .v1 else .v0, o.toNat 0x70)
  | .vqpopSide o => some (if o.v1 then .v1 else .v0, o.toNat 0x70)
  | .vqpopInfo o => some (if o.v1 then .v1 else .v0, o.toNat 0x70)
  | .mpush o => some (.m, o.toNat 0x01)
  | .mbeat o => some (.m, o.toNat 0x02)
  | .mshift o => some (.m, o.toNat 0x03)
  | .mdrain o => some (.m, o.toNat 0x04)
  | .mzero o => some (.m, o.toNat 0x05)
  | .mswap o => some (.m, o.toNat 0x06)
  | .mepoch o => some (.m, o.toNat 0x07)
  | .mretry o => some (.m, o.toNat 0x08)
  | .mckloc o => some (.m, o.toNat 0x09)
  | .mckfix o => some (.m, o.toNat 0x0A)
  | .mcal o => some (.m, o.toNat 0x0B)
  | .mfbk o => some (.m, o.toNat 0x0C)
  | .mctxSave o => some (.m, o.toNat 0x0D)
  | .mctxRestore o => some (.m, o.toNat 0x0D)
  | .mctxKeep o => some (.m, o.toNat 0x0D)
  | .minjAcc o => some (.m, o.toNat 0x0E)
  | .minjCks o => some (.m, o.toNat 0x0E)
  | .minjPar o => some (.m, o.toNat 0x0E)
  | .fmtw o => some (.x, o.toNat 0x01)
  | .fmtr o => some (.x, o.toNat 0x02)
  | .fmtrPend o => some (.x, o.toNat 0x02)
  | .bndw o => some (.x, o.toNat 0x03)
  | .bndr o => some (.x, o.toNat 0x04)
  | .bndrFa o => some (.x, o.toNat 0x04)
  | .shpw o => some (.x, o.toNat 0x05)
  | .feedcfg o => some (.x, o.toNat 0x06)
  | .rbcfg o => some (.x, o.toNat 0x07)
  | .rbpop o => some (.x, o.toNat 0x72)
  | .cktol o => some (.x, o.toNat 0x08)
  | .cktolRd o => some (.x, o.toNat 0x08)
  | .lnest o => some (.x, o.toNat 0x10)
  | .lbody o => some (.x, o.toNat 0x11)
  | .lbrk o => some (.x, o.toNat 0x12)
  | .lbrkDrain o => some (.x, o.toNat 0x12)
  | .lstat o => some (.x, o.toNat 0x13)
  | .cpy o => some (.x, o.toNat 0x20)
  | .cpyx o => some (.x, o.toNat 0x21)
  | .wload o => some (.x, o.toNat 0x22)
  | .scwait o => some (.x, o.toNat 0x23)
  | .scrd o => some (.x, o.toNat 0x24)
  | .enq o => some (.x, o.toNat 0x30)
  | .deq o => some (.x, o.toNat 0x31)
  | .deqt o => some (.x, o.toNat 0x32)
  | .qstat o => some (.x, o.toNat 0x33)
  | .spawn o => some (.x, o.toNat 0x34)
  | .phase o => some (.x, o.toNat 0x40)
  | .barr o => some (.x, o.toNat 0x41)
  | .barw o => some (.x, o.toNat 0x42)
  | .barq o => some (.x, o.toNat 0x43)
  | .trig o => some (.x, o.toNat 0x44)
  | .coll o => some (.x, o.toNat 0x50)
  | .fput o => some (.x, o.toNat 0x51)
  | .fget o => some (.x, o.toNat 0x52)
  | .cmbopen o => some (.x, o.toNat 0x60)
  | .cmbopenTry o => some (.x, o.toNat 0x60)
  | .cmbput o => some (.x, o.toNat 0x61)
  | .cmbpoll o => some (.x, o.toNat 0x62)
  | .cmbclose o => some (.x, o.toNat 0x63)
  | .phint o => some (.x, o.toNat 0x70)
  | .phclr o => some (.x, o.toNat 0x71)
  | .pcset o => some (.x, o.toNat 0x80)
  | .pcdec o => some (.x, o.toNat 0x81)
  | .pcdecFail o => some (.x, o.toNat 0x81)
  | .disp o => some (.x, o.toNat 0x82)
  | .preempt o => some (.x, o.toNat 0x83)
  | .qcfgp o => some (.x, o.toNat 0x84)
  | .qcfgpOff o => some (.x, o.toNat 0x84)
  | .migrate o => some (.x, o.toNat 0x85)
  | .scrubcfg o => some (.x, o.toNat 0x86)
  | .obslog o => some (.x, o.toNat 0x87)
  | .healthw o => some (.x, o.toNat 0x88)
  | _ => none

/-- The S-slot operation of word `w` by the opcode map of R166; none for an unassigned opcode. -/
def buildS (w : Nat) : Option Instr :=
  match w % 256 with
  | 0x01 => some (.add (SR.ofNat w))
  | 0x02 => some (.sub (SR.ofNat w))
  | 0x03 => some (.mul (SR.ofNat w))
  | 0x04 => some (.mulh (SR.ofNat w))
  | 0x05 => some (.mulhu (SR.ofNat w))
  | 0x06 => some (.div (SR.ofNat w))
  | 0x07 => some (.divu (SR.ofNat w))
  | 0x08 => some (.rem (SR.ofNat w))
  | 0x09 => some (.remu (SR.ofNat w))
  | 0x0A => some (.and (SR.ofNat w))
  | 0x0B => some (.or (SR.ofNat w))
  | 0x0C => some (.xor (SR.ofNat w))
  | 0x0D => some (.shl (SR.ofNat w))
  | 0x0E => some (.shr (SR.ofNat w))
  | 0x0F => some (.sra (SR.ofNat w))
  | 0x10 => some (.min (SR.ofNat w))
  | 0x11 => some (.max (SR.ofNat w))
  | 0x12 => some (.minu (SR.ofNat w))
  | 0x13 => some (.maxu (SR.ofNat w))
  | 0x14 => some (.slt (SR.ofNat w))
  | 0x15 => some (.sltu (SR.ofNat w))
  | 0x16 => some (.sel (SR.ofNat w))
  | 0x20 => some (.addi (SI.ofNat w))
  | 0x21 => some (.andi (SI.ofNat w))
  | 0x22 => some (.ori (SI.ofNat w))
  | 0x23 => some (.xori (SI.ofNat w))
  | 0x24 => some (.shli (SI.ofNat w))
  | 0x25 => some (.shri (SI.ofNat w))
  | 0x26 => some (.srai (SI.ofNat w))
  | 0x27 => some (.li (SI.ofNat w))
  | 0x28 => some (.lih (SI.ofNat w))
  | 0x29 => some (.clz (SR.ofNat w))
  | 0x2A => some (.ctz (SR.ofNat w))
  | 0x2B => some (.popc (SR.ofNat w))
  | 0x2C => some (.exts (SI.ofNat w))
  | 0x2D => some (.extz (SI.ofNat w))
  | 0x2E => some (.ins (SI.ofNat w))
  | 0x2F => some (.bswap (SR.ofNat w))
  | 0x30 => some (.cmp (SB.ofNat w))
  | 0x31 => some (.cmpi (SI.ofNat w))
  | 0x32 => some (.pelse (SR.ofNat w))
  | 0x33 => some (.prd (SR.ofNat w))
  | 0x34 => some (.pwr (SR.ofNat w))
  | 0x40 => some (.br (SB.ofNat w))
  | 0x41 => some (.bri (SB.ofNat w))
  | 0x42 => some (.jmp (SB.ofNat w))
  | 0x43 => some (.call (SB.ofNat w))
  | 0x44 => some (.ret (SR.ofNat w))
  | 0x45 => some (.jr (SR.ofNat w))
  | 0x46 => some (.callr (SR.ofNat w))
  | 0x47 => some (.dbnz (SB.ofNat w))
  | 0x48 => some (.wfe (SR.ofNat w))
  | 0x49 =>
    let f := SR.ofNat w
    match f.fn.getLsbD 0 with
    | true => some (.sevAll f)
    | false => some (.sev f)
  | 0x4A => some (.yield (SR.ofNat w))
  | 0x4B => some (.susp (SR.ofNat w))
  | 0x4C => some (.exit (SR.ofNat w))
  | 0x4D => some (.trap (SI.ofNat w))
  | 0x4E => some (.trapf (SR.ofNat w))
  | 0x4F => some (.tret (SR.ofNat w))
  | 0x50 => some (.rdsr (SS.ofNat w))
  | 0x51 => some (.wrsr (SS.ofNat w))
  | 0x52 => some (.tidx (SR.ofNat w))
  | 0x70 =>
    let f := SR.ofNat w
    match f.fn.toNat % 4 with
    | 1 => some (.mretRequeue f)
    | 2 => some (.mretEnd f)
    | _ => some (.mret f)
  | 0x71 => some (.prdsr (SS.ofNat w))
  | 0x72 => some (.pwrsr (SS.ofNat w))
  | 0x73 =>
    let f := SR.ofNat w
    match f.fn.toNat % 4 with
    | 1 => some (.xlinvCtx f)
    | 2 => some (.xlinvPart f)
    | _ => some (.xlinvPage f)
  | 0x74 => some (.ctxsv (SR.ofNat w))
  | 0x75 => some (.ctxld (SR.ofNat w))
  | 0x76 => some (.corestop (SR.ofNat w))
  | 0x77 => some (.jrnl (SR.ofNat w))
  | 0x78 => some (.kickscan (SR.ofNat w))
  | 0x79 =>
    let f := SR.ofNat w
    match f.fn.getLsbD 0 with
    | true => some (.cmplholdRelease f)
    | false => some (.cmplholdHold f)
  | _ => none

/-- The A-slot operation of word `w` (R167). -/
def buildA (w : Nat) : Option Instr :=
  match w % 256 with
  | 0x01 => some (.aadd (AForm.ofNat w))
  | 0x02 => some (.aaddi (AForm.ofNat w))
  | 0x03 => some (.amov (AForm.ofNat w))
  | 0x04 => some (.aset (AForm.ofNat w))
  | 0x05 => some (.aget (AForm.ofNat w))
  | 0x06 => some (.acmp (AForm.ofNat w))
  | 0x07 => some (.ascl (AForm.ofNat w))
  | 0x10 => some (.ld (AForm.ofNat w))
  | 0x11 => some (.ldc (AForm.ofNat w))
  | 0x12 => some (.st (AForm.ofNat w))
  | 0x13 => some (.vld (AForm.ofNat w))
  | 0x14 =>
    let f := AForm.ofNat w
    match (f.size == 5 && f.mod.toNat < 4 : Bool) with
    | true => some (.vstQueue f)
    | false => some (.vst f)
  | 0x15 => some (.vlds (AForm.ofNat w))
  | 0x16 => some (.vgath (AForm.ofNat w))
  | 0x17 => some (.vscat (AForm.ofNat w))
  | 0x18 => some (.lsld (AForm.ofNat w))
  | 0x19 => some (.lsst (AForm.ofNat w))
  | 0x1A => some (.pref (AForm.ofNat w))
  | 0x1B =>
    let f := AForm.ofNat w
    match f.mod.getLsbD 0 with
    | true => some (.lpinLine f)
    | false => some (.lpin f)
  | 0x1C =>
    let f := AForm.ofNat w
    match f.mod.getLsbD 0 with
    | true => some (.lunpinLine f)
    | false => some (.lunpin f)
  | 0x20 => some (.amo (AForm.ofNat w))
  | 0x21 => some (.amos (AForm.ofNat w))
  | 0x22 => some (.cas (AForm.ofNat w))
  | 0x28 => some (.wbl (AForm.ofNat w))
  | 0x29 => some (.invl (AForm.ofNat w))
  | _ => none

/-- The V-slot operation of word `w` (R168). -/
def buildV (v1 : Bool) (w : Nat) : Option Instr :=
  match w % 256 with
  | 0x01 => some (.vadd (VForm.ofNat v1 w))
  | 0x02 => some (.vsub (VForm.ofNat v1 w))
  | 0x03 => some (.vmul (VForm.ofNat v1 w))
  | 0x04 => some (.vfma (VForm.ofNat v1 w))
  | 0x05 => some (.vfms (VForm.ofNat v1 w))
  | 0x06 => some (.vfnma (VForm.ofNat v1 w))
  | 0x07 => some (.vmin (VForm.ofNat v1 w))
  | 0x08 => some (.vmax (VForm.ofNat v1 w))
  | 0x09 => some (.vabs (VForm.ofNat v1 w))
  | 0x0A => some (.vneg (VForm.ofNat v1 w))
  | 0x0B => some (.vand (VForm.ofNat v1 w))
  | 0x0C => some (.vor (VForm.ofNat v1 w))
  | 0x0D => some (.vxor (VForm.ofNat v1 w))
  | 0x0E => some (.vnot (VForm.ofNat v1 w))
  | 0x0F => some (.vshl (VForm.ofNat v1 w))
  | 0x10 => some (.vshr (VForm.ofNat v1 w))
  | 0x11 => some (.vsra (VForm.ofNat v1 w))
  | 0x12 => some (.vmulh (VForm.ofNat v1 w))
  | 0x13 => some (.vadds (VForm.ofNat v1 w))
  | 0x14 => some (.vsubs (VForm.ofNat v1 w))
  | 0x20 => some (.vrcp (VForm.ofNat v1 w))
  | 0x21 => some (.vrsq (VForm.ofNat v1 w))
  | 0x22 => some (.vsqrt (VForm.ofNat v1 w))
  | 0x23 => some (.vdiv (VForm.ofNat v1 w))
  | 0x24 => some (.vexp2 (VForm.ofNat v1 w))
  | 0x25 => some (.vlog2 (VForm.ofNat v1 w))
  | 0x26 => some (.vtanh (VForm.ofNat v1 w))
  | 0x27 => some (.vsigm (VForm.ofNat v1 w))
  | 0x28 => some (.vsinp (VForm.ofNat v1 w))
  | 0x29 => some (.verf (VForm.ofNat v1 w))
  | 0x30 => some (.vcmp (VForm.ofNat v1 w))
  | 0x31 => some (.vcls (VForm.ofNat v1 w))
  | 0x32 => some (.vsel (VForm.ofNat v1 w))
  | 0x33 => some (.vmtov (VForm.ofNat v1 w))
  | 0x34 => some (.vvtom (VForm.ofNat v1 w))
  | 0x35 => some (.vmcnt (VForm.ofNat v1 w))
  | 0x40 => some (.vmov (VForm.ofNat v1 w))
  | 0x41 => some (.vsplat (VForm.ofNat v1 w))
  | 0x42 => some (.vbcr (VForm.ofNat v1 w))
  | 0x43 => some (.vbcc (VForm.ofNat v1 w))
  | 0x44 => some (.vrotr (VForm.ofNat v1 w))
  | 0x45 => some (.vrotc (VForm.ofNat v1 w))
  | 0x46 => some (.vredr (VForm.ofNat v1 w))
  | 0x47 => some (.vredc (VForm.ofNat v1 w))
  | 0x48 => some (.vscanr (VForm.ofNat v1 w))
  | 0x49 => some (.vtrn (VForm.ofNat v1 w))
  | 0x4A => some (.vext (VForm.ofNat v1 w))
  | 0x4B => some (.vins (VForm.ofNat v1 w))
  | 0x4C => some (.viota (VForm.ofNat v1 w))
  | 0x4D => some (.vpermr (VForm.ofNat v1 w))
  | 0x50 => some (.vcvt (VForm.ofNat v1 w))
  | 0x51 => some (.vqnt (VForm.ofNat v1 w))
  | 0x52 => some (.vdqt (VForm.ofNat v1 w))
  | 0x53 => some (.vscl (VForm.ofNat v1 w))
  | 0x54 => some (.vpack (VForm.ofNat v1 w))
  | 0x55 => some (.vunpk (VForm.ofNat v1 w))
  | 0x60 => some (.vspush (VForm.ofNat v1 w))
  | 0x61 => some (.vspop (VForm.ofNat v1 w))
  | 0x62 => some (.vsbal (VForm.ofNat v1 w))
  | 0x63 => some (.vtidx (VForm.ofNat v1 w))
  | 0x64 => some (.vbchk (VForm.ofNat v1 w))
  | 0x65 => some (.vclmp (VForm.ofNat v1 w))
  | 0x70 =>
    let f := VForm.ofNat v1 w
    match f.fn.toNat / 4 % 4 with
    | 1 => some (.vqpopSide f)
    | 2 => some (.vqpopInfo f)
    | _ => some (.vqpop f)
  | _ => none

/-- The M-slot operation of word `w` (R169). -/
def buildM (w : Nat) : Option Instr :=
  match w % 64 with
  | 0x01 => some (.mpush (MForm.ofNat w))
  | 0x02 => some (.mbeat (MForm.ofNat w))
  | 0x03 => some (.mshift (MForm.ofNat w))
  | 0x04 => some (.mdrain (MForm.ofNat w))
  | 0x05 => some (.mzero (MForm.ofNat w))
  | 0x06 => some (.mswap (MForm.ofNat w))
  | 0x07 => some (.mepoch (MForm.ofNat w))
  | 0x08 => some (.mretry (MForm.ofNat w))
  | 0x09 => some (.mckloc (MForm.ofNat w))
  | 0x0A => some (.mckfix (MForm.ofNat w))
  | 0x0B => some (.mcal (MForm.ofNat w))
  | 0x0C => some (.mfbk (MForm.ofNat w))
  | 0x0D =>
    let f := MForm.ofNat w
    match f.imm.toNat % 4 with
    | 1 => some (.mctxRestore f)
    | 2 => some (.mctxKeep f)
    | _ => some (.mctxSave f)
  | 0x0E =>
    let f := MForm.ofNat w
    match f.plane.toNat with
    | 2 => some (.minjCks f)
    | 3 => some (.minjPar f)
    | _ => some (.minjAcc f)
  | _ => none

/-- The X-slot operation of word `w` (R170). -/
def buildX (w : Nat) : Option Instr :=
  match w % 256 with
  | 0x01 => some (.fmtw (XForm.ofNat w))
  | 0x02 =>
    let f := XForm.ofNat w
    match f.fn.getLsbD 0 with
    | true => some (.fmtrPend f)
    | false => some (.fmtr f)
  | 0x03 => some (.bndw (XForm.ofNat w))
  | 0x04 =>
    let f := XForm.ofNat w
    match f.fn.getLsbD 0 with
    | true => some (.bndrFa f)
    | false => some (.bndr f)
  | 0x05 => some (.shpw (XForm.ofNat w))
  | 0x06 => some (.feedcfg (XForm.ofNat w))
  | 0x07 => some (.rbcfg (XForm.ofNat w))
  | 0x08 =>
    let f := XForm.ofNat w
    match f.fn.getLsbD 0 with
    | true => some (.cktolRd f)
    | false => some (.cktol f)
  | 0x10 => some (.lnest (XForm.ofNat w))
  | 0x11 => some (.lbody (XForm.ofNat w))
  | 0x12 =>
    let f := XForm.ofNat w
    match f.fn.getLsbD 0 with
    | true => some (.lbrkDrain f)
    | false => some (.lbrk f)
  | 0x13 => some (.lstat (XForm.ofNat w))
  | 0x20 => some (.cpy (XForm.ofNat w))
  | 0x21 => some (.cpyx (XForm.ofNat w))
  | 0x22 => some (.wload (XForm.ofNat w))
  | 0x23 => some (.scwait (XForm.ofNat w))
  | 0x24 => some (.scrd (XForm.ofNat w))
  | 0x30 => some (.enq (XForm.ofNat w))
  | 0x31 => some (.deq (XForm.ofNat w))
  | 0x32 => some (.deqt (XForm.ofNat w))
  | 0x33 => some (.qstat (XForm.ofNat w))
  | 0x34 => some (.spawn (XForm.ofNat w))
  | 0x40 => some (.phase (XForm.ofNat w))
  | 0x41 => some (.barr (XForm.ofNat w))
  | 0x42 => some (.barw (XForm.ofNat w))
  | 0x43 => some (.barq (XForm.ofNat w))
  | 0x44 => some (.trig (XForm.ofNat w))
  | 0x50 => some (.coll (XForm.ofNat w))
  | 0x51 => some (.fput (XForm.ofNat w))
  | 0x52 => some (.fget (XForm.ofNat w))
  | 0x60 =>
    let f := XForm.ofNat w
    match f.fn.getLsbD 0 with
    | true => some (.cmbopenTry f)
    | false => some (.cmbopen f)
  | 0x61 => some (.cmbput (XForm.ofNat w))
  | 0x62 => some (.cmbpoll (XForm.ofNat w))
  | 0x63 => some (.cmbclose (XForm.ofNat w))
  | 0x70 => some (.phint (XForm.ofNat w))
  | 0x71 => some (.phclr (XForm.ofNat w))
  | 0x72 => some (.rbpop (XForm.ofNat w))
  | 0x80 => some (.pcset (XForm.ofNat w))
  | 0x81 =>
    let f := XForm.ofNat w
    match f.fn.getLsbD 0 with
    | true => some (.pcdecFail f)
    | false => some (.pcdec f)
  | 0x82 => some (.disp (XForm.ofNat w))
  | 0x83 => some (.preempt (XForm.ofNat w))
  | 0x84 =>
    let f := XForm.ofNat w
    match f.fn.getLsbD 0 with
    | true => some (.qcfgpOff f)
    | false => some (.qcfgp f)
  | 0x85 => some (.migrate (XForm.ofNat w))
  | 0x86 => some (.scrubcfg (XForm.ofNat w))
  | 0x87 => some (.obslog (XForm.ofNat w))
  | 0x88 => some (.healthw (XForm.ofNat w))
  | _ => none

/-- Why the decoder refuses a slot (R143): the check that fails first, apart from the checks of the
mode. -/
inductive DecodeErr where
  /-- check 1: the opcode is unassigned (ILLOP) -/
  | unassigned
  /-- check 4: a zero field is nonzero, or a zero opcode has another bit set (RESV) -/
  | reserved
  /-- check 5: an assigned field holds an unassigned value (ILLOP) -/
  | illegal
  deriving DecidableEq, Repr

/-- The operation that the opcode of slot word `w` names, before any field is checked. -/
def buildSlot (sl : Slot) (w : Nat) : Option Instr :=
  match sl with
  | .s => buildS w
  | .a => buildA w
  | .v0 => buildV false w
  | .v1 => buildV true w
  | .m => buildM w
  | .x => buildX w
  | .header => none
  | .none => none

/-- The opcode field of slot word `w` (R160 to R165). -/
def opcodeField (sl : Slot) (w : Nat) : Nat :=
  match sl with
  | .m => w % 64
  | _ => w % 256

/-- Checks 1, 4 and 5 of R143 on one slot word: the operation, nothing for an all-zero slot, or the
check that fails (R142, R143). -/
def decodeSlot (sl : Slot) (w : Nat) : Except DecodeErr (Option Instr) :=
  if w = 0 then .ok none
  else if opcodeField sl w = 0 then .error .reserved
  else
    match buildSlot sl w with
    | none => .error .unassigned
    | some i =>
      if encodeSlot i ≠ some (sl, w) ∨ zerosOk i = false then .error .reserved
      else if legalOk i = false then .error .illegal
      else .ok (some i)

/-- Lowest bit and width of a slot in the bundle (R140). -/
def Slot.place : Slot → Nat × Nat
  | .s => (32, 64)
  | .a => (96, 64)
  | .v0 => (160, 56)
  | .v1 => (216, 56)
  | .m => (272, 48)
  | .x => (320, 64)
  | .header => (0, 32)
  | .none => (0, 0)

/-- The word of a slot in bundle `b` (R140). -/
def slotWord (b : Nat) (sl : Slot) : Nat := b / 2 ^ sl.place.1 % 2 ^ sl.place.2

/-- The six operation slots in slot order (R18). -/
def slotOrder : List Slot := [.s, .a, .v0, .v1, .m, .x]

/-- The bundle that holds header `h` and one operation (R140); the header alone for an all-zero bundle. -/
def encode (h : Header) (i : Instr) : Option Nat :=
  match i with
  | .allZeroBundle h' => some h'.toNat
  | i =>
    match encodeSlot i with
    | some (sl, w) => some (h.toNat + w * 2 ^ sl.place.1)
    | none => none

/-- The operations of bundle `b` in slot order, or the slot that fails first and its check (R143, R367). -/
def decodeSlots (b : Nat) : List Slot → Except (Slot × DecodeErr) (List Instr)
  | [] => .ok []
  | sl :: rest =>
    match decodeSlot sl (slotWord b sl) with
    | .error e => .error (sl, e)
    | .ok oi =>
      match decodeSlots b rest with
      | .error e => .error e
      | .ok is => .ok (match oi with | none => is | some i => i :: is)

/-- A decoded bundle: its header and its operations in slot order. -/
structure Bundle where
  header : Header
  ops    : List Instr
  deriving DecidableEq, Repr

/-- Decode the 384 bits of a bundle (R140 to R143): the header first, then the slots in order. -/
def decodeBundle (b : Nat) : Except (Slot × DecodeErr) Bundle :=
  if b / 2 ^ 10 % 2 ^ 6 ≠ 0 then .error (.header, .reserved)
  else
    match decodeSlots b slotOrder with
    | .error e => .error e
    | .ok ops => .ok ⟨Header.ofNat b, ops⟩

/-- Little-endian number of a list of bytes (R3). -/
def natOfBytes : List Byte → Nat
  | [] => 0
  | b :: bs => b.toNat + 256 * natOfBytes bs

/-- The `n` bytes of a number, least significant first (R3). -/
def bytesOfNat : Nat → Nat → List Byte
  | 0, _ => []
  | n + 1, v => BitVec.ofNat 8 v :: bytesOfNat n (v / 256)

/-- Decode the 48 bytes of a bundle; a list of another length is no bundle. -/
def decodeBytes (bs : List Byte) : Option Bundle :=
  if bs.length = 48 then
    match decodeBundle (natOfBytes bs) with
    | .ok b => some b
    | .error _ => none
  else none

/-- The instruction that the decoder reads from a bundle of 384 bits whose bits are `w` (the bits above
`nbits` are zero): the one operation of the bundle, or the all-zero bundle; none where the decoder refuses
the bundle or the bundle holds several operations, which no one row of the table names. -/
def decodeTableWord (nbits w : Nat) : Option Instr :=
  match decodeBytes (bytesOfNat 48 (w % 2 ^ nbits)) with
  | none => none
  | some b =>
    match b.ops with
    | [] => some (.allZeroBundle b.header)
    | [i] => some i
    | _ => none

end Sys2Proof
end

