-- ==== Sys2Proof/Machine/State.lean ====
section
/-! DEFINITION. The state of the device, as plain data: the unit in focus (a core or a queue processor)
with its task, the parked units, and the rest of the device; the reasons a step can stop; reset. -/

namespace Sys2Proof.Machine

/-- Reasons for which the device stops with no next state. There is none: an exception of the manual is a trap, which is
taken (R219, R369, R370), and a core or queue processor that stops (R370, R373, R408) does so in a next state. -/
inductive Fault where
  deriving DecidableEq, Repr

/-- Why a meaning refuses an instruction. -/
inductive Refusal where
  /-- Raised by the dispatch for an instruction that has no meaning yet. Safe: nothing is proved of it. -/
  | notModelled (mnemonic : String)
  deriving DecidableEq, Repr

/-- The parties that issue bundles: physical core `p`, which is core `p % 128` of cluster `p / 128` (R19),
and queue processor `k` of a dome (R395). -/
inductive Agent where
  | core (p : Nat)
  | qp (dome : Nat) (k : Nat)
  deriving DecidableEq, Repr

/-- A number m · 2^e. -/
structure Dyadic where
  m : Int
  e : Int
  deriving DecidableEq, Repr

/-- A sparse memory: byte cells at strictly rising addresses, none equal to 0, which is what an unlisted
address reads as (log 4). -/
abbrev Mem := List Host.Cell

/-- Who makes a store to global memory (R10, R119): the task of a unit, an engine that works for a unit, the device on its
own account, another Tipor device, a host. -/
inductive Party where
  | unit (u : Agent)
  | engine (u : Agent)
  | device
  | peer
  | host
  deriving DecidableEq, Repr

/-- A store to global memory (R119 to R124): its number, its party, the stamp of its issue, its bytes at consecutive physical
addresses, and where it has been published: scope, publishing party and stamp, oldest first. -/
structure GStore where
  id    : Nat
  party : Party
  iss   : Nat
  addr  : Nat
  bytes : List Byte
  pubs  : List (Nat × Party × Nat)
  /-- of a task in Meridian mode: its gang, its task index and its τ at the store (R458) -/
  sched : Option (Nat × Nat × Nat) := none
  deriving DecidableEq, Repr

/-- The taint of a register (R127): the widest scope field of the LDCs that it comes from, and the releases at which the stores
that they returned were published to the reader, each with its LDC's scope field and its stamp. -/
structure Taint where
  scope : BitVec 3
  rels  : List (Nat × Nat)
  deriving DecidableEq, Repr

/-- A predicate entry (R200): mask, scalar bit, and the τ at which the mask is written (R262). -/
structure PredEntry where
  m   : LaneMask
  b   : Bool
  due : Nat := 0
  deriving DecidableEq, Repr

/-- A write of a result to its destination, with the taint it carries (R127). -/
inductive Write where
  | s (r : Reg) (v : Word) (taint : Option Taint)
  | a (r : BitVec 4) (v : Addr) (taint : Option Taint)
  | v (r : Reg) (mask : LaneMask) (val : VReg)
  | tflags (v : Word)
  /-- a BOUND trap becomes due: when its operation issued, and its bound register (R253) -/
  | bound (issued : Nat) (tid : BitVec 4)
  | none
  deriving DecidableEq, Repr

/-- A fixed-latency result in flight (R153): what is written at τ `due`, and the STICKY flags that are
ORed there (R173). -/
structure Result where
  w     : Write
  flags : BitVec 11 := 0
  /-- its operation is one that can set a flag, so TRAPF waits for it (R222) -/
  can   : Bool := false
  due   : Nat
  deriving DecidableEq, Repr

/-- Where a byte lives once its address is formed: physical memory, the scratchpad of the task in a slot
of a partition, a dome scratchpad, or lane-private memory of the issuing core. -/
inductive Place where
  | phys
  | spad (part slot : Nat)
  | own
  | dome (d : Nat)
  | lane
  deriving DecidableEq, Repr

/-- Bytes at consecutive addresses of one place. -/
structure Piece where
  place : Place
  addr  : Nat
  bytes : List Byte
  deriving DecidableEq, Repr

/-- A store held in the segment store buffer, with the entries it takes (R314). -/
structure Held where
  pieces  : List Piece
  entries : Nat
  deriving DecidableEq, Repr

/-- FMT in effect and its pending writes with the bundles still to issue (R83 to R85), oldest first. -/
structure FmtState where
  cur  : Word
  pend : List (Nat × Word)
  deriving DecidableEq, Repr

/-- A bound register (R301). -/
structure Bound where
  lo  : Lane
  hi  : Lane
  fmt : BitVec 5
  act : BitVec 2
  deriving DecidableEq, Repr

/-- A shape entry (R216): D and the five sizes; ℓ and m are functions of the size. -/
structure Shape where
  dims  : Nat
  sizes : Vector (BitVec 32) 5
  deriving DecidableEq, Repr

/-- A configured loop nest (R317): slots are a-register, delay and the strides of dimensions 0 to 5. -/
structure Nest where
  counts : List Nat
  slots  : List (BitVec 4 × Nat × List Int)
  deriving DecidableEq, Repr

/-- A replay of the loop buffer (R318, R319). `body` holds the captured bundles, `poss` their positions and those after
them, `start` the position of the first, `len` their number L, `b` the body bundle that issues next. -/
structure Replay where
  nest   : Nest
  a0     : List Addr
  n      : Nat
  it     : Nat
  rb     : Nat
  rot    : Bool
  start  : Nat
  len    : Nat
  stages : List Nat
  body   : List Nat
  poss   : List (Nat × Nat)
  b      : Nat
  brk    : Bool
  deriving DecidableEq, Repr

/-- An aligned activation row (R86, R88): magnitudes, signs and group exponents. -/
structure Row where
  finite : Bool
  exps   : Vector Int 16
  mags   : Vector Nat 256
  neg    : BitVec 256
  /-- a beat of this non-finite row has set IV (R89); MODEL -/
  marked : Bool
  deriving DecidableEq, Repr

/-- A fetched row (R273): its index, the AFMT at its read point, its bytes, or the fault of its fetch
(code and offset, R274). -/
structure Fetched where
  n     : Nat
  afmt  : BitVec 5
  elems : List Byte
  scales : List Byte
  fault : Option (Nat × Nat)
  /-- the wall cycle from which the row is there; none while its arrival is open (R273) -/
  due   : Option Nat
  deriving DecidableEq, Repr

/-- The feeder (R269). -/
structure Feeder where
  desc : Option (List Byte)
  pos  : Nat
  pp   : BitVec 4
  rp   : BitVec 4
  lrow : Row
  pre  : List Fetched
  deriving DecidableEq, Repr

/-- The state of an accumulator tile apart from its override and epoch (R282). -/
structure TileData where
  elems    : Vector Lane 4096
  sides    : Vector Lane 4096
  rowCheck : Vector Lane 16
  rowSide  : Vector Lane 16
  sumRow   : Vector Dyadic 256
  ovc      : BitVec 16
  clip     : Word
  deriving DecidableEq, Repr

/-- An epoch (R107, R285). -/
structure Epoch where
  data   : TileData
  feeder : Feeder
  deriving DecidableEq, Repr

/-- An accumulator tile (R282). -/
structure Tile where
  data     : TileData
  override : Bool
  epoch    : Option Epoch
  deriving DecidableEq, Repr

/-- An entry of a result queue (R287), with the value quarters already popped (R260). -/
structure QEntry where
  elems  : Vector Lane 4096
  sides  : Vector Lane 4096
  ovc    : BitVec 16
  tile   : BitVec 2
  popped : Nat
  deriving DecidableEq, Repr

/-- A drain in flight to a result queue (R287): remaining τ cycles, queue, entry, the bound register whose TRAP
the entry raised, its flags, and whether it is bound-checked and so can set one (R222, R289). -/
structure Drain where
  left  : Nat
  q     : BitVec 2
  entry : QEntry
  bound : BitVec 4
  flags : BitVec 11
  can   : Bool
  deriving DecidableEq, Repr

/-- A beat in flight (R279): remaining τ cycles, the tiles it writes, the bank it reads, the CLIPMASK bits that
it sets in each tile, and its flags. -/
structure Beat where
  left  : Nat
  tiles : BitVec 4
  bank  : Bool
  clips : List (Nat × Word)
  flags : BitVec 11
  deriving DecidableEq, Repr

/-- The record of the pending checksum fault (R288): queue, bound register, mismatching rows and columns. -/
structure CkFault where
  q    : BitVec 2
  tid  : BitVec 4
  rows : BitVec 16
  cols : BitVec 256
  deriving DecidableEq, Repr

/-- The matrix context of a task (R298): tiles, feeder, result queues, drains and beats in flight, CKSTAT,
CKLOC, FIXED and the pending fault record. The four CLIPMASK words stand in the tiles. -/
structure MatCtx where
  tiles  : Vector Tile 4
  feeder : Feeder
  queues : Vector (List QEntry) 4
  drains : List Drain
  beats  : List Beat
  ckstat : Word
  ckloc  : Word
  fault  : Option CkFault
  deriving DecidableEq, Repr

/-- A weight bank (R22, R109, R110): plane section, segment exponents at 16m + g, checksum entries at
256m + k, and what the last completed WLOAD recorded. -/
structure Bank where
  planes : Mem
  gw     : Vector Int 64
  ck     : Vector Int 1024
  fmt    : Option (BitVec 5)
  va     : Option Addr
  deriving DecidableEq, Repr

/-- One SRAM array of a core (R95, R98, R297): wall cycle of its last calibration (none: uncalibrated), the wall cycle at which a
calibration that keeps it busy ends, and whether it holds an armed parity error. `queued` says that an MCAL waits for a beat or a
WLOAD in flight on it, and `monAt` is the wall cycle of the monitor's last calibration of it. -/
structure ArrState where
  calAt    : Option Nat
  busy     : Option Nat
  parity   : Bool
  queued   : Bool := false
  monAt    : Option Nat := none
  deriving DecidableEq, Repr

/-- Why data is uncorrectable when it is read (the source rows of R376); a line of the L1 by an address in it. -/
inductive BadSource where
  | regS | regVWritten | regVOld | l1Clean (addr : Nat) | l1Dirty (addr : Nat) | memory (place : Place) (addr : Nat) | parity
  deriving DecidableEq, Repr

/-- An engine operation outstanding on the core (R322): kind by R381 (1 CPY, 2 CPYX, 3 FPUT, 4 FGET,
5 COLL, 6 CMBPUT, 7 WLOAD), token register, counter, what it will write, and the token it will write. -/
structure EngineOp where
  kind   : Nat
  tok    : Reg
  ctr    : Option (BitVec 3)
  scope  : BitVec 3
  pieces : List Piece
  status : Nat
  bytes  : Nat
  flags  : BitVec 11
  trapOn : Bool
  desc   : List Byte
  va     : Addr
  image  : List Byte
  handle : Word
  pos    : Nat
  group  : Nat
  node   : BitVec 16
  /-- lines with a check value that fails (R442, R443): where a copy moves such a line whole, and which lines a put read -/
  carry  : List (Nat × BitVec 32)
  /-- of a copy: the flags of each element that `pieces` holds -/
  each   : List (BitVec 11) := []
  /-- of a copy that has stopped at a cursor (R329, R381): the destination bytes complete, the flags of their elements, and the ranges
  of global memory that they were written to -/
  cursor : Nat := 0
  early  : BitVec 11 := 0
  wrote  : List (Nat × Nat) := []
  deriving DecidableEq, Repr

/-- An operation whose result is interlocked (R154). -/
inductive Outstanding where
  /-- a load with what it will write, or the error that its data carries, with the address formed (R189) -/
  | load (w : Write) (bad : Option (BadSource × Nat))
  /-- a division: opcode, operands, destination, taint (R127, R193) -/
  | division (op : Nat) (x y : Word) (d : Reg) (t : Option Taint)
  /-- an atomic not yet performed (R136): place, bytes, operation (12 for CAS), operand, expected value, the address formed, and the
  stores that its address promises (R127) -/
  | atomic (place : Place) (addr : Nat) (w : Nat) (op : Nat) (v e : Word) (d : Option Reg) (scope : BitVec 3) (ea : Nat) (fl : List Nat)
  /-- the status or item of a queue instruction (R335, R336) -/
  | queue (d : Reg) (v : Word) (a : Option Reg) (st : Word)
  /-- an engine operation (R322) -/
  | engine (e : EngineOp)
  deriving DecidableEq, Repr

/-- A token written and not yet read (R131): the register, the trap its first read raises, the operation's scope, and the
destination ranges in global memory that its first read acquires. -/
structure Token where
  reg  : Reg
  trap : Option Nat
  scope : BitVec 3
  ranges : List (Nat × Nat)
  deriving DecidableEq, Repr

/-- A K-space or D-space store that has issued and not landed (R120). -/
structure Landing where
  pieces : List Piece
  deriving DecidableEq, Repr

/-- Where the code of a unit lies (R146, R182): the task's or the monitor's NATV section. -/
structure CodeSrc where
  valid : Bool
  dict  : Addr
  dlen  : Nat
  code  : Addr
  clen  : Nat
  deriving DecidableEq, Repr

/-- The running signature of the block (R149 to R151): expected value, whether it is checked, whether the
next bundle must carry blk, and whether no block has ended before it (an entry, R150). -/
structure SigState where
  crc     : BitVec 16
  expect  : BitVec 16
  checked : Bool
  needBlk : Bool
  entry   : Bool
  /-- after a return (R223, R373): computed and expected signature of the checked block that the trap cut short, which is compared
  when the bundle returned to begins a block (R151; log 24) -/
  cut     : Option (BitVec 16 × BitVec 16) := none
  deriving DecidableEq, Repr

/-- What entry into a handler or the monitor saves (R220, R369). Results keep their remaining latency. -/
structure EntrySave where
  pstack : List PredEntry
  sig    : SigState
  fmt    : FmtState
  results : List Result
  replay : Option Replay
  /-- BOUNDs due at the boundary at which the entry took place, which come again on return (R253, R367) -/
  bound  : List (Nat × BitVec 4) := []
  deriving DecidableEq, Repr

/-- The entry state of a segment (R375). -/
structure SegSave where
  s      : Vector Word 32
  a      : Vector Addr 16
  staint : Vector (Option Taint) 32
  ataint : Vector (Option Taint) 16
  pstack : List PredEntry
  sticky : BitVec 11
  tflags : Word
  fmt    : FmtState
  bounds : Vector Bound 16
  shapes : Vector Shape 16
  tol    : Vector Word 56
  nest   : Option Nest
  replay : Option Replay
  phint  : Option (Nat × Nat × Nat)
  rdvseq : BitVec 32
  sig    : SigState
  deriving DecidableEq, Repr

/-- An open static schedule segment (R374 to R376). -/
structure Segment where
  entry   : Pos
  tries   : Nat
  save    : SegSave
  stores  : List Held
  journal : List (Reg × VReg)
  words   : List Word
  epochs  : BitVec 4
  again   : BitVec 4
  tilesW  : BitVec 4
  feederMoved : Bool
  /-- poisoned places read in the segment (R376) -/
  seen    : List (Place × Nat)
  /-- how many of the outstanding operations issued before the segment -/
  pre     : Nat
  /-- τ at the entry -/
  tau0    : Nat
  /-- a rewind has happened and the entry bundle issues again -/
  redo    : Bool
  deriving DecidableEq, Repr

/-- What a launch and its gang give a task (R41, R43, R49). -/
structure TaskInfo where
  part    : Nat
  slot    : Nat
  lid     : Nat
  gang    : Nat
  index   : Word
  gx      : BitVec 32
  gy      : BitVec 32
  gz      : BitVec 32
  cidx    : BitVec 7
  gsize   : BitVec 8
  cx      : BitVec 32
  cy      : BitVec 32
  cz      : BitVec 32
  param   : Addr
  seed    : Word
  mer     : Bool
  pers    : Bool
  spawned : Bool
  trapRej : Bool
  code    : CodeSrc
  spill   : Addr
  foot    : Nat
  domeBytes : Nat
  domeBase : Nat
  barriers : Nat
  metas   : List Byte
  entryFmt : Word
  shchk   : Bool
  /-- where the task starts, with which arguments, its handler position, trap routing and handler table (R41, R49,
  R182, R365, R388); a restart takes them again (R42) -/
  entry   : Pos
  args    : List Word
  handlerPos : BitVec 32
  route   : Word
  htab    : Addr
  deriving DecidableEq, Repr

/-- The privileged registers of a core (R363, R364, R427) and of a queue processor (R395, R396). -/
structure Mon where
  mode    : Bool
  tvalid  : Bool
  saved   : Bool
  thnd    : Bool
  mcause  : Word
  mtpc    : BitVec 32
  minfo   : Word
  mvec    : BitVec 32
  mcode   : Addr
  csave   : Addr
  troute  : Word
  mscr    : Vector Word 4
  mhtab   : Addr
  lcal    : BitVec 32
  calper  : BitVec 32
  bpc     : Vector Word 8
  wpa     : Vector Addr 4
  wpc     : Vector Word 4
  xlBusy  : Bool
  xlWin   : BitVec 6
  dwWin   : BitVec 6
  dwStat  : BitVec 2
  dwdesc  : Addr
  active  : Bool
  take    : Bool
  parts   : BitVec 8
  qhb     : Word
  qhbAt   : Nat
  failed  : Bool
  /-- PSTBL0 to PSTBL7 of a queue processor (R395) -/
  pstbl   : Vector Addr 8
  deriving DecidableEq, Repr

/-- A cached leaf (R420): context, page number at the level, level, entry low quadword. -/
structure Cached where
  ctx  : BitVec 12
  page : Nat
  lvl  : Nat
  low  : Nat
  deriving DecidableEq, Repr

/-- A cached non-leaf entry (R420): context, level, the VA above the table that it names, entry low quadword. -/
structure CachedNode where
  ctx  : BitVec 12
  lvl  : Nat
  pre  : Nat
  low  : Nat
  deriving DecidableEq, Repr

/-- A unit that issues bundles, with the task it runs: everything of R17's slot and core levels. -/
structure Core where
  /-- the resident task (R30); none on an idle core -/
  task    : Option TaskInfo
  stopped : Bool
  /-- the code position (R147) -/
  pos     : Pos
  code    : CodeSrc
  s       : Vector Word 32
  a       : Vector Addr 16
  v       : Vector VReg 32
  staint  : Vector (Option Taint) 32
  ataint  : Vector (Option Taint) 16
  /-- the predicate stack, top entry first (R200) -/
  pstack  : List PredEntry
  /-- the stack after the pushes of the bundle that issues (R201); MODEL -/
  pnext   : Option (List PredEntry)
  /-- the stack of a PWR of the bundle that issues (R203); MODEL -/
  pwr     : Option (List PredEntry)
  /-- the target of a transfer of the bundle that issues (R208); MODEL -/
  target  : Option Pos
  /-- the position after the bundle that issues (R147); MODEL -/
  seqPos  : Pos
  /-- the `pop` and the number of pushes of the bundle that issues (R189); MODEL -/
  curPop  : BitVec 2
  curPushes : Nat
  /-- the bundle has issued and its late operations act (R220); MODEL -/
  late    : Bool
  /-- the random word taken by the bundle that issues (R69); MODEL -/
  word    : Option Word
  /-- entries popped from each result queue by the bundle that issues (R288); MODEL -/
  popped  : Vector Nat 4
  /-- flags ORed into STICKY in the present τ cycle (R173); MODEL -/
  flagsNow : BitVec 11
  results : List Result
  outst   : List Outstanding
  tokens  : List Token
  /-- schedule time (R152) -/
  tau     : Nat
  /-- wall cycles since device reset (R353) -/
  wall    : Nat
  /-- slot occupancy: the τ at which the A, V0, V1 slots are free (R157, R315) -/
  busyA   : Nat
  busyV0  : Nat
  busyV1  : Nat
  sig     : SigState
  sticky  : BitVec 11
  tflags  : Word
  fmt     : FmtState
  tcause  : Word
  tinfo   : Word
  tpc     : BitVec 32
  thandler : BitVec 32
  cycle   : Word
  burstcnt : BitVec 32
  spawns  : Nat
  evt     : Bool
  owesTrig : Bool
  /-- the generation of the task's last arrival at each barrier (R341) -/
  arrivals : List (Nat × Nat)
  handler : Option EntrySave
  monSave : Option EntrySave
  /-- the copy made by MCTX.save in this handler entry (R298) -/
  mcopy   : Option MatCtx
  /-- MCTX.save has been issued in this handler entry, and neither .restore nor .keep after it (R223, R298) -/
  msaved  : Bool
  mdue    : Bool
  mat     : MatCtx
  banks   : Vector Bank 2
  live    : Bool
  arrays  : Vector ArrState 8
  bounds  : Vector Bound 16
  shapes  : Vector Shape 16
  tol     : Vector Word 56
  nest    : Option Nest
  replay  : Option Replay
  counters : Vector (Nat × BitVec 3) 8
  rbq     : List Word
  rbkey   : Word
  rbctr   : Word
  lanes   : Mem
  spad    : Mem
  streams : Vector (List Lane) 4
  seg     : Option Segment
  rewinds : BitVec 16
  rdvseq  : BitVec 32
  /-- the hold that the task sets by a rewind (R377) -/
  hold    : Option (BitVec 32)
  /-- the structural wait that an M-slot operation adds has been served for the bundle that issues (R288,
  R292, R293); MODEL -/
  served  : Bool
  /-- an uncorrectable error consumed by an issued beat, acted on before the next bundle (R98, R376) -/
  badDue  : Option BadSource
  /-- a waiting DEQT: the wall cycle at which its wait ends, and whether it has (R336) -/
  deqtAt  : Option (Nat × Bool)
  phint   : Option (Nat × Nat × Nat)
  /-- the present window of 256 wall cycles, and the beats that have landed in it (R353) -/
  window : Nat
  burstBeats : Nat
  /-- an overrun of the present window is in BURSTCNT already, its task having left (R353) -/
  burstPaid : Bool
  /-- the window before overran its allowance, so that beats of the present one are held at its own (R353) -/
  burstHeld : Bool
  /-- the window of the last fully digital beat, and its fully digital beats so far (R25) -/
  digital : Nat × Nat
  /-- stores to global memory not yet published, oldest first (R120) -/
  dirty   : List GStore
  /-- the stores that the task has acquired, and its own published ones (R121, R122) -/
  view    : List Nat
  /-- stores acquired for some bytes only: number, address, length (R122) -/
  part    : List (Nat × Nat × Nat)
  /-- values read: address and store (R121, R123) -/
  raced   : List (Nat × Nat)
  /-- the stamp of the latest acquire, and of later ones on named buffers: address, length, stamp (R123) -/
  phase   : Nat
  bufs    : List (Nat × Nat × Nat)
  /-- the lines that the L1 holds, each with its recorded scope: 0 for a dirty one (R116) -/
  l1      : List (Nat × Nat)
  /-- the translation cache of the core (R420) -/
  tlb     : List Cached
  landing : List Landing
  /-- a TILECK is raised again before the first bundle (R107) -/
  reraise : Bool
  /-- the bundle at the position issues once without a breakpoint match (R383) -/
  noBreak : Bool
  /-- BOUND traps due before the next bundle, each with when its operation issued (R253) -/
  boundDue : List (Nat × BitVec 4)
  /-- drained: the core takes no new work (R382) -/
  draining : Bool
  /-- an operation that acts once its bundle has issued, and still waits (R214, R373); MODEL -/
  owed : Option Instr
  /-- the wall cycle at which the present rendezvous wait began (R377) -/
  waitFrom : Option Nat
  /-- the wall cycle at which the present wait at a barrier began (R45) -/
  barFrom : Option Nat
  /-- macros, by 4 times the bank plus their number, that MFBK has put into fallback for the task (R98) -/
  fbk     : BitVec 8
  /-- a pre-emption that waits for operations which complete first: policy, tokens, cause (R382, R401) -/
  preempt : Option (Nat × Nat × Nat)
  /-- the instruction memory of a queue processor, 512 KiB (R395) -/
  imem    : Mem
  mon     : Mon
  deriving DecidableEq, Repr

/-- A partition (R21, R404 to R406, R446, R454). -/
structure Partition where
  state    : Nat
  port     : Nat
  clusters : BitVec 8
  taskArea : Addr
  spillPool : Addr
  spillStride : Nat
  freeAreas : List Addr
  shares   : List Nat
  tableSize : Nat
  ctx      : BitVec 12
  drainWindow : Nat
  killAt   : Nat
  aging    : Nat
  waitMax  : Nat
  worst    : Nat
  fenceGrade : Nat
  claimed  : Nat
  completed : Nat
  burst    : Nat
  ready    : List Nat
  kicks    : BitVec 256
  spawnedLive : Nat
  monitor  : BitVec 256
  /-- when the partition was created (R438) -/
  created  : Nat
  deriving DecidableEq, Repr

/-- A scheduler entry (R393): states 0 WAITING, 1 READY, 2 SUBMITTED, 3 DONE. `tasksLeft` counts the
tasks not ended, `toStart` the gangs not started, `owed` the trigger obligations. -/
structure SchedEntry where
  part    : Nat
  lid     : Nat
  counter : Int
  set     : Bool
  record  : List Byte
  va      : Addr
  failed  : Bool
  state   : Nat
  started : Nat
  gangs   : Nat
  tasksLeft : Nat
  owed    : Nat
  triggered : Bool
  failCause : Option Nat
  burst   : Nat
  age     : Nat
  /-- its place in the order in which work of equal age became ready (R406) -/
  turn    : Nat := 0
  /-- the dome and the base of the launch's dome-scratchpad allocation (R20) -/
  dome    : Option (Nat × Nat)
  deriving DecidableEq, Repr

/-- A gang that has started (R43, R44): its tasks' slots by logical core index, its cluster, its barriers
as (generation, arrived CIDX values, parties completed). -/
structure Gang where
  id      : Nat
  part    : Nat
  lid     : Nat
  index   : Nat
  cluster : Nat
  slots   : List Nat
  ended   : List Nat
  bars    : List (Nat × List Nat)
  deriving DecidableEq, Repr

/-- A task slot of a partition (R404): the record fields of R30 to R32, the state kept while the task is not
resident, and where its footprint image lives. `st` takes the codes of R32. -/
structure TaskSlot where
  part    : Nat
  slot    : Nat
  info    : TaskInfo
  st      : Nat
  why     : Nat
  qnum    : Nat
  dreg    : Reg
  cpos    : Pos
  ckpt    : Bool
  foot    : Bool
  evt     : Bool
  kept    : Option Core
  area    : Option Addr
  /-- the queue on which its DEQT, or a DEQ that is about to suspend, waits (R48), and the item that the wait was given, with its
  queue (R336) -/
  deqtQ   : Option Nat
  deqtGot : Option (Nat × Word)
  lastCore : Option Nat
  resumes : Nat
  age     : Nat
  /-- its place in the order in which work of equal age became ready (R406) -/
  turn    : Nat := 0
  deriving DecidableEq, Repr

/-- A hardware queue (R334): capacity, items from the head, waiting task slots in order (R48). -/
structure HwQueue where
  part    : Nat
  q       : Nat
  cap     : Nat
  store   : Addr
  items   : List Word
  waiters : List Nat
  deriving DecidableEq, Repr

/-- A combine slot (R346 to R349). States: 0 free, 1 open, 2 complete and its record held. `outcome` is the
state CMBPOLL reports after release (R350). -/
structure CmbSlot where
  state   : Nat
  gen     : BitVec 14
  token   : BitVec 32
  k       : Nat
  dest    : Addr
  deadline : Nat
  gates   : List Lane
  bitmap  : BitVec 16
  rows    : List (Nat × List Byte)
  /-- its place among the opens, and among the completions, of its buffer (R349) -/
  order   : Nat
  done    : Nat
  /-- the task slot of the task that opened it, while that task has not ended (R350) -/
  opener  : Option Nat
  ctx     : BitVec 12
  record  : Word
  outcome : Nat
  told    : Bool
  /-- opened in Meridian mode (R351) -/
  mer     : Bool
  deriving DecidableEq, Repr

/-- The combine buffer of a context in a dome (R345). -/
structure Combine where
  ctx     : BitVec 12
  dome    : Nat
  part    : Nat
  word    : Word
  off     : Nat
  slots   : List CmbSlot
  discards : BitVec 32
  seq     : Nat
  opens   : Nat
  /-- a record is held for lack of a configured queue, and that is logged (R349) -/
  stalled : Bool
  deriving DecidableEq, Repr

/-- A collective group (R342, R454) and the participants that have joined, with their descriptors. -/
structure CollGroup where
  group   : Nat
  members : List Participant
  joined  : List (Nat × Nat × Nat × List Byte)
  deriving DecidableEq, Repr

/-- An Observing Log entry (R437). -/
structure LogEntry where
  seq   : Nat
  time  : Nat
  code  : BitVec 16
  grade : Nat
  unit  : Nat
  index : Nat
  resets : Nat
  p0    : Word
  p1    : Word
  ctx   : Nat
  part  : Nat
  deriving DecidableEq, Repr

/-- What the dispatch hardware keeps when completions are held (R409): a completion with the launch, or a
trigger event. -/
inductive Signal where
  | completion (part lid status : Nat)
  | trigger (part lid : Nat)
  deriving DecidableEq, Repr

/-- A bound dome-scratchpad window (R428): number, context, range VA, pages, D offset, recorded PAs, and the leaves (low quadwords)
of its pages when it was bound, whose permissions go on where software has unmapped a page (R429). -/
structure Window where
  win   : BitVec 6
  ctx   : BitVec 12
  va    : Addr
  pages : Nat
  off   : Nat
  pas   : List Nat
  lows  : List Nat
  deriving DecidableEq, Repr

/-- A store that has landed in a task's scratchpad through the K space, or in a dome scratchpad (R120): where, who issued it, and the
stamp of the release that has published it. -/
structure FarStore where
  place  : Place
  addr   : Nat
  len    : Nat
  issuer : Agent
  rel    : Option Nat
  deriving DecidableEq, Repr

/-- A dome (R19, R395 to R410, R426, R428, R430 to R432, R437, R440). -/
structure Dome where
  spad     : Mem
  log      : List LogEntry
  logSeq   : Nat
  hold     : Bool
  held     : List Signal
  qjbase   : Addr
  qjseq    : Nat
  takeAt   : Option Nat
  /-- a takeover makes every partition that the dome serves FENCED, which the same step does (R408); MODEL -/
  fenceDue : Bool
  /-- takeovers since device reset (R396) -/
  tkcnt    : BitVec 4
  standby  : Bool
  /-- the event latch of the active queue processor (R397) -/
  qpEvent  : Bool
  defer    : List (BitVec 12 × Addr)
  /-- pages that the migration engine is asked to move: context, page VA, tier (R403) -/
  migq     : List (BitVec 12 × Addr × Nat)
  windows  : List Window
  spares   : List (Nat × Nat)
  tierGrade : Nat
  scrub    : Vector (BitVec 32) 3
  /-- scrub passes completed and corrections per tier, and when the last pass was completed (R438, R440, R444) -/
  passes   : Vector Nat 3
  corrected : Vector Nat 3
  passAt   : Vector (Option Nat) 3
  linePins : List (BitVec 12 × Nat)
  /-- the layers that command-bus errors have fenced (R431) -/
  layers   : List Nat
  /-- the encrypted page whose tag the scrubber recomputes: its address, the stamp at which the attempt began, the attempt (R441) -/
  tagScan  : Option (Nat × Nat × Nat)
  /-- the lines that the L2 holds, each with its recorded scope, and whether it is dirty (R116, R117) -/
  l2       : List (Nat × Nat × Bool)
  deriving DecidableEq, Repr

/-- A column temperature sensor (R459): states 0 valid, 1 failed, 2 stuck; the interval of 12,000,000 cycles that it is in: its
start, the least and the greatest reading since, and the cluster's power then. -/
structure Sensor where
  reading : Int
  state   : Nat
  span    : Option (Nat × Int × Int × Nat) := none
  deriving DecidableEq, Repr

/-- A cluster (R17, R407, R461). Rate: 0 full, 1 half, 2 stopped. -/
structure Cluster where
  /-- the cluster's translation caches: leaves and non-leaf entries (R420) -/
  leaves  : List Cached
  nodes   : List CachedNode
  sensors : Vector Sensor 16
  rate    : Nat
  lockHalf : Bool
  lastStart : Option Nat
  coldPending : List (Nat × Nat)
  offline : BitVec 128
  grade   : Nat
  deriving DecidableEq, Repr

/-- A host port (R449 to R453). -/
structure Port where
  ready   : Bool
  /-- MBXREQ (R449, R453), 4 KiB -/
  req     : Mem
  rsp     : List Byte
  busy    : Bool
  done    : Bool
  ovr     : Bool
  winbase : Word
  units   : List Nat
  up      : Bool
  /-- completions of host reads: PA, bytes, poisoned; none of bytes is Unsupported Request (R443, R451) -/
  reads   : List (Nat × Option (List Byte × Bool))
  /-- pending MSI-X vectors, and the MSI-X table (R449) -/
  msix    : BitVec 64
  msixTable : Mem
  deriving DecidableEq, Repr

/-- A forwarding entry of a core (R40), and the time at which it ends. -/
structure Forward where
  core : Nat
  part : Nat
  slot : Nat
  till : Nat
  deriving DecidableEq, Repr

/-- What leaves on the Verby ports (R134, R347, R455): the node, the context, and the bytes of an FPUT with their remote VAs, the
VAs and lengths that an FGET asks for, the bytes that answer one, or the row of a CMBPUT with its handle and position. -/
inductive Frame where
  | put (node : BitVec 16) (ctx : BitVec 12) (data : List (Nat × List Byte))
  | get (node : BitVec 16) (ctx : BitVec 12) (reads : List (Nat × Nat))
  | reply (node : BitVec 16) (data : List Byte)
  | row (node : BitVec 16) (ctx : BitVec 12) (handle : Word) (pos : Nat) (data : List Byte)
  deriving DecidableEq, Repr

/-- A cluster that aged work of a partition has chosen (R53, R406): a gang of a launch, or the task of a slot. -/
structure Reserve where
  part    : Nat
  lid     : Nat
  slot    : Option Nat
  cluster : Nat
  deriving DecidableEq, Repr

/-- Meridian work that waits for a drawn core which is busy (R56): a gang of a launch, by its first task index, or the task of a
slot; and since when. -/
structure MerWait where
  part  : Nat
  lid   : Nat
  slot  : Option Nat
  index : Word
  since : Nat
  deriving DecidableEq, Repr

/-- The rest of the device. -/
structure Device where
  /-- the memory tiers and host memory as published at SYSTEM scope (R120, R419) -/
  mem      : Mem
  /-- stores to global memory in coherence order (R124), and the contents below the first of them -/
  hist     : List GStore
  base     : Mem
  /-- numbers of stores, the stamp of the last boundary, and the visible set of each release (R119, R121) -/
  nextStore : Nat
  stamp    : Nat
  rels     : List (Nat × List Nat)
  /-- the stores that stand in scratchpads of tasks and domes, oldest first (R120, R127) -/
  far      : List FarStore
  /-- ranges marked poisoned: place, address, length (R376, R431, R441) -/
  poison   : List (Place × Nat × Nat)
  /-- the check values of 64-byte lines that are not the CRC-32C of their bytes (R442) -/
  checks   : List (Nat × BitVec 32)
  contexts : List (BitVec 12 × List Byte)
  keys     : List Byte
  /-- the data and MAC keys of the key ids that are loaded (R441, R454) -/
  keyData  : List (Byte × BitVec 128 × BitVec 128)
  /-- pages held encrypted whose integrity tag is not the XOR of the MACs of their lines, with the difference (R441; log 99) -/
  tags     : List (Nat × BitVec 64)
  /-- the ports whose submissions wait for the custodian, in the order of their arrival (R453) -/
  mbx      : List Nat
  /-- the last 256 graded events of every dome, oldest first (R444) -/
  graded   : List LogEntry
  /-- an image failed its signature at bring-up (R463) -/
  bootFailed : Bool
  /-- leaves that accesses have used since an XLINV last dropped them: what tells which lines of L1 and L2 belong to a page (R422) -/
  leavesUsed : List Cached
  /-- walks made, which number the free choices of R417; MODEL -/
  walks    : Nat
  /-- pinned pages: context, level, page number at the level, count (R312) -/
  pins     : List (BitVec 12 × Nat × Nat × Nat)
  /-- the dome whose cores last loaded a macro image: context, 2 MiB group, dome (R423) -/
  images   : List (BitVec 12 × Nat × Nat)
  parts    : Vector Partition 8
  slots    : List TaskSlot
  gangs    : List Gang
  nextGang : Nat
  entries  : List SchedEntry
  queues   : List HwQueue
  combines : List Combine
  groups   : List CollGroup
  domes    : Vector Dome 4
  clusters : Vector Cluster 8
  ports    : Vector Port 2
  forwards : List Forward
  tmult    : List (Nat × Nat)
  powerLimit : Nat
  /-- averages over 1 ms and over 1 s, watts (R462) -/
  powerAvg : Nat
  powerSec : Nat
  /-- f in sixteenths (R462) -/
  powerF   : Nat
  node     : BitVec 16
  routes   : List Route
  vports   : BitVec 16
  egress   : List Frame
  resets   : Nat
  monLoads : Nat
  ready    : Bool
  almGen   : Nat
  /-- the snapshot that the ports show at BAR2 (R444) -/
  almanac  : Mem
  almPosts : List (Nat × Word × Nat)
  time     : Nat
  lastCold : List (Nat × Nat)
  /-- how often work has become ready (R406) -/
  turns    : Nat := 0
  reserved : List Reserve
  /-- Meridian work that waits for a busy drawn core (R56) -/
  merWaits : List MerWait
  /-- whether a window that starts is granted headroom, from which time on, latest first (R462) -/
  headroom : List (Nat × Bool)
  deriving DecidableEq, Repr

/-- A trap that a meaning has taken (R366, R367): code, slot code of TCAUSE.SLOT, detail. `after` marks a
trap that arises once its bundle has issued (R221). Code 0 stands for a rewind in the place of a trap (R376). -/
structure Trap where
  code  : Nat
  slot  : Nat
  info  : Word
  after : Bool := false
  deriving DecidableEq, Repr

/-- What the last meaning did: it took effect, it took a trap, it waits in a structural stall until τ
(R152), or it waits in a dynamic stall for another party or an outstanding operation. MODEL. -/
inductive Verdict where
  | issued
  | trapped (t : Trap)
  | waitTau (t : Nat)
  | waits
  deriving DecidableEq, Repr

/-- What is due before the focused unit issues again: another unit takes the focus, or an event happens
with its operands. MODEL (log 6). -/
inductive Due where
  | focus (u : Agent)
  | event (i : Instr) (d : EventData)
  deriving DecidableEq, Repr

/-- The state of the device. -/
structure State where
  focus  : Agent
  core   : Core
  parked : List (Agent × Core)
  dev    : Device
  agenda : List Due
  ev     : EventData
  last   : Verdict
  /-- the number of free values used so far. MODEL (log 5). -/
  free   : Nat
  /-- the number of racing accesses so far, which number the free choices of R123. MODEL (log 10). -/
  reads  : Nat
  deriving DecidableEq, Repr

end Sys2Proof.Machine

namespace Sys2Proof

/-- The form that device state of a task takes in the bytes of a save area marked *device* (R379, R380): the byte at an offset (log 22). -/
opaque Config.deviceForm : Machine.Core → Nat → Byte

/-- The device state that this revision makes of device bytes which it has not written (R379; log 22). -/
opaque Config.deviceState : List Byte → Option Machine.Core

end Sys2Proof

namespace Sys2Proof.Machine

/-- The FMT value of R83's Reset column. -/
def fmtReset : Word := 0x0B0B

/-- The Reset values of a bound register (R301). -/
def Bound.reset : Bound := { lo := 0xFF800000, hi := 0x7F800000, fmt := 0, act := 0 }

/-- The Reset values of a shape entry (R216). -/
def Shape.reset : Shape := { dims := 0, sizes := Vector.replicate 5 1 }

/-- The tolerance table entry of R102's Reset column. -/
def tolReset : Word := 0x3480000000000000

/-- The zero row (R269). -/
def Row.zero : Row := { finite := true, exps := Vector.replicate 16 0, mags := Vector.replicate 256 0, neg := 0, marked := false }

/-- The unconfigured feeder (R269). -/
def Feeder.reset : Feeder := { desc := none, pos := 0, pp := 0, rp := 0, lrow := Row.zero, pre := [] }

/-- The Reset values of R282. -/
def TileData.reset : TileData :=
  { elems := Vector.replicate 4096 0, sides := Vector.replicate 4096 0, rowCheck := Vector.replicate 16 0,
    rowSide := Vector.replicate 16 0, sumRow := Vector.replicate 256 ⟨0, 0⟩, ovc := 0, clip := 0 }

/-- A tile at task start (R282). -/
def Tile.reset : Tile := { data := TileData.reset, override := false, epoch := none }

/-- The matrix context at task start (R41, R104, R287). -/
def MatCtx.reset : MatCtx :=
  { tiles := Vector.replicate 4 Tile.reset, feeder := Feeder.reset, queues := Vector.replicate 4 [], drains := [],
    beats := [], ckstat := 0, ckloc := 0, fault := none }

/-- A bank that no WLOAD has filled (R23). -/
def Bank.reset : Bank :=
  { planes := [], gw := Vector.replicate 64 0, ck := Vector.replicate 1024 0, fmt := none, va := none }

/-- An array at device reset (R95): uncalibrated. -/
def ArrState.reset : ArrState := { calAt := none, busy := none, parity := false }

/-- No code (log 2). -/
def CodeSrc.none : CodeSrc := { valid := false, dict := 0, dlen := 0, code := 0, clen := 0 }

/-- The signature state at a transfer target (R150): the next bundle starts a block. -/
def SigState.start : SigState := { crc := 0xFFFF, expect := 0, checked := false, needBlk := false, entry := false }

/-- The privileged registers at device reset (R363 to R365, R384, R396, R427; the rest log 1). -/
def Mon.reset : Mon :=
  { mode := false, tvalid := false, saved := false, thnd := false, mcause := 0, mtpc := 0, minfo := 0, mvec := 0,
    mcode := 0, csave := 0, troute := 0, mscr := Vector.replicate 4 0, mhtab := 0, lcal := 0x40000000, calper := 0,
    bpc := Vector.replicate 8 0, wpa := Vector.replicate 4 0, wpc := Vector.replicate 4 0x18, xlBusy := false, xlWin := 0,
    dwWin := 0, dwStat := 0, dwdesc := 0, active := false, take := false, parts := 0, qhb := 0, qhbAt := 0,
    failed := false, pstbl := Vector.replicate 8 0 }

/-- A core with no task at device reset. -/
def Core.reset : Core :=
  { task := none, stopped := false, pos := 0, code := CodeSrc.none, s := Vector.replicate 32 0, a := Vector.replicate 16 0,
    v := Vector.replicate 32 (Vector.replicate 1024 0), staint := Vector.replicate 32 none, ataint := Vector.replicate 16 none,
    pstack := [], pnext := none, pwr := none, target := none, seqPos := 0, curPop := 0, curPushes := 0, late := false, word := none,
    popped := Vector.replicate 4 0, flagsNow := 0, results := [], outst := [], tokens := [], tau := 0, wall := 0,
    busyA := 0, busyV0 := 0, busyV1 := 0, sig := SigState.start, sticky := 0, tflags := 0, fmt := ⟨fmtReset, []⟩, tcause := 0,
    tinfo := 0, tpc := 0, thandler := 0, cycle := 0, burstcnt := 0, spawns := 0, evt := false, owesTrig := false, arrivals := [],
    handler := none, monSave := none, mcopy := none, msaved := false, mdue := false, mat := MatCtx.reset,
    banks := Vector.replicate 2 Bank.reset, live := false, arrays := Vector.replicate 8 ArrState.reset,
    bounds := Vector.replicate 16 Bound.reset, shapes := Vector.replicate 16 Shape.reset, tol := Vector.replicate 56 tolReset,
    nest := none, replay := none, counters := Vector.replicate 8 (0, 0), rbq := [], rbkey := 0, rbctr := 0, lanes := [], spad := [],
    streams := Vector.replicate 4 [], seg := none, rewinds := 0, rdvseq := 0, hold := none, served := false, badDue := none, deqtAt := none, phint := none, window := 0, burstBeats := 0, burstPaid := false,
    burstHeld := false, digital := (0, 0), dirty := [], view := [], part := [], raced := [], phase := 0, bufs := [], l1 := [], tlb := [], landing := [], reraise := false, noBreak := false, boundDue := [], draining := false, owed := none, waitFrom := none,
    barFrom := none, fbk := 0, preempt := none, imem := [],
    mon := Mon.reset }

/-- A partition that does not exist, with the dispatch parameters of R406's Reset column. -/
def Partition.absent : Partition :=
  { state := 0, port := 0, clusters := 0, taskArea := 0, spillPool := 0, spillStride := 0, freeAreas := [],
    shares := [], tableSize := 0, ctx := 0, drainWindow := 4194304, killAt := 1024, aging := 16777216, waitMax := 65536,
    worst := 0, fenceGrade := 1, claimed := 0, completed := 0, burst := 0, ready := [], kicks := 0, spawnedLive := 0, monitor := 0, created := 0 }

/-- A dome at device reset: two queue processors, an empty log, the scrub periods of R440, two spares on
each bus (R432). -/
def Dome.reset : Dome :=
  { spad := [], log := [], logSeq := 0, hold := false, held := [], qjbase := 0, qjseq := 0, takeAt := none, fenceDue := false,
    tkcnt := 0, standby := true, qpEvent := false, defer := [], migq := [], windows := [], spares := [], tierGrade := 0, scrub := Vector.replicate 3 4096,
    passes := Vector.replicate 3 0, corrected := Vector.replicate 3 0, passAt := Vector.replicate 3 none, linePins := [], layers := [], tagScan := none, l2 := [] }

/-- A cluster at device reset. -/
def Cluster.reset : Cluster :=
  { leaves := [], nodes := [], sensors := Vector.replicate 16 { reading := 0, state := 0 }, rate := 0, lockHalf := false, lastStart := none, coldPending := [],
    offline := 0, grade := 0 }

/-- A host port at device reset (R449). -/
def Port.reset : Port :=
  { ready := false, req := [], rsp := [], busy := false, done := false, ovr := false, winbase := 0, units := [], up := true, reads := [], msix := 0, msixTable := [] }

/-- The device at reset, with every partition ABSENT: bring-up has not set READY (R449, R465; log 31). -/
def Device.reset : Device :=
  { mem := [], hist := [], base := [], nextStore := 0, stamp := 0, rels := [], far := [], leavesUsed := [], poison := [], checks := [], contexts := [], keys := [], keyData := [], tags := [], mbx := [], graded := [], bootFailed := false, walks := 0, pins := [], images := [],
    parts := Vector.replicate 8 Partition.absent, slots := [], gangs := [], nextGang := 0, entries := [], queues := [],
    combines := [], groups := [], domes := Vector.replicate 4 Dome.reset, clusters := Vector.replicate 8 Cluster.reset,
    ports := Vector.replicate 2 Port.reset, forwards := [], tmult := [], powerLimit := 1900, powerAvg := 0, powerSec := 0, powerF := 16,
    node := 0, routes := [], vports := 0xFFFF, egress := [], resets := 0, monLoads := 0, ready := false, almGen := 0,
    almanac := [], almPosts := [], time := 0, lastCold := [], reserved := [], merWaits := [], headroom := [] }

/-- The cells of bytes from address `x` up, zeros left out. -/
def imageCells (x : Nat) : List Byte → Mem
  | [] => []
  | b :: bs => if b = 0 then imageCells (x + 1) bs else (x, b) :: imageCells (x + 1) bs

/-- Where the firmware's dictionary and code stream lie in a queue processor's instruction memory (R395). -/
def firmwareCode : CodeSrc :=
  { valid := true, dict := BitVec.ofNat 80 Config.firmwareParts.1, dlen := Config.firmwareParts.2.1,
    code := BitVec.ofNat 80 Config.firmwareParts.2.2.1, clen := Config.firmwareParts.2.2.2 }

/-- The instruction memory of a queue processor with the measured image in it (R395, R463). -/
def firmwareImage : Mem := imageCells 0 (Config.firmware.take 524288)

/-- A queue processor that the boot ROM has loaded (R395, R465): at the firmware's entry position, and not started. -/
def qpLoaded : Core :=
  { Core.reset with
    stopped := true, pos := Config.firmwareEntry, code := firmwareCode, imem := firmwareImage,
    sig := { SigState.start with expect := 0xFFFF, needBlk := true, entry := true } }

/-- The queue processors at device reset: the lower-numbered one of each dome is active, and starts with the end of bring-up, once
the signature of its image has been checked (R463, R465); the manual does not give the bytes of the firmware (log 3). -/
def qpReset (dome k : Nat) : Agent × Core :=
  (.qp dome k, { qpLoaded with mon := { Mon.reset with active := k == 0 } })

/-- The machine right after device reset: no task, no partition, READY clear, core 0 in focus (R7, R465; logs 6, 31). -/
def State.reset : State :=
  { focus := .core 0, core := Core.reset,
    parked := [qpReset 0 0, qpReset 0 1, qpReset 1 0, qpReset 1 1, qpReset 2 0, qpReset 2 1, qpReset 3 0, qpReset 3 1],
    dev := Device.reset, agenda := [], ev := {}, last := .issued, free := 0, reads := 0 }

end Sys2Proof.Machine
end

