-- ==== Sys2Proof/Machine/Bytes.lean ====
section
/-! DEFINITION. The named operations over sparse memories, and over little-endian bytes. -/

namespace Sys2Proof.Machine

/-- The byte at address `x`; an unlisted address reads as 0 (R41, R122; log 4). -/
def memGet : Mem → Nat → Byte
  | [], _ => 0
  | (a, b) :: m, x => if x = a then b else if x < a then 0 else memGet m x

/-- Write one byte, keeping the canonical form: a zero byte removes the entry. -/
def memSet : Mem → Nat → Byte → Mem
  | [], x, v => if v = 0 then [] else [(x, v)]
  | (a, b) :: m, x, v =>
    if x < a then (if v = 0 then (a, b) :: m else (x, v) :: (a, b) :: m)
    else if x = a then (if v = 0 then m else (x, v) :: m)
    else (a, b) :: memSet m x v

/-- Every listed address is above `lo`, and addresses rise strictly. -/
def risingFrom : List Host.Cell → Nat → Bool
  | [], _ => true
  | (a, _) :: m, lo => lo ≤ a && risingFrom m (a + 1)

/-- The canonical form of a memory: rising addresses and no zero byte. -/
def memWf (m : Mem) : Bool := risingFrom m 0 && m.all fun c => c.2 != 0

/-- The `n` bytes from address `x` up. -/
def memRead (m : Mem) (x : Nat) : Nat → List Byte
  | 0 => []
  | n + 1 => memGet m x :: memRead m (x + 1) n

/-- Write bytes from address `x` up. -/
def memWrite (m : Mem) (x : Nat) : List Byte → Mem
  | [] => m
  | b :: bs => memWrite (memSet m x b) (x + 1) bs

/-- The nonzero cells of bytes from address `x` up. -/
def cellsOf (x : Nat) : List Byte → List Host.Cell
  | [] => []
  | b :: bs => if b = 0 then cellsOf (x + 1) bs else (x, b) :: cellsOf (x + 1) bs

/-- Write a block of bytes from address `x` up in one pass. -/
def memPut (m : Mem) (x : Nat) (bs : List Byte) : Mem :=
  m.filter (fun c => c.1 < x) ++ cellsOf x bs ++ m.filter (fun c => x + bs.length ≤ c.1)

/-- The `n` bytes from address `x` up, in one pass over the cells. -/
def memRun : Mem → Nat → Nat → List Byte
  | [], _, n => List.replicate n 0
  | (a, b) :: m, x, n =>
    if a < x then memRun m x n
    else if x + n ≤ a then List.replicate n 0
    else List.replicate (a - x) 0 ++ b :: memRun m (a + 1) (n - (a + 1 - x))

/-- The cells of [lo, lo + n). -/
def cellsIn (m : List Host.Cell) (lo n : Nat) : List Host.Cell := m.filter fun c => lo ≤ c.1 && c.1 < lo + n

/-- The cells outside [lo, lo + n). -/
def cellsOut (m : List Host.Cell) (lo n : Nat) : List Host.Cell := m.filter fun c => !(lo ≤ c.1 && c.1 < lo + n)

/-- Copy the `n` bytes at `sb` of `src` to `db` of `dst`. -/
def memCopy (dst : Mem) (db : Nat) (src : Mem) (sb n : Nat) : Mem := memPut dst db (memRun src sb n)

/-- The little-endian number of a list of bytes (R3). -/
def leNat (bs : List Byte) : Nat := natOfBytes bs

/-- The bytes [off, off + n) of a list; missing bytes read as 0. -/
def sliceOf (bs : List Byte) (off n : Nat) : List Byte :=
  let t := (bs.drop off).take n
  t ++ List.replicate (n - t.length) 0

/-- The little-endian field of `n` bytes at `off` in a record. -/
def fieldAt (bs : List Byte) (off n : Nat) : Nat := leNat (sliceOf bs off n)

/-- The signed little-endian field of `n` bytes at `off` in a record. -/
def sfieldAt (bs : List Byte) (off n : Nat) : Int := sextInt (fieldAt bs off n) (8 * n)

/-- Every byte of [off, off + n) is zero. -/
def zeroAt (bs : List Byte) (off n : Nat) : Bool := (sliceOf bs off n).all fun b => b == 0

/-- Replace the bytes of a record at `off`. -/
def patch (bs : List Byte) (off : Nat) (new : List Byte) : List Byte :=
  bs.take off ++ new ++ bs.drop (off + new.length)

/-- Bit `k` of the little-endian bit stream of bytes (R57). -/
def streamBit (bs : List Byte) (k : Nat) : Bool := (bs.getD (k / 8) 0).getLsbD (k % 8)

/-- Element `i` of `w` bits of a bit stream (R57). -/
def streamElem (bs : List Byte) (w i : Nat) : Nat := leNat (sliceOf bs (w * i / 8) 6) / 2 ^ (w * i % 8) % 2 ^ w

/-- The little-endian bit stream of elements of `w` bits, as bytes (R57). -/
def packStream (w : Nat) (xs : List Nat) : List Byte :=
  bytesOfNat ((w * xs.length + 7) / 8) (xs.foldr (fun x acc => x % 2 ^ w + 2 ^ w * acc) 0)

/-- Replace the first element of a list that meets `p`. -/
def updateFirst {α : Type} (p : α → Bool) (f : α → α) : List α → List α
  | [] => []
  | x :: xs => if p x then f x :: xs else x :: updateFirst p f xs

end Sys2Proof.Machine
end

