-- ==== Sys2Proof/Machine/Checks.lean ====
section
/-! DEFINITION. The parts of the device (R19), its Observing Log (R437, R438), and the end-to-end check values of lines (R442, R443). -/

namespace Sys2Proof.Machine

/-- Dome `d` of the device. -/
def Device.dome (v : Device) (d : Nat) : Dome := v.domes[d % 4]'(Nat.mod_lt _ (by decide))

/-- Update a dome. -/
def Device.updDome (v : Device) (d : Nat) (f : Dome → Dome) : Device :=
  { v with domes := v.domes.set (d % 4) (f (v.dome d)) (Nat.mod_lt _ (by decide)) }

/-- Cluster `c` of the device. -/
def Device.cluster (v : Device) (c : Nat) : Cluster := v.clusters[c % 8]'(Nat.mod_lt _ (by decide))

/-- Update a cluster. -/
def Device.updCluster (v : Device) (c : Nat) (f : Cluster → Cluster) : Device :=
  { v with clusters := v.clusters.set (c % 8) (f (v.cluster c)) (Nat.mod_lt _ (by decide)) }

/-- Partition `p` of the device. -/
def Device.part (v : Device) (p : Nat) : Partition := v.parts[p % 8]'(Nat.mod_lt _ (by decide))

/-- Update a partition. -/
def Device.updPart (v : Device) (p : Nat) (f : Partition → Partition) : Device :=
  { v with parts := v.parts.set (p % 8) (f (v.part p)) (Nat.mod_lt _ (by decide)) }

/-- The dome of a unit (R19, R395). -/
def Agent.dome : Agent → Nat
  | .core p => p / 256 % 4
  | .qp d _ => d % 4

/-- The cluster of a core; a queue processor belongs to a dome and to no cluster (R395), and this number then only names the
first cluster of its dome. -/
def Agent.cluster : Agent → Nat
  | .core p => p / 128 % 8
  | .qp d _ => 2 * d % 8

/-- The partition that owns a cluster (R21): the lowest existing one whose mask holds it. -/
def Device.partOfCluster (v : Device) (c : Nat) : Option Nat :=
  (List.range 8).find? fun p => (v.part p).state != 0 && (v.part p).clusters.getLsbD c

/-- The partition that a party works for: that of a core's cluster (R21); 0xFF for a queue processor and for what is no unit. -/
def Device.partyPart (v : Device) (p : Party) : Nat :=
  match p with
  | .unit (.core n) | .engine (.core n) => (v.partOfCluster (n / 128 % 8)).getD 0xFF
  | _ => 0xFF

/-- The target ranges of R413: a physical address inside `[lo, hi)` of the same target, or none. -/
def physRange (pa : Nat) : Option (Nat × Nat) :=
  let t := pa / 2 ^ 48
  if t = 1 ∨ t = 2 then some (t * 2 ^ 48, (t + 1) * 2 ^ 48)
  else if pa < 4 * 0xC00000000 then some (pa / 0xC00000000 * 0xC00000000, (pa / 0xC00000000 + 1) * 0xC00000000)
  else if 0x4000000000 ≤ pa ∧ pa < 0xA000000000 then some (0x4000000000, 0xA000000000)
  else none

/-- The places of the bytes that a dome's windows hold (R428): above every physical address, since a window is the home of its
locations in the place of their PAs. -/
def windowPa (d off : Nat) : Nat := 2 ^ 56 + d * 2 ^ 32 + off
def inWindow (pa : Nat) : Bool := decide (2 ^ 56 ≤ pa)

/-- The tier of a physical address: 0 stacked, 1 off-stack, 3 host (R413, R415). The windows of the dome scratchpads count as stacked. -/
def tierOf (pa : Nat) : Nat := if pa ≥ 2 ^ 48 ∧ pa < 2 ^ 56 then 3 else if 0x4000000000 ≤ pa ∧ pa < 2 ^ 56 then 1 else 0

/-- Raise an MSI-X vector on a host port (R449). -/
def Device.msix (v : Device) (port k : Nat) : Device :=
  let h : port % 2 < 2 := Nat.mod_lt _ (by decide)
  { v with ports := v.ports.set (port % 2) { v.ports[port % 2] with msix := v.ports[port % 2].msix ||| BitVec.ofNat 64 (2 ^ k) } h }

/-- The last 256 graded events of every dome, with a new event (R444). -/
def gradedWith (es : List LogEntry) (e : LogEntry) : List LogEntry := if e.grade = 0 then es else (es ++ [e]).drop (es.length + 1 - 256)

/-- Append an event to a dome's Observing Log, a ring of 4,096 entries (R437). A
graded event of grade B or worse raises MSI-X vector 1 (R449): on the owner port of its partition, else on
both ports (log 11). It counts in the worst grade of its partition, and among the last graded events (R444). -/
def Device.log (v : Device) (d : Nat) (code grade unit index : Nat) (p0 p1 : Word) (ctx part : Nat) : Device :=
  let v := if part < 8 then v.updPart part (fun q => { q with worst := Nat.max q.worst grade }) else v
  let v := if grade ≥ 2 then (if part < 8 then v.msix (v.part part).port 1 else (v.msix 0 1).msix 1 1) else v
  let e : LogEntry := { seq := (v.dome d).logSeq, time := v.time, code := BitVec.ofNat 16 code, grade := grade, unit := unit,
                        index := index, resets := v.resets % 65536, p0 := p0, p1 := p1, ctx := ctx, part := part }
  let v := v.updDome d fun x => { x with log := (x.log ++ [e]).drop (x.log.length + 1 - 4096), logSeq := x.logSeq + 1 }
  { v with graded := gradedWith v.graded e }

/-- The dome that logs an event of a physical location: its own for the stacked tier and for a window, else dome 0 (log 11). -/
def domeOfPa (pa : Nat) : Nat :=
  if inWindow pa then (pa - 2 ^ 56) / 2 ^ 32 else if pa < 4 * 0xC00000000 then pa / 0xC00000000 else 0

/-- The mark of a grade-D event at a location of a tier (R438): the time of the last completed scrub pass over it, or of the
creation of the partition that uses it. Bits [47:0] hold the time and [63:48] the reset count (log 11). -/
def Device.mark (v : Device) (d tier p : Nat) : Word :=
  let created := if p < 8 then (v.part p).created else 0
  let t := match (v.dome d).passAt.toArray.getD tier none with
    | some x => Nat.max x created
    | none => created
  BitVec.ofNat 64 (t % 2 ^ 48 + v.resets % 65536 * 2 ^ 48)

/-- Mark `n` bytes at a place poisoned (R376, R431, R440, R441). -/
def Device.markPoison (v : Device) (pl : Place) (x n : Nat) : Device :=
  if v.poison.contains (pl, x, n) then v else { v with poison := v.poison ++ [(pl, x, n)] }

/-- A poisoned range lies among `n` bytes at a place. -/
def Device.poisonedAt (v : Device) (p : Place) (x n : Nat) : Bool :=
  v.poison.any fun q => q.1 == p && decide (x < q.2.1 + q.2.2) && decide (q.2.1 < x + n)

/-- The range of memory that an uncorrectable error at an address makes poisoned: the 64-bit word of a bank (R431), or the line that
the off-stack tier answers UE for (R434). -/
def poisonUnit (pa : Nat) : Nat × Nat := if tierOf pa = 1 then (pa / 64 * 64, 64) else (pa / 8 * 8, 8)

/-- An error on a vertical bus at a physical address (R431, R438): `n` attempts failed. Up to two are repeated, and change timing only;
then the word or the line is poisoned, or the layer is fenced, which is graded B. -/
def Device.busError (v : Device) (d pa : Nat) (b : Option (Nat × Nat × Nat)) : Device :=
  match b with
  | none => v
  | some (bus, n, layer) =>
    let p0 : Word := BitVec.ofNat 64 (if bus = 2 then layer else pa)
    let reps : Word := BitVec.ofNat 64 (Nat.min n 2)
    let v := v.log d (3 + bus) (if bus = 2 ∧ n > 2 then 2 else 0) 3 0 p0 reps 0xFFFF 0xFF
    if n ≤ 2 then v
    else if bus = 2 then v.updDome d fun x => if x.layers.contains layer then x else { x with layers := x.layers ++ [layer] }
    else if bus = 1 then v.markPoison .phys (pa / 64 * 64) 64
    else v.markPoison .phys (poisonUnit pa).1 (poisonUnit pa).2

/-- One byte of a CRC-32C (R442): polynomial 0x1EDC6F41, reflected. -/
def crc32cByte (c : BitVec 32) (b : Byte) : BitVec 32 :=
  (List.range 8).foldl (fun c _ => if c.getLsbD 0 then (c >>> 1) ^^^ 0x82F63B78 else c >>> 1) (c ^^^ b.setWidth 32)

/-- CRC-32C of bytes (R442). -/
def crc32c (bs : List Byte) : BitVec 32 := ~~~ bs.foldl crc32cByte 0xFFFFFFFF

/-- The check value of the 64-byte line at `a` (R442), whose bytes are `bs`: the one carried to it where that is not the CRC of the
bytes, else the CRC. -/
def Device.checkOf (v : Device) (a : Nat) (bs : List Byte) : BitVec 32 :=
  match v.checks.find? fun x => x.1 == a with | some x => x.2 | none => crc32c bs

/-- The lines of [pa, pa + n) whose check value fails when it is verified (R443). -/
def Device.failing (v : Device) (pa n : Nat) : List Nat :=
  (v.checks.filter fun x => decide (x.1 < pa + n) && decide (pa < x.1 + 64)).map Prod.fst

/-- A failure of a check value at egress or at a merge (R443): E2E, graded D; `unit` and `index` name the port or engine, `p` the
partition that uses the data, for the mark (R438). -/
def Device.logE2e (v : Device) (unit index pa p : Nat) : Device :=
  v.log (domeOfPa pa) 0x000A 4 unit index (BitVec.ofNat 64 pa) (v.mark (domeOfPa pa) (tierOf pa) p) 0xFFFF p

/-- Every line whose check value fails is logged (R443). -/
def Device.logFails (v : Device) (unit index p : Nat) (as : List Nat) : Device := as.foldl (fun v a => v.logE2e unit index a p) v

/-- Bytes [pa, pa + n) of a party of partition `p` reach their home (R442): each line that they touch gets a new check value. Where
part of a line is written, the home first verifies the old value; when that fails the merged line is poisoned and logged (R443). -/
def Device.madeAt (v : Device) (p pa n : Nat) : Device :=
  (v.failing pa n).foldl (fun v a =>
    let v := { v with checks := v.checks.filter fun x => x.1 != a }
    if pa ≤ a ∧ a + 64 ≤ pa + n then v else (v.logE2e 3 0 a p).markPoison .phys a 64) v

/-- The line at `a` carries a check value with its bytes `bs` (R442). -/
def Device.carry (v : Device) (a : Nat) (bs : List Byte) (k : BitVec 32) : Device :=
  { v with checks := v.checks.filter (fun x => x.1 != a) ++ (if k = crc32c bs then [] else [(a, k)]) }

end Sys2Proof.Machine
end

