-- ==== Sys2Proof/Machine/Coherence.lean ====
section
/-! DEFINITION. Stores to global memory: parties and scopes (R10), publication and coherence order (R119 to R124), and what
a party may read (R121 to R123, R126, R127). -/

namespace Sys2Proof.Machine

/-- Two units are in one cluster (R10). -/
def Agent.sameCluster : Agent → Agent → Bool
  | .core p, .core q => p / 128 == q / 128
  | _, _ => false

/-- The narrowest scope that includes a unit and a party (R10). -/
def Agent.scopeTo (u : Agent) : Party → Nat
  | .unit w | .engine w => if u = w then 0 else if u.sameCluster w then 1 else if u.dome = w.dome then 2 else 3
  | .device => 3
  | .peer => 4
  | .host => 5

/-- The store covers a location. -/
def GStore.covers (x : GStore) (a : Nat) : Bool := decide (x.addr ≤ a) && decide (a < x.addr + x.bytes.length)

/-- The store has a byte in [lo, lo + n). -/
def GStore.meets (x : GStore) (lo n : Nat) : Bool := decide (x.addr < lo + n) && decide (lo < x.addr + x.bytes.length)

/-- The byte of the store at a location that it covers. -/
def GStore.byte (x : GStore) (a : Nat) : Byte := x.bytes.getD (a - x.addr) 0

/-- The stamp at which the store was first published to a unit (R120). -/
def GStore.toUnit (x : GStore) (u : Agent) : Option Nat :=
  (x.pubs.find? fun p => decide (u.scopeTo p.2.1 ≤ p.1)).map fun p => p.2.2

/-- The store is published at a scope at least as wide as `X`. -/
def GStore.wide (x : GStore) (X : Nat) : Bool := x.pubs.any fun p => decide (X ≤ p.1)

/-- A release of unit `u` at scope `X` has nothing to add: the store is published to every party within `X` of it (R121). -/
def GStore.covered (x : GStore) (u : Agent) (X : Nat) : Bool :=
  x.pubs.any fun p => decide (X ≤ p.1) && decide (u.scopeTo p.2.1 ≤ p.1)

/-- The store stands at the coherence point of scope `X` for unit `u` (R136): the dome's L2 up to DOME, else the line's home. At the
home stands also what was published more narrowly at a scope that includes the unit, since an atomic there and the unit's include
each other's issuers (R137). -/
def GStore.atPoint (x : GStore) (u : Agent) (X : Nat) : Bool :=
  x.pubs.any fun p => decide (3 ≤ p.1) ||
    (decide (1 ≤ p.1) && (match p.2.1 with
      | .unit w | .engine w => w.dome == u.dome && (decide (X ≤ 2) || decide (u.scopeTo p.2.1 ≤ p.1))
      | _ => false))

/-- The parts of a store outside and inside [lo, lo + n). -/
def GStore.outside (x : GStore) (lo n : Nat) : List GStore :=
  (if x.addr < lo then [{ x with bytes := x.bytes.take (lo - x.addr) }] else []) ++
  (if lo + n < x.addr + x.bytes.length then
    [{ x with addr := Nat.max x.addr (lo + n), bytes := x.bytes.drop (lo + n - x.addr) }] else [])
def GStore.inside (x : GStore) (lo n : Nat) : List GStore :=
  if x.meets lo n then
    [{ x with addr := Nat.max x.addr lo, bytes := (x.bytes.drop (lo - x.addr)).take (lo + n - Nat.max x.addr lo) }]
  else []

/-- [lo, lo + n) cuts the store: it has bytes on both sides of an end. -/
def GStore.cut (x : GStore) (lo n : Nat) : Bool := x.meets lo n && !(decide (lo ≤ x.addr) && decide (x.addr + x.bytes.length ≤ lo + n))

/-- The stores that [lo, lo + n) cuts, split there: the parts inside are stores of their own, numbered from `k`. The answer tells
which number each part had. -/
def splitStores (lo n : Nat) : Nat → List GStore → List GStore × List (Nat × Nat)
  | _, [] => ([], [])
  | k, x :: xs =>
    if x.cut lo n then
      let r := splitStores lo n (k + 1) xs
      (x.outside lo n ++ (x.inside lo n).map (fun y => { y with id := k }) ++ r.1, (x.id, k) :: r.2)
    else
      let r := splitStores lo n k xs
      (x :: r.1, r.2)

/-- The last store of a list that covers a location, of those that `p` picks. -/
def lastOf (xs : List GStore) (p : GStore → Bool) (a : Nat) : Option GStore :=
  xs.foldl (fun acc x => if x.covers a && p x then some x else acc) none

/-- The contents below every store of the history. -/
def Device.below (v : Device) (a : Nat) : Byte := memGet (if v.hist.isEmpty then v.mem else v.base) a

/-- The byte of a location as the stores that `p` picks have it. -/
def Device.byteOf (v : Device) (p : GStore → Bool) (a : Nat) : Byte :=
  match lastOf v.hist p a with | some x => x.byte a | none => v.below a

/-- The contents below a history and the stores published at SYSTEM scope, in coherence order. -/
def sysMem (base : Mem) (xs : List GStore) : Mem := xs.foldl (fun m x => if x.wide 5 then memWrite m x.addr x.bytes else m) base

/-- The history becomes `xs`, at stamp `t`: what is published at SYSTEM scope follows (R120). -/
def Device.withHist (v : Device) (xs : List GStore) (t : Nat) : Device :=
  let base := if v.hist.isEmpty then v.mem else v.base
  { v with hist := xs, base := base, stamp := t, mem := sysMem base xs }

/-- Stores that reach their homes with a publication at scope `X` (R117, R442): those that had not been published so wide before. -/
def Device.toHome (v : Device) (X : Nat) (xs : List GStore) : Device :=
  if X < 3 then v else xs.foldl (fun v x => if x.wide 3 then v else v.madeAt (v.partyPart x.party) x.addr x.bytes.length) v

/-- A store that is published at once at a scope takes the next place in coherence order (R124, R130, R136). -/
def Device.publishAs (v : Device) (p : Party) (scope pa : Nat) (bs : List Byte) : Device :=
  let v := if scope < 3 then v else v.madeAt (v.partyPart p) pa bs.length
  { v with hist := v.hist ++ [{ id := v.nextStore, party := p, iss := v.stamp, addr := pa, bytes := bs, pubs := [(scope, p, v.stamp + 1)] }]
           base := if v.hist.isEmpty then v.mem else v.base
           mem := if 5 ≤ scope then memWrite v.mem pa bs else v.mem
           nextStore := v.nextStore + 1, stamp := v.stamp + 1 }

/-- A store of the device itself, published at SYSTEM scope. -/
def Device.publish (v : Device) (pa : Nat) (bs : List Byte) : Device := v.publishAs .device 5 pa bs

/-- The task's view holds the store for a location (R122). -/
def Core.holds (c : Core) (x : GStore) (a : Nat) : Bool :=
  c.view.contains x.id || c.part.any fun p => p.1 == x.id && decide (p.2.1 ≤ a) && decide (a < p.2.1 + p.2.2)

/-- The stamp at which the phase of a location began: the latest acquire that acts on it (R123). -/
def Core.phaseOf (c : Core) (a : Nat) : Nat :=
  c.bufs.foldl (fun t b => if b.1 ≤ a ∧ a < b.1 + b.2.1 then Nat.max t b.2.2 else t) c.phase


/-- What a task knows of stores that have been split at [lo, lo + n): of the parts what it knew of the whole (R122, R123). -/
def Core.renamed (c : Core) (lo n : Nat) (rs : List (Nat × Nat)) : Core :=
  { c with view := c.view ++ (rs.filter fun r => c.view.contains r.1).map Prod.snd
           part := c.part ++ c.part.flatMap fun p => (rs.filter fun r => r.1 == p.1).map fun r => (r.2, p.2)
           raced := c.raced.map fun a =>
             if lo ≤ a.1 ∧ a.1 < lo + n then (match rs.find? fun r => r.1 == a.2 with | some r => (a.1, r.2) | none => a) else a }

/-- The stamp of the task's latest acquire, one on named buffers included (R121). -/
def Core.lastAcquire (c : Core) : Nat := c.bufs.foldl (fun t b => Nat.max t b.2.2) c.phase

/-- The store is one that a read of location `a` in the present phase may observe though the reader has not acquired it. -/
def Core.fresh (c : Core) (u : Agent) (x : GStore) (a : Nat) : Bool :=
  !c.holds x a && (match x.toUnit u with | some t => decide (c.phaseOf a < t) | none => false)

/-- A read of the location by this reader never goes behind the store: one that it has read there, one that a tainted address
promises (`fl`, R127), its own since the phase began (R123). -/
def Core.pins (c : Core) (u : Agent) (fl : List Nat) (x : GStore) (a : Nat) : Bool :=
  c.raced.contains (a, x.id) || fl.contains x.id || (x.party == .unit u && c.view.contains x.id && decide (c.phaseOf a ≤ x.iss))

/-- What the stores and the reads of a task in Meridian mode are known by (R458): gang, task index, τ. -/
def Core.sched (c : Core) : Option (Nat × Nat × Nat) :=
  if c.tflags.getLsbD 24 then c.task.map fun t => (t.gang, t.index.toNat, c.tau) else none

/-- Whether access `k` on the unit at `el` observes a store that it may observe (R123; log 10). In Meridian mode the choice among the
stores of one gang is that of their places in τ (R458; log 100). -/
def Core.observes (c : Core) (k el : Nat) (x : GStore) : Bool :=
  match c.sched, x.sched with
  | some (g, i, t), some (h, j, u) => if g = h then Config.seesMer i t el j u else Config.sees k el x.id
  | _, _ => Config.sees k el x.id

/-- Whether access `k` returns a store of its phase before a later snapshot (R123; logs 10, 100). -/
def Core.passes (c : Core) (k el : Nat) : Bool := match c.sched with | some (_, i, t) => Config.dropsMer i t el | none => Config.drops k el

/-- The suffix of a list after the last element that `p` picks. -/
def afterLast {α : Type} (p : α → Bool) (xs : List α) : List α :=
  xs.foldl (fun acc x => if p x then [] else acc ++ [x]) []

/-- The byte that a read of location `a` returns for a reader with core `c` (R115, R122, R123, R127), and the store that it took
it from. `k` numbers the access and `el` is the address of its single-copy atomic unit (R114), in which a store is observed
everywhere or nowhere. -/
def Device.choose (v : Device) (u : Agent) (c : Core) (fl : List Nat) (k el a : Nat) : Byte × Option Nat :=
  let xs := v.hist.filter fun x => x.covers a
  let later := afterLast (fun x => c.pins u fl x a) xs
  let cand := later.filter fun x => c.fresh u x a && c.observes k el x
  let took (x : GStore) : Byte × Option Nat := (x.byte a, some x.id)
  match lastOf c.dirty (fun _ => true) a with
  | some d =>
    if c.phaseOf a ≤ d.iss || c.raced.contains (a, d.id) then took d
    else match cand.getLast? with | some x => if c.passes k el then took x else took d | none => took d
  | none =>
    match cand.getLast? with
    | some x =>
      if c.passes k el then took x
      else match (later.filter fun x => c.holds x a || cand.contains x).getLast? with | some y => took y | none => took x
    | none =>
      match (xs.filter fun x => c.pins u fl x a || c.holds x a).getLast? with
      | some x => took x
      | none => (v.below a, none)

/-- The byte that LDC returns at a location (R126): the reader's own store where it is not published (R115), else the latest
store published to it by a party within scope `X`, none behind one that its address promises (`fl`, R127); and that store. -/
def Device.consumeByte (v : Device) (u : Agent) (c : Core) (fl : List Nat) (X a : Nat) : Byte × Option GStore :=
  match lastOf c.dirty (fun _ => true) a with
  | some d => (d.byte a, some d)
  | none =>
    match lastOf v.hist (fun x => c.raced.contains (a, x.id) || fl.contains x.id || ((x.toUnit u).isSome && decide (u.scopeTo x.party ≤ X))) a with
    | some x => (x.byte a, some x)
    | none => (v.below a, none)

/-- The store to a location that an atomic of scope `X` reads at its coherence point (R136), none behind one that the task holds, has
read, or is promised; the task's own unpublished store comes last (R115). -/
def Device.pointStore (v : Device) (u : Agent) (c : Core) (fl : List Nat) (X a : Nat) : Option GStore :=
  match lastOf c.dirty (fun _ => true) a with
  | some d => some d
  | none => lastOf v.hist (fun x => x.atPoint u X || c.holds x a || c.raced.contains (a, x.id) || fl.contains x.id) a

/-- The bytes of the 64-byte line at `a` as they stand at its home. -/
def Device.lineBytes (v : Device) (a : Nat) : List Byte := (List.range 64).map fun i => v.byteOf (fun x => x.wide 3) (a + i)

/-- A line arrives at its home, for a party of partition `p`, with the check value of the data that it was moved from (R442): one
that leaves for host memory is verified, and sent as poisoned when it fails (R443). -/
def Device.carried (v : Device) (p : Nat) (x : Nat × BitVec 32) : Device :=
  let bs := v.lineBytes x.1
  if tierOf x.1 = 3 then (if x.2 = crc32c bs then v else (v.logE2e 2 0 x.1 p).markPoison .phys x.1 64) else v.carry x.1 bs x.2

/-- Lines that arrive whole carry the check values of the sender's payload (R442): one for each, in order. -/
def Device.carryLines (v : Device) (p : Nat) (ps : List (Place × Nat)) (ks : List (BitVec 32)) : Device :=
  let lines := (ps.filter fun x => x.1 == .phys && x.2 % 64 == 0 && ps.contains (.phys, x.2 + 63)).map Prod.snd
  (lines.zip ks).foldl (fun v x => v.carried p x) v

/-- The check values that lines moved whole and unchanged carry to where they go (R442): `es` are the elements of `n` bytes moved, from
and to physical addresses. -/
def carryOf (checks : List (Nat × BitVec 32)) (n : Nat) (es : List (Nat × Nat)) : List (Nat × BitVec 32) :=
  checks.flatMap fun x => (es.filter fun e => e.1 == x.1 && e.2 % 64 == 0).filterMap fun e =>
    if (List.range (64 / n)).all fun j => es.contains (x.1 + j * n, e.2 + j * n) then some (e.2, x.2) else none

end Sys2Proof.Machine
end

