-- ==== Sys2Proof/Machine/Access.lean ====
section
/-! DEFINITION. Reaching memory: units and cores, translation (R412 to R421), places, reads, stores,
publication (R116 to R121). -/

namespace Sys2Proof.Machine

/-- The unit in focus is a queue processor. -/
def State.isQp (s : State) : Bool := match s.focus with | .qp _ _ => true | .core _ => false

/-- The state of a parked unit; a core never touched stands at its reset value. -/
def coreOf (l : List (Agent × Core)) (u : Agent) : Core :=
  match l with
  | [] => Core.reset
  | (w, c) :: rest => if w = u then c else coreOf rest u

/-- Set the state of a parked unit. -/
def setCoreOf (l : List (Agent × Core)) (u : Agent) (c : Core) : List (Agent × Core) :=
  match l with
  | [] => [(u, c)]
  | (w, d) :: rest => if w = u then (u, c) :: rest else (w, d) :: setCoreOf rest u c

/-- The state of any unit. -/
def State.getCore (s : State) (u : Agent) : Core := if s.focus = u then s.core else coreOf s.parked u

/-- Set the state of any unit. -/
def State.setCore (s : State) (u : Agent) (c : Core) : State :=
  if s.focus = u then { s with core := c } else { s with parked := setCoreOf s.parked u c }

/-- Update the core in focus. -/
def State.upd (s : State) (f : Core → Core) : State := { s with core := f s.core }

/-- Update the device. -/
def State.updDev (s : State) (f : Device → Device) : State := { s with dev := f s.dev }

/-- The partition of the unit in focus: its task's, else its cluster's. -/
def State.partition (s : State) : Nat :=
  match s.core.task with
  | some t => t.part
  | none => ((s.dev.partOfCluster s.focus.cluster).getD 0)

/-- Fields of a page-table entry's low quadword (R415). -/
def pteV (e : Nat) : Bool := e % 2 == 1
def pteL (e : Nat) : Bool := e / 2 % 2 == 1
def pteR (e : Nat) : Bool := e / 4 % 2 == 1
def pteW (e : Nat) : Bool := e / 8 % 2 == 1
def pteX (e : Nat) : Bool := e / 16 % 2 == 1
def pteTier (e : Nat) : Nat := e / 64 % 4
def pteMI (e : Nat) : Bool := e / 256 % 2 == 1
def ptePin (e : Nat) : Bool := e / 512 % 2 == 1
def pteCG (e : Nat) : Bool := e / 1024 % 2 == 1
def pteA (e : Nat) : Bool := e / 2048 % 2 == 1
def pteD (e : Nat) : Bool := e / 4096 % 2 == 1
def pteMH (e : Nat) : Nat := e / 8192 % 8
def pteKey (e : Nat) : Nat := e / 65536 % 256
def ptePA (e : Nat) : Nat := e / 2 ^ 28 % 2 ^ 36 * 65536

/-- The page shift of a leaf at a level (R414). -/
def levelShift (lvl : Nat) : Nat := 76 - 12 * lvl

/-- A valid entry is malformed at a level (R416). -/
def malformed (e lvl : Nat) : Bool :=
  e / 32 % 2 != 0 || e / 2 ^ 24 % 16 != 0 || pteMH e ≥ 4
    || (pteL e && lvl ≤ 2) || (!pteL e && lvl == 5)
    || (!pteL e && e / 4 % 2 ^ 22 != 0)
    || (pteL e && lvl == 3 && ptePA e % 2 ^ 40 != 0) || (pteL e && lvl == 4 && ptePA e % 2 ^ 28 != 0)
    || (pteL e && pteCG e && lvl != 5)
    || (pteL e && (match physRange (ptePA e) with
        | none => true
        | some (_, hi) => ptePA e + 2 ^ levelShift lvl > hi
            || (if pteTier e == 2 then tierOf (ptePA e) == 3 else pteTier e != tierOf (ptePA e))))

/-- A 64-bit little-endian read of the device's memory: an entry as the walker reads it (R419). -/
def memRead64 (m : Mem) (pa : Nat) : Nat := leNat (memRead m pa 8)

/-- The context table entry of R412: the root, when the context is VALID. -/
def Device.root (v : Device) (ctx : BitVec 12) : Option Nat :=
  match v.contexts.find? fun c => c.1 == ctx with
  | none => none
  | some (_, e) => if fieldAt e 8 1 % 2 = 1 then some (fieldAt e 0 8 % 2 ^ 52) else none

/-- The entries that a walk reads from level `lvl` on, with their addresses: each is followed while it is a valid, well-formed
non-leaf entry (R414). `fuel` bounds the levels left. -/
def walkPath (m : Mem) (va : Nat) : Nat → Nat → Nat → Nat → List (Nat × Nat × Nat)
  | 0, _, _, _ => []
  | fuel + 1, lvl, at_, e =>
    (lvl, at_, e) ::
      (if !pteV e || malformed e lvl || pteL e then []
       else
         let nx := ptePA e + 16 * (va / 2 ^ levelShift (lvl + 1) % 4096)
         walkPath m va fuel (lvl + 1) nx (memRead64 m nx))

/-- The path of a walk from the root (R414); empty without a VALID context. -/
def Device.path (v : Device) (ctx : BitVec 12) (va : Addr) : List (Nat × Nat × Nat) :=
  match v.root ctx with
  | none => []
  | some r => (let a := r + 16 * (va.toNat / 2 ^ 76); walkPath v.mem va.toNat 6 0 a (memRead64 v.mem a))

/-- What the last entry of a path answers (R414, R416): the level and low quadword of a leaf, or the level and entry where the
walk stops. -/
def pathEnd (p : List (Nat × Nat × Nat)) : Except (Nat × Nat) (Nat × Nat) :=
  match p.getLast? with
  | none => .error (0, 0)
  | some (lvl, _, e) => if pteV e && !malformed e lvl && pteL e then .ok (lvl, e) else .error (lvl, e)

/-- The 32 entries of the group of a base page (R417), where a path reaches its level-5 table. -/
def groupEntries (m : Mem) (p : List (Nat × Nat × Nat)) (va : Nat) : List (Nat × Nat) :=
  match p.getLast? with
  | some (5, at_, _) =>
    let lo := at_ - 16 * (va / 65536 % 32)
    (List.range 32).map fun j => (lo + 16 * j, memRead64 m (lo + 16 * j))
  | _ => []

/-- A level-5 entry that a walk accepts as a leaf. -/
def leafOk (e : Nat) : Bool := pteV e && pteL e && !malformed e 5

/-- The attributes in which the pages of a group agree (R417). -/
def groupAttrs (e : Nat) : List Nat :=
  [(if pteR e then 1 else 0), (if pteW e then 1 else 0), (if pteX e then 1 else 0), pteTier e, (if pteMI e then 1 else 0),
   (if ptePin e then 1 else 0), pteKey e, pteMH e]

/-- A group is well formed (R417). -/
def groupOk (g : List (Nat × Nat)) : Bool :=
  match g with
  | [] => false
  | (_, e0) :: _ =>
    ptePA e0 % 2 ^ 21 == 0 && (g.zip (List.range 32)).all fun x =>
      leafOk x.1.2 && pteCG x.1.2 && groupAttrs x.1.2 == groupAttrs e0 && ptePA x.1.2 == ptePA e0 + x.2 * 65536

/-- An entry with its PA displaced by whole pages (R417). -/
def displaced (e : Nat) (d : Int) : Nat :=
  e % 2 ^ 28 + (((e / 2 ^ 28 : Nat) : Int) + d).toNat % 2 ^ 36 * 2 ^ 28

/-- The answer of a walk (R414, R417), with the address of the entry that gives it: an access to a page of an ill-formed group
with CG pages is translated with the entry of one of those, displaced. Which one is a free choice (log 49). -/
def Device.answerAt (v : Device) (p : List (Nat × Nat × Nat)) (va : Addr) : Except (Nat × Nat) (Nat × Nat × Nat) :=
  let g := groupEntries v.mem p va.toNat
  let cg := (g.zip (List.range 32)).filter fun x => leafOk x.1.2 && pteCG x.1.2
  if cg.isEmpty || groupOk g then
    match pathEnd p with
    | .error x => .error x
    | .ok (lvl, e) => .ok (lvl, e, (p.getLastD (0, 0, 0)).2.1)
  else
    let x := cg.getD (Config.pick v.walks % cg.length) ((0, 0), 0)
    .ok (5, displaced x.1.2 (((va.toNat / 65536 % 32 : Nat) : Int) - (x.2 : Int)), x.1.1)

/-- The level and low quadword of the answer of a walk. -/
def Device.answer (v : Device) (p : List (Nat × Nat × Nat)) (va : Addr) : Except (Nat × Nat) (Nat × Nat) :=
  match v.answerAt p va with | .ok (lvl, e, _) => .ok (lvl, e) | .error x => .error x

/-- The walk of R414: level and low quadword of the leaf, or the level and entry where it stops. -/
def Device.walk (v : Device) (ctx : BitVec 12) (va : Addr) : Except (Nat × Nat) (Nat × Nat) := v.answer (v.path ctx va) va

/-- A walk that meets a malformed entry is logged (R416), in dome `d`, for a unit and a partition. Payload 1 holds the entry's low 56 bits
above the level (log 11). -/
def Device.logWalk (v : Device) (d unit index p : Nat) (ctx : BitVec 12) (va : Addr) : Device :=
  match v.walk ctx va with
  | .error (lvl, e) =>
    if pteV e then v.log d 0x0030 0 unit index (BitVec.ofNat 64 (va.toNat % 2 ^ 64)) (BitVec.ofNat 64 (e * 256 + lvl)) ctx.toNat p else v
  | .ok _ => v

/-- A cached leaf covers a VA of a context. -/
def Cached.hits (c : Cached) (ctx : BitVec 12) (va : Addr) : Bool := c.ctx == ctx && c.page == va.toNat / 2 ^ levelShift c.lvl

/-- A cached non-leaf entry lies on the path of a VA of a context. -/
def CachedNode.hits (c : CachedNode) (ctx : BitVec 12) (va : Addr) : Bool :=
  c.ctx == ctx && c.pre == va.toNat / 2 ^ levelShift c.lvl

/-- The path of a walk that starts at the deepest non-leaf entry that a cache holds (R420). -/
def Device.pathFrom (v : Device) (ns : List CachedNode) (ctx : BitVec 12) (va : Addr) : List (Nat × Nat × Nat) :=
  let deepest := (ns.filter fun n => n.hits ctx va).foldl (fun (acc : Option CachedNode) n =>
    match acc with | some m => if m.lvl < n.lvl then some n else some m | none => some n) none
  match deepest with
  | some n => (walkPath v.mem va.toNat (6 - n.lvl) n.lvl 0 n.low)
  | none => v.path ctx va

/-- Access kinds of R417. -/
inductive Kind where
  | load | store | atomic | fetch | wload | any
  deriving DecidableEq, Repr

/-- A leaf grants an access kind (R417); a key that is not loaded grants none. -/
def grants (keys : List Byte) (e : Nat) (k : Kind) : Bool :=
  (pteKey e == 0 || keys.contains (BitVec.ofNat 8 (pteKey e))) &&
    match k with
    | .load | .wload => pteR e
    | .store => pteW e && !pteX e
    | .atomic => pteR e && pteW e && !pteX e
    | .fetch => pteX e
    | .any => true

/-- The access writes (R418). -/
def Kind.writes : Kind → Bool
  | .store | .atomic => true
  | _ => false

/-- The physical address of a VA under a leaf at a level (R414). -/
def leafPa (lvl e : Nat) (va : Addr) : Nat :=
  ptePA e / 2 ^ levelShift lvl * 2 ^ levelShift lvl + va.toNat % 2 ^ levelShift lvl

/-- The trap codes of R366. -/
def ILLOP : Nat := 0x01
def RESV : Nat := 0x02
def PRIV : Nat := 0x03
def ALIGN : Nat := 0x04
def XLATE : Nat := 0x05
def PERM : Nat := 0x06
def POISON : Nat := 0x07
def CFSIG : Nat := 0x08
def STALLCHK : Nat := 0x09
def QUEUE : Nat := 0x0A
def PSTACK : Nat := 0x0B
def ARITH : Nat := 0x0C
def CLIPT : Nat := 0x0D
def TILECK : Nat := 0x0E
def BOUND : Nat := 0x0F
def MHND : Nat := 0x10
def MERID : Nat := 0x11
def SUSPV : Nat := 0x12
def COPYT : Nat := 0x13
def WIMG : Nat := 0x14
def COMBINE : Nat := 0x15
def BREAK : Nat := 0x16
def WATCH : Nat := 0x17
def TRAPI : Nat := 0x18
def SEGRW : Nat := 0x19
def CTXLOST : Nat := 0x1A

/-- What a walk answers an access: the leaf, XLATE without a translation, PERM without the permission (R414, R417). -/
def judge (keys : List Byte) (k : Kind) (r : Except (Nat × Nat) (Nat × Nat)) : Except Nat (Nat × Nat) :=
  match r with
  | .error _ => .error XLATE
  | .ok (lvl, e) => if grants keys e k then .ok (lvl, e) else .error PERM

/-- Translate a VA for an access of the device itself, by a walk. -/
def Device.translate (v : Device) (ctx : BitVec 12) (va : Addr) (k : Kind) : Except Nat (Nat × Nat) := judge v.keys k (v.walk ctx va)

/-- Translate a VA through caches of leaves and of non-leaf entries (R418, R420, R421): the cached leaf when it grants the access and
need not be walked again to set D, else a walk from the cached non-leaf entries, else, before a trap, a walk from the root. -/
def Device.translateVia (v : Device) (ls : List Cached) (ns : List CachedNode) (ctx : BitVec 12) (va : Addr) (k : Kind) : Except Nat (Nat × Nat) :=
  let again : Except Nat (Nat × Nat) :=
    match judge v.keys k (v.answer (v.pathFrom ns ctx va) va) with
    | .ok x => .ok x
    | .error _ => v.translate ctx va k
  match ls.find? fun c => c.hits ctx va with
  | some c =>
    if grants v.keys c.low k && (!k.writes || pteD c.low) then .ok (c.lvl, c.low)
    else if grants v.keys c.low k then again
    else v.translate ctx va k
  | none => again

/-- The window that a page of a context is bound to (R428): the dome, and the window. -/
def Device.windowOf (v : Device) (ctx : BitVec 12) (va : Addr) : Option (Nat × Window) :=
  ((List.range 4).filterMap fun d =>
    ((v.dome d).windows.find? fun w => w.ctx == ctx && w.va.toNat ≤ va.toNat && va.toNat < w.va.toNat + w.pages * 65536).map
      fun w => (d, w)).head?

/-- The place in a window of a VA of its range (R428). -/
def Window.placeOf (w : Window) (d : Nat) (va : Addr) : Nat := windowPa d (w.off + (va.toNat - w.va.toNat))

/-- The byte of G space at a VA whose translation answers `t`: at its window where the page is bound to one, which serves it also
when no leaf maps the page any more (R428, R429), with the permissions of the leaf that it was bound with. -/
def Device.placeVia (v : Device) (ctx : BitVec 12) (va : Addr) (k : Kind) (t : Except Nat (Nat × Nat)) : Except Nat (Place × Nat) :=
  match v.windowOf ctx va, t with
  | none, .ok (lvl, e) => .ok (.phys, leafPa lvl e va)
  | some (d, w), .ok _ => .ok (.phys, w.placeOf d va)
  | some (d, w), .error c =>
    if c = XLATE ∧ grants v.keys (w.lows.getD ((va.toNat - w.va.toNat) / 65536) 0) k then .ok (.phys, w.placeOf d va) else .error c
  | none, .error c => .error c

/-- The byte of G space at a VA: its place and address, or the trap of R417. -/
def Device.locate (v : Device) (ctx : BitVec 12) (va : Addr) (k : Kind) : Except Nat (Place × Nat) := v.placeVia ctx va k (v.translate ctx va k)

/-- The low quadword of an entry at its coherence point: the latest store that has reached its home (R136). -/
def Device.pointRead64 (v : Device) (pa : Nat) : Nat := leNat ((List.range 8).map fun i => v.byteOf (fun x => x.wide 3) (pa + i))

/-- The physical address of the entry that answers a walk. -/
def Device.leafEntry (v : Device) (ctx : BitVec 12) (va : Addr) : Option Nat :=
  match v.answerAt (v.path ctx va) va with | .ok (_, _, at_) => some at_ | .error _ => none

/-- OR bits into an entry's low quadword at its coherence point, published at SYSTEM scope (R136, R418). Nothing happens when the walker
finds them set. -/
def Device.orEntry (v : Device) (pa bits : Nat) : Device :=
  let e := memRead64 v.mem pa
  if e ||| bits = e then v else v.publish pa (bytesOfNat 8 (v.pointRead64 pa ||| bits))

/-- The device's own accesses set A, and D where they write (R418). -/
def Device.markEntry (v : Device) (ctx : BitVec 12) (va : Addr) (store : Bool) : Device :=
  match v.leafEntry ctx va with
  | none => v
  | some at_ => v.orEntry at_ (if store then 0x1800 else 0x800)

/-- Put an entry into a cache that holds at most `n`; a full one replaces an entry of its choice (R420; log 49). -/
def cacheIn {α : Type} (n k : Nat) (x : α) (xs : List α) : List α := x :: (if xs.length < n then xs else xs.eraseIdx (Config.pick k % n))

/-- The leaves and the non-leaf entries that the unit in focus finds in caches: its own and its cluster's (R420). -/
def State.leaves (s : State) : List Cached := s.core.tlb ++ (if s.isQp then [] else (s.dev.cluster s.focus.cluster).leaves)
def State.nodes (s : State) : List CachedNode := if s.isQp then [] else (s.dev.cluster s.focus.cluster).nodes

/-- Translate a VA for an access of the unit in focus (R418, R420, R421). -/
def State.translate (s : State) (ctx : BitVec 12) (va : Addr) (k : Kind) : Except Nat (Nat × Nat) :=
  s.dev.translateVia s.leaves s.nodes ctx va k

/-- The byte of G space at a VA for the unit in focus: its place and address, or the trap of R417. -/
def State.locate (s : State) (ctx : BitVec 12) (va : Addr) (k : Kind) : Except Nat (Place × Nat) :=
  s.dev.placeVia ctx va k (s.translate ctx va k)

/-- A leaf joins the caches of the unit in focus, and the non-leaf entries on its path those of its cluster (R420). -/
def State.cacheLeaf (s : State) (c : Cached) (ns : List CachedNode) : State :=
  let va : Addr := BitVec.ofNat 80 (c.page * 2 ^ levelShift c.lvl)
  let k := s.dev.walks
  let s := s.upd fun x => { x with tlb := cacheIn 64 k c (x.tlb.filter fun y => !y.hits c.ctx va) }
  let s := s.updDev fun v => { v with leavesUsed := c :: v.leavesUsed.filter fun y => !(y.hits c.ctx va && ptePA y.low == ptePA c.low) }
  if s.isQp then s
  else
    s.updDev fun v => v.updCluster s.focus.cluster fun x =>
      { x with leaves := cacheIn 16384 k c (x.leaves.filter fun y => !y.hits c.ctx va),
               nodes := ns.foldl (fun l n => cacheIn 1024 k n (l.filter fun y => y != n)) x.nodes }

/-- The entries that the unit in focus has cached for a page are dropped (R421). -/
def State.uncache (s : State) (ctx : BitVec 12) (va : Addr) : State :=
  let s := s.upd fun x => { x with tlb := x.tlb.filter fun y => !y.hits ctx va }
  if s.isQp then s
  else
    s.updDev fun v => v.updCluster s.focus.cluster fun x =>
      { x with leaves := x.leaves.filter (fun y => !y.hits ctx va), nodes := x.nodes.filter fun y => !y.hits ctx va }

/-- A walk completes for an access of the unit in focus (R414, R418, R420): it sets A, and D for a write, and fills the caches.
A walk that meets no leaf changes nothing. Where the cached non-leaf entries do not lead to a leaf that grants the access, they are
dropped, and the walk is that from the root (R421). -/
def State.fill (s : State) (ctx : BitVec 12) (va : Addr) (k : Kind) : State :=
  let via := s.dev.pathFrom s.nodes ctx va
  let (s, p) := match judge s.dev.keys k (s.dev.answer via va) with | .ok _ => (s, via) | .error _ => (s.uncache ctx va, s.dev.path ctx va)
  match s.dev.answerAt p va with
  | .error _ => s
  | .ok (lvl, e, at_) =>
    let bits := if k.writes then 0x1800 else 0x800
    let ns : List CachedNode := p.dropLast.map fun x => { ctx := ctx, lvl := x.1, pre := va.toNat / 2 ^ levelShift x.1, low := x.2.2 }
    (s.updDev fun v => { v.orEntry at_ bits with walks := v.walks + 1 }).cacheLeaf
      { ctx := ctx, page := va.toNat / 2 ^ levelShift lvl, lvl := lvl, low := e ||| bits } ns

/-- An access that is performed uses the caches, and fills them on a miss, at the first write through a leaf (R418, R420), and where
the cached leaf does not grant it: that one is dropped (R421). -/
def State.touchPage (s : State) (ctx : BitVec 12) (va : Addr) (k : Kind) : State :=
  match s.leaves.find? fun c => c.hits ctx va with
  | none => s.fill ctx va k
  | some c =>
    if !grants s.dev.keys c.low k || (k.writes && !pteD c.low) then (s.uncache ctx va).fill ctx va k
    else if s.core.tlb.contains c then s
    else s.upd fun x => { x with tlb := cacheIn 64 s.dev.walks c x.tlb }

/-- A context id that the table does not list. -/
def Device.noContext (v : Device) : BitVec 12 :=
  BitVec.ofNat 12 (((List.range (v.contexts.length + 1)).find? fun k => v.contexts.all fun c => c.1 != BitVec.ofNat 12 k).getD 0)

/-- The translation context of the unit in focus (R412): the partition's, or the firmware's for a queue
processor, which is the first VALID context owned by 8, and with none a context that has no entry (log 9). -/
def State.ctx (s : State) : BitVec 12 :=
  if s.isQp then
    match s.dev.contexts.find? fun c => fieldAt c.2 8 1 % 2 = 1 && fieldAt c.2 9 1 == 8 with
    | some c => c.1
    | none => s.dev.noContext
  else (s.dev.part s.partition).ctx

/-- The task slot `i` of partition `p`. -/
def Device.slotOf (v : Device) (p i : Nat) : Option TaskSlot := v.slots.find? fun t => t.part == p && t.slot == i

/-- Update a task slot. -/
def Device.updSlot (v : Device) (p i : Nat) (f : TaskSlot → TaskSlot) : Device :=
  { v with slots := updateFirst (fun t => t.part == p && t.slot == i) f v.slots }

/-- The gang with an id. -/
def Device.gangOf (v : Device) (g : Nat) : Option Gang := v.gangs.find? fun x => x.id == g

/-- The unit on which the task of a slot is resident, if it is. -/
def State.residentOf (s : State) (p i : Nat) : Option Agent :=
  let here (u : Agent) (c : Core) : Option Agent :=
    match c.task with
    | some t => if t.part == p && t.slot == i then some u else none
    | none => none
  match here s.focus s.core with
  | some u => some u
  | none => s.parked.findSome? fun x => here x.1 x.2

/-- Bytes of a context's memory as the device reads them on its own, at SYSTEM scope (R30, R392); a byte without a
translation reads as 0. R417 lists no permission for such a read, of a kernel object among others (R185): it needs none (DESIGN
CHOICE, log 101). -/
def Device.readVa (v : Device) (ctx : BitVec 12) (va : Addr) : Nat → List Byte
  | 0 => []
  | n + 1 =>
    (match v.locate ctx va .any with
     | .ok (.phys, pa) => memGet v.mem pa
     | _ => 0) :: v.readVa ctx (va + 1) n

/-- Bytes at places, with adjacent ones of one place joined into pieces. -/
def joinBytes : List (Place × Nat × Byte) → List Piece
  | [] => []
  | (pl, x, b) :: rest =>
    match joinBytes rest with
    | p :: ps =>
      if p.place = pl ∧ p.addr = x + 1 then { place := pl, addr := x, bytes := b :: p.bytes } :: ps
      else { place := pl, addr := x, bytes := [b] } :: p :: ps
    | [] => [{ place := pl, addr := x, bytes := [b] }]

/-- The places of bytes at a VA of a context that an access of the device may reach: byte by byte where a leaf grants it. -/
def Device.reach (v : Device) (ctx : BitVec 12) (va : Addr) (k : Kind) : List Byte → List (Place × Nat × Byte)
  | [] => []
  | b :: bs =>
    (match v.locate ctx va k with | .ok (pl, x) => [(pl, x, b)] | .error _ => []) ++ v.reach ctx (va + 1) k bs

/-- A party that is no unit writes a piece: published at once at a scope in global memory, in place in a dome scratchpad. -/
def Device.put (v : Device) (p : Party) (scope : Nat) (x : Piece) : Device :=
  match x.place with
  | .phys => v.publishAs p scope x.addr x.bytes
  | .dome d => v.updDome d fun y => { y with spad := memWrite y.spad x.addr x.bytes }
  | _ => v

/-- Bytes written at a VA of a context by a party that is no unit, published at a scope. -/
def Device.writeAs (v : Device) (p : Party) (scope : Nat) (ctx : BitVec 12) (va : Addr) (bs : List Byte) : Device :=
  (joinBytes (v.reach ctx va .store bs)).foldl (fun v x => v.put p scope x) v

/-- Write bytes at a VA of a context as the device does on its own, at SYSTEM scope (R392). -/
def Device.writeVa (v : Device) (ctx : BitVec 12) (va : Addr) (bs : List Byte) : Device := v.writeAs .device 5 ctx va bs

/-- A task becomes ready (R53, R406): its age counts from now. -/
def Device.readied (v : Device) (p slot : Nat) : Device :=
  { v.updSlot p slot fun x => { x with age := v.time, turn := v.turns } with turns := v.turns + 1 }

/-- The footprint image of a task in its spill area (R36, R39). -/
def Device.footImage (v : Device) (t : TaskInfo) : Mem := cellsOf 0 (v.readVa (v.part t.part).ctx (t.spill + 0x1000) t.foot)

/-- The scratchpad of the task of a slot, wherever its footprint lives (R39): on its core, or kept, or in the
spill area while FOOT is set. -/
def State.spadOf (s : State) (p i : Nat) : Mem :=
  match s.residentOf p i with
  | some u => (s.getCore u).spad
  | none =>
    match s.dev.slotOf p i with
    | some t => if t.foot then s.dev.footImage t.info else (match t.kept with | some c => c.spad | none => [])
    | none => []

/-- Store bytes into the scratchpad of the task of a slot (R39). -/
def State.storeSpad (s : State) (p i x : Nat) (bs : List Byte) : State :=
  match s.residentOf p i with
  | some u => (let c := s.getCore u; s.setCore u { c with spad := memWrite c.spad x bs })
  | none =>
    match s.dev.slotOf p i with
    | none => s
    | some t =>
      if t.foot then s.updDev fun v => v.writeVa (v.part p).ctx (t.info.spill + BitVec.ofNat 80 (0x1000 + x)) bs
      else s.updDev fun v => v.updSlot p i fun t => { t with kept := t.kept.map fun c => { c with spad := memWrite c.spad x bs } }

/-- The newest byte that a list of pieces (oldest first) holds at a place. -/
def pieceByte (ps : List Piece) (pl : Place) (x : Nat) : Option Byte :=
  ps.foldl (fun acc p => if p.place = pl ∧ p.addr ≤ x ∧ x < p.addr + p.bytes.length then some (p.bytes.getD (x - p.addr) 0) else acc) none

/-- The stores of the focused core that are held in its segment or have not landed, oldest first (R120,
R375). -/
def Core.heldPieces (c : Core) : List Piece :=
  (c.landing.flatMap fun l => l.pieces) ++
    (match c.seg with | none => [] | some g => g.stores.flatMap fun h => h.pieces)

/-- The address of the single-copy atomic unit of byte `k` of an access of `n` bytes at `x` (R114): the access up to 8 bytes,
else the aligned element of 4. -/
def unitAt (x n k : Nat) : Nat := if n ≤ 8 then x else x + k / 4 * 4

/-- A byte of global memory as the focused unit reads it: `fl` are the stores that a tainted address promises (R123, R127). -/
def State.physByte (s : State) (fl : List Nat) (el pa : Nat) : Byte × Option Nat := s.dev.choose s.focus s.core fl s.reads el pa

/-- The byte at a place as the focused unit reads it in an access whose unit lies at `el` (R115, R123); scratchpads and
lane-private memory are read in place (R113). -/
def State.byteIn (s : State) (fl : List Nat) (pl : Place) (el x : Nat) : Byte :=
  match pieceByte s.core.heldPieces pl x with
  | some b => b
  | none =>
    match pl with
    | .phys => (s.physByte fl el x).1
    | .own => memGet s.core.spad x
    | .spad p i => memGet (s.spadOf p i) x
    | .dome d => memGet (s.dev.dome d).spad x
    | .lane => memGet s.core.lanes x

/-- The byte at a place as a read of one byte by the focused unit gives it. -/
def State.byteAt (s : State) (pl : Place) (x : Nat) : Byte := s.byteIn [] pl x x

/-- The bytes at a place from byte `k` on of an access of `n` bytes at `x`, `m` of them. -/
def State.bytesFrom (s : State) (fl : List Nat) (pl : Place) (x n : Nat) : Nat → Nat → List Byte
  | _, 0 => []
  | k, m + 1 => s.byteIn fl pl (unitAt x n k) (x + k) :: s.bytesFrom fl pl x n (k + 1) m

/-- The `n` bytes at a place, read in one access. -/
def State.bytesVia (s : State) (fl : List Nat) (pl : Place) (x n : Nat) : List Byte := s.bytesFrom fl pl x n 0 n
def State.bytesAt (s : State) (pl : Place) (x n : Nat) : List Byte := s.bytesVia [] pl x n

/-- The stores that reads of chunks of `n` bytes take their values from: address and store (R121, R123). -/
def State.readsOf (s : State) (fl : List Nat) (n : Nat) (ps : List (Place × Nat)) : List (Nat × Nat) :=
  if s.dev.hist.isEmpty && s.core.dirty.isEmpty then []
  else
    ps.flatMap fun p => if p.1 = .phys then
      (List.range n).filterMap fun k =>
        match pieceByte s.core.heldPieces .phys (p.2 + k) with
        | some _ => none
        | none => (s.physByte fl (unitAt p.2 n k) (p.2 + k)).2.map fun i => (p.2 + k, i)
      else []

/-- The focused unit has read chunks of `n` bytes: no later read of those locations goes behind what it took, and the stores that it
took are in its visible set (R121, R123). -/
def State.saw (s : State) (fl : List Nat) (n : Nat) (ps : List (Place × Nat)) : State :=
  match (s.readsOf fl n ps).filter fun r => !s.core.raced.contains r with
  | [] => s
  | rs => { s with core := { s.core with raced := s.core.raced ++ rs }, reads := s.reads + 1 }

/-- The L1 of a core holds a line with a recorded scope (R116). -/
def l1Put (l : List (Nat × Nat)) (line sc : Nat) : List (Nat × Nat) := (line, sc) :: l.filter fun x => x.1 != line

/-- The lines of 128 bytes that [pa, pa + n) touches. -/
def linesOf (pa n : Nat) : List Nat := (List.range ((pa + n + 127) / 128 - pa / 128)).map fun k => pa / 128 + k

/-- The dome whose L2 is the home of a physical address (R116): the stack's own dome, else by 4 KiB units
(log 17). -/
def l2Home (pa : Nat) : Nat := if tierOf pa = 0 then pa / 0xC00000000 % 4 else pa / 4096 % 4

/-- The scope that a line which comes clean from the L2 of dome `d` records (R116): DEVICE for a home slice in that dome, else DOME. -/
def fillScope (d line : Nat) : Nat := if l2Home (128 * line) = d then 3 else 2

/-- The L2 holds a line with its recorded scope, dirty or clean (R116, R117). -/
def l2Put (l : List (Nat × Nat × Bool)) (line sc : Nat) (dirty : Bool) : List (Nat × Nat × Bool) := (line, sc, dirty) :: l.filter fun x => x.1 != line

/-- A read of [pa, pa + n) leaves its lines in the L1 and in the L2 that they came from, where they stand already or with the scope
of R116's table. A window is cached in neither (R428). -/
def State.l1Fill (s : State) (pa n : Nat) : State :=
  if inWindow pa then s
  else
    let d := s.focus.dome
    let new := (linesOf pa n).filter fun k => !s.core.l1.any fun x => x.1 == k
    if new.isEmpty then s
    else
      (s.upd fun c => { c with l1 := new.foldl (fun l k => l1Put l k (fillScope d k)) c.l1 }).updDev fun v => v.updDome d fun x =>
        { x with l2 := new.foldl (fun l k => if l.any fun y => y.1 == k then l else l2Put l k (fillScope d k) false) x.l2 }

/-- The lines of the places of global memory among chunks of `n` bytes join the L1 (R116). -/
def State.l1Read (s : State) (n : Nat) (ps : List (Place × Nat)) : State :=
  ps.foldl (fun s p => if p.1 = .phys then s.l1Fill p.2 n else s) s

/-- A store stands at a place of a scratchpad (R120): stores there that it covers are gone. -/
def Device.landed (v : Device) (u : Agent) (pl : Place) (x n : Nat) : Device :=
  { v with far := (v.far.filter fun f => !(f.place == pl && decide (x ≤ f.addr) && decide (f.addr + f.len ≤ x + n))) ++
             [{ place := pl, addr := x, len := n, issuer := u, rel := none }] }

/-- The task of the unit in focus stores into its own scratchpad: what the K space has brought there stands no more. -/
def State.ownStore (s : State) (x n : Nat) : State :=
  match s.core.task with
  | some t => if s.dev.far.isEmpty then s else s.updDev fun v =>
      { v with far := v.far.filter fun f => !(f.place == .spad t.part t.slot && decide (x < f.addr + f.len) && decide (f.addr < x + n)) }
  | none => s

/-- Perform a store at its place: G-space bytes join the core's unpublished stores (R120). A window is not cached (R428). -/
def State.perform (s : State) (p : Piece) : State :=
  match p.place with
  | .phys =>
    let x : GStore := { id := s.dev.nextStore, party := .unit s.focus, iss := s.dev.stamp, addr := p.addr, bytes := p.bytes, pubs := [], sched := s.core.sched }
    (s.upd fun c => { c with dirty := c.dirty ++ [x],
                             l1 := if inWindow p.addr then c.l1 else (linesOf p.addr p.bytes.length).foldl (fun l k => l1Put l k 0) c.l1 }).updDev
      fun v => { v with nextStore := v.nextStore + 1 }
  | .own => (s.ownStore p.addr p.bytes.length).upd fun c => { c with spad := memWrite c.spad p.addr p.bytes }
  | .spad q i => (s.storeSpad q i p.addr p.bytes).updDev fun v => v.landed s.focus p.place p.addr p.bytes.length
  | .dome d => s.updDev fun v => (v.updDome d fun x => { x with spad := memWrite x.spad p.addr p.bytes }).landed s.focus p.place p.addr p.bytes.length
  | .lane => s.upd fun c => { c with lanes := memWrite c.lanes p.addr p.bytes }

/-- Perform stores in order. -/
def State.performAll (s : State) (ps : List Piece) : State := ps.foldl State.perform s

/-- Every K-space and D-space store in flight lands (R120, R340). -/
def State.landAll (s : State) : State :=
  (s.upd fun c => { c with landing := [] }).performAll (s.core.landing.flatMap fun l => l.pieces)

/-- The stores of the focused task's visible set (R121): its own, those that it has acquired or read, and those published to it
before its latest acquire, of whatever kind. -/
def State.visible (s : State) (x : GStore) : Bool :=
  s.core.view.contains x.id || s.core.raced.any (fun r => r.2 == x.id) || s.core.part.any (fun p => p.1 == x.id) ||
    (match x.toUnit s.focus with | some t => decide (t ≤ s.core.lastAcquire) | none => false)

/-- Lines of the focused core's L1 are written back at a scope (R116, R117): they record it, at most DEVICE; to the dome's L2 up to
DOME, where they are dirty, else to their homes. The L2 invalidates the copies in the dome's other L1s. -/
def State.backLines (s : State) (scope : Nat) (ls : List Nat) : State :=
  if ls.isEmpty ∨ scope = 0 then s
  else
    let d := s.focus.dome
    let near (w : Agent) : Bool := w.dome == d
    { s with core := { s.core with l1 := s.core.l1.map fun x => if ls.contains x.1 then (x.1, Nat.min 3 scope) else x }
             parked := s.parked.map fun x =>
               if near x.1 then (x.1, { x.2 with l1 := x.2.l1.filter fun y => y.2 == 0 || !ls.contains y.1 }) else x
             dev := s.dev.updDome d fun x =>
               { x with l2 := ls.foldl (fun l k => if scope ≥ 3 then l2Put l k 3 false else l2Put l k (fillScope d k) true) x.l2 } }

/-- The write-backs that a release at a scope waits for, of the lines that `p` picks (R117): those of the L1 recorded narrower, and at
DEVICE or wider the dirty lines of the dome's L2 recorded DOME. -/
def State.writeBack (s : State) (scope : Nat) (p : Nat → Bool) : State :=
  let s := s.backLines scope ((s.core.l1.filter fun x => decide (x.2 < scope) && p x.1).map Prod.fst)
  if scope < 3 then s
  else s.updDev fun v => v.updDome s.focus.dome fun x => { x with l2 := x.l2.map fun y => if y.2.2 && p y.1 then (y.1, 3, false) else y }

/-- The lines that an acquire at a scope of a unit in dome `d` invalidates, of those that `p` picks (R117): clean ones of the core
recorded narrower, and at DEVICE or wider the copies in the dome's L2 recorded DOME. -/
def State.invalidate (s : State) (d scope : Nat) (p : Nat → Bool) : State :=
  let s := s.upd fun c => { c with l1 := c.l1.filter fun x => x.2 == 0 || decide (scope ≤ x.2) || !p x.1 }
  if scope < 3 then s
  else s.updDev fun v => v.updDome d fun x => { x with l2 := x.l2.filter fun y => y.2.2 || y.2.1 != 2 || !p y.1 }

/-- The home scope of a store that stands in a scratchpad: CLUSTER in K space, DOME in D space (R113). -/
def FarStore.home (f : FarStore) : Nat := match f.place with | .dome _ => 2 | _ => 1

/-- A release of a unit publishes such a store (R120). -/
def FarStore.due (f : FarStore) (u : Agent) (scope : Nat) : Bool := f.rel.isNone && f.issuer == u && decide (f.home ≤ scope)

/-- A release of the focused unit at a scope (R117 to R121): stores in flight land, its unpublished stores take their places in
coherence order, and every store of its visible set is published at the scope. CORE publishes nothing (R117). -/
def State.release (s : State) (scope : Nat) : State :=
  let s := s.landAll
  if scope = 0 then s
  else
    let s := s.writeBack scope fun _ => true
    let c := s.core
    let xs := s.dev.hist ++ c.dirty
    if xs.isEmpty && !s.dev.far.any (fun f => f.due s.focus scope) then s
    else
      let t := s.dev.stamp + 1
      let mine := c.dirty.map GStore.id
      let seen (x : GStore) : Bool := mine.contains x.id || s.visible x
      let ys := xs.map fun x => if seen x && !x.covered s.focus scope then { x with pubs := x.pubs ++ [(scope, .unit s.focus, t)] } else x
      { s with core := { s.core with dirty := [], view := c.view ++ mine },
               dev := { (s.dev.toHome scope (xs.filter seen)).withHist ys t with
                 rels := s.dev.rels ++ [(t, (xs.filter seen).map GStore.id)]
                 far := s.dev.far.map fun f => if f.due s.focus scope then { f with rel := some t } else f } }

/-- What an acquire at a scope leaves of a taint (R127): it ends what came from LDCs whose scope field it covers. -/
def clearTaint (scope : Nat) (t : Option Taint) : Option Taint :=
  match t with
  | some x => if x.scope.toNat ≤ scope then none else some { x with rels := x.rels.filter fun r => scope < r.1 }
  | none => none

/-- The stores that an acquire at scope `Y` of a task at unit `u` brings into its view (R122). -/
def acquirable (u : Agent) (Y : Nat) (x : GStore) : Bool :=
  (x.toUnit u).isSome && decide (u.scopeTo x.party ≤ Y)

/-- An acquire of the focused unit at a scope (R122, R127): taints of LDCs it covers end, the stores published to the task by
parties within the scope join its view, with those that it has read, and a phase begins. `u` is the unit whose place counts. R122
does not say what it is that a task's view holds already: the model takes the stores that it has issued, acquired or read, and not
those that were published to it before its latest acquire and are in its visible set by that alone (DESIGN CHOICE, log 102). -/
def State.acquireAt (s : State) (u : Agent) (scope : Nat) : State :=
  let s := (s.upd fun c => { c with staint := c.staint.map (clearTaint scope), ataint := c.ataint.map (clearTaint scope) }).invalidate
    u.dome scope fun _ => true
  if s.dev.hist.isEmpty && s.core.dirty.isEmpty then s
  else
    let t := s.dev.stamp + 1
    let got := (s.dev.hist.filter fun x => !s.core.view.contains x.id && (acquirable u scope x || s.core.raced.any fun r => r.2 == x.id)).map GStore.id
    { s with core := { s.core with view := s.core.view ++ got, phase := t, bufs := [] }, dev := { s.dev with stamp := t } }

/-- An acquire of the focused unit at a scope. -/
def State.acquire (s : State) (scope : Nat) : State := s.acquireAt s.focus scope

/-- A line has a byte in one of some ranges. -/
def lineIn (rs : List (Nat × Nat)) (line : Nat) : Bool := rs.any fun r => decide (128 * line < r.1 + r.2) && decide (r.1 < 128 * line + 128)

/-- An acquire on named buffers, ranges of global memory (R122): the stores are acquired for their bytes inside. -/
def State.acquireBytes (s : State) (scope : Nat) (rs : List (Nat × Nat)) : State :=
  let s := (s.upd fun c => { c with staint := c.staint.map (clearTaint scope), ataint := c.ataint.map (clearTaint scope) }).invalidate
    s.focus.dome scope (lineIn rs)
  if s.dev.hist.isEmpty || rs.isEmpty then s
  else
    let t := s.dev.stamp + 1
    let got := s.dev.hist.flatMap fun x =>
      if !s.core.view.contains x.id && acquirable s.focus scope x then
        (rs.filter fun r => x.meets r.1 r.2).map fun r => (x.id, r.1, r.2)
      else []
    { s with core := { s.core with part := s.core.part ++ got, bufs := s.core.bufs ++ rs.map fun r => (r.1, r.2, t) }
             dev := { s.dev with stamp := t } }

/-- Every core of the device, resident or saved with a task. -/
def State.mapCores (s : State) (f : Core → Core) : State :=
  { s with core := f s.core, parked := s.parked.map (fun x => (x.1, f x.2)),
           dev := { s.dev with slots := s.dev.slots.map fun t => { t with kept := t.kept.map f } } }

/-- The stores that a range cuts are split there, and every task knows of the parts what it knew of the whole (R122). -/
def State.splitAt (s : State) (lo n : Nat) : State :=
  let (h, r1) := splitStores lo n s.dev.nextStore s.dev.hist
  let (d, r2) := splitStores lo n (s.dev.nextStore + r1.length) s.core.dirty
  let rs := r1 ++ r2
  if rs.isEmpty then s
  else
    let s := s.mapCores fun c => c.renamed lo n rs
    { s with core := { s.core with dirty := d }
             dev := { s.dev with hist := h, nextStore := s.dev.nextStore + rs.length
                                 rels := s.dev.rels.map fun y => (y.1, y.2 ++ (rs.filter fun r => y.2.contains r.1).map Prod.snd) } }

/-- A release on named buffers (R118, R135): the stores of the visible set, and the unpublished ones, are published for their bytes
inside. -/
def State.releaseBytes (s : State) (scope : Nat) (rs : List (Nat × Nat)) : State :=
  let s := rs.foldl (fun s r => s.splitAt r.1 r.2) (s.landAll.writeBack scope (lineIn rs))
  let inside (x : GStore) : Bool := rs.any fun r => x.meets r.1 r.2
  let c := s.core
  let (mine, keep) := c.dirty.partition inside
  if mine.isEmpty && s.dev.hist.isEmpty then s
  else
    let t := s.dev.stamp + 1
    let seen (x : GStore) : Bool := s.visible x && inside x
    let add (x : GStore) : GStore := { x with pubs := x.pubs ++ [(scope, .unit s.focus, t)] }
    let old := s.dev.hist.map fun x => if seen x && !x.covered s.focus scope then add x else x
    let ids := (mine ++ s.dev.hist.filter seen).map GStore.id
    { s with core := { s.core with dirty := keep, view := c.view ++ mine.map GStore.id }
             dev := { (s.dev.toHome scope (mine ++ s.dev.hist.filter seen)).withHist (old ++ mine.map add) t with rels := s.dev.rels ++ [(t, ids)] } }

/-- The stores that a tainted address promises (R127): the visible sets of the releases at which the LDC's stores were
published. -/
def Device.promised (v : Device) (t : Option Taint) : List Nat :=
  match t with
  | none => []
  | some x => x.rels.flatMap fun r => (v.rels.filter fun y => y.1 == r.2).flatMap Prod.snd

end Sys2Proof.Machine
end

