-- ==== Sys2Proof/WellFormed.lean ====
section
/-! DEFINITION. Well-formed instructions: those whose bundle passes the checks of R143 that do not read
the state. -/

namespace Sys2Proof

/-- An instruction is well formed when its zero fields are zero (R9, R142) and its assigned fields hold
assigned values (R143, check 5). An event has no fields, so it is always well formed. -/
def Instr.wellFormed (i : Instr) : Bool := zerosOk i && legalOk i

end Sys2Proof
end

