-- ==== Sys2Proof/Machine/Registers.lean ====
section
/-! DEFINITION. Registers, guards, results in flight and schedule time (R144, R152 to R155, R171 to R173,
R200). -/

namespace Sys2Proof.Machine

/-- The scalar register named by a 5-bit field; s0 reads zero (R171, R174). -/
def Core.sreg (c : Core) (i : Reg) : Word := if i = 0 then 0 else c.s[i.toNat]'i.isLt

/-- The address register with a number (R171). -/
def Core.areg (c : Core) (i : BitVec 4) : Addr := c.a[i.toNat]'i.isLt

/-- The address register named by a 5-bit field whose value is below 16 (R171). -/
def Core.areg5 (c : Core) (i : Reg) : Addr := c.areg (i.setWidth 4)

/-- The vector register that a field names: during a replay with rotation, numbers 16 to 31 are shifted by
RB (R226). -/
def Core.vnum (c : Core) (i : Reg) : Reg :=
  match c.replay with
  | none => i
  | some r => if r.rot && i.toNat ≥ 16 then BitVec.ofNat 5 (16 + (i.toNat + r.rb) % 16) else i

/-- The vector register with a physical number. -/
def Core.vphys (c : Core) (i : Reg) : VReg := c.v[i.toNat]'i.isLt

/-- The vector register named by a field. -/
def Core.vreg (c : Core) (i : Reg) : VReg := c.vphys (c.vnum i)

/-- The taint of a scalar register (R127). -/
def Core.sTaint (c : Core) (i : Reg) : Option Taint := if i = 0 then none else c.staint[i.toNat]'i.isLt

/-- The taint of an address register (R127). -/
def Core.aTaint (c : Core) (i : BitVec 4) : Option Taint := c.ataint[i.toNat]'i.isLt

/-- The taint of a result of two operands (R127): what each promises, each until its own scope is acquired (log 60). -/
def joinTaint (x y : Option Taint) : Option Taint :=
  match x, y with
  | none, t => t
  | t, none => t
  | some p, some q => some { scope := if p.scope.toNat < q.scope.toNat then q.scope else p.scope, rels := p.rels ++ q.rels }

/-- Write a scalar register with its taint; writes to s0 are ignored (R171). -/
def Core.setS (c : Core) (i : Reg) (v : Word) (t : Option Taint) : Core :=
  if i = 0 then c else { c with s := c.s.set i.toNat v i.isLt, staint := c.staint.set i.toNat t i.isLt }

/-- Write an address register with its taint. -/
def Core.setA (c : Core) (i : BitVec 4) (v : Addr) (t : Option Taint) : Core :=
  { c with a := c.a.set i.toNat v i.isLt, ataint := c.ataint.set i.toNat t i.isLt }

/-- The lanes of `new` where the mask is 1, those of `old` elsewhere (R144). -/
def mergeLanes (m : LaneMask) (old new : VReg) : VReg :=
  Vector.ofFn fun i => if m.getLsbD i.val then new[i.val] else old[i.val]

/-- Write a vector register, by physical number, in the lanes of a mask. -/
def Core.setV (c : Core) (i : Reg) (m : LaneMask) (v : VReg) : Core :=
  { c with v := c.v.set i.toNat (mergeLanes m (c.vphys i) v) i.isLt }

/-- A register with bytes from `off` of each row replaced (R227, R251). -/
def putRows (v : VReg) (off : Nat) (rows : List (List Byte)) : VReg :=
  let n := (rows.headD []).length
  let arr := (rows.map List.toArray).toArray
  Vector.ofFn fun i =>
    let byte (b : Nat) : Byte :=
      let k := 4 * (i.val % 64) + b
      if off ≤ k ∧ k < off + n then (arr.getD (i.val / 64) #[]).getD (k - off) 0 else (v[i.val]).extractLsb' (8 * b) 8
    byte 3 ++ byte 2 ++ byte 1 ++ byte 0

/-- TFLAGS fields (R187). -/
def Core.shchk (c : Core) : Bool := c.tflags.getLsbD 0
def Core.ftz (c : Core) : Bool := c.tflags.getLsbD 1
def Core.aen (c : Core) : BitVec 11 := c.tflags.extractLsb' 8 11
def Core.mer (c : Core) : Bool := c.tflags.getLsbD 24
def Core.hnd (c : Core) : Bool := c.tflags.getLsbD 25

/-- Set TFLAGS.HND (R187). -/
def Core.setHnd (c : Core) (b : Bool) : Core :=
  { c with tflags := if b then c.tflags ||| 0x2000000 else c.tflags &&& ~~~0x2000000 }

/-- The writable bits of TFLAGS: SHCHK, FTZ and AEN (R187). -/
def tflagsMask : Word := 0x7FF03

/-- Perform the write of a result (R155). -/
def Core.land (c : Core) (w : Write) : Core :=
  match w with
  | .s r v t => c.setS r v t
  | .a r v t => c.setA r v t
  | .v r m v => c.setV r m v
  | .tflags v => { c with tflags := (c.tflags &&& ~~~tflagsMask) ||| (v &&& tflagsMask) }
  | .bound k t => { c with boundDue := c.boundDue ++ [(k, t)] }
  | .none => c

/-- The order in which operations issue (R253): by τ, and within a bundle by slot number in the order S, A, V0, V1, M. -/
def issueKey (tau slot : Nat) : Nat := 8 * tau + slot

/-- The BOUND that is reported of those that are due: the earliest issued (R253). -/
def Core.firstBound (c : Core) : Option (BitVec 4) :=
  (c.boundDue.foldl (fun (m : Option (Nat × BitVec 4)) b => match m with | some x => if b.1 < x.1 then some b else m | none => some b) none).map Prod.snd

/-- OR flags into STICKY, and remember them for the present τ cycle (R173). -/
def Core.raise (c : Core) (f : BitVec 11) : Core :=
  { c with sticky := c.sticky ||| f, flagsNow := c.flagsNow ||| f }

/-- Two writes go to one register. -/
def Write.sameReg : Write → Write → Bool
  | .s r _ _, .s q _ _ => r == q
  | .a r _ _, .a q _ _ => r == q
  | .v r _ _, .v q _ _ => r == q
  | _, _ => false

/-- What reaches registers of the results that are due, in issue order: of two that reach one register in one cycle, the earlier is
lost (R18, R155), though its flags are set. -/
def keptOf : List Result → List Result
  | [] => []
  | r :: rs =>
    let out := keptOf rs
    (if rs.any fun q => q.due == r.due && r.w.sameReg q.w then { r with w := .none } else r) :: out

/-- The results whose latency has elapsed land, in issue order (R153, R155, R173). -/
def Core.landDue (c : Core) : Core :=
  { ((keptOf (c.results.filter fun r => r.due ≤ c.tau)).foldl (fun c r => (c.land r.w).raise r.flags) c) with
    results := c.results.filter fun r => !(r.due ≤ c.tau) }

/-- OR bits into the CLIPMASK words of tiles (R97). -/
def MatCtx.orClips (m : MatCtx) (cs : List (Nat × Word)) : MatCtx :=
  cs.foldl (fun m c =>
    if h : c.1 < 4 then
      (let t := m.tiles[c.1]
       { m with tiles := m.tiles.set c.1 { t with data := { t.data with clip := t.data.clip ||| c.2 } } h })
    else m) m

/-- A fully digital beat counts in the present window (R25). -/
def Core.countDigital (c : Core) : Core :=
  { c with digital := (c.wall / 256, (if c.digital.1 = c.wall / 256 then c.digital.2 else 0) + 1) }

/-- A beat lands: it sets its flags and its CLIPMASK bits, and the window counts it (R97, R279, R353). A hidden beat, which
writes no tile, counts among the fully digital beats where it lands (R288). -/
def Core.landBeat (c : Core) (b : Beat) : Core :=
  let c := if b.tiles = 0 then c.countDigital else c
  ({ c with mat := c.mat.orClips b.clips, burstBeats := c.burstBeats + 1 }).raise b.flags

/-- The beats whose 8 cycles have passed land (R279). -/
def Core.beatsDue (c : Core) : Core :=
  let c' := c.mat.beats.foldl (fun c b => if b.left = 0 then c.landBeat b else c) c
  { c' with mat := { c'.mat with beats := c.mat.beats.filter fun b => !(b.left = 0) } }

/-- A drained entry enters its queue (R287), and a TRAP of its bound check becomes due (R289). -/
def Core.enterQueue (c : Core) (d : Drain) : Core :=
  let c := c.raise d.flags
  { c with
    mat := { c.mat with queues := c.mat.queues.set d.q.toNat (c.mat.queues[d.q.toNat]'d.q.isLt ++ [d.entry]) d.q.isLt }
    boundDue := if d.bound = 0 then c.boundDue else c.boundDue ++ [(issueKey (c.tau - 16) 4, d.bound)] }

/-- The drains whose 16 cycles have passed enter their queues (R287). -/
def Core.drainsDue (c : Core) : Core :=
  let c' := c.mat.drains.foldl (fun c d => if d.left = 0 then c.enterQueue d else c) c
  { c' with mat := { c'.mat with drains := c.mat.drains.filter fun d => !(d.left = 0) } }

/-- Every count in τ of the matrix context goes down by one (R279, R287). -/
def MatCtx.count (m : MatCtx) : MatCtx :=
  { m with beats := m.beats.map fun b => { b with left := b.left - 1 }
           drains := m.drains.map fun d => { d with left := d.left - 1 } }

/-- rbgen of R354: word `n` of the sequence of a key. -/
def rbgen (key n : Word) : Word :=
  let x := key + n * 0x9E3779B97F4A7C15
  let x := (x ^^^ (x >>> 30)) * 0xBF58476D1CE4E5B9
  let x := (x ^^^ (x >>> 27)) * 0x94D049BB133111EB
  x ^^^ (x >>> 31)

/-- The generator appends one word while the queue holds fewer than 16 (R354). -/
def Core.rbAppend (c : Core) : Core :=
  if c.task.isNone ∨ c.rbq.length ≥ 16 then c else { c with rbq := c.rbq ++ [rbgen c.rbkey c.rbctr], rbctr := c.rbctr + 1 }

/-- A calibration whose end has come completes: the macro is free and its age restarts (R98). -/
def ArrState.calDue (a : ArrState) (now : Nat) : ArrState :=
  match a.busy with
  | some t => if t ≤ now then { a with busy := none, calAt := some t } else a
  | none => a

/-- No beat and no WLOAD is in flight on the macros of a bank (R98). -/
def Core.calFree (c : Core) (b : Nat) : Bool :=
  !(c.mat.beats.any fun x => (if x.bank then 1 else 0) == b && x.left != 0) &&
    ((if c.live then 1 else 0) == b || !(c.outst.any fun x => match x with | .engine e => e.kind == 7 | _ => false))

/-- Calibrations that waited for beats or a WLOAD start once those are over: for 4,096 cycles (R98). -/
def Core.calGo (c : Core) : Vector ArrState 8 :=
  if c.arrays.any ArrState.queued then
    Vector.ofFn fun i =>
      let a := c.arrays[i]
      if a.queued && c.calFree (i.val / 4) then { a with queued := false, busy := some (c.wall + 4096) } else a
  else c.arrays

/-- The beats that a window takes (R353): 16L + 16 when the declaration covers it whole, else 32. -/
def Core.allowance (c : Core) (w : Nat) : Nat :=
  match c.phint with
  | some (b, n, l) => if b ≤ 256 * w ∧ 256 * w + 256 ≤ b + n then 16 * l + 16 else 32
  | none => 32

/-- A window of 256 wall cycles that is over is accounted (R353): an overrun counts in BURSTCNT, and the next
window's beats are then held at its own allowance. -/
def Core.windowDue (c : Core) : Core :=
  if c.wall / 256 ≤ c.window then c
  else
    let past := decide (c.burstBeats > c.allowance c.window)
    { c with window := c.wall / 256, burstBeats := 0, burstPaid := false,
             burstcnt := if past ∧ c.burstPaid = false then c.burstcnt + 1 else c.burstcnt,
             burstHeld := past && c.wall / 256 == c.window + 1 }

/-- A task leaves the core: an overrun of the present window is charged to it now (R353; log 90). -/
def Core.chargeNow (c : Core) : Core :=
  if c.burstBeats > c.allowance c.window ∧ c.burstPaid = false then { c with burstcnt := c.burstcnt + 1, burstPaid := true } else c

/-- The task leaves the core for good, or suspends: its declaration ends first, as PHCLR ends it, so that no declaration covers the
present window whole (R353, R357). -/
def Core.endCharge (c : Core) : Core := ({ c with phint := none } : Core).chargeNow

/-- One wall cycle passes (R191, R353): CYCLE counts it while a task is resident; the generator, the
calibrations and the burst window go on. -/
def Core.tickWall (c : Core) : Core :=
  ({ c.rbAppend with
     wall := c.wall + 1, cycle := if c.task.isSome then c.cycle + 1 else c.cycle
     arrays := c.calGo.map fun a : ArrState => a.calDue (c.wall + 1) }).windowDue

/-- One cycle of schedule time passes (R152, R153). -/
def Core.tick (c : Core) : Core :=
  let c := c.tickWall
  let c := { c with tau := c.tau + 1, flagsNow := 0, mat := c.mat.count }
  c.landDue.beatsDue.drainsDue

/-- `n` cycles of schedule time pass. -/
def Core.ticks (c : Core) : Nat → Core
  | 0 => c
  | n + 1 => c.tick.ticks n

/-- The top entry's scalar bit; the empty stack is all-true (R144). -/
def Core.topB (c : Core) : Bool := match c.pstack with | [] => true | e :: _ => e.b

/-- The top entry's mask; the empty stack is all-true (R144). -/
def Core.topM (c : Core) : LaneMask := match c.pstack with | [] => -1 | e :: _ => e.m

/-- A guarded scalar operation takes effect (R144). -/
def Core.active (c : Core) (g : Bool) : Bool := !g || c.topB

/-- The active lanes of a guarded vector operation (R144). -/
def Core.lanesOf (c : Core) (g : Bool) : LaneMask := if g then c.topM else -1

/-- The stack as the pushes of the bundle have left it (R201). -/
def Core.stackNow (c : Core) : List PredEntry := c.pnext.getD c.pstack

/-- The mask and the bit of an entry's parent (R200). -/
def parentOf : List PredEntry → LaneMask × Bool
  | [] => (-1, true)
  | e :: _ => (e.m, e.b)

/-- The τ at which the top mask of a stack is written (R144, R262). -/
def dueOf : List PredEntry → Nat
  | [] => 0
  | e :: _ => e.due

/-- Push a scalar condition (R200, R201). -/
def Core.pushScalar (c : Core) (x : Bool) : Core :=
  let st := c.stackNow
  let (m, b) := parentOf st
  { c with pnext := some ({ m := if x then m else 0, b := b && x, due := dueOf st } :: st) }

/-- Push a vector condition whose mask is written at τ `due` (R200, R201, R262). -/
def Core.pushVector (c : Core) (m : LaneMask) (due : Nat) : Core :=
  let st := c.stackNow
  let (pm, pb) := parentOf st
  { c with pnext := some ({ m := pm &&& m, b := pb, due := Nat.max due (dueOf st) } :: st) }

/-- An entry holds a live vector mask (R200). -/
def PredEntry.live (e : PredEntry) : Bool := e.m != (if e.b then -1 else 0)

/-- The detail of PSTACK (R189): depth before the bundle, its pushes and its `pop`. -/
def Core.pstackInfo (c : Core) : Nat := c.pstack.length + c.curPushes * 2 ^ 5 + c.curPop.toNat * 2 ^ 10

/-- Send a result on its way: it lands at τ + `lat` (R153). -/
def Core.put (c : Core) (lat : Nat) (w : Write) (flags : BitVec 11 := 0) (can : Bool := false) : Core :=
  { c with results := c.results ++ [{ w := w, flags := flags, can := can, due := c.tau + lat }] }

/-- A result for a scalar register (R153). -/
def State.wS (s : State) (lat : Nat) (d : Reg) (v : Word) (t : Option Taint := none) (flags : BitVec 11 := 0) : State :=
  s.upd fun c => c.put lat (.s d v t) flags

/-- A result for an address register (R153). -/
def State.wA (s : State) (lat : Nat) (d : Reg) (v : Addr) (t : Option Taint := none) : State :=
  s.upd fun c => c.put lat (.a (d.setWidth 4) v t)

/-- Journal a vector register at its first write in an open segment (R375). -/
def Core.journalV (c : Core) (i : Reg) : Core :=
  match c.seg with
  | none => c
  | some g =>
    if g.journal.any fun e => e.1 == i then c
    else { c with seg := some { g with journal := g.journal ++ [(i, c.vphys i)] } }

/-- A result for a vector register named by a field, in the lanes of a mask (R144, R153). -/
def State.wV (s : State) (lat : Nat) (d : Reg) (m : LaneMask) (v : VReg) (flags : BitVec 11 := 0)
    (can : Bool := false) : State :=
  s.upd fun c => (c.journalV (c.vnum d)).put lat (.v (c.vnum d) m v) flags can

/-- A result for bytes of each row of a vector register named by a field, whose other bytes are those at issue (R153, R226, R251). -/
def State.wBytes (s : State) (lat : Nat) (d : Reg) (off : Nat) (rows : List (List Byte)) (flags : BitVec 11 := 0)
    (can : Bool := false) : State :=
  s.wV lat d (-1) (putRows (s.core.vreg d) off rows) flags can

/-- A fresh free value (log 5): the value, and the state that has used it. -/
def State.freeVal (s : State) : Nat × State := (Config.free s.free, { s with free := s.free + 1 })

/-- The outcome of a meaning that is guarded by a scalar bit (R144). -/
def State.whenActive (s : State) (g : Bool) (f : State → State) : Host.Outcome State Fault Refusal :=
  .next (if s.core.active g then f s else s)

/-- The operation waits for another party or an outstanding operation (R152). -/
def State.wait (s : State) : State := { s with last := .waits }

/-- The operation waits in a structural stall until τ = `t` (R152). -/
def State.waitTau (s : State) (t : Nat) : State := { s with last := .waitTau t }

/-- Commit an open segment: held stores are performed in issue order, after the older ones that have not landed, and
the journal and entry state are released (R120, R375). -/
def State.commitSeg (s : State) : State :=
  match s.core.seg with
  | none => s
  | some _ => (s.upd fun c => { c with seg := none, landing := [] }).performAll s.core.heldPieces

/-- A synchronisation point: an open segment closes (R118, R375), and the hold of a rewind ends (R377). -/
def State.syncPoint (s : State) : State := (s.commitSeg).upd fun c => { c with hold := none }

end Sys2Proof.Machine
end

