-- ==== Sys2Proof/Machine/Launch.lean ====
section
/-! DEFINITION. The Observing Log (R437), launch records and completion records (R388, R391), predecessor
counters and ready queues (R393, R394), completion signals, trigger events and their hold (R50, R51, R409). -/

namespace Sys2Proof.Machine

/-- The unit kind and index of an issuing unit in a log entry (R437). -/
def Agent.logUnit : Agent → Nat × Nat
  | .core p => (0, p % 256)
  | .qp _ k => (1, k)

/-- Log an event of the focused unit in its dome (R437). -/
def State.logEvent (s : State) (code grade : Nat) (p0 p1 : Word) : State :=
  let u := s.focus.logUnit
  s.updDev fun v => v.log s.focus.dome code grade u.1 u.2 p0 p1 s.ctx.toNat s.partition

/-- Fields of a launch record (R388). -/
def recKernel (r : List Byte) : Addr := BitVec.ofNat 80 (fieldAt r 0 10)
def recLid (r : List Byte) : Nat := fieldAt r 0x0C 4
def recGang (r : List Byte) : Nat := fieldAt r 0x10 1
def recBarriers (r : List Byte) : Nat := fieldAt r 0x11 1
def recClass (r : List Byte) : Nat := fieldAt r 0x12 1
def recFlag (r : List Byte) (k : Nat) : Bool := bitOf (fieldAt r 0x13 1) k
def recMer (r : List Byte) : Bool := recFlag r 0
def recPers (r : List Byte) : Bool := recFlag r 1
def recIdem (r : List Byte) : Bool := recFlag r 2
def recTrapRej (r : List Byte) : Bool := recFlag r 3
def recShchk (r : List Byte) : Bool := recFlag r 4
def recGx (r : List Byte) : Nat := fieldAt r 0x14 4
def recGy (r : List Byte) : Nat := fieldAt r 0x18 4
def recGz (r : List Byte) : Nat := fieldAt r 0x1C 4
def recParam (r : List Byte) : Addr := BitVec.ofNat 80 (fieldAt r 0x20 10)
def recTokens (r : List Byte) : Nat := fieldAt r 0x2A 2
def recParamBytes (r : List Byte) : Nat := fieldAt r 0x2C 4
def recFoot (r : List Byte) : Nat := fieldAt r 0x30 4
def recPreds (r : List Byte) : Nat := fieldAt r 0x34 2
def recSuccs (r : List Byte) : Nat := fieldAt r 0x36 1
def recDomeBytes (r : List Byte) : Nat := fieldAt r 0x38 8
def recEstimate (r : List Byte) : Nat := fieldAt r 0x40 8
def recSeed (r : List Byte) : Word := BitVec.ofNat 64 (fieldAt r 0x48 8)
def recRoute (r : List Byte) : Word := BitVec.ofNat 64 (fieldAt r 0x50 8)
def recCompl (r : List Byte) : Addr := BitVec.ofNat 80 (fieldAt r 0x58 10)
def recHtab (r : List Byte) : Addr := BitVec.ofNat 80 (fieldAt r 0x62 10)

/-- The successors of a record: launch id and edge kind (true for a trigger edge) (R388). -/
def recEdges (r : List Byte) : List (Nat × Bool) :=
  (List.range (recSuccs r)).map fun k =>
    let e := fieldAt r (0x6C + 4 * k) 4
    (e % 2 ^ 31, bitOf e 31)

/-- The dome of a partition's lowest-numbered cluster, whose active queue processor serves it (R395). -/
def Device.homeDome (v : Device) (p : Nat) : Nat :=
  (((List.range 8).find? fun c => (v.part p).clusters.getLsbD c).getD 0) / 2

/-- The clusters of a partition in ascending physical order (R47). -/
def Device.clustersOf (v : Device) (p : Nat) : List Nat := (List.range 8).filter fun c => (v.part p).clusters.getLsbD c

/-- The scheduler entry of a launch (R393). -/
def Device.entryOf (v : Device) (p lid : Nat) : Option SchedEntry := v.entries.find? fun e => e.part == p && e.lid == lid

/-- Update a scheduler entry. -/
def Device.updEntry (v : Device) (p lid : Nat) (f : SchedEntry → SchedEntry) : Device :=
  { v with entries := updateFirst (fun e => e.part == p && e.lid == lid) f v.entries }

/-- Free a scheduler entry (R393). -/
def Device.freeEntry (v : Device) (p lid : Nat) : Device :=
  { v with entries := v.entries.filter fun e => !(e.part == p && e.lid == lid) }

/-- An entry as the first PCSET, decrement or failure that names its id creates it (R393). -/
def SchedEntry.fresh (p lid : Nat) : SchedEntry :=
  { part := p, lid := lid, counter := 0, set := false, record := [], va := 0, failed := false, state := 0, started := 0,
    gangs := 0, tasksLeft := 0, owed := 0, triggered := false, failCause := none, burst := 0, age := 0, dome := none }

/-- All 4,096 entries of a partition are in use (R393, R399). -/
def Device.entriesFull (v : Device) (p : Nat) : Bool := 4096 ≤ (v.entries.filter fun e => e.part == p).length

/-- Create the entry of a launch if it does not exist (R393); with all 4,096 in use none is made (log 25). -/
def Device.needEntry (v : Device) (p lid : Nat) : Device :=
  match v.entryOf p lid with
  | some _ => v
  | none => if v.entriesFull p then v else { v with entries := v.entries ++ [SchedEntry.fresh p lid] }

/-- Set the event latch of the queue processor that serves a partition (R397). -/
def Device.wakeQp (v : Device) (p : Nat) : Device := v.updDome (v.homeDome p) fun d => { d with qpEvent := true }

/-- A partition changes state: logged, announced to its port, and to the queue processor that serves it
(R446). Payload 1 holds the old code in bits [7:0] and the new one in bits [15:8] (log 11). -/
def Device.setPartState (v : Device) (p st : Nat) : Device :=
  let old := (v.part p).state
  let v := v.log (v.homeDome p) 0x0060 0 4 0 (BitVec.ofNat 64 p) (BitVec.ofNat 64 (old + st * 2 ^ 8)) 0xFFFF p
  ((v.updPart p fun q => { q with state := st }).msix (v.part p).port 2).wakeQp p

/-- An entry whose SET is 1 and whose counter has reached zero becomes READY once, and its id joins the
ready queue, which wakes the queue processor that serves it (R393, R397). -/
def Device.ripen (v : Device) (p lid : Nat) : Device :=
  match v.entryOf p lid with
  | some e =>
    if e.set && e.counter == 0 && e.state == 0 then
      ((v.updEntry p lid fun e => { e with state := 1 }).updPart p fun q => { q with ready := q.ready ++ [lid] }).wakeQp p
    else v
  | none => v

/-- A decrement of a launch's predecessor counter (R393). -/
def Device.decrement (v : Device) (p lid : Nat) : Device :=
  let v := v.needEntry p lid
  match v.entryOf p lid with
  | none => v
  | some e =>
    if e.state ≥ 2 then
      v.log (v.homeDome p) 0x0024 0 1 0 (BitVec.ofNat 64 lid) (BitVec.ofNat 64 e.state) (v.part p).ctx.toNat p
    else if e.counter ≤ -32768 then
      v.log (v.homeDome p) 0x0025 0 1 0 (BitVec.ofNat 64 lid) 0 (v.part p).ctx.toNat p
    else (v.updEntry p lid fun e => { e with counter := e.counter - 1 }).ripen p lid

/-- The GRADE of a failed launch from its trap code (R436). -/
def trapGrade (code : Nat) : Nat :=
  if code = POISON ∨ code = SEGRW ∨ code = TILECK then 2 else 3

/-- The completion record of R391. -/
def completionRecord (status grade lid burst : Nat) : List Byte :=
  bytesOfNat 8 (status + grade * 2 ^ 8 + lid % 2 ^ 31 * 2 ^ 32 + 2 ^ 63) ++ bytesOfNat 8 burst

/-- The GRADE that a completion status carries (R391, R436). -/
def Device.gradeOf (v : Device) (p status : Nat) (cause : Option Nat) : Nat :=
  if status = 0 then 0
  else if status = 5 then (match cause with | some c => if c = 0x100 + CTXLOST then 2 else trapGrade c | none => 3)
  else if status = 7 then (v.part p).fenceGrade
  else 1

/-- Write the completion record of a launch, unless its address is 0 (R391). -/
def Device.writeCompletion (v : Device) (p : Nat) (r : List Byte) (status grade burst : Nat) : Device :=
  if recCompl r = 0 then v
  else v.writeVa (v.part p).ctx (recCompl r) (completionRecord status grade (recLid r) burst)

/-- Failures still to apply, oldest first: each marks its entry, and rejects it at once with status 0x06
when it is WAITING or READY with a claimed record; failure passes on to its successors (R392, R393). -/
def Device.failAll (v : Device) (p : Nat) : Nat → List Nat → Device
  | 0, _ => v
  | _, [] => v
  | fuel + 1, lid :: rest =>
    let v := (v.needEntry p lid).updEntry p lid fun e => { e with failed := true }
    match v.entryOf p lid with
    | none => v.failAll p fuel rest
    | some e =>
      if e.set && e.state ≤ 1 then
        let v := v.updPart p fun q => { q with ready := q.ready.filter fun l => l != lid }
        let v := v.writeCompletion p e.record 6 1 e.burst
        (v.freeEntry p lid).failAll p fuel (rest ++ (recEdges e.record).map Prod.fst)
      else v.failAll p fuel rest

/-- Fail the successors of a record (R392). -/
def Device.failSuccessors (v : Device) (p : Nat) (r : List Byte) : Device :=
  v.failAll p (6 * v.entries.length + 16) ((recEdges r).map Prod.fst)

/-- A DRAINING partition with no entry that holds a claimed record, no task and no held signal becomes
DRAINED, and its other entries are freed (R407). -/
def Device.drainCheck (v : Device) (p : Nat) : Device :=
  if (v.part p).state == 2 && !(v.entries.any fun e => e.part == p && e.set) && !(v.slots.any fun t => t.part == p)
      && !((v.dome (v.homeDome p)).held.any fun h => match h with | .completion q _ _ => q == p | .trigger q _ => q == p) then
    { v.setPartState p 3 with entries := v.entries.filter fun e => !(e.part == p) }
  else v

/-- The completion signal of a launch fires: the completion record, with which the entry is freed, then the successors (R391 to
R393). -/
def Device.fireCompletion (v : Device) (p lid status : Nat) : Device :=
  match v.entryOf p lid with
  | none => v
  | some e =>
    let grade := v.gradeOf p status e.failCause
    let v := v.writeCompletion p e.record status grade e.burst
    let v := v.updPart p fun q => { q with completed := q.completed + 1, burst := q.burst + e.burst, worst := Nat.max q.worst grade }
    let v := v.freeEntry p lid
    let v := (if status = 0 then (recEdges e.record).foldl (fun v x => if x.2 then v else v.decrement p x.1) v
              else v.failSuccessors p e.record)
    v.drainCheck p

/-- Every live launch of a fenced partition ends with status 0x07 (R407): each has its completion record, and each fails its
successors, live ones being at their end already (R392). -/
def Device.endFenced (v : Device) (p : Nat) : Device :=
  let live := v.entries.filter fun e => e.part == p && e.set
  let v := live.foldl (fun v e => v.updEntry p e.lid fun e => { e with state := 3 }) v
  let grade := v.gradeOf p 7 none
  live.foldl (fun v e =>
    (((v.writeCompletion p e.record 7 grade e.burst).updPart p fun q =>
      { q with completed := q.completed + 1, burst := q.burst + e.burst, worst := Nat.max q.worst grade }).freeEntry p e.lid).failSuccessors p e.record) v

/-- The trigger event of a launch fires: trigger edges decrement (R50). -/
def Device.fireTrigger (v : Device) (p lid : Nat) : Device :=
  match v.entryOf p lid with
  | none => v
  | some e => (recEdges e.record).foldl (fun v x => if x.2 then v.decrement p x.1 else v) v

/-- A signal fires, with the effect that it has on arrival. -/
def Device.fire (v : Device) (h : Signal) : Device :=
  match h with
  | .completion p lid st => v.fireCompletion p lid st
  | .trigger p lid => v.fireTrigger p lid

/-- A signal arrives: it fires, or it is kept in arrival order while the dome holds completions (R409). -/
def Device.signal (v : Device) (h : Signal) : Device :=
  let p := match h with | .completion p _ _ => p | .trigger p _ => p
  let d := v.homeDome p
  if (v.dome d).hold then v.updDome d fun x => { x with held := x.held ++ [h] }
  else v.fire h

/-- `n` further signals do not fit among those that the dome holds, so the EXIT or TRIG that would add them waits (R409). -/
def Device.holdFull (v : Device) (p n : Nat) : Bool :=
  n != 0 && (v.dome (v.homeDome p)).hold && 4096 < (v.dome (v.homeDome p)).held.length + n

/-- The trigger signals that the end of one obligation of a launch adds: one with the last (R51). -/
def Device.triggerSignals (v : Device) (p lid : Nat) : Nat :=
  match v.entryOf p lid with
  | none => 0
  | some e => if e.owed ≤ 1 && !e.triggered && e.failCause.isNone then 1 else 0

/-- The signals that the end of a task adds: its obligation's, and the launch's completion with its last task (R50, R51). -/
def Device.endSignals (v : Device) (t : TaskInfo) (owes : Bool) : Nat :=
  (if owes && !t.spawned then v.triggerSignals t.part t.lid else 0) +
    (match v.entryOf t.part t.lid with | none => 0 | some e => if e.tasksLeft ≤ 1 then 1 else 0)

/-- A trigger obligation of a launch ends; the trigger event fires when all have ended (R51). A launch that
has failed fires none (R392). -/
def Device.endObligation (v : Device) (p lid : Nat) : Device :=
  let v := v.updEntry p lid fun e => { e with owed := e.owed - 1 }
  match v.entryOf p lid with
  | none => v
  | some e =>
    if e.owed = 0 && !e.triggered then
      let v := v.updEntry p lid fun e => { e with triggered := true }
      if e.failCause.isNone then v.signal (.trigger p lid) else v
    else v

/-- A task of a launch has ended; when none is left the launch completes, or its failure is reported
(R50, R392). -/
def Device.endTaskOf (v : Device) (p lid : Nat) : Device :=
  let v := v.updEntry p lid fun e => { e with tasksLeft := e.tasksLeft - 1 }
  match v.entryOf p lid with
  | none => v
  | some e =>
    if e.tasksLeft = 0 then
      let v := v.updEntry p lid fun e => { e with state := 3 }
      v.signal (.completion p lid (if e.failCause.isNone then 0 else 5))
    else v

/-- A generation of a barrier completes when every task that has not ended has arrived (R341). -/
def Gang.settle (g : Gang) : Gang :=
  let all (b : Nat × List Nat) : Bool := (List.range g.slots.length).all fun c => b.2.contains c || g.ended.contains (g.slots.getD c 0)
  { g with bars := g.bars.map fun b => if all b then (b.1 + 1, []) else b }

/-- Remove an ended task from its gang, which counts as its arrival (R341); the last one frees the gang's barriers
(R44). -/
def Device.leaveGang (v : Device) (g slot : Nat) : Device :=
  let gs := v.gangs.map fun x => if x.id == g then ({ x with ended := x.ended ++ [slot] } : Gang).settle else x
  { v with gangs := gs.filter fun x => !(x.id == g && x.slots.all fun t => x.ended.contains t) }

/-- A task leaves the waiters of every queue. -/
def Device.unwait (v : Device) (p slot : Nat) : Device :=
  { v with queues := v.queues.map fun (q : HwQueue) => if q.part == p then ({ q with waiters := q.waiters.filter fun i => i != slot } : HwQueue) else q }

/-- Combine slots of a partition forget openers that have ended (R350). -/
def Combine.disown (b : Combine) (p : Nat) (gone : Nat → Bool) : Combine :=
  if b.part = p then { b with slots := b.slots.map fun (x : CmbSlot) => { x with opener := x.opener.filter fun i => !gone i } } else b

/-- A resident task waits on no queue any more (R48, R336). -/
def Device.leaveWait (v : Device) (p slot : Nat) : Device :=
  match v.slotOf p slot with
  | some x => if x.deqtQ.isSome then (v.unwait p slot).updSlot p slot fun x => { x with deqtQ := none } else v
  | none => v

/-- Tasks of a partition that have ended take no part in a collective any more. -/
def Device.leaveColl (v : Device) (p : Nat) (gone : Nat → Bool) : Device :=
  { v with groups := v.groups.map fun (g : CollGroup) => { g with joined := g.joined.filter fun j => !(j.2.1 == p && gone j.2.2.1) } }

/-- The bookkeeping of a task that has ended (R42, R44, R51, R404, R405): its obligation, its place in the
launch and the gang, its slot with the poison of its private memory, and the save area that it held. `owes` says that it has not executed TRIG. -/
def Device.taskEnded (v : Device) (t : TaskInfo) (owes : Bool) : Device :=
  let area := match v.slotOf t.part t.slot with | some x => x.area | none => none
  let v := { (v.unwait t.part t.slot).leaveColl t.part (fun i => i == t.slot) with
             slots := v.slots.filter fun x => !(x.part == t.part && x.slot == t.slot)
             combines := v.combines.map fun (b : Combine) => b.disown t.part fun i => i == t.slot
             poison := v.poison.filter fun q => q.1 != Place.spad t.part t.slot }
  let v := v.updPart t.part fun q =>
    { q with freeAreas := (match area with | some a => q.freeAreas ++ [a] | none => q.freeAreas)
             spawnedLive := if t.spawned then q.spawnedLive - 1 else q.spawnedLive }
  let v := if t.spawned then v else v.leaveGang t.gang t.slot
  let v := if owes && !t.spawned then v.endObligation t.part t.lid else v
  (v.endTaskOf t.part t.lid).drainCheck t.part

/-- What a core keeps when a task leaves it: the physical core's own state, with everything of the task
zero (R27, R41); an armed parity error ends with it (log 19). -/
def Core.vacate (c : Core) : Core :=
  { Core.reset with wall := c.wall, window := c.window, burstBeats := c.burstBeats, burstPaid := c.burstPaid, digital := c.digital, burstHeld := c.burstHeld,
                    arrays := c.arrays.map fun a => { a with parity := false }, l1 := c.l1, tlb := c.tlb,
                    mon := { c.mon with mode := false, tvalid := false, saved := false, thnd := false, troute := 0, mhtab := 0,
                                        bpc := Mon.reset.bpc, wpa := Mon.reset.wpa, wpc := Mon.reset.wpc } }

/-- The focused core becomes idle. -/
def State.vacate (s : State) : State := s.upd Core.vacate

/-- The launch of a task fails with a trap code (R373): neither its trigger event nor its completion signal
fires any more. -/
def Device.failLaunch (v : Device) (p lid cause : Nat) : Device :=
  v.updEntry p lid fun e => { e with failCause := some (e.failCause.getD cause) }

/-- The BURSTCNT charges of a task that ends count in its launch (R391). -/
def Device.chargeBurst (v : Device) (t : TaskInfo) (n : Nat) : Device := v.updEntry t.part t.lid fun e => { e with burst := e.burst + n }

/-- The task of the focused core ends: bookkeeping, then the core is idle. -/
def State.endTask (s : State) : State :=
  match s.core.task with
  | none => s
  | some t =>
    let s := s.upd Core.endCharge
    (s.updDev fun v => (v.chargeBurst t s.core.burstcnt.toNat).taskEnded t s.core.owesTrig).vacate

end Sys2Proof.Machine
end

