-- ==== Sys2Proof/Machine/Ops.lean ====
section
/-! DEFINITION. Switching units, taking an exception and returning from one (R219, R220, R223, R368 to R370,
R373, R408), what a unit accepts (R143, R362, R371, R397). -/

namespace Sys2Proof.Machine

/-- Remove a unit from the list of parked units. -/
def eraseCore (l : List (Agent × Core)) (u : Agent) : List (Agent × Core) := l.filter fun x => !(x.1 == u)

/-- Another unit takes the focus (log 6). -/
def State.refocus (s : State) (u : Agent) : State :=
  if s.focus = u then s
  else { s with parked := setCoreOf (eraseCore s.parked u) s.focus s.core, core := coreOf s.parked u, focus := u }

/-- Do something as another unit, and come back. -/
def State.onUnit (s : State) (u : Agent) (f : State → State) : State := (f (s.refocus u)).refocus s.focus

/-- One wall cycle passes, of the focused unit and of the device's clock (R437). -/
def State.tickWall (s : State) : State :=
  { s with core := s.core.tickWall, dev := { s.dev with time := Nat.max s.dev.time (s.core.wall + 1) } }

/-- The device's clock keeps up with the focused unit's wall cycles (R437). -/
def State.clock (s : State) : State := { s with dev := { s.dev with time := Nat.max s.dev.time s.core.wall } }

/-- The slot and the slot word of an operation (R160 to R170). -/
def slotOfOp (i : Instr) : Slot := match encodeSlot i with | some (sl, _) => sl | none => .none
def slotBits (i : Instr) : Nat := match encodeSlot i with | some (_, w) => w | none => 0

/-- The operations of the scalar profile (R397). -/
def qpAccepts (i : Instr) : Bool :=
  match i with
  | .yield _ | .susp _ | .exit _ | .sev _ | .sevAll _ | .mret _ | .mretRequeue _ | .mretEnd _ | .ctxsv _ | .ctxld _
  | .corestop _ => false
  | .ld o | .st o | .ldc o | .amo o | .amos o | .cas o => o.size.toNat ≤ 3 && o.as.toNat ≤ 1
  | .aadd _ | .aaddi _ | .amov _ | .aset _ | .aget _ | .acmp _ | .ascl _ => true
  | .phase _ | .cpy _ | .pcset _ | .pcdec _ | .pcdecFail _ | .disp _ | .preempt _ | .qcfgp _ | .qcfgpOff _ | .migrate _
  | .scrubcfg _ | .obslog _ | .healthw _ => true
  | i => slotOfOp i == .s

/-- Privileged operations that only a queue processor runs (R371, R398). -/
def qpOnly (i : Instr) : Bool :=
  match i with
  | .jrnl _ | .kickscan _ | .cmplholdHold _ | .cmplholdRelease _ | .pcset _ | .pcdec _ | .pcdecFail _ | .disp _ | .qcfgp _
  | .qcfgpOff _ | .scrubcfg _ => true
  | _ => false

/-- Operations by which a task leaves its core. Monitor mode is left by MRET alone (R362), and how these act there the manual does not
say: they raise ILLOP (DESIGN CHOICE, log 108). -/
def leavesCore (i : Instr) : Bool :=
  match i with
  | .exit _ | .susp _ | .yield _ => true
  | _ => false

/-- Checks 2 and 3 of R143: the trap code by which the unit in its present mode refuses an operation. -/
def State.refuses (s : State) (i : Instr) : Option Nat :=
  if s.isQp then (if qpAccepts i then none else some ILLOP)
  else if s.core.mon.mode then
    (if qpOnly i || leavesCore i || slotOfOp i == .v0 || slotOfOp i == .v1 || slotOfOp i == .m then some ILLOP else none)
  else if isPrivileged i then some PRIV
  else none

/-- A trap of a code goes to the monitor (R219, R365). -/
def Core.toMonitor (c : Core) (code : Nat) : Bool :=
  !c.thandler.getLsbD 31 || c.hnd || code == PRIV || code == POISON || code == SEGRW || code == CTXLOST || code == MHND
    || !c.mon.troute.getLsbD code

/-- The signature state before a transfer target (R150): the next bundle starts a block. -/
def SigState.target : SigState := { crc := 0xFFFF, expect := 0xFFFF, checked := false, needBlk := true, entry := true }

/-- Results in flight with their remaining latency (R158). -/
def Core.frozen (c : Core) : List Result := c.results.map fun r => { r with due := r.due - c.tau }

/-- Frozen results resume their count (R158). -/
def Core.thaw (c : Core) (rs : List Result) : Core :=
  { c with results := c.results ++ rs.map fun r => { r with due := c.tau + r.due } }

/-- Predicate entries with the remaining latency of their masks (R158, R220). -/
def frozenStack (tau : Nat) (l : List PredEntry) : List PredEntry := l.map fun e => { e with due := e.due - tau }

/-- The same entries when their masks resume their count. -/
def thawedStack (tau : Nat) (l : List PredEntry) : List PredEntry := l.map fun e => { e with due := if e.due = 0 then 0 else tau + e.due }

/-- What entry saves and freezes (R220, R369). -/
def Core.saveEntry (c : Core) : EntrySave :=
  { pstack := frozenStack c.tau c.pstack, sig := c.sig, fmt := c.fmt, results := c.frozen, replay := c.replay, bound := c.boundDue }

/-- Entry into the task handler (R220). -/
def Core.enterHandler (c : Core) (code slot : Nat) (info : Word) : Core :=
  { c.setHnd true with
    tcause := BitVec.ofNat 64 (code + slot * 2 ^ 8), tinfo := info, tpc := BitVec.ofNat 32 c.pos,
    handler := some c.saveEntry, pstack := [], results := [], boundDue := [], fmt := { c.fmt with pend := [] }, replay := none,
    msaved := false, mdue := false, mcopy := none, pos := c.thandler.toNat % 2 ^ 30, sig := SigState.target, served := false, deqtAt := none, barFrom := none,
    pnext := none, pwr := none, target := none, late := false }

/-- Entry into the monitor (R369). -/
def Core.enterMonitor (c : Core) (code slot : Nat) (info : Word) : Core :=
  { c with
    monSave := some c.saveEntry, results := [], boundDue := [], fmt := { c.fmt with pend := [] }, replay := none,
    pos := c.mon.mvec.toNat, sig := SigState.target, served := false, deqtAt := none, barFrom := none, pnext := none, pwr := none, target := none, late := false,
    mon := { c.mon with mode := true, tvalid := true, saved := false, thnd := c.hnd, minfo := info,
                        mcause := BitVec.ofNat 64 (code + slot * 2 ^ 8), mtpc := BitVec.ofNat 32 c.pos } }

/-- Mark the state of the resident task's slot (R32). -/
def State.slotState (s : State) (st : Nat) : State :=
  match s.core.task with
  | none => s
  | some t => s.updDev fun v => v.updSlot t.part t.slot fun x => { x with st := st }

/-- The stores of the focused unit are published at DEVICE scope and wider (R42). -/
def State.publishAll (s : State) : State := (s.commitSeg).release 5

/-- The issuing core stops and leaves dispatch (R370, R373). -/
def State.coreStop (s : State) : State :=
  match s.focus with
  | .core p =>
    { s with core := { s.core with stopped := true },
             dev := s.dev.updCluster s.focus.cluster fun x => { x with offline := x.offline ||| BitVec.ofNat 128 (2 ^ (p % 128)) } }
  | .qp _ _ => { s with core := { s.core with stopped := true } }

/-- A trap in monitor mode (R370): the core stops and is marked faulted, and a frozen task is lost with
CTXLOST, which fails its launch (R436). -/
def State.monitorTrap (s : State) (code : Nat) : State :=
  let s := s.logEvent 0x0012 2 (BitVec.ofNat 64 code) (s.core.mon.mtpc.setWidth 64)
  let s := s.landAll.coreStop
  match s.core.task with
  | none => s
  | some t =>
    let s := s.logEvent 0x0014 2 (BitVec.ofNat 64 t.lid) t.index
    let s := s.upd Core.endCharge
    let s := s.updDev fun v => ((v.failLaunch t.part t.lid (0x100 + CTXLOST)).chargeBurst t s.core.burstcnt.toNat).taskEnded t s.core.owesTrig
    s.upd fun c => { c.vacate with stopped := true }

/-- The units whose resident task belongs to a partition. -/
def State.unitsOf (s : State) (p : Nat) : List Agent :=
  let mine (c : Core) : Bool := match c.task with | some t => t.part == p | none => false
  (if mine s.core then [s.focus] else []) ++ (s.parked.filter fun x => mine x.2).map Prod.fst

/-- The partitions that a dome's active queue processor serves (R395). -/
def Device.servedBy (v : Device) (d : Nat) : List Nat :=
  (List.range 8).filter fun p => (v.part p).state != 0 && v.homeDome p == d

/-- The queue processor k of a dome stops (R408). -/
def State.stopQp (s : State) (u : Agent) : State :=
  s.setCore u { s.getCore u with stopped := true, mon := { (s.getCore u).mon with active := false } }

/-- Takeover in a dome from queue processor `k` (R408): `cause` is 0 for a trap, 1 for the heartbeat. The
second takeover within 2^30 cycles, or one with no standby, fences every partition that the dome serves, which the same step does
(`State.tidy`). -/
def State.takeover (s : State) (d k cause : Nat) : State :=
  let old := Agent.qp d k
  let new := Agent.qp d (1 - k)
  let om := (s.getCore old).mon
  let old15 := (s.dev.dome d).tkcnt
  let tk := if old15 = 15 then 15 else old15 + 1
  let again := match (s.dev.dome d).takeAt with | some t => s.dev.time - t < 2 ^ 30 | none => false
  let standby := (s.dev.dome d).standby
  let s := s.stopQp old
  let s := s.updDev fun v =>
    let v := v.updDome d fun x => { x with hold := true, takeAt := some v.time, standby := false, qpEvent := false, tkcnt := tk }
    let v := v.log d 0x0020 0 1 k (BitVec.ofNat 64 cause) (tk.setWidth 64) 0xFFFF 0xFF
    (v.msix 0 3).msix 1 3
  let s := s.setCore new
    (let c := s.getCore new
     if standby then
       { c with stopped := false, pos := Config.firmwareEntry, sig := SigState.target,
                mon := { c.mon with active := true, take := true, parts := om.parts, qhbAt := c.wall } }
     else c)
  if again || !standby then s.updDev fun v => v.updDome d fun x => { x with fenceDue := true } else s

/-- A trap on a queue processor (R397): takeover from the active one; a standby stops and is marked failed. -/
def State.qpTrap (s : State) (d k : Nat) : State :=
  if s.core.mon.active then s.takeover d k 0
  else
    let s := s.logEvent 0x0021 2 (BitVec.ofNat 64 k) 0
    { s with core := { s.core with stopped := true, mon := { s.core.mon with failed := true } },
             dev := s.dev.updDome d fun x => { x with standby := false } }

/-- The focused task's wait in a DEQT ends with the bundle that does not issue (R336). -/
def State.leaveWait (s : State) : State :=
  match s.core.task with
  | some t => s.updDev fun v => v.leaveWait t.part t.slot
  | none => s

/-- A task whose state cannot be brought back is lost, which is logged beside its trap (R438). -/
def State.logLost (s : State) (code : Nat) : State :=
  match s.core.task with
  | some t => if code = CTXLOST then s.logEvent 0x0014 3 (BitVec.ofNat 64 t.lid) t.index else s
  | none => s

/-- TAKING AN EXCEPTION. The trap `code` of slot code `slot` with detail `info` stops the focused unit before
the first bundle that it has not issued, whose position is `pos` (R219, R220, R366 to R370, R408). `after`
marks a trap that arises once its bundle has issued (R221). -/
def State.takeTrap (s : State) (code slot : Nat) (info : Word) (after : Bool) : State :=
  let t : Trap := { code := code, slot := slot, info := info, after := after }
  match s.focus with
  | .qp d k => { s.qpTrap d k with last := .trapped t }
  | .core _ =>
    if s.core.mon.mode then { s.monitorTrap code with last := .trapped t }
    else if s.core.toMonitor code then
      let s := (s.commitSeg.leaveWait).logEvent 0x0011 (trapGrade code) (BitVec.ofNat 64 (code + slot * 2 ^ 8)) (BitVec.ofNat 64 s.core.pos)
      let s := (s.logLost code).slotState 7
      { s.upd (fun c => c.enterMonitor code slot info) with last := .trapped t }
    else
      { (s.commitSeg.leaveWait).upd (fun c => c.enterHandler code slot info) with last := .trapped t }

/-- A trap before the bundle issues, raised by an operation of a slot (R16, R367). -/
def State.trap (s : State) (code : Nat) (sl : Slot) (info : Nat) : State :=
  s.takeTrap code sl.code (BitVec.ofNat 64 info) false

/-- A trap that arises once its bundle has issued (R221). -/
def State.trapAfter (s : State) (code : Nat) (sl : Slot) (info : Nat) : State :=
  s.takeTrap code sl.code (BitVec.ofNat 64 info) true

/-- ILLOP, RESV or PRIV of an operation: the detail is its slot word (R189). -/
def State.trapOp (s : State) (code : Nat) (i : Instr) : State := s.trap code (slotOfOp i) (slotBits i)

/-- The position of body bundle `b` of a replay: one that is captured, or the one that capture comes to next. -/
def Replay.posOf (r : Replay) (b : Nat) : Nat :=
  match r.poss[b]? with
  | some p => p.1
  | none => (r.poss.getLastD (0, r.start)).2

/-- The signature state after a return (R223, R373): the bundle returned to starts an unchecked block unless it carries `blk`;
with `blk` it ends the checked block that the trap cut short, which is then compared (R151; log 24). -/
def SigState.returned (g : SigState) : SigState :=
  { SigState.start with cut := if g.checked && !g.needBlk then some (g.crc, g.expect) else g.cut }

/-- What return restores (R223, R373): stack, signatures, FMT state, frozen results; the replay resumes when the position
is still that of its body bundle (log 12). -/
def Core.restoreEntry (c : Core) (e : EntrySave) (pos : Pos) : Core :=
  let rp := match e.replay with
    | none => none
    | some r => if r.posOf r.b = pos then some r else none
  { c.thaw e.results with pstack := thawedStack c.tau e.pstack, fmt := e.fmt, replay := rp, pos := pos, sig := e.sig.returned, boundDue := e.bound ++ c.boundDue,
                          pnext := none, pwr := none, target := none }

/-- RETURN FROM THE TASK HANDLER (R223): the steps once its bundle has issued. After a BREAK, the bundle
returned to issues once without a match (R383). -/
def Core.tret (c : Core) : Core :=
  match c.handler with
  | none => (c.setHnd false)
  | some e =>
    { (c.restoreEntry e (c.tpc.toNat)).setHnd false with
      handler := none, mcopy := none, msaved := false, mdue := false,
      noBreak := c.tcause.toNat % 256 = BREAK }

/-- RETURN FROM THE MONITOR (R373): plain MRET. -/
def Core.mret (c : Core) : Core :=
  let c' := match c.monSave with
    | none => { c with pos := c.mon.mtpc.toNat, sig := SigState.start }
    | some e => c.restoreEntry e c.mon.mtpc.toNat
  { c'.setHnd c.mon.thnd with
    monSave := none, noBreak := c.mon.mcause.toNat % 256 = BREAK, mon := { c.mon with mode := false, tvalid := false } }

/-- The operation of a meaning that a unit may refuse in its mode (R2, R143): the trap, or what it does. -/
def State.ifAllowed (s : State) (i : Instr) (f : State → State) : Host.Outcome State Fault Refusal :=
  .next (match s.refuses i with
    | some code => s.trapOp code i
    | none => f s)

/-- The same for an operation with a guard bit (R144): decode traps come first. -/
def State.ifAllowedG (s : State) (i : Instr) (g : Bool) (f : State → State) : Host.Outcome State Fault Refusal :=
  .next (match s.refuses i with
    | some code => s.trapOp code i
    | none => if s.core.active g then f s else s)

end Sys2Proof.Machine
end

