-- ==== Sys2Proof/Machine/Flags.lean ====
section
/-! DEFINITION. STICKY bits (R173), conditions (R14), and the integer computations with their flags. -/

namespace Sys2Proof.Machine

/-- The flags of STICKY (R173). -/
abbrev Flags := BitVec 11
def fIV : Flags := 0x001
def fDZ : Flags := 0x002
def fOF : Flags := 0x004
def fUF : Flags := 0x008
def fNX : Flags := 0x010
def fSAT : Flags := 0x020
def fCLIP : Flags := 0x040
def fALGN : Flags := 0x080
def fBND : Flags := 0x100
def fSPLT : Flags := 0x200
def fNDET : Flags := 0x400

/-- Flags that are raised when a condition holds. -/
def flagIf (b : Bool) (f : Flags) : Flags := if b then f else 0

/-- Integer condition codes of R14 on two values of one width; a code above 9 holds never. -/
def intCond {n : Nat} (cc : Nat) (a b : BitVec n) : Bool :=
  match cc with
  | 0 => a == b
  | 1 => a != b
  | 2 => a.slt b
  | 3 => !a.slt b
  | 4 => a.ult b
  | 5 => !a.ult b
  | 6 => a.sle b
  | 7 => !a.sle b
  | 8 => a.ule b
  | 9 => !a.ule b
  | _ => false

/-- The value of a signed word. -/
def sw (a : Word) : Int := a.toInt

/-- The word of an exact integer, modulo 2^64. -/
def wordOf (x : Int) : Word := BitVec.ofInt 64 x

/-- Division with its flags (R193): operation 0 DIV, 1 DIVU, 2 REM, 3 REMU. -/
def divide (op : Nat) (a b : Word) : Word × Flags :=
  if b = 0 then
    ((if op = 0 then -1 else if op = 1 then -1 else a), fDZ)
  else if op = 0 then
    (if a = 0x8000000000000000 ∧ b = -1 then (a, fOF) else (wordOf (Int.tdiv (sw a) (sw b)), 0))
  else if op = 2 then
    (if a = 0x8000000000000000 ∧ b = -1 then (0, fOF) else (wordOf (Int.tmod (sw a) (sw b)), 0))
  else if op = 1 then (a / b, 0)
  else (a % b, 0)

/-- Leading zero bits of a word (R195). -/
def clz64 (a : Word) : Nat :=
  (List.range 64).foldl (fun n k => if a.getLsbD k then 63 - k else n) 64

/-- Trailing zero bits of a word (R195). -/
def ctz64 (a : Word) : Nat :=
  (List.range 64).foldr (fun k n => if a.getLsbD k then k else n) 64

/-- One bits of a word (R195). -/
def popc64 (a : Word) : Nat := (List.range 64).foldl (fun n k => if a.getLsbD k then n + 1 else n) 0

/-- The eight bytes of a word in reverse order (R195). -/
def bswap64 (a : Word) : Word := BitVec.ofNat 64 (natOfBytes (bytesOfNat 8 a.toNat).reverse)

/-- The sign-extended 32-bit immediate (R194). -/
def sext32 (imm : BitVec 32) : Word := imm.signExtend 64

/-- ceil(log2 n) for n ≥ 1 (R216). -/
def ceilLog2 (n : Nat) : Nat := if n ≤ 1 then 0 else Nat.log2 (n - 1) + 1

/-- The multiplier m of a size (R216). -/
def sizeMul (n : Nat) : Nat := 2 ^ (32 + ceilLog2 n) / n + 1

/-- The size of dimension `i` of a shape entry (R216). -/
def Shape.size (h : Shape) (i : Nat) : Nat := if hi : i < 5 then (h.sizes[i]).toNat else 1

/-- (q × m_i) >> (32 + ℓ_i) for dimension `i` (R217). -/
def Shape.quot (h : Shape) (i q : Nat) : Nat := q * sizeMul (h.size i) / 2 ^ (32 + ceilLog2 (h.size i))

/-- Coordinate `k` of linear index `x` (R217). -/
def tidxCoord (h : Shape) (x k : Nat) : Nat :=
  let q := (List.range k).foldl (fun q i => h.quot i q) x
  if k + 1 = h.dims then q else q - h.quot k q * h.size k

/-- mix of R70: 32 random bits from a word and an index. -/
def mix (w n : Nat) : Nat :=
  let M := 2 ^ 64
  let x := w % M ^^^ (n * 0x9E3779B97F4A7C15) % M
  let x := ((x ^^^ x / 2 ^ 30) * 0xBF58476D1CE4E5B9) % M
  let x := ((x ^^^ x / 2 ^ 27) * 0x94D049BB133111EB) % M
  (x ^^^ x / 2 ^ 31) % 2 ^ 32

/-- rotl64 of R55. -/
def rotl64 (x k : Nat) : Nat := (x * 2 ^ k) % 2 ^ 64 ||| x / 2 ^ (64 - k)

/-- One round of mhash (R55). -/
def mhashRound (xy : Nat × Nat) : Nat × Nat :=
  let x := (xy.1 + xy.2) % 2 ^ 64
  let y := rotl64 xy.2 13 ^^^ x
  (rotl64 x 32, y)

/-- The Meridian generator of R55. -/
def mhash (seed idx n : Nat) : Nat :=
  let x := seed ^^^ ((idx / 2 ^ 32 % 2 ^ 32) * 0x9E3779B97F4A7C15) % 2 ^ 64
  let y := (idx % 2 ^ 32) * 2 ^ 32 ||| n % 2 ^ 32
  let r := mhashRound (mhashRound (mhashRound (mhashRound (mhashRound (mhashRound (x, y))))))
  r.1 ^^^ r.2

end Sys2Proof.Machine
end

