-- ==== Sys2Proof/Machine/Float.lean ====
section
/-! DEFINITION. Number formats and rounding (R57 to R82): values of encodings, rounding of exact values,
FP32 arithmetic and compares, conversions, block quantisation. -/

namespace Sys2Proof.Machine

/-- The value of a floating-point encoding (R60): a NaN with its fraction aligned to 23 bits, an infinity, or
(−1)^s · m · 2^e, whose sign is that of the zero when m = 0. -/
inductive FVal where
  | nan (s : Bool) (frac : Nat)
  | inf (s : Bool)
  | fin (s : Bool) (m : Nat) (e : Int)
  deriving DecidableEq, Repr

/-- A floating-point element format (R59): exponent bits, fraction bits, bias, whether it has infinities. -/
structure FFmt where
  eb   : Nat
  mb   : Nat
  bias : Nat
  inf  : Bool
  deriving DecidableEq, Repr

/-- The floating-point formats by code (R12, R59). -/
def ffmt (f : Nat) : Option FFmt :=
  match f with
  | 0x00 => some ⟨8, 23, 127, true⟩
  | 0x01 => some ⟨8, 7, 127, true⟩
  | 0x02 => some ⟨5, 10, 15, true⟩
  | 0x03 => some ⟨4, 3, 7, false⟩
  | 0x04 => some ⟨5, 2, 15, true⟩
  | 0x05 => some ⟨3, 2, 3, false⟩
  | 0x06 => some ⟨2, 3, 1, false⟩
  | 0x07 => some ⟨2, 1, 1, false⟩
  | _ => none

/-- FP32. -/
def fp32 : FFmt := ⟨8, 23, 127, true⟩

/-- The integer formats by code: bits, and whether signed (R67). The PSB elements are signed integers too
(R65). -/
def ifmt (f : Nat) : Option (Nat × Bool) :=
  match f with
  | 0x08 => some (8, true)
  | 0x09 => some (5, true)
  | 0x0A => some (3, true)
  | 0x0B => some (8, true)
  | 0x0C => some (8, false)
  | 0x0D => some (4, true)
  | 0x0E => some (2, true)
  | 0x0F => some (32, true)
  | 0x10 => some (32, false)
  | 0x11 => some (16, true)
  | _ => none

/-- Bits of an element of a float format, the sign included. -/
def FFmt.bits (f : FFmt) : Nat := 1 + f.eb + f.mb

/-- The only format that has a NaN and no infinity (R59). -/
def FFmt.isE4m3 (f : FFmt) : Bool := f.eb == 4 && f.mb == 3

/-- The encoding of the largest finite magnitude (R61). -/
def FFmt.maxBits (f : FFmt) : Nat :=
  if f.inf then (2 ^ f.eb - 1) * 2 ^ f.mb - 1
  else if f.isE4m3 then 0x7E
  else 2 ^ (f.eb + f.mb) - 1

/-- The encoding of +∞, in a format that has it (R61). -/
def FFmt.infBits (f : FFmt) : Nat := (2 ^ f.eb - 1) * 2 ^ f.mb

/-- The sign bit at its place. -/
def FFmt.sign (f : FFmt) (s : Bool) : Nat := if s then 2 ^ (f.eb + f.mb) else 0

/-- The value that an encoding denotes (R60). -/
def FFmt.decode (f : FFmt) (x : Nat) : FVal :=
  let s := bitOf x (f.eb + f.mb)
  let e := x / 2 ^ f.mb % 2 ^ f.eb
  let m := x % 2 ^ f.mb
  if e = 0 then .fin s m (1 - (f.bias : Int) - f.mb)
  else if e = 2 ^ f.eb - 1 ∧ f.inf then (if m = 0 then .inf s else .nan s (m * 2 ^ (23 - f.mb)))
  else if f.isE4m3 ∧ e = 15 ∧ m = 7 then .nan s 0x700000
  else .fin s (m + 2 ^ f.mb) ((e : Int) - f.bias - f.mb)

/-- A NaN written in a format with its payload kept as far as it fits and made quiet (R62, R73). -/
def FFmt.nanBits (f : FFmt) (s : Bool) (frac : Nat) : Nat :=
  if f.isE4m3 then f.sign s + 0x7F
  else f.sign s + f.infBits + (frac / 2 ^ (23 - f.mb) ||| 2 ^ (f.mb - 1))

/-- The FP32 canonical NaN (R61). -/
def canonicalNaN : Lane := 0x7FC00000

/-- An FP32 encoding is a NaN. -/
def isNaN (x : Lane) : Bool := x.toNat % 2 ^ 31 > 0x7F800000

/-- A NaN made quiet (R62). -/
def quiet (x : Lane) : Lane := x ||| 0x400000

/-- An FP32 encoding is a nonzero subnormal. -/
def isSub (x : Lane) : Bool := 0 < x.toNat % 2 ^ 31 && x.toNat % 2 ^ 31 < 0x800000

/-- Read an FP32 operand under FTZ (R75). -/
def flushIn (ftz : Bool) (x : Lane) : Lane := if ftz && isSub x then x &&& 0x80000000 else x

/-- Round n/d to an integer under a mode (R68): the integer, and whether it is inexact. `r` is the lane
word of SR, `s` the sign. -/
def roundNat (rm r : Nat) (s : Bool) (n d : Nat) : Nat × Bool :=
  let q := n / d
  let rem := n % d
  let up := match rm with
    | 0 => d < 2 * rem || (2 * rem == d && q % 2 == 1)
    | 1 => false
    | 2 => !s
    | 3 => s
    | 4 => d ≤ 2 * rem
    | _ => r < 2 ^ 32 * rem / d
  if rem = 0 then (q, false) else (if up then q + 1 else q, true)

/-- floor(log2(n/d)) for n, d > 0. -/
def log2Rat (n d : Nat) : Int :=
  let k : Int := (Nat.log2 n : Int) - Nat.log2 d
  if k ≥ 0 then (if n ≥ d * 2 ^ k.toNat then k else k - 1) else (if n * 2 ^ (-k).toNat ≥ d then k else k - 1)

/-- n/d · 2^(−t) as numerator and denominator. -/
def scaleRat (n d : Nat) (t : Int) : Nat × Nat :=
  if t ≥ 0 then (n, d * 2 ^ t.toNat) else (n * 2 ^ (-t).toNat, d)

/-- Round the magnitude n/d of sign `s` into a float format (R68, rules 3 and 4 of R72). `r` is the lane word
of SR. -/
def FFmt.round (f : FFmt) (rm r : Nat) (sat s : Bool) (n d : Nat) : Nat × Flags :=
  if n = 0 then (f.sign s, 0)
  else
    let e := log2Rat n d
    let emin : Int := 1 - (f.bias : Int)
    let t := max e emin - f.mb
    let x := scaleRat n d t
    let (k, ix) := roundNat rm r s x.1 x.2
    let bits := (t + f.mb + f.bias - 1).toNat * 2 ^ f.mb + k
    if bits > f.maxBits then
      if f.inf && !sat then
        let toInf := match rm with | 1 => false | 2 => !s | 3 => s | _ => true
        (f.sign s + (if toInf then f.infBits else f.maxBits), fOF ||| fNX)
      else (f.sign s + f.maxBits, fOF ||| fSAT ||| fNX)
    else
      let y := scaleRat n d (e - f.mb)
      let (k2, _) := roundNat rm r s y.1 y.2
      let tiny := decide (e < emin) && !(k2 == 2 ^ (f.mb + 1) && e + 1 == emin)
      (f.sign s + bits, flagIf ix fNX ||| flagIf (ix && (k == 0 || tiny)) fUF)

/-- A subnormal result is written as zero under FTZ in the formats of R75. -/
def flushOut (f : FFmt) (ftz : Bool) (x : Nat × Flags) : Nat × Flags :=
  let mag := x.1 % 2 ^ (f.eb + f.mb)
  if ftz && f.inf && f.mb != 2 && 0 < mag && mag < 2 ^ f.mb then (x.1 - mag, x.2 ||| fUF ||| fNX) else x

/-- A dyadic magnitude as numerator and denominator. -/
def dyad (m : Nat) (e : Int) : Nat × Nat := if e ≥ 0 then (m * 2 ^ e.toNat, 1) else (m, 2 ^ (-e).toNat)

/-- The element conversion of a value into a float format (R72, R73). -/
def FFmt.convert (f : FFmt) (rm r : Nat) (sat : Bool) (v : FVal) : Nat × Flags :=
  match v with
  | .nan s frac => (f.nanBits s frac, 0)
  | .inf s => if f.inf && !sat then (f.sign s + f.infBits, 0) else (f.sign s + f.maxBits, fOF ||| fSAT)
  | .fin s m e => let x := dyad m e; f.round rm r sat s x.1 x.2

/-- The conversion of a value into an integer of `w` bits (R74). -/
def convertInt (w : Nat) (signed : Bool) (rm r : Nat) (v : FVal) : Nat × Flags :=
  let hi : Nat := if signed then 2 ^ (w - 1) - 1 else 2 ^ w - 1
  let lo : Nat := if signed then 2 ^ (w - 1) else 0
  match v with
  | .nan _ _ => (0, fIV)
  | .inf s => (if s then (2 ^ w - lo) % 2 ^ w else hi, fSAT ||| fOF)
  | .fin s m e =>
    let x := dyad m e
    let (k, ix) := roundNat rm r s x.1 x.2
    if s then
      if k > lo then ((2 ^ w - lo) % 2 ^ w, fSAT ||| flagIf ix fNX) else ((2 ^ w - k) % 2 ^ w, flagIf ix fNX)
    else if k > hi then (hi, fSAT ||| flagIf ix fNX) else (k, flagIf ix fNX)

/-- The value of an element of any format that holds one number per element (R60, R67). -/
def elemVal (f : Nat) (x : Nat) : FVal :=
  match ffmt f with
  | some g => g.decode x
  | none =>
    match ifmt f with
    | some (w, signed) =>
      let v : Int := if signed then sextInt x w else (x % 2 ^ w : Nat)
      .fin (decide (v < 0)) v.natAbs 0
    | none => .fin false 0 0

/-- The element conversion between two formats of R248: destination, source, and the source's bits (R72 to
R75). -/
def convertElem (dst src rm r : Nat) (sat ftz : Bool) (x : Nat) : Nat × Flags :=
  let flush (f : Nat) (v : FVal) : FVal :=
    match v with
    | .fin s m e =>
      (match ffmt f with
       | some g => if ftz && g.inf && g.mb != 2 && 0 < m && m < 2 ^ g.mb then .fin s 0 0 else .fin s m e
       | none => .fin s m e)
    | v => v
  let v := flush src (elemVal src x)
  match ffmt dst with
  | some g =>
    flushOut g ftz (g.convert rm r sat v)
  | none =>
    match ifmt dst with
    | some (w, signed) => convertInt w signed rm r v
    | none => (0, 0)

/-- The conversion of VCVT (R248): one float format gives the source back, a NaN quieted, whatever FTZ and SAT say (log 13). -/
def vcvtElem (dst src rm r : Nat) (sat ftz : Bool) (x : Nat) : Nat × Flags :=
  if dst = src then
    match elemVal src x with
    | .inf s => (match ffmt src with | some g => (g.sign s + g.infBits, 0) | none => (0, 0))
    | _ => convertElem src src 0 0 false false x
  else convertElem dst src rm r sat ftz x

/-- The value of an FP32 encoding. -/
def f32Val (x : Lane) : FVal := fp32.decode x.toNat

/-- A result of FP32 arithmetic: encoding and flags. -/
abbrev FRes := Lane × Flags

/-- Round an exact dyadic sum or product into FP32 (R230), with FTZ (R75). -/
def roundF32 (rm : Nat) (sat ftz s : Bool) (n d : Nat) : FRes :=
  let x := flushOut fp32 ftz (fp32.round rm 0 sat s n d)
  (BitVec.ofNat 32 x.1, x.2)

/-- The sign of an exact zero sum (R230). -/
def zeroSumSign (rm : Nat) (s1 s2 : Bool) : Bool := if s1 = s2 then s1 else decide (rm = 3)

/-- The exact sum of two finite values, as sign, magnitude and exponent; a zero sum has magnitude 0. -/
def addFin (rm : Nat) (s1 : Bool) (m1 : Nat) (e1 : Int) (s2 : Bool) (m2 : Nat) (e2 : Int) : Bool × Nat × Int :=
  let e := min e1 e2
  let a : Int := (if s1 then -1 else 1) * (m1 * 2 ^ (e1 - e).toNat : Nat)
  let b : Int := (if s2 then -1 else 1) * (m2 * 2 ^ (e2 - e).toNat : Nat)
  let c := a + b
  if c = 0 then ((if m1 = 0 ∧ m2 = 0 then zeroSumSign rm s1 s2 else decide (rm = 3)), 0, e)
  else (decide (c < 0), c.natAbs, e)

/-- The first NaN among operands, made quiet (R230). -/
def firstNaN : List Lane → Option Lane
  | [] => none
  | x :: xs => if isNaN x then some (quiet x) else firstNaN xs

/-- FP32 sum (R230). -/
def fAdd (rm : Nat) (sat ftz : Bool) (a b : Lane) : FRes :=
  match firstNaN [a, b] with
  | some n => (n, 0)
  | none =>
    match f32Val (flushIn ftz a), f32Val (flushIn ftz b) with
    | .inf s, .inf t => if s = t then (if s then 0xFF800000 else 0x7F800000, 0) else (canonicalNaN, fIV)
    | .inf s, _ => (if s then 0xFF800000 else 0x7F800000, 0)
    | _, .inf t => (if t then 0xFF800000 else 0x7F800000, 0)
    | .fin s m e, .fin t k x =>
      let (u, q, z) := addFin rm s m e t k x
      let y := dyad q z
      roundF32 rm sat ftz u y.1 y.2
    | _, _ => (canonicalNaN, 0)

/-- An FP32 encoding with its sign inverted. -/
def fNeg (a : Lane) : Lane := a ^^^ 0x80000000

/-- FP32 difference (R231): a NaN operand keeps its own sign. -/
def fSub (rm : Nat) (sat ftz : Bool) (a b : Lane) : FRes :=
  match firstNaN [a, b] with
  | some n => (n, 0)
  | none => fAdd rm sat ftz a (fNeg b)

/-- FP32 fused a × b ± c, with the product negated when `np` and c negated when `nc` (R230, R231). -/
def fFma (rm : Nat) (sat ftz np nc : Bool) (a b c : Lane) : FRes :=
  let va := f32Val (flushIn ftz a)
  let vb := f32Val (flushIn ftz b)
  let inv := match va, vb with
    | .inf _, .fin _ 0 _ => true
    | .fin _ 0 _, .inf _ => true
    | _, _ => false
  match firstNaN [a, b, c] with
  | some n => (n, flagIf inv fIV)
  | none =>
    if inv then (canonicalNaN, fIV)
    else
      let vc := f32Val (flushIn ftz (if nc then fNeg c else c))
      let sgn (v : FVal) : Bool := match v with | .nan s _ => s | .inf s => s | .fin s _ _ => s
      let ps := (sgn va != sgn vb) != np
      let infp := match va, vb with | .inf _, _ => true | _, .inf _ => true | _, _ => false
      match infp, vc with
      | true, .inf t => if ps = t then (if ps then 0xFF800000 else 0x7F800000, 0) else (canonicalNaN, fIV)
      | true, _ => (if ps then 0xFF800000 else 0x7F800000, 0)
      | false, .inf t => (if t then 0xFF800000 else 0x7F800000, 0)
      | false, _ =>
        match va, vb, vc with
        | .fin _ m e, .fin _ k x, .fin t q z =>
          let (u, w, y) := addFin rm ps (m * k) (e + x) t q z
          let o := dyad w y
          roundF32 rm sat ftz u o.1 o.2
        | _, _, _ => (canonicalNaN, 0)

/-- FP32 product (R230). -/
def fMul (rm : Nat) (sat ftz : Bool) (a b : Lane) : FRes :=
  match firstNaN [a, b] with
  | some n => (n, 0)
  | none =>
    let sgn (v : FVal) : Bool := match v with | .nan s _ => s | .inf s => s | .fin s _ _ => s
    let va := f32Val (flushIn ftz a)
    let vb := f32Val (flushIn ftz b)
    let s := sgn va != sgn vb
    match va, vb with
    | .inf _, .fin _ 0 _ => (canonicalNaN, fIV)
    | .fin _ 0 _, .inf _ => (canonicalNaN, fIV)
    | .inf _, _ => (if s then 0xFF800000 else 0x7F800000, 0)
    | _, .inf _ => (if s then 0xFF800000 else 0x7F800000, 0)
    | .fin _ m e, .fin _ k x =>
      let o := dyad (m * k) (e + x)
      roundF32 rm sat ftz s o.1 o.2
    | _, _ => (canonicalNaN, 0)

/-- An FP32 encoding as a key whose order is that of the values, −0 below +0; for encodings that are no
NaN. -/
def fKey (x : Lane) : Int := if x.getLsbD 31 then -(x.toNat % 2 ^ 31 : Nat) - 1 else (x.toNat : Int)

/-- The same order with the two zeros equal (R14). -/
def fOrd (x : Lane) : Int := if x.getLsbD 31 then -(x.toNat % 2 ^ 31 : Nat) else (x.toNat : Int)

/-- Float condition codes of R14, with the flag they set. -/
def floatCond (cc : Nat) (a b : Lane) : Bool × Flags :=
  let n := isNaN a || isNaN b
  match cc with
  | 0 => (!n && fOrd a == fOrd b, 0)
  | 1 => (n || fOrd a != fOrd b, 0)
  | 2 => (!n && decide (fOrd a < fOrd b), flagIf n fIV)
  | 3 => (!n && decide (fOrd a ≤ fOrd b), flagIf n fIV)
  | 4 => (!n && decide (fOrd b < fOrd a), flagIf n fIV)
  | 5 => (!n && decide (fOrd b ≤ fOrd a), flagIf n fIV)
  | 6 => (n, 0)
  | 7 => (!n, 0)
  | _ => (false, 0)

/-- VMIN and VMAX of f32 (R232). -/
def fMinMax (isMax : Bool) (a b : Lane) : Lane :=
  if isNaN a && isNaN b then quiet a
  else if isNaN a then b
  else if isNaN b then a
  else if (if isMax then fKey a < fKey b else fKey b < fKey a) then b else a

/-- A combining step of a reduction (R82): values with their index, and the flags. -/
def nanStep (op : Lane → Lane → FRes) (p q : Lane × Nat) : (Lane × Nat) × Flags :=
  let i := Nat.min p.2 q.2
  if isNaN p.1 && isNaN q.1 then (if p.2 < q.2 then (quiet p.1, p.2) else (quiet q.1, q.2), 0)
  else if isNaN p.1 then ((quiet p.1, p.2), 0)
  else if isNaN q.1 then ((quiet q.1, q.2), 0)
  else
    let (v, f) := op p.1 q.1
    if isNaN v then ((canonicalNaN, i), f) else ((v, i), f)

/-- The magnitude comparison of dyadics: a·2^x < b·2^y. -/
def dyLt (a : Nat) (x : Int) (b : Nat) (y : Int) : Bool :=
  let e := min x y
  a * 2 ^ (x - e).toNat < b * 2 ^ (y - e).toNat

/-- The largest finite magnitude of a list of values (R77), as m · 2^e. -/
def amaxOf (vs : List FVal) : Nat × Int :=
  vs.foldl (fun acc v => match v with
    | .fin _ m e => if dyLt acc.1 acc.2 m e then (m, e) else acc
    | _ => acc) (0, 0)

/-- floor(log2) of a positive dyadic. -/
def dyLog2 (m : Nat) (e : Int) : Int := (Nat.log2 m : Int) + e

/-- The unbiased exponent of an element format's largest finite value (R77). -/
def elemExp (f : Nat) : Int :=
  match f with | 0x07 => 2 | 0x06 => 2 | 0x05 => 4 | 0x03 => 8 | _ => 15

/-- A value is a NaN. -/
def FVal.isNan : FVal → Bool
  | .nan _ _ => true
  | _ => false

/-- Block quantisation into FP4, FP6 or FP8 (R77): elements, scale byte, flags. `rs` are the lane words of SR. -/
def quantScaled (f rm : Nat) (vs : List FVal) (rs : List Nat) : List Nat × Nat × Flags :=
  if vs.any FVal.isNan then (vs.map fun _ => 0, 0xFF, fIV)
  else
    let am := amaxOf vs
    let x : Int := if am.1 = 0 then 0 else max 0 (min 254 (dyLog2 am.1 am.2 - elemExp f + 127))
    match ffmt f with
    | none => (vs.map fun _ => 0, 0xFF, 0)
    | some g =>
      let out := (vs.zip rs).map fun (v, r) =>
        match v with
        | .fin s m e => g.convert rm r true (.fin s m (e - (x - 127)))
        | v => g.convert rm r true v
      (out.map Prod.fst, x.toNat, out.foldl (fun fl o => fl ||| o.2) 0)

/-- The PSB integers of a block with exponent parameter `S` (R78, steps 4 to 7), quad by quad. -/
def psbElem (b rm : Nat) (S : Int) (h : Nat) (v : FVal) (r : Nat) : Nat × Flags :=
  let hi := 2 ^ (b - 1) - 1
  let lo := 2 ^ (b - 1)
  match v with
  | .inf s => (if s then lo else hi, fOF ||| fSAT)
  | .nan _ _ => (0, 0)
  | .fin s m e =>
    let x := dyad m (e - (S - h))
    let (k, ix) := roundNat rm r s x.1 x.2
    let lim := if s then lo else hi
    let k' := Nat.min k lim
    let fl := flagIf (ix || decide (k > lim)) fNX ||| flagIf (decide (m ≠ 0) && k' == 0) fUF
    ((if s then (2 ^ b - k') % 2 ^ b else k'), fl)

/-- The shift bit of a quad (R78, step 4): qmax ≤ (Mhi − 0.5) · 2^(S − 1). -/
def psbShift (b : Nat) (S : Int) (quad : List FVal) : Nat :=
  let q := amaxOf quad
  if dyLt (2 * (2 ^ (b - 1) - 1) - 1) (S - 2) q.1 q.2 then 0 else 1

/-- Block quantisation into a PSB format of `b` bits (R78): elements, exponent byte, shift byte, flags. -/
def quantPsb (b rm : Nat) (vs : List FVal) (rs : List Nat) : List Nat × Nat × Nat × Flags :=
  if vs.any FVal.isNan then (vs.map fun _ => 0, 0xFF, 0, fIV)
  else
    let am := amaxOf vs
    if am.1 = 0 then
      let out := vs.map fun v => psbElem b rm 0 0 v 0
      (out.map Prod.fst, 0, 0, out.foldl (fun fl o => fl ||| o.2) 0)
    else
      let S : Int := max (-127) (min 127 (dyLog2 am.1 am.2 - ((b : Int) - 2)))
      let hs := (List.range 4).map fun q => psbShift b S ((vs.drop (4 * q)).take 4)
      let out := (List.range 16).map fun i => psbElem b rm S (hs.getD (i / 4) 0) (vs.getD i (.fin false 0 0)) (rs.getD i 0)
      (out.map Prod.fst, (S + 127).toNat, hs.foldr (fun h acc => h + 2 * acc) 0, out.foldl (fun fl o => fl ||| o.2) 0)

/-- The value of an element of a block format with its scale bytes (R63, R66): E8M0 scale or PSB exponent
`e0`, shift byte `e1`, element index `i` in the block. -/
def blockVal (f : Nat) (x e0 e1 i : Nat) : FVal :=
  if e0 = 0xFF then .nan false 0x400000
  else
    match ffmt f with
    | some g =>
      (match g.decode x with
       | .fin s m e => .fin s m (e + ((e0 : Int) - 127))
       | v => v)
    | none =>
      match ifmt f with
      | some (w, _) =>
        let v := sextInt x w
        .fin (decide (v < 0)) v.natAbs ((e0 : Int) - 127 - (if bitOf e1 (i / 4) then 1 else 0))
      | none => .fin false 0 0

end Sys2Proof.Machine
end

