-- ==== Sys2Proof/Machine/Operands.lean ====
section
/-! DEFINITION. Operand forms: memory addresses (R162), the place an address names (R11, R20, R39, R113),
lane operands (R227, R229). -/

namespace Sys2Proof.Machine

/-- Bytes of a size code (R161). -/
def sizeBytes (size : Nat) : Nat :=
  match size with | 0 => 1 | 1 => 2 | 2 => 4 | 3 => 8 | 4 => 256 | _ => 4096

/-- The signed value of off24 (R162). -/
def dispOf (o : AForm) : Int := sextInt o.off.toNat 24

/-- SX, mod bit 59 (R161). -/
def sxOf (o : AForm) : Bool := o.mod.getLsbD 0

/-- The base of a memory operand (R162): outside G space, base 0 names no register. -/
def State.baseOf (s : State) (o : AForm) : Int :=
  if o.as != 0 && o.base == 0 then 0 else ((s.core.areg o.base).toNat : Int)

/-- The address that an operand forms (R162): modulo 2^80 in G space, an exact offset elsewhere. -/
def addrIn (as : Nat) (x : Int) : Int := if as = 0 then x % (2 ^ 80 : Nat) else x

/-- ea of R162, before the checks of the space. -/
def State.ea (s : State) (o : AForm) (sx : Bool) : Int :=
  let i := sw (s.core.sreg o.idx)
  let i := if sx then i * sizeBytes o.size.toNat else i
  addrIn o.as.toNat (s.baseOf o + i + dispOf o)

/-- The address of R313 and of VLDS before its stride: base and displacement only. -/
def State.eaBase (s : State) (o : AForm) : Int := addrIn o.as.toNat (s.baseOf o + dispOf o)

/-- The low 64 bits of an address, for TINFO (R189). -/
def addrInfo (x : Int) : Nat := (x % (2 ^ 64 : Nat)).toNat

/-- The extent of P space of the focused unit: 512 KiB, or the 256 KiB data memory of a queue processor
(R11, R395). -/
def State.pExtent (s : State) : Nat := if s.isQp then 0x40000 else 0x80000

/-- The place that `n` bytes at address `x` of a space name, for an access of a kind, or the trap code
(R11, R20, R39, R356, R417). `n` bytes never cross a page. -/
def State.place (s : State) (as : Nat) (x : Int) (n : Nat) (k : Kind) : Except Nat (Place × Nat) :=
  if as = 0 then s.locate s.ctx (BitVec.ofInt 80 x) k
  else if x < 0 then .error XLATE
  else
    let u := x.toNat
    if as = 1 then (if u + n ≤ s.pExtent then .ok (.own, u) else .error XLATE)
    else
      match s.core.task with
      | none => .error XLATE
      | some t =>
        if as = 2 then
          let c := u / 2 ^ 19
          let off := u % 2 ^ 19
          if u ≥ 2 ^ 26 ∨ c ≥ t.gsize.toNat ∨ off + n > t.foot then .error XLATE
          else if c = t.cidx.toNat ∨ t.spawned then .ok (.own, off)
          else
            match s.dev.gangOf t.gang with
            | none => .error XLATE
            | some g => if g.ended.contains (g.slots.getD c 0) then .error XLATE else .ok (.spad t.part (g.slots.getD c 0), off)
        else if as = 3 then
          if u + n > 0x3000000 ∨ u + n > t.domeBytes then .error XLATE
          else .ok (.dome s.focus.dome, t.domeBase + u)
        else .error XLATE

/-- The places of a run of bytes cut into chunks of `c` bytes that never cross a page: one for each chunk, or
the first fault with its address. -/
def State.chunks (s : State) (as : Nat) (k : Kind) (c : Nat) : Int → Nat → Except (Nat × Int) (List (Place × Nat))
  | _, 0 => .ok []
  | x, n + 1 =>
    match s.place as (addrIn as x) c k with
    | .error e => .error (e, addrIn as x)
    | .ok p =>
      match s.chunks as k c (x + c) n with
      | .error e => .error e
      | .ok ps => .ok (p :: ps)

/-- The bytes at a list of chunks, where `fl` are the stores that the address promises (R127). -/
def State.readVia (s : State) (fl : List Nat) (c : Nat) (ps : List (Place × Nat)) : List Byte := ps.flatMap fun p => s.bytesVia fl p.1 p.2 c

/-- The bytes at a list of chunks. -/
def State.readChunks (s : State) (c : Nat) (ps : List (Place × Nat)) : List Byte := s.readVia [] c ps

/-- The pieces that store bytes into chunks. -/
def pieceChunks (c : Nat) : List (Place × Nat) → List Byte → List Piece
  | [], _ => []
  | p :: ps, bs => { place := p.1, addr := p.2, bytes := bs.take c } :: pieceChunks c ps (bs.drop c)

/-- G-space accesses use the translation caches (R418, R420): one touch for each page of the run. -/
def State.touch (s : State) (as : Nat) (x : Int) (n : Nat) (k : Kind) : State :=
  if as = 0 then
    let ctx := s.ctx
    let s := s.touchPage ctx (BitVec.ofInt 80 x) k
    if (x % 65536) + n > 65536 then s.touchPage ctx (BitVec.ofInt 80 (x + n - 1)) k else s
  else s

/-- A walk of the focused unit that meets a malformed entry is logged (R416). -/
def State.logWalk (s : State) (ctx : BitVec 12) (va : Addr) : State :=
  s.updDev fun v => v.logWalk s.focus.dome s.focus.logUnit.1 s.focus.logUnit.2 s.partition ctx va

/-- What the translation hardware does before an access of the unit in focus fails with XLATE or PERM (R416, R421): the cached
entries of the page are dropped and the page is walked once more, which fills the caches where it finds a leaf and is logged
where it meets a malformed entry. -/
def State.failWalk (s : State) (as : Nat) (x : Int) (code : Nat) : State :=
  if as ≠ 0 then s
  else
    let va := BitVec.ofInt 80 x
    if code = XLATE then (s.uncache s.ctx va).logWalk s.ctx va
    else if code = PERM then (s.uncache s.ctx va).fill s.ctx va .any
    else s

/-- A memory fault of the A slot: the trap is taken with the address as its detail (R189). -/
def State.memTrap (s : State) (code as : Nat) (x : Int) (sl : Slot) : State := (s.failWalk as x code).trap code sl (addrInfo x)

/-- The b operand of an element operation in lane `l` (R229). -/
def State.bLane (s : State) (o : VForm) : Nat → Lane :=
  match o.mode with
  | 0 => let r := s.core.vreg o.b; fun l => if h : l < 1024 then r[l] else 0
  | 1 => let v := (s.core.sreg o.b).setWidth 32; fun _ => v
  | _ => let v := o.imm8.signExtend 32; fun _ => v

/-- Lane `l` of a register; 0 beyond. -/
def laneAt (r : VReg) (l : Nat) : Lane := if h : l < 1024 then r[l] else 0

/-- A register from a function of the lane. -/
def vOf (f : Nat → Lane) : VReg := Vector.ofFn fun i => f i.val

/-- A register whose lanes are given by a list of lane values. -/
def vOfLanes (xs : List (Nat × Lane)) : VReg := xs.foldl (fun v x => if h : x.1 < 1024 then v.set x.1 x.2 h else v) (Vector.replicate 1024 0)

/-- The lanes of a vector register as a list. -/
def lanesList (f : Nat → FRes) : List FRes := (List.range 1024).map f

/-- A lane-wise result and the OR of its flags over the active lanes (R144, R228). -/
def vMap (m : LaneMask) (f : Nat → FRes) : VReg × Flags :=
  let rs : Vector FRes 1024 := Vector.ofFn fun i => if m.getLsbD i.val then f i.val else (0, 0)
  (rs.map Prod.fst, rs.foldl (fun acc x => acc ||| x.2) 0)

/-- The 256 bytes of row `ρ` in packed form (R227). -/
def rowBytes (r : VReg) (row : Nat) : List Byte := (List.range 64).flatMap fun k => bytesOfNat 4 (laneAt r (64 * row + k)).toNat

/-- The lanes of a row from its 256 packed bytes (R227). -/
def laneOfBytes (bs : List Byte) (k : Nat) : Lane := BitVec.ofNat 32 (fieldAt bs (4 * k) 4)

/-- The outcome of a vector element operation: a result with a latency in the active lanes, and occupancy of
its slot for `occ` cycles (R157, R262). -/
def State.vResult (s : State) (o : VForm) (lat : Nat) (can : Bool) (f : Nat → FRes) : State :=
  let m := s.core.lanesOf o.p
  let (v, fl) := vMap m f
  s.wV lat o.d m v fl can

/-- The slot of a V-slot operation. -/
def vSlot (o : VForm) : Slot := if o.v1 then .v1 else .v0

/-- The V slot is occupied for `n` cycles from now (R157). -/
def State.occupyV (s : State) (o : VForm) (n : Nat) : State :=
  s.upd fun c => if o.v1 then { c with busyV1 := c.tau + n } else { c with busyV0 := c.tau + n }

/-- The A slot is occupied for `n` cycles from now (R315). -/
def State.occupyA (s : State) (n : Nat) : State := s.upd fun c => { c with busyA := c.tau + n }

end Sys2Proof.Machine
end

