-- ==== Sys2Proof/Machine/Bounds.lean ====
section
/-! DEFINITION. Bound checks (R253, R254, R289, R301). -/

namespace Sys2Proof.Machine

/-- Bound register `t`; tb0 names none (R171). -/
def Core.bound (c : Core) (t : BitVec 4) : Bound := c.bounds[t.toNat]'t.isLt

/-- The exact comparison of two values that are no NaN: a < b (R253). -/
def FVal.lt (a b : FVal) : Bool :=
  let key (v : FVal) : Int := match v with | .inf s => if s then -1 else 1 | _ => 0
  match a, b with
  | .fin s m e, .fin t k x =>
    let u := min e x
    let p : Int := (if s then -1 else 1) * (m * 2 ^ (e - u).toNat : Nat)
    let q : Int := (if t then -1 else 1) * (k * 2 ^ (x - u).toNat : Nat)
    decide (p < q)
  | a, b => decide (key a < key b)

/-- A value rounded into an element of a format that holds one number per element (R253): replacements use
no SAT bit of their own, and formats without infinities saturate. -/
def elemRound (f rm : Nat) (sat : Bool) (v : FVal) : Nat :=
  match ffmt f with
  | some g => (g.convert rm 0 sat v).1
  | none => match ifmt f with | some (w, signed) => (convertInt w signed rm 0 v).1 | none => 0

/-- The check of one element (R253): `val` gives the value of an element, `toElem` rounds a value into one.
The result is the element as kept, and whether it was out of bounds. -/
def checkElem (b : Bound) (val : Nat → FVal) (toElem : Nat → FVal → Nat) (x : Nat) : Nat × Bool :=
  let lo := elemVal b.fmt.toNat b.lo.toNat
  let hi := elemVal b.fmt.toNat b.hi.toNat
  let v := val x
  let isNaN := v.isNan
  let below := isNaN || v.lt lo
  let above := !isNaN && hi.lt v
  let out := below || above
  if out && b.act == 1 then
    let rhi := toElem 3 hi
    let rlo := toElem 2 lo
    -- when LO lies above HI the replacement for HI is written (R301)
    (if below && !hi.lt (val rlo) && !hi.lt lo then rlo else rhi, true)
  else (x, out)

/-- The check of an element of a plain format (R253). -/
def checkPlain (b : Bound) (f : Nat) (x : Nat) : Nat × Bool :=
  checkElem b (elemVal f) (fun rm v => elemRound f rm false v) x

/-- The check of an element of a scaled block, with its scale bytes and its index in the block; a block that
was quantised as NaN keeps its elements (R253). -/
def checkScaled (b : Bound) (f e0 e1 i : Nat) (x : Nat) : Nat × Bool :=
  if e0 = 0xFF then (x, true)
  else
    let sh : Int := match ffmt f with
      | some _ => (e0 : Int) - 127
      | none => (e0 : Int) - 127 - (if bitOf e1 (i / 4) then 1 else 0)
    let unscale (v : FVal) : FVal := match v with | .fin s m e => .fin s m (e - sh) | v => v
    checkElem b (fun y => blockVal f y e0 e1 i) (fun rm v => elemRound f rm true (unscale v)) x

/-- The write that makes a TRAP due (R253): the bound register whose action is TRAP and that found an element
out of bounds. -/
def trapDue (b : Bound) (out : Bool) : Bool := out && b.act == 2

end Sys2Proof.Machine
end

