-- ==== Sys2Proof/Machine/Task.lean ====
section
/-! DEFINITION. Tasks: the continuation record (R30 to R32), task start (R41), voluntary suspension (R34 to
R36), and what a task keeps (R27, R302). -/

namespace Sys2Proof.Machine

/-- The entries of a META section: type and value (R184). `fuel` bounds their number. -/
def metaFrom (bs : List Byte) : Nat → List (Nat × List Byte)
  | 0 => []
  | fuel + 1 =>
    if bs.length < 4 then []
    else
      let t := fieldAt bs 0 2
      let n := fieldAt bs 2 2
      (t, sliceOf bs 4 n) :: metaFrom (bs.drop (4 + (n + 3) / 4 * 4)) fuel

/-- The entries of a META section (R184): each takes four bytes or more. -/
def metaEntries (bs : List Byte) : List (Nat × List Byte) := metaFrom bs bs.length

/-- Apply one META entry of type 0x0009 or 0x000A, as SHPW and BNDW would (R184, R302, R303). Values that those instructions would
refuse are stored as they stand, with the index and the tensor id modulo 16 (DESIGN CHOICE, log 27). -/
def Core.applyMeta (c : Core) (e : Nat × List Byte) : Core :=
  if e.1 = 0x0009 then
    let n := fieldAt e.2 0 1
    let k := fieldAt e.2 1 1
    let old := c.shapes[n % 16]'(Nat.mod_lt _ (by decide))
    let h : Shape :=
      { dims := Nat.min k 5
        sizes := Vector.ofFn fun i => if i.val < k then BitVec.ofNat 32 (fieldAt e.2 (2 + 4 * i.val) 4) else old.sizes[i] }
    { c with shapes := c.shapes.set (n % 16) h (Nat.mod_lt _ (by decide)) }
  else if e.1 = 0x000A then
    let t := fieldAt e.2 0 1
    let b : Bound := { lo := BitVec.ofNat 32 (fieldAt e.2 4 4), hi := BitVec.ofNat 32 (fieldAt e.2 8 4),
                       fmt := BitVec.ofNat 5 (fieldAt e.2 1 1), act := BitVec.ofNat 2 (fieldAt e.2 2 1) }
    { c with bounds := c.bounds.set (t % 16) b (Nat.mod_lt _ (by decide)) }
  else c

/-- The bound registers and shape entries at task start and after a voluntary suspension (R302). -/
def Core.loadMeta (c : Core) (metas : List Byte) : Core :=
  (metaEntries metas).foldl Core.applyMeta
    { c with bounds := Vector.replicate 16 Bound.reset, shapes := Vector.replicate 16 Shape.reset }

/-- The bits of TROUTE that may be set (R365). -/
def trouteMask : Word := 0x1FEFF76

/-- The state of a task at its start (R41): `s1` to `s4` are the SPAWN arguments, THANDLER the handler position of
NATV (R190), TROUTE the launch's trap routing (R365), the comparators zero (R363), the generator keyed from SEED and task index. -/
def startCore (t : TaskInfo) : Core :=
  let c := Core.reset.loadMeta t.metas
  let hv : BitVec 32 := if t.handlerPos = 0xFFFFFFFF then 0 else t.handlerPos ||| 0x80000000
  { c with
    task := some t, code := t.code, pos := t.entry, sig := SigState.target, thandler := hv,
    s := Vector.ofFn fun i => if 1 ≤ i.val ∧ i.val ≤ 4 then t.args.getD (i.val - 1) 0 else 0,
    tflags := (if t.shchk then 1 else 0) ||| (if t.mer then 0x1000000 else 0),
    fmt := { cur := t.entryFmt, pend := [] }
    rbkey := BitVec.ofNat 64 (mhash t.seed.toNat t.index.toNat 0xFFFFFFFF), owesTrig := true,
    mon := { c.mon with troute := t.route &&& trouteMask, wpc := Vector.replicate 4 0 } }

/-- Keep only the first `n` bytes of a memory. -/
def memBelow (m : Mem) (n : Nat) : Mem := m.filter fun c => c.1 < n

/-- What is left of a handler entry when its task suspends in the handler (R27, R321): the stack and signature that it saved, with
no frozen result or replay and FMT at its initial value (log 15). -/
def EntrySave.suspended (e : EntrySave) (fmt : Word) : EntrySave :=
  { e with fmt := { cur := fmt, pend := [] }, results := [], replay := none }

/-- What a task keeps across a voluntary suspension (R27, R35, R302, R363): no register but s1 to s4, and of the special registers
STICKY, the mode and handler bits of TFLAGS and the counters of the task (log 15); its view of memory (R122); a BOUND that its results have made due (R253). A token in s1 to
s4 is an ordinary value afterwards (DESIGN CHOICE, log 95). -/
def Core.suspended (c : Core) : Core :=
  match c.task with
  | none => c
  | some t =>
    let r := Core.reset.loadMeta t.metas
    { r with
      task := c.task, code := c.code, pos := c.pos,
      s := Vector.ofFn fun i => if 1 ≤ i.val ∧ i.val ≤ 4 then c.s[i.val] else 0,
      pstack := c.pstack.map fun e => { m := if e.b then -1 else 0, b := e.b, due := 0 },
      sticky := c.sticky, tflags := c.tflags &&& 0x3000000, fmt := { cur := t.entryFmt, pend := [] },
      cycle := c.cycle, burstcnt := c.burstcnt, boundDue := c.boundDue,
      tau := c.tau, busyA := c.tau, busyV0 := c.tau, busyV1 := c.tau, spawns := c.spawns, owesTrig := c.owesTrig, evt := c.evt,
      arrivals := c.arrivals, handler := c.handler.map fun e => e.suspended t.entryFmt, msaved := c.msaved, mdue := c.mdue, mcopy := c.mcopy,
      spad := memBelow c.spad t.foot, rbkey := c.rbkey, rbctr := c.rbctr, rewinds := c.rewinds, rdvseq := c.rdvseq, fbk := c.fbk,
      dirty := c.dirty, view := c.view, part := c.part, raced := c.raced, phase := c.phase, bufs := c.bufs,
      mon := { r.mon with troute := c.mon.troute, bpc := c.mon.bpc, wpa := c.mon.wpa, wpc := c.mon.wpc } }

/-- A task takes a core: what belongs to the physical core stays, the rest is the task's (R27). What the task counts
in wall cycles of its old core goes on from the new core's, and a declaration covers what it covered (R353, R357; log 90). -/
def Core.takeOver (phys kept : Core) : Core :=
  { kept with
    wall := phys.wall, window := phys.window, burstBeats := phys.burstBeats, burstPaid := phys.burstPaid,
    l1 := phys.l1, tlb := phys.tlb,
    deqtAt := kept.deqtAt.map fun d => (phys.wall + (d.1 - kept.wall), d.2),
    phint := kept.phint.map fun h =>
      let b := phys.wall + h.1 - kept.wall
      (b, phys.wall + (h.1 + h.2.1 - kept.wall) - b, h.2.2),
    mat := { kept.mat with feeder := { kept.mat.feeder with pre := kept.mat.feeder.pre.map fun r => { r with due := some 0 } } }, arrays := phys.arrays, digital := phys.digital, burstHeld := phys.burstHeld, waitFrom := none, barFrom := none, preempt := none, hold := none, draining := false, stopped := phys.stopped,
    mon := { phys.mon with troute := kept.mon.troute, bpc := kept.mon.bpc, wpa := kept.mon.wpa, wpc := kept.mon.wpc,
                           mode := kept.mon.mode, tvalid := kept.mon.tvalid, saved := kept.mon.saved, thnd := kept.mon.thnd } }

/-- The scalar bits of a predicate stack as the record holds them (R30). -/
def pstkField (st : List PredEntry) : Nat :=
  st.length % 16 * 2 ^ 12 + (st.reverse.foldr (fun e acc => (if e.b then 1 else 0) + 2 * acc) 0) % 2 ^ 12

/-- The continuation record of a task slot (R30 to R32); `c` is the state it keeps. -/
def contRecord (t : TaskSlot) (c : Core) : List Byte :=
  let b (x : Bool) (k : Nat) : Nat := if x then 2 ^ k else 0
  let cflags := b t.info.mer 0 + b t.info.pers 1 + b t.info.spawned 2 + b t.ckpt 3 + b t.foot 4 + b t.evt 5 + t.dreg.toNat * 2 ^ 8
  let pstk := if t.ckpt then 0 else pstkField c.pstack
  bytesOfNat 10 (t.cpos % 2 ^ 30) ++ bytesOfNat 2 cflags ++ bytesOfNat 2 pstk
    ++ bytesOfNat 2 (t.st + t.why * 2 ^ 4 + t.qnum * 2 ^ 8) ++ bytesOfNat 10 t.info.spill.toNat
    ++ bytesOfNat 2 t.info.cidx.toNat ++ bytesOfNat 4 t.info.lid
    ++ bytesOfNat 8 (c.sreg 1).toNat ++ bytesOfNat 8 (c.sreg 2).toNat ++ bytesOfNat 8 (c.sreg 3).toNat ++ bytesOfNat 8 (c.sreg 4).toNat

/-- The VA of the record of a slot (R404). -/
def Device.recordVa (v : Device) (p slot : Nat) : Addr := (v.part p).taskArea + BitVec.ofNat 80 (64 * slot)

/-- Write the record of a task slot to memory (R30). -/
def Device.writeRecord (v : Device) (p slot : Nat) : Device :=
  match v.slotOf p slot with
  | none => v
  | some t => v.writeVa (v.part p).ctx (v.recordVa p slot) (contRecord t (t.kept.getD Core.reset))

/-- A page is pinned (R312): its entry's pin bit, or a nonzero pin count; one that is bound to a window counts as pinned (R428). -/
def Device.pinned (v : Device) (ctx : BitVec 12) (va : Addr) (e : Nat) : Bool :=
  ptePin e || (v.windowOf ctx va).isSome || v.pins.any fun p => p.1 == ctx && p.2.2.1 == va.toNat / 2 ^ levelShift p.2.1 && p.2.2.2 > 0

/-- Pages from `va` up are mapped, writable and pinned (R36, R379). -/
def Device.usable (v : Device) (ctx : BitVec 12) (va : Addr) : Nat → Bool
  | 0 => true
  | n + 1 =>
    (match v.translate ctx va .store with
     | .ok (_, e) => v.pinned ctx va e
     | .error _ => false) && v.usable ctx (va + 65536) n

/-- The pages of a task's spill area (R36). -/
def spillPages (foot : Nat) : Nat := (4096 + foot + 65535) / 65536

/-- The spill area of the focused task is usable (R36). -/
def State.spillOk (s : State) : Bool :=
  match s.core.task with
  | none => true
  | some t => s.dev.usable (s.dev.part t.part).ctx t.spill (spillPages t.foot)

/-- The lowest result queue that holds an entry or has a drain in flight (R214, R291). -/
def MatCtx.busyQueue (m : MatCtx) : Option Nat :=
  (List.range 4).find? fun q =>
    (if h : q < 4 then !(m.queues[q]).isEmpty else false) || m.drains.any fun d => d.q.toNat == q

/-- The predicate stack as the bundle that issues leaves it (R145, R201, R203): its pushes, a PWR, then its `pop`. -/
def Core.stackAfter (c : Core) : List PredEntry := (c.pwr.getD c.stackNow).drop c.curPop.toNat

/-- The check of a suspension point in slot `sl`, in the order of R213, R291 and R36: the trap that the point raises. The stack is the one
that the record would hold, with the bundle's pushes and pops (log 80). -/
def State.suspendCheck (s : State) (sl : Slot) : Option (Nat × Slot × Nat) :=
  let c := s.core
  if c.stackAfter.length > 12 then some (PSTACK, .header, c.pstackInfo)
  else if c.stackAfter.any PredEntry.live then some (SUSPV, .header, c.pstack.length)
  else
    match c.mat.busyQueue with
    | some q => some (QUEUE, sl, q)
    | none => if s.spillOk then none else some (CTXLOST, .header, 0)

/-- τ cycles until every fixed-latency result in flight has landed (R158). -/
def Core.settleTime (c : Core) : Nat := c.results.foldl (fun n r => Nat.max n (r.due - c.tau)) 0

/-- Every fixed-latency result in flight lands, and every beat (R158, R279). -/
def Core.settle (c : Core) : Core := c.ticks (c.mat.beats.foldl (fun n b => Nat.max n b.left) c.settleTime)

/-- The first bytes of the device's 4 KiB of a spill area (R36, R56, R191, R363, R377), in the model's own layout (DESIGN CHOICE, log
26): generator key and counter, resume count, RDVSEQ, the comparators, CYCLE. -/
def spillHead (c : Core) (resumes : Nat) : List Byte :=
  bytesOfNat 8 c.rbkey.toNat ++ bytesOfNat 8 c.rbctr.toNat ++ bytesOfNat 4 resumes ++ bytesOfNat 4 c.rdvseq.toNat
    ++ c.mon.bpc.toList.flatMap (fun w => bytesOfNat 8 w.toNat) ++ c.mon.wpa.toList.flatMap (fun w => bytesOfNat 16 w.toNat)
    ++ c.mon.wpc.toList.flatMap (fun w => bytesOfNat 8 w.toNat) ++ bytesOfNat 8 c.cycle.toNat

/-- The bytes that the device keeps there. -/
def spillKept : Nat := 192

/-- A task takes back what the device keeps in its spill area (R36). -/
def Core.unspill (c : Core) (bs : List Byte) : Core :=
  { c with
    rbkey := BitVec.ofNat 64 (fieldAt bs 0 8), rbctr := BitVec.ofNat 64 (fieldAt bs 8 8), rdvseq := BitVec.ofNat 32 (fieldAt bs 20 4), cycle := BitVec.ofNat 64 (fieldAt bs 184 8)
    mon := { c.mon with bpc := Vector.ofFn fun i => BitVec.ofNat 64 (fieldAt bs (24 + 8 * i.val) 8),
                        wpa := Vector.ofFn fun i => BitVec.ofNat 80 (fieldAt bs (88 + 16 * i.val) 10),
                        wpc := Vector.ofFn fun i => BitVec.ofNat 64 (fieldAt bs (152 + 8 * i.val) 8) } }

/-- A footprint has left a core: for 65,536 cycles the core forwards what is still routed to it (R40). -/
def Device.forward (v : Device) (u : Agent) (p slot : Nat) : Device :=
  match u with
  | .core n =>
    { v with forwards := (v.forwards.filter fun f => !(f.core == n && f.part == p && f.slot == slot)) ++
               [{ core := n, part := p, slot := slot, till := v.time + 65536 }] }
  | .qp _ _ => v

/-- The focused task leaves its core in a voluntary suspension (R34): state code, cause, queue, destination.
`foot` writes the footprint image to the spill area (R36, R212). An event that has come since the suspension point makes a task in
WFE READY at once, and an item given to one in DEQ does (R34, R48). -/
def State.suspendTask (s : State) (st why qnum : Nat) (dreg : Reg) (foot : Bool) : State :=
  match s.core.task with
  | none => s
  | some t =>
    let s := s.commitSeg
    let s := s.upd fun c => c.settle.endCharge
    let s := s.release 3
    let whole := s.core.suspended
    let got := match s.dev.slotOf t.part t.slot with | some x => x.deqtGot.filter fun (g : Nat × Word) => st == 2 && g.1 == qnum | none => none
    let whole := match got with | some g => whole.setS dreg g.2 none | none => whole
    let kept := if foot then { whole with spad := [] } else whole
    let last := match s.focus with | .core p => some p | .qp _ _ => none
    let evt := s.core.evt
    let st := if (st == 3 && evt) || got.isSome then 0 else st
    let v := s.dev.updSlot t.part t.slot fun x =>
      { x with st := st, why := why, qnum := qnum, dreg := dreg, cpos := s.core.pos, ckpt := false, foot := foot, evt := evt,
               deqtQ := none, deqtGot := if got.isSome then none else x.deqtGot, kept := some kept, lastCore := last }
    let resumes := match s.dev.slotOf t.part t.slot with | some x => x.resumes | none => 0
    let v := v.writeVa (v.part t.part).ctx t.spill (spillHead whole resumes)
    let v := if foot then (v.writeVa (v.part t.part).ctx (t.spill + 0x1000) (memRun whole.spad 0 t.foot)).forward s.focus t.part t.slot else v
    let v := (v.readied t.part t.slot).writeRecord t.part t.slot
    let v := { v with poison := v.poison.filter fun q => q.1 != Place.spad t.part t.slot || q.2.1 < t.foot }
    ({ s with dev := v }).vacate

end Sys2Proof.Machine
end

