-- ==== Sys2Proof/Machine/Windows.lean ====
section
/-! DEFINITION. Invalidating translations (R373, R422), dome-scratchpad windows (R427 to R429), page pins
(R312), and reading device structures by virtual address. -/

namespace Sys2Proof.Machine

/-- `n` bytes of G space at a VA for an access of a kind, or the trap and the address where it fails. -/
def State.readG (s : State) (k : Kind) (va : Int) (n : Nat) : Except (Nat × Int) (List Byte) :=
  match s.chunks 0 k 1 va n with
  | .error e => .error e
  | .ok ps => .ok (s.readChunks 1 ps)

/-- The cores of the device, resident or saved with a task. -/
def State.allCores (s : State) : List Core :=
  s.core :: s.parked.map Prod.snd ++ s.dev.slots.filterMap TaskSlot.kept

/-- Write back and invalidate every line of a physical range in every L1 and L2 of the device (R422, R428): the stores that the
lines carry are thereby published at SYSTEM scope, those that no release has published taking their places now. -/
def State.flushRange (s : State) (pa n : Nat) : State :=
  let late := s.allCores.flatMap fun c => c.dirty.filter fun x => x.meets pa n
  let old := s.dev.hist
  let meets (line : Nat) : Bool := decide (128 * line < pa + n) && decide (pa < 128 * line + 128)
  let s := s.updDev fun v => { v with domes := v.domes.map fun d => { d with l2 := d.l2.filter fun x => !meets x.1 } }
  let s := s.mapCores fun c =>
    { c with dirty := c.dirty.filter (fun x => !x.meets pa n), view := c.view ++ (c.dirty.filter fun x => x.meets pa n).map GStore.id,
             l1 := c.l1.filter fun x => !meets x.1 }
  if late.isEmpty && !old.any (fun x => x.meets pa n && !x.wide 5) then s
  else
    let t := s.dev.stamp + 1
    let out (x : GStore) : GStore := if x.meets pa n && !x.wide 5 then { x with pubs := x.pubs ++ [(5, .device, t)] } else x
    s.updDev fun v => (v.toHome 5 ((old ++ late).filter fun x => x.meets pa n)).withHist ((old ++ late).map out) t

/-- A piece has a byte in [pa, pa + n) of global memory. -/
def Piece.meets (p : Piece) (pa n : Nat) : Bool := p.place == .phys && decide (p.addr < pa + n) && decide (pa < p.addr + p.bytes.length)

/-- Bytes of global memory that an access of a core, translated already, will still read or write (R422, R424): an outstanding
operation, or a store held in its open segment. -/
def Core.inFlight (c : Core) (pa n : Nat) : Bool :=
  (c.outst.any fun x =>
    match x with
    | .atomic .phys a w _ _ _ _ _ _ _ => decide (a < pa + n) && decide (pa < a + w)
    | .engine e => e.pieces.any fun p => p.meets pa n
    | _ => false) || c.heldPieces.any fun p => p.meets pa n

/-- An access in flight has a byte in a frame of 64 KiB (R422, R424, R428). -/
def State.frameBusy (s : State) (pa : Nat) : Bool := s.allCores.any fun k => k.inFlight pa 65536

/-- The pages of a context that an XLINV covers (R373): the page of a level that holds an address, a context, or every context of a
partition. -/
inductive XlScope where
  | page (ctx : BitVec 12) (va : Addr) (lvl : Nat)
  | context (c : BitVec 12)
  | part (p : Nat)
  deriving DecidableEq, Repr

/-- The owner of a context (R412): a partition, or 8 for the firmware. -/
def Device.ctxOwner (v : Device) (c : BitVec 12) : Option Nat :=
  (v.contexts.find? fun x => x.1 == c).bind fun x => if fieldAt x.2 8 1 % 2 = 1 then some (fieldAt x.2 9 1) else none

/-- A cached translation is covered. -/
def XlScope.covers (x : XlScope) (v : Device) (c : Cached) : Bool :=
  match x with
  | .page ctx va _ => c.ctx == ctx && c.page == va.toNat / 2 ^ levelShift c.lvl
  | .context k => c.ctx == k
  | .part p => v.ctxOwner c.ctx == some p

/-- A base page of a context is covered. -/
def XlScope.coversPage (x : XlScope) (v : Device) (ctx : BitVec 12) (page : Nat) : Bool :=
  match x with
  | .page k va l => ctx == k && page * 65536 / 2 ^ levelShift l == va.toNat / 2 ^ levelShift l
  | .context k => ctx == k
  | .part p => v.ctxOwner ctx == some p

/-- The windows with a page that is covered, lowest first (R427). -/
def XlScope.windows (x : XlScope) (v : Device) : List (BitVec 6) :=
  (List.range 4).flatMap fun d => ((v.dome d).windows.filter fun w =>
    (List.range w.pages).any fun k => x.coversPage v w.ctx (w.va.toNat / 65536 + k)).map Window.win

/-- A VA of a context is covered by an XLINV, and no leaf maps it now. -/
def XlScope.gone (x : XlScope) (v : Device) (ctx : BitVec 12) (va : Addr) : Bool :=
  x.coversPage v ctx (va.toNat / 65536) && (match v.walk ctx va with | .ok _ => false | .error _ => true) && !(v.windowOf ctx va).isSome

/-- No leaf maps the page of a translation any more, and it is bound to no window (R422, R429). -/
def Cached.gone (c : Cached) (v : Device) : Bool :=
  let va : Addr := BitVec.ofNat 80 (c.page * 2 ^ levelShift c.lvl)
  (match v.walk c.ctx va with | .ok _ => false | .error _ => true) && !(v.windowOf c.ctx va).isSome

/-- Step 1 of R422 for a translation whose leaf is invalid now and whose page is no window. -/
def State.dropPage (s : State) (c : Cached) : State :=
  if c.gone s.dev then s.flushRange (leafPa c.lvl c.low (BitVec.ofNat 80 (c.page * 2 ^ levelShift c.lvl))) (2 ^ levelShift c.lvl) else s

/-- Steps 2 and 3 of R422 for every page that an XLINV covers: its line pins and its pin count end. -/
def Device.dropPins (v : Device) (x : XlScope) : Device :=
  { v with pins := v.pins.filter (fun p => !x.gone v p.1 (BitVec.ofNat 80 (p.2.2.1 * 2 ^ levelShift p.2.1)))
           domes := v.domes.map fun d => { d with linePins := d.linePins.filter fun p => !x.gone v p.1 (BitVec.ofNat 80 (p.2 * 128)) } }

/-- The dome whose migration engine moves the pages of a context (R423). -/
def Device.ctxDome (v : Device) (c : BitVec 12) : Nat :=
  match v.ctxOwner c with
  | some p => if p < 8 then v.homeDome p else 0
  | none => 0

/-- Log an event of the migration engine (R438). -/
def Device.logMig (v : Device) (code : Nat) (c : BitVec 12) (va : Addr) : Device :=
  v.log (v.ctxDome c) code 0 2 0 (BitVec.ofNat 64 (va.toNat % 2 ^ 64)) (c.setWidth 64) c.toNat ((v.ctxOwner c).getD 0xFF)

/-- A deferred move joins the deferral list; a full list drops its oldest entry, logged (R426). -/
def Device.deferMove (v : Device) (c : BitVec 12) (va : Addr) : Device :=
  let d := v.ctxDome c
  let v := match (v.dome d).defer with
    | [] => v
    | (c0, va0) :: rest =>
      if rest.length + 1 ≥ 1024 then (v.updDome d fun x => { x with defer := rest }).logMig 0x0033 c0 va0 else v
  v.updDome d fun x => { x with defer := x.defer ++ [(c, va)] }

/-- The base pages that move with a page of a context: those of its group where its leaf has CG, else itself (R423). -/
def Device.unitPages (v : Device) (c : BitVec 12) (va : Addr) : List Nat :=
  let k := va.toNat / 65536
  match v.walk c va with
  | .ok (5, e) => if pteCG e then (List.range 32).map fun j => k / 32 * 32 + j else [k]
  | _ => [k]

/-- The engine tries deferred pages again, where `covers` holds of a page of what would move: they leave the deferral list and are
asked for anew (R426). The tier of the new request is the other tier than the page's present one. -/
def Device.retryDeferred (v : Device) (covers : BitVec 12 → Nat → Bool) : Device :=
  (List.range 4).foldl (fun v d =>
    let hit (x : BitVec 12 × Addr) : Bool := (v.unitPages x.1 x.2).any (covers x.1)
    let again := (v.dome d).defer.filter hit
    let tier (x : BitVec 12 × Addr) : Nat := match v.walk x.1 x.2 with | .ok (_, e) => 1 - tierOf (ptePA e) | .error _ => 0
    v.updDome d fun y =>
      { y with defer := y.defer.filter (fun x => !hit x),
               migq := y.migq ++ again.map fun x => (x.1, x.2, tier x) }) v

/-- The translations that an XLINV covers, of those that accesses have used since they were last dropped (R373, R422). -/
def Device.covered (v : Device) (x : XlScope) : List Cached := v.leavesUsed.filter fun c => x.covers v c

/-- The page that holds an address, as XLINV.page covers it (R373): at the level of its leaf; where no leaf maps it, of the leaf
that accesses have used, or of a pinned page. -/
def Device.xlPage (v : Device) (ctx : BitVec 12) (va : Addr) : XlScope :=
  .page ctx va (match v.walk ctx va with
    | .ok (lvl, _) => lvl
    | .error _ =>
      match v.leavesUsed.find? fun c => c.hits ctx va with
      | some c => c.lvl
      | none => match v.pins.find? fun p => p.1 == ctx && p.2.2.1 == va.toNat / 2 ^ levelShift p.2.1 with | some p => p.2.1 | none => 5)

/-- A cached non-leaf entry is covered. -/
def XlScope.coversNode (x : XlScope) (v : Device) (c : CachedNode) : Bool :=
  match x with
  | .page ctx va _ => c.hits ctx va
  | .context k => c.ctx == k
  | .part p => v.ctxOwner c.ctx == some p

/-- Every cached entry that an XLINV covers is dropped (R373, R420). -/
def State.dropCached (s : State) (x : XlScope) : State :=
  let out (c : Core) : Core := { c with tlb := c.tlb.filter fun y => !x.covers s.dev y }
  { s with core := out s.core, parked := s.parked.map (fun y => (y.1, out y.2)),
           dev := { s.dev with clusters := s.dev.clusters.map fun k =>
             { k with leaves := k.leaves.filter (fun y => !x.covers s.dev y), nodes := k.nodes.filter fun y => !x.coversNode s.dev y } } }

/-- An XLINV waits while an access that a dropped entry translated is in flight (R422). -/
def State.xlinvWaits (s : State) (x : XlScope) : Bool :=
  (s.dev.covered x).any fun c =>
    s.allCores.any fun k => k.inFlight (leafPa c.lvl c.low (BitVec.ofNat 80 (c.page * 2 ^ levelShift c.lvl))) (2 ^ levelShift c.lvl)

/-- XLINV over a scope (R373, R422, R429), with its outcome in XLSTAT (R427). A page bound to a window keeps the translations that
tell its lines, for the XLINV that follows the revoke. -/
def State.xlinv (s : State) (x : XlScope) : State :=
  let used := s.dev.covered x
  let ws := x.windows s.dev
  let s := used.foldl State.dropPage (s.dropCached x)
  let s := s.updDev fun v => { v.dropPins x with leavesUsed := v.leavesUsed.filter fun c => !(x.covers v c && c.gone v) }
  let s := s.updDev fun v => v.retryDeferred fun c page => x.coversPage v c page
  s.upd fun c => { c with mon := { c.mon with xlBusy := !ws.isEmpty, xlWin := ws.foldl (fun m w => if w.toNat < m.toNat then w else m) (ws.headD 0) } }

/-- Where a partition's share of a dome begins (R21): a dome has two clusters, so at most two partitions have a share; the
one that holds its lower-numbered cluster has the bottom of the scratchpad, the other one the top (log 16). -/
def Device.shareBase (v : Device) (p d : Nat) : Nat :=
  if (v.part p).clusters.getLsbD (2 * d) then 0 else 50331648 - (v.part p).shares.getD d 0

/-- The bytes that a combine configuration takes (R345). -/
def cmbBytes (w : Word) : Nat :=
  let slots := w.toNat % 2 ^ 16
  let row := w.toNat / 2 ^ 16 % 2 ^ 10 * 64
  let k := w.toNat / 2 ^ 26 % 2 ^ 5
  slots * k * row + 256 * slots

/-- Ranges of a dome scratchpad that are taken (R21): launches' allocations, combine buffers, windows. -/
def Device.takenIn (v : Device) (d : Nat) : List (Nat × Nat) :=
  (v.entries.filterMap fun e => match e.dome with
    | some (k, b) => if k = d then some (b, recDomeBytes e.record) else none
    | none => none)
  ++ (v.combines.filterMap fun c => if c.dome = d then some (c.off, cmbBytes c.word) else none)
  ++ ((v.dome d).windows.map fun w => (w.off, w.pages * 65536))

/-- Two ranges overlap. -/
def overlaps (a n b m : Nat) : Bool := decide (a < b + m) && decide (b < a + n) && n != 0 && m != 0

/-- The fields of a window descriptor (R428): VA, context, pages, D offset. -/
def windowFields (bs : List Byte) : Addr × BitVec 12 × Nat × Nat :=
  (BitVec.ofNat 80 (fieldAt bs 0 10), BitVec.ofNat 12 (fieldAt bs 0xA 2), fieldAt bs 0xC 4, fieldAt bs 0x10 8)

/-- The page PAs of a range that is mapped with R and W (R428), each with its leaf. -/
def Device.windowPas (v : Device) (ctx : BitVec 12) (va : Addr) (pages : Nat) : Option (List (Nat × Nat)) :=
  (List.range pages).mapM fun k =>
    let a := va + BitVec.ofNat 80 (65536 * k)
    match v.walk ctx a with
    | .ok (lvl, e) => if pteR e && pteW e then some (leafPa lvl e a, e) else none
    | .error _ => none

/-- A window descriptor keeps its limits (R428). The D offset counts within the partition's share. -/
def Device.windowFits (v : Device) (p d : Nat) (bs : List Byte) : Bool :=
  let (va, ctx, pages, off) := windowFields bs
  let base := v.shareBase p d + off
  va.toNat % 65536 == 0 && decide (fieldAt bs 0xA 2 < 4096) && decide (1 ≤ pages) && decide (pages ≤ 768) && off % 65536 == 0 && zeroAt bs 0x18 8
    && v.ctxOwner ctx == some p && decide (off + pages * 65536 ≤ (v.part p).shares.getD d 0)
    && !((v.takenIn d).any fun r => overlaps base (pages * 65536) r.1 r.2)

/-- A valid window descriptor, with the recorded PAs (R428). -/
def Device.windowOfDesc (v : Device) (p d win : Nat) (bs : List Byte) : Option Window :=
  let (va, ctx, pages, off) := windowFields bs
  if !v.windowFits p d bs then none
  else (v.windowPas ctx va pages).map fun pas =>
    { win := BitVec.ofNat 6 win, ctx := ctx, va := va, pages := pages, off := v.shareBase p d + off, pas := pas.map Prod.fst, lows := pas.map Prod.snd }

/-- The walks of a descriptor's pages up to the first that is not mapped, where a malformed entry is logged (R416). -/
def State.windowWalks (s : State) (d : Nat) (bs : List Byte) : State :=
  let (va, ctx, pages, _) := windowFields bs
  if !s.dev.windowFits s.partition d bs then s
  else
    let a (k : Nat) : Addr := va + BitVec.ofNat 80 (65536 * k)
    match (List.range pages).find? fun k => match s.dev.walk ctx (a k) with | .ok _ => false | .error _ => true with
    | some k => s.logWalk ctx (a k)
    | none => s

/-- Set the outcome of a window command (R427). -/
def Core.dwOutcome (c : Core) (win st : Nat) : Core :=
  { c with mon := { c.mon with dwWin := BitVec.ofNat 6 win, dwStat := BitVec.ofNat 2 st } }

/-- The 32 leaves of the group of a base page (R417): entry addresses and low quadwords. -/
def Device.groupOf (v : Device) (c : BitVec 12) (va : Addr) : List (Nat × Nat) := groupEntries v.mem (v.path c va) va.toNat

/-- The data key and the MAC key of a key id (R441, R454). -/
def Device.keysOf (v : Device) (key : Byte) : BitVec 128 × BitVec 128 :=
  match v.keyData.find? fun x => x.1 == key with | some x => x.2 | none => (0, 0)

/-- The MAC of the 64-byte line at `a` under a key id (R441): of the line's PA and its stored bytes, which are encrypted. -/
def Device.lineMac (v : Device) (key : Byte) (a : Nat) : BitVec 64 :=
  Config.sm4Mac (v.keysOf key).2 (bytesOfNat 8 a ++ Config.sm4Line (v.keysOf key).1 a (v.lineBytes a))

/-- The XOR of the MACs of the 1,024 lines of a page as they stand (R441). -/
def Device.macsOf (v : Device) (key : Byte) (page : Nat) : BitVec 64 :=
  (List.range 1024).foldl (fun t k => t ^^^ v.lineMac key (page + 64 * k)) 0

/-- The difference between the held integrity tag of a page and the XOR of its lines' MACs (R441; log 99). A write of a line XORs its
old and its new MAC into the tag, and so keeps the difference. -/
def Device.tagDiff (v : Device) (page : Nat) : BitVec 64 := match v.tags.find? fun x => x.1 == page with | some x => x.2 | none => 0

/-- The integrity tag of a page, held in protected memory (R441). -/
def Device.heldTag (v : Device) (key : Byte) (page : Nat) : BitVec 64 := v.macsOf key page ^^^ v.tagDiff page

/-- An address in the 64 KiB at `old` moves to `new`. -/
def moveAddr (old new a : Nat) : Nat := if old ≤ a ∧ a < old + 65536 then new + (a - old) else a

/-- The part of a store in the 64 KiB at `old` as it stands at `new`. -/
def GStore.moved (x : GStore) (old new : Nat) : List GStore := (x.inside old 65536).map fun y => { y with addr := moveAddr old new y.addr }

/-- The part of a store in the 64 KiB at `old` moves to `new`. -/
def GStore.move (x : GStore) (old new : Nat) : List GStore :=
  if x.meets old 65536 then x.outside old 65536 ++ x.moved old new else [x]

/-- What a core knows of the 64 KiB at `old` goes on at `new` (R425): a line keeps its scope and its owner, a store its place in
coherence order and its publication. What it knew of `new` is gone. -/
def Core.moveFrame (c : Core) (old new : Nat) : Core :=
  let at_ (r : Nat × Nat) : Nat × Nat := (moveAddr old new r.1, r.2)
  let in_ (a : Nat) : Bool := decide (new ≤ a) && decide (a < new + 65536)
  { c with dirty := (c.dirty.flatMap fun x => x.outside new 65536).flatMap (fun x => x.move old new)
           raced := (c.raced.filter fun r => !in_ r.1).map at_
           part := c.part.map (fun p => (p.1, at_ p.2)), bufs := c.bufs.map (fun b => (moveAddr old new b.1, b.2)),
           tokens := c.tokens.map (fun t => { t with ranges := t.ranges.map at_ }),
           l1 := ((c.l1.filter fun l => !in_ (128 * l.1)).map fun l => (moveAddr old new (128 * l.1) / 128, l.2)).filter fun l => !inWindow (128 * l.1) }

/-- A page's contents come from one frame to another (R424, R425, R428), with the poison marks and check values of its lines, in
place of what stood there. `leave` keeps them at the old frame too. -/
def State.moveFrame (s : State) (old new : Nat) (leave : Bool) : State :=
  let in_ (a : Nat) : Bool := decide (new ≤ a) && decide (a < new + 65536)
  let both {α : Type} (l : List α) (f : α → α) : List α := (if leave then l else []) ++ l.map f
  (s.mapCores fun c => c.moveFrame old new).updDev fun v =>
    let hist := v.hist.flatMap fun x => x.outside new 65536
    let here (a : Nat) : Bool := decide (old ≤ a) && decide (a < old + 65536)
    { v with mem := memCopy v.mem new v.mem old 65536
             base := if v.hist.isEmpty then v.base else memCopy v.base new v.base old 65536
             hist := hist.flatMap fun x => (if leave then [x] ++ x.moved old new else x.move old new)
             checks := (v.checks.filter fun x => !here x.1 && !in_ x.1) ++ both (v.checks.filter fun x => here x.1) fun x => (moveAddr old new x.1, x.2)
             poison := (v.poison.filter fun q => !(q.1 == .phys && (here q.2.1 || in_ q.2.1))) ++
               both (v.poison.filter fun q => q.1 == .phys && here q.2.1) fun q => (q.1, moveAddr old new q.2.1, q.2.2)
             domes := v.domes.map fun d =>
               { d with l2 := ((d.l2.filter fun l => !in_ (128 * l.1)).map fun l => (moveAddr old new (128 * l.1) / 128, l.2)).filter fun l => !inWindow (128 * l.1) } }

/-- The cached translations of a frame in a context are dropped (R424). -/
def State.dropFrame (s : State) (c : BitVec 12) (old : Nat) : State :=
  let keep (k : Cached) : Bool := !(k.ctx == c && ptePA k.low == old)
  let s := { s with core := { s.core with tlb := s.core.tlb.filter keep }, parked := s.parked.map fun (y : Agent × Core) => (y.1, { y.2 with tlb := y.2.tlb.filter keep }) }
  s.updDev fun v => { v with clusters := v.clusters.map fun k => { k with leaves := k.leaves.filter keep } }

/-- A leaf with the frame at `new` (R424). -/
def withFrame (e new : Nat) : Nat := e % 2 ^ 28 + new / 65536 * 2 ^ 28

/-- Move the pages of a unit to `pa` and up (R424, R441): contents and leaves; the integrity tags are rebuilt, and what tells the
lines of the page follows them. -/
def State.moveUnit (s : State) (c : BitVec 12) (unit : List (Nat × Nat)) (pa : Nat) : State :=
  (unit.zip (List.range unit.length)).foldl (fun s x =>
    let e := x.1.2
    let old := ptePA e
    let new := pa + 65536 * x.2
    ((s.moveFrame old new false).updDev fun v =>
      { v.publish x.1.1 (bytesOfNat 8 (withFrame e new)) with
        tags := v.tags.filter fun t => t.1 != old && t.1 != new
        leavesUsed := v.leavesUsed.map fun k => if k.ctx == c && ptePA k.low == old then { k with low := withFrame k.low new } else k }).dropFrame c old) s

/-- The pages of a window with their places in it (R428). -/
def Window.frames (w : Window) (d : Nat) : List (Nat × Nat) := w.pas.zip ((List.range w.pages).map fun k => windowPa d (w.off + 65536 * k))

/-- DWIN bind (R428): the pages' contents come into the window under R425, and every access to the range is performed there from now
on. The contents stay at the PAs for whoever reaches those another way. -/
def State.bindWindow (s : State) (win : Nat) : State :=
  let d := s.focus.dome
  if (s.dev.dome d).windows.any fun w => w.win.toNat == win then s.upd fun c => c.dwOutcome win 1
  else
    let va := s.core.mon.dwdesc
    match (if va.toNat % 32 = 0 then s.readG .load va.toNat 32 else .error (ALIGN, 0)) with
    | .error _ => s.upd fun c => c.dwOutcome win 2
    | .ok bs =>
      match s.dev.windowOfDesc s.partition d win bs with
      | none => (s.windowWalks d bs).upd fun c => c.dwOutcome win 2
      | some w =>
        let s := (w.frames d).foldl (fun s f => s.moveFrame f.1 f.2 true) s
        (s.updDev fun v => v.updDome d fun x => { x with windows := x.windows ++ [w] }).upd fun c => c.dwOutcome win 0

/-- What a window held is gone from its places. -/
def Device.clearFrame (v : Device) (pa : Nat) : Device := { v with mem := cellsOut v.mem pa 65536, base := cellsOut v.base pa 65536 }

/-- A window's contents return to the recorded PAs, under R425, and the binding ends (R428). -/
def State.unbind (s : State) (d : Nat) (w : Window) : State :=
  let s := (w.frames d).foldl (fun s f => (s.moveFrame f.2 f.1 false).updDev fun v => v.clearFrame f.2) s
  s.updDev fun v => v.updDome d fun x => { x with windows := x.windows.filter fun y => !(y.win == w.win) }

/-- DWIN revoke (R428). -/
def State.revokeWindow (s : State) (win : Nat) : State :=
  let d := s.focus.dome
  match (s.dev.dome d).windows.find? fun w => w.win.toNat == win with
  | none => s.upd fun c => c.dwOutcome win 1
  | some w => (s.unbind d w).upd fun c => c.dwOutcome win 0

/-- A window command waits for the accesses to its range that are in flight (R428): `op` 1 binds, 2 revokes. -/
def State.dwinWaits (s : State) (op win : Nat) : Bool :=
  let d := s.focus.dome
  match (s.dev.dome d).windows.find? fun w => w.win.toNat == win with
  | some w => op == 2 && (w.frames d).any fun f => s.frameBusy f.2
  | none =>
    let va := s.core.mon.dwdesc
    op == 1 && va.toNat % 32 == 0 && (match s.readG .load va.toNat 32 with
      | .error _ => false
      | .ok bs => match s.dev.windowOfDesc s.partition d win bs with | some w => w.pas.any s.frameBusy | none => false)

/-- A window command (R427, R428). -/
def State.dwinCommand (s : State) (op win : Nat) : State :=
  if op = 1 then s.bindWindow win else if op = 2 then s.revokeWindow win else s

/-- DWIN_BIND: the window command of the focused core's DWIN register binds, once it need not wait (R428). -/
def execDwinBind (s : State) : Host.Outcome State Fault Refusal :=
  .next (if s.dwinWaits 1 s.ev.win.toNat then s else s.dwinCommand 1 s.ev.win.toNat)

/-- DWIN_REVOKE: the window of the event is revoked, once the command need not wait (R428). -/
def execDwinRevoke (s : State) : Host.Outcome State Fault Refusal :=
  .next (if s.dwinWaits 2 s.ev.win.toNat then s else s.dwinCommand 2 s.ev.win.toNat)

/-- MIGRATE_PAGE (R423 to R426): the engine of a context's dome reaches a page. The event names the
context, the page, the free physical address of the other tier, and in `ok` whether the leaf is still the one
the engine read; it is not where a change has reached its coherence point. A requested page that may not move is dropped and logged; a pinned or bound one is
deferred. While an access that used the old entry is in flight, the move waits (R424); an aborted one has dropped the cached
translations of the page too. -/
def execMigratePage (s : State) : Host.Outcome State Fault Refusal :=
  let c := s.ev.ctx
  let va : Addr := BitVec.ofNat 80 (s.ev.va.toNat / 65536 * 65536)
  let v := s.dev
  let d := v.ctxDome c
  let mine (x : BitVec 12 × Addr × Nat) : Bool := x.1 == c && x.2.1.toNat / 65536 == va.toNat / 65536
  let asked := (v.dome d).migq.any mine
  let v1 := v.updDome d fun y => { y with migq := y.migq.filter fun x => !mine x }
  let drop : State := { s with dev := if asked then v1.logMig 0x0031 c va else v }
  .next (match v.leafEntry c va, v.walk c va with
    | some at_, .ok (5, e) =>
      if pteTier e ≠ 2 ∨ pteMH e = 3 then drop
      else
        let unit : Option (List (Nat × Nat)) :=
          if pteCG e then (if groupOk (v.groupOf c va) then some (v.groupOf c va) else none) else some [(at_, e)]
        match unit with
        | none => drop
        | some u =>
          let lo : Addr := if pteCG e then BitVec.ofNat 80 (va.toNat / 2 ^ 21 * 2 ^ 21) else va
          let stuck := (List.range u.length).any fun k =>
            let a := lo + BitVec.ofNat 80 (65536 * k)
            v.pinned c a (u.getD k (0, 0)).2
          let size := 65536 * u.length
          let pa := s.ev.addr
          let image := v.images.find? fun x => x.1 == c && x.2.1 == va.toNat / 2 ^ 21
          let domeOk := match image with
            | some (_, _, k) => tierOf pa != 0 || !pteMI e || pa / 0xC00000000 == k
            | none => true
          let goodPa := pa % size == 0 && tierOf pa == 1 - tierOf (ptePA e) && tierOf (ptePA e) ≤ 1 &&
            (match physRange pa with | some (_, hi) => decide (pa + size ≤ hi) | none => false)
          if stuck then { s with dev := v1.deferMove c va }
          else if !goodPa || !domeOk then s
          else if u.any (fun x => s.frameBusy (ptePA x.2)) then s
          else if !s.ev.ok || u.any (fun x => v.pointRead64 x.1 != x.2 % 2 ^ 64) then u.foldl (fun s x => s.dropFrame c (ptePA x.2)) { s with dev := v1.logMig 0x0032 c va }
          else { s with dev := v1 }.moveUnit c u pa
    | _, _ => { drop with dev := drop.dev.logWalk d 2 0 ((v.ctxOwner c).getD 0xFF) c va })

end Sys2Proof.Machine
end

