-- ==== Sys2Proof/Machine/Spr.lean ====
section
/-! DEFINITION. Special registers: RDSR, WRSR, PRDSR and PWRSR (R172, R173, R187 to R191, R218, R363 to R365,
R372, R374, R383, R384, R395 to R397, R427). -/

namespace Sys2Proof.Machine

/-- CLIPMASK word of a tile (R172). -/
def MatCtx.clip (m : MatCtx) (t : BitVec 2) : Word := (m.tiles[t.toNat]'t.isLt).data.clip

/-- Write a CLIPMASK word. -/
def MatCtx.setClip (m : MatCtx) (t : BitVec 2) (w : Word) : MatCtx :=
  let x := m.tiles[t.toNat]'t.isLt
  { m with tiles := m.tiles.set t.toNat { x with data := { x.data with clip := w } } t.isLt }

/-- The value that RDSR reads of a task special register (R172). -/
def Core.readSpr (c : Core) (n : Nat) (sel : BitVec 2) : Addr :=
  let w (x : Word) : Addr := x.setWidth 80
  let ti (f : TaskInfo → Addr) : Addr := match c.task with | some t => f t | none => 0
  match n with
  | 0x001 => ti fun t => t.gx.setWidth 80
  | 0x002 => ti fun t => t.gy.setWidth 80
  | 0x003 => ti fun t => t.gz.setWidth 80
  | 0x004 => ti fun t => t.cidx.setWidth 80
  | 0x005 => ti fun t => t.gsize.setWidth 80
  | 0x006 => ti fun t => t.cx.setWidth 80
  | 0x007 => ti fun t => t.cy.setWidth 80
  | 0x008 => ti fun t => t.cz.setWidth 80
  | 0x010 => ti fun t => t.param
  | 0x011 => ti fun t => w t.seed
  | 0x012 => w c.tflags
  | 0x020 => c.sticky.setWidth 80
  | 0x021 => w (c.mat.clip sel)
  | 0x022 => w c.mat.ckstat
  | 0x023 => w c.mat.ckloc
  | 0x024 => w c.fmt.cur
  | 0x030 => w c.tcause
  | 0x031 => c.tpc.setWidth 80
  | 0x032 => w c.tinfo
  | 0x033 => c.thandler.setWidth 80
  | 0x040 => if c.mer then BitVec.ofNat 80 (c.tau % 2 ^ 64) else w c.cycle
  | 0x041 => c.burstcnt.setWidth 80
  | _ => 0

/-- The effect of WRSR on a task special register (R173, R187, R190, R218); TCAUSE and TINFO are written by
PWRSR only (R372). -/
def Core.writeSpr (c : Core) (n : Nat) (sel : BitVec 2) (v : Word) : Core :=
  match n with
  | 0x012 => c.put 1 (.tflags v)
  | 0x020 => { c with sticky := v.setWidth 11 ||| c.flagsNow }
  | 0x021 => { c with mat := c.mat.setClip sel v }
  | 0x031 => { c with tpc := v.setWidth 32 }
  | 0x033 => { c with thandler := v.setWidth 32 &&& 0xBFFFFFFF }
  | 0x030 => { c with tcause := v &&& 0x7FF }
  | 0x032 => { c with tinfo := v }
  | _ => c

/-- Privileged special registers of a core (R363, R427): whether PWRSR may write each. -/
def coreSpr (n : Nat) : Option Bool :=
  if n == 0x802 || (0x804 ≤ n && n ≤ 0x80B) || n == 0x810 || n == 0x811 || (0x820 ≤ n && n ≤ 0x82F) || n == 0x861 || n == 0x862 then some true
  else if n == 0x800 || n == 0x801 || n == 0x803 || n == 0x80C || n == 0x812 || n == 0x860 then some false
  else none

/-- Privileged special registers of a queue processor (R395, R427). -/
def qpSpr (n : Nat) : Option Bool :=
  if n == 0x841 || (0x850 ≤ n && n ≤ 0x857) then some true
  else if n == 0x840 || n == 0x842 || n == 0x843 || n == 0x860 then some false
  else none

/-- The task registers that a queue processor has: TFLAGS, STICKY and CYCLE (R397). -/
def qpReads (n : BitVec 12) : Bool := n == 0x012 || n == 0x020 || n == 0x040

/-- The trap code by which the unit refuses a special-register access: the number, its access right, or a
PARAM read into a scalar register (R172, R363, R372, R395, R397). -/
def State.sprRefuses (s : State) (i : Instr) : Option Nat :=
  let low (o : SS) (wr p : Bool) : Option Nat :=
    if s.isQp && !qpReads o.spr then none
    else
      match sprWritable o.spr.toNat with
      | none => some ILLOP
      | some w =>
        if wr then (if w || (p && (o.spr == 0x030 || o.spr == 0x032)) then none else some ILLOP)
        else if o.spr == 0x010 && !o.isA then some ILLOP else none
  let high (o : SS) (wr : Bool) : Option Nat :=
    match (if s.isQp then qpSpr o.spr.toNat else coreSpr o.spr.toNat) with
    | none => some ILLOP
    | some w => if wr && !w then some ILLOP else none
  match i with
  | .rdsr o => if o.spr.toNat ≥ 0x800 then some (if s.isQp || s.core.mon.mode then ILLOP else PRIV) else low o false false
  | .wrsr o => if o.spr.toNat ≥ 0x800 then some (if s.isQp || s.core.mon.mode then ILLOP else PRIV) else low o true false
  | .prdsr o => if o.spr.toNat ≥ 0x800 then high o false else low o false true
  | .pwrsr o => if o.spr.toNat ≥ 0x800 then high o true else low o true true
  | _ => none

/-- What a read of a task register number returns on the unit in focus: a queue processor reads STICKY,
CYCLE and TFLAGS, and zero for every other number (R397). -/
def State.readLow (s : State) (o : SS) : Addr :=
  if s.isQp && !qpReads o.spr then 0 else s.core.readSpr o.spr.toNat o.sel

/-- Write a value read from a special register to the register that the form names, with latency 1 (R218). -/
def State.sprResult (s : State) (o : SS) (v : Addr) : State :=
  if o.isA then s.wA 1 o.d v else s.wS 1 o.d (v.setWidth 64)

/-- The source of a special-register write. -/
def State.sprSource (s : State) (o : SS) : Addr := if o.isA then s.core.areg5 o.d else (s.core.sreg o.d).setWidth 80

/-- RDSR (R172, R218). -/
def execRdsr (o : SS) (s : State) : Host.Outcome State Fault Refusal :=
  .next (match s.sprRefuses (.rdsr o) with
    | some code => s.trapOp code (.rdsr o)
    | none => if s.core.active o.g then s.sprResult o (s.readLow o) else s)

/-- WRSR (R172, R218). -/
def execWrsr (o : SS) (s : State) : Host.Outcome State Fault Refusal :=
  .next (match s.sprRefuses (.wrsr o) with
    | some code => s.trapOp code (.wrsr o)
    | none =>
      if s.core.active o.g && (!s.isQp || qpReads o.spr) then s.upd fun c => c.writeSpr o.spr.toNat o.sel ((s.sprSource o).setWidth 64) else s)

/-- MSTATUS (R364). -/
def Mon.mstatus (m : Mon) : Nat :=
  (if m.mode then 1 else 0) + (if m.tvalid then 2 else 0) + (if m.saved then 4 else 0) + (if m.thnd then 8 else 0)

/-- SEGSTAT (R374). -/
def Core.segstat (c : Core) : Nat :=
  (match c.seg with | some g => 1 + g.tries % 4 * 2 | none => 0) + c.rewinds.toNat * 2 ^ 16 + c.rdvseq.toNat * 2 ^ 32

/-- QPSTAT (R396). -/
def State.qpstat (s : State) : Nat :=
  let m := s.core.mon
  (if m.active then 1 else 0) + (if m.take then 2 else 0) + s.focus.dome * 4 + m.parts.toNat * 2 ^ 4 + (s.dev.dome s.focus.dome).tkcnt.toNat * 2 ^ 12

/-- The value that PRDSR reads of a privileged register (R363, R395, R427). -/
def State.readHigh (s : State) (n : Nat) : Addr :=
  let m := s.core.mon
  let w (x : Word) : Addr := x.setWidth 80
  match n with
  | 0x800 => BitVec.ofNat 80 m.mstatus
  | 0x801 => w m.mcause
  | 0x802 => m.mtpc.setWidth 80
  | 0x803 => w m.minfo
  | 0x804 => m.mvec.setWidth 80
  | 0x805 => m.mcode
  | 0x806 => m.csave
  | 0x807 => w m.troute
  | 0x808 => w m.mscr[0]
  | 0x809 => w m.mscr[1]
  | 0x80A => w m.mscr[2]
  | 0x80B => w m.mscr[3]
  | 0x80C => if m.tvalid then m.mhtab else 0
  | 0x810 => m.lcal.setWidth 80
  | 0x811 => m.calper.setWidth 80
  | 0x812 => BitVec.ofNat 80 s.core.segstat
  | 0x840 => BitVec.ofNat 80 s.qpstat
  | 0x841 => w m.qhb
  | 0x842 => (s.dev.dome s.focus.dome).qjbase
  | 0x843 => BitVec.ofNat 80 ((s.dev.dome s.focus.dome).qjseq % 2 ^ 64)
  | 0x860 => BitVec.ofNat 80 ((if m.xlBusy then 1 else 0) + m.xlWin.toNat * 2 ^ 8)
  | 0x861 => BitVec.ofNat 80 (m.dwWin.toNat + m.dwStat.toNat * 2 ^ 8)
  | 0x862 => m.dwdesc
  | n =>
    if 0x820 ≤ n ∧ n ≤ 0x827 then w (m.bpc[n % 8]'(Nat.mod_lt _ (by decide)))
    else if 0x828 ≤ n ∧ n ≤ 0x82B then m.wpa[n % 4]'(Nat.mod_lt _ (by decide))
    else if 0x82C ≤ n ∧ n ≤ 0x82F then w (m.wpc[n % 4]'(Nat.mod_lt _ (by decide)))
    else if 0x850 ≤ n ∧ n ≤ 0x857 then m.pstbl[n % 8]'(Nat.mod_lt _ (by decide))
    else 0

/-- PRDSR (R372). -/
def execPrdsr (o : SS) (s : State) : Host.Outcome State Fault Refusal :=
  s.ifAllowed (.prdsr o) fun s =>
    match s.sprRefuses (.prdsr o) with
    | some code => s.trapOp code (.prdsr o)
    | none => s.sprResult o (if o.spr.toNat ≥ 0x800 then s.readHigh o.spr.toNat else s.readLow o)

/-- A heartbeat of the focused queue processor (R395, R408). -/
def Core.heartbeat (c : Core) : Core := { c with mon := { c.mon with qhb := c.mon.qhb + 1, qhbAt := c.wall } }

/-- The position at which a checkpointed task resumes follows MTPC. -/
def Core.setMtpc (c : Core) (v : BitVec 32) : Core := { c with mon := { c.mon with mtpc := v } }

/-- The illegal field values of BPC (R383): SLOT 6 and 7; reserved bits do not write. -/
def bpcIllegal (v : Word) : Bool := v.toNat / 2 ^ 32 % 8 ≥ 6
/-- The illegal field values of WPC (R384). -/
def wpcIllegal (v : Word) : Bool := v.toNat / 4 % 64 < 6 || v.toNat / 4 % 64 > 32
/-- The writable bits of BPC (R383) and WPC (R384). -/
def bpcMask : Word := 0xFFFFFF0FFFFFFFFF
def wpcMask : Word := 0xFF

/-- Where the code of a NATV section at `va` lies, from its 64-byte header (R182). -/
def codeOf (va : Addr) (h : List Byte) : CodeSrc :=
  { valid := true, dict := va + BitVec.ofNat 80 (fieldAt h 8 8), dlen := fieldAt h 4 4,
    code := va + BitVec.ofNat 80 (fieldAt h 0x10 8), clen := fieldAt h 0x18 4 }

/-- The effect of PWRSR on a privileged register (R363, R372, R383, R384, R395, R427). `x` is the 80-bit
source, `v` its low 64 bits. -/
def State.writeHigh (s : State) (n : Nat) (x : Addr) : State :=
  let v : Word := x.setWidth 64
  let mon (f : Mon → Mon) : State := s.upd fun c => { c with mon := f c.mon }
  match n with
  | 0x802 => s.upd fun c => c.setMtpc (v.setWidth 32)
  | 0x804 => mon fun m => { m with mvec := v.setWidth 32 }
  | 0x805 => mon fun m => { m with mcode := x }
  | 0x806 => mon fun m => { m with csave := x }
  | 0x807 => mon fun m => { m with troute := v &&& trouteMask }
  | 0x810 => mon fun m => { m with lcal := v.setWidth 32 }
  | 0x811 => mon fun m => { m with calper := v.setWidth 32 }
  | 0x841 => s.upd Core.heartbeat
  | 0x861 =>
    let op := v.toNat / 64 % 4
    if s.dwinWaits op (v.toNat % 64) then s.wait
    else (s.upd fun c => { c with mon := { c.mon with dwWin := v.setWidth 6 } }).dwinCommand op (v.toNat % 64)
  | 0x862 => mon fun m => { m with dwdesc := x }
  | n =>
    if 0x808 ≤ n ∧ n ≤ 0x80B then mon fun m => { m with mscr := m.mscr.set (n % 4) v (Nat.mod_lt _ (by decide)) }
    else if 0x820 ≤ n ∧ n ≤ 0x827 then mon fun m => { m with bpc := m.bpc.set (n % 8) (v &&& bpcMask) (Nat.mod_lt _ (by decide)) }
    else if 0x828 ≤ n ∧ n ≤ 0x82B then mon fun m => { m with wpa := m.wpa.set (n % 4) x (Nat.mod_lt _ (by decide)) }
    else if 0x82C ≤ n ∧ n ≤ 0x82F then mon fun m => { m with wpc := m.wpc.set (n % 4) (v &&& wpcMask) (Nat.mod_lt _ (by decide)) }
    else if 0x850 ≤ n ∧ n ≤ 0x857 then mon fun m => { m with pstbl := m.pstbl.set (n % 8) x (Nat.mod_lt _ (by decide)) }
    else s

/-- A value that PWRSR may not write to a register: it raises ILLOP and changes nothing (R372, R427). -/
def sprValueIllegal (n : Nat) (v : Word) : Bool :=
  if 0x820 ≤ n ∧ n ≤ 0x827 then bpcIllegal v
  else if 0x82C ≤ n ∧ n ≤ 0x82F then wpcIllegal v
  else n == 0x861 && v.toNat / 64 % 4 == 3

/-- PWRSR (R372): below 0x800 as WRSR would, TCAUSE and TINFO included. -/
def execPwrsr (o : SS) (s : State) : Host.Outcome State Fault Refusal :=
  s.ifAllowed (.pwrsr o) fun s =>
    match s.sprRefuses (.pwrsr o) with
    | some code => s.trapOp code (.pwrsr o)
    | none =>
      let x := s.sprSource o
      if o.spr.toNat ≥ 0x800 then
        (if sprValueIllegal o.spr.toNat (x.setWidth 64) then s.trapOp ILLOP (.pwrsr o) else s.writeHigh o.spr.toNat x)
      else if s.isQp && !qpReads o.spr then s
      else s.upd fun c => c.writeSpr o.spr.toNat o.sel (x.setWidth 64)

/-- QHB_WRITE: a write to QHB marks a heartbeat (R395). It concerns a queue processor only. -/
def execQhbWrite (s : State) : Host.Outcome State Fault Refusal :=
  .next (if s.isQp then s.upd Core.heartbeat else s)

end Sys2Proof.Machine
end

