-- ==== Sys2Proof/Machine/Segment.lean ====
section
/-! DEFINITION. Static schedule segments: opening, the store buffer, consuming uncorrectable errors, rewind
(R71, R314, R374 to R377); outstanding operations and their results (R154). -/

namespace Sys2Proof.Machine

/-- The entry state of a segment (R375). -/
def Core.segSave (c : Core) : SegSave :=
  { s := c.s, a := c.a, staint := c.staint, ataint := c.ataint, pstack := c.pstack, sticky := c.sticky, tflags := c.tflags,
    fmt := c.fmt, bounds := c.bounds, shapes := c.shapes, tol := c.tol, nest := c.nest, replay := c.replay, phint := c.phint,
    rdvseq := c.rdvseq, sig := c.sig }

/-- A bundle with `seg` opens a segment whose entry it is; after a rewind it goes on with the open one
(R375, R376). -/
def Core.openSeg (c : Core) : Core :=
  let fresh : Segment :=
    { entry := c.pos, tries := 0, save := c.segSave, stores := [], journal := [], words := [], epochs := 0, again := 0,
      tilesW := 0, feederMoved := false, seen := [], pre := c.outst.length, tau0 := c.tau, redo := false }
  match c.seg with
  | some g => if g.redo then { c with seg := some { g with redo := false } } else { c with seg := some fresh }
  | none => { c with seg := some fresh }

/-- A segment can be rewound: every tile written in it has its epoch from the entry bundle alone, and the
feeder moved only with such an epoch (R376). -/
def Segment.rewindable (g : Segment) : Bool :=
  (g.tilesW &&& ~~~(g.epochs &&& ~~~g.again) == 0) && (!g.feederMoved || g.epochs != 0)

/-- Restore the tiles written in the segment, and the feeder, from the epochs of its entry bundle (R376). -/
def MatCtx.rewindTiles (m : MatCtx) (g : Segment) : MatCtx :=
  let back (k : Fin 4) (t : Tile) : Tile :=
    if g.tilesW.getLsbD k.val then (match t.epoch with | some e => { t with data := e.data } | none => t) else t
  let fd := (List.range 4).findSome? fun k =>
    if h : k < 4 then (if g.epochs.getLsbD k then (m.tiles[k]).epoch.map Epoch.feeder else none) else none
  { m with tiles := Vector.ofFn fun k => back k m.tiles[k]
           feeder := if g.feederMoved then fd.getD m.feeder else m.feeder }

/-- The entry state comes back, and every effect of the bundles issued since the entry is gone (R376). -/
def Core.undo (c : Core) (g : Segment) : Core :=
  let v := g.journal.foldl (fun v e => v.set e.1.toNat e.2 e.1.isLt) c.v
  let m := if g.rewindable then c.mat.rewindTiles g else c.mat
  { c with
    s := g.save.s, a := g.save.a, staint := g.save.staint, ataint := g.save.ataint, pstack := g.save.pstack,
    sticky := g.save.sticky, tflags := g.save.tflags, fmt := g.save.fmt, bounds := g.save.bounds, shapes := g.save.shapes,
    tol := g.save.tol, nest := g.save.nest, replay := g.save.replay, phint := g.save.phint, rdvseq := g.save.rdvseq,
    sig := g.save.sig, v := v, rbq := g.words ++ c.rbq, results := [], outst := c.outst.take g.pre,
    boundDue := c.boundDue.filter fun b => b.1 < issueKey g.tau0 0,
    mat := { m with beats := m.beats.filter fun b => c.tau + b.left < g.tau0 + 8 },
    pos := g.entry, pnext := none, pwr := none, target := none, late := false }

/-- The row of R376's table that a source falls under, as the log's payload (R438). -/
def BadSource.row : BadSource → Nat
  | .regS => 0
  | .regVWritten => 1
  | .regVOld => 2
  | .l1Clean _ => 3
  | .l1Dirty _ => 4
  | .memory _ _ => 5
  | .parity => 6

/-- The trap of a source that no rewind repairs (R376). -/
def BadSource.code : BadSource → Nat
  | .l1Dirty _ => POISON
  | .memory _ _ => POISON
  | _ => SEGRW

/-- How the list of poisoned places names a place of the unit in focus: its task's scratchpad and lane-private memory go by
the task's slot, the latter from 2^20 on. -/
def State.markAt (s : State) (p : Place × Nat) : Place × Nat :=
  match s.core.task, p.1 with
  | some t, .own => (.spad t.part t.slot, p.2)
  | some t, .lane => (.spad t.part t.slot, 0x100000 + p.2)
  | _, _ => p

/-- The first of chunks of `c` bytes with poison in it. -/
def State.poisoned (s : State) (c : Nat) (ps : List (Place × Nat)) : Option BadSource :=
  (ps.find? fun p => s.dev.poisonedAt (s.markAt p).1 (s.markAt p).2 c).map fun p => .memory p.1 p.2

/-- A rewind (R376, R377): the hold, unless the restored RDVSEQ is there already, the log, the entry bundle again. -/
def State.rewind (s : State) (g : Segment) (src : BadSource) : State :=
  let h := s.core.rdvseq
  let s := s.logEvent 0x0010 0 (BitVec.ofNat 64 g.entry) (BitVec.ofNat 64 src.row)
  let seen := match src with | .memory p x => g.seen ++ [(p, x / 64 * 64)] | _ => g.seen
  s.upd fun c =>
    { c.undo g with
      rewinds := if c.rewinds = 0xFFFF then c.rewinds else c.rewinds + 1
      hold := if g.save.rdvseq.toNat < h.toNat then some h else none
      seg := some { g with tries := g.tries + 1, stores := [], journal := [], words := [], epochs := 0, again := 0, tilesW := 0,
                           feederMoved := false, seen := seen, redo := true } }

/-- What an uncorrectable error does to where it was found (R376): a clean L1 line is invalidated, a dirty one is written back
marked poisoned. A location of memory is marked already. -/
def State.marked (s : State) (src : BadSource) : State :=
  let drop (x : Nat) (s : State) : State := s.upd fun c => { c with l1 := c.l1.filter fun y => y.1 != x / 128 }
  match src with
  | .l1Clean x => drop x s
  | .l1Dirty x => (drop x s).updDev fun v => v.markPoison .phys (x / 128 * 128) 128
  | _ => s

/-- An uncorrectable error is consumed (R376): rewind, or SEGRW or POISON. `info` is the detail of POISON
(R189). -/
def State.consume (s : State) (src : BadSource) (info : Nat) : State :=
  let s := s.marked src
  let stop (s : State) (code : Nat) : State := s.takeTrap code 6 (BitVec.ofNat 64 (if code = POISON then info else 0)) false
  match s.core.seg with
  | none => stop s src.code
  | some g =>
    let gone := s.upd fun c => { c.undo g with seg := none }
    if g.tries ≥ 2 then stop gone src.code
    else if (match src with | .memory p x => g.seen.contains (p, x / 64 * 64) | _ => false) then stop gone POISON
    else if src = .regVOld ∨ !g.rewindable then stop gone SEGRW
    else s.rewind g src

/-- An uncorrectable error is consumed by an operation before its bundle issues (R376): after a rewind the bundle has not issued
either. -/
def State.consumeHere (s : State) (src : BadSource) (info : Nat) : State :=
  let t := s.consume src info
  match t.last with
  | .trapped _ => t
  | _ => { t with last := .trapped { code := 0, slot := 7, info := 0 } }

/-- Store-buffer entries in use (R314). -/
def Segment.used (g : Segment) : Nat := g.stores.foldl (fun n h => n + h.entries) 0

/-- A store of pieces to a space (R120, R314): held while a segment is open and has room; performed at once in
private memory and in G space; in flight to a partner's scratchpad and to the dome's. A G-space store through a window
follows the stores that are still in flight to the dome. -/
def State.store (s : State) (as : Nat) (ps : List Piece) (entries : Nat) : State :=
  let s := match s.core.seg with
    | some g => if as = 2 ∨ g.used + entries > 64 then s.commitSeg else s
    | none => s
  match s.core.seg with
  | some g => s.upd fun c => { c with seg := some { g with stores := g.stores ++ [{ pieces := ps, entries := entries }] } }
  | none =>
    let far (p : Piece) : Bool := match p.place with | .spad _ _ => true | .dome _ => decide (as = 3) | _ => false
    let (away, here) := ps.partition far
    let late (p : Piece) : Bool := match p.place with | .dome _ => true | _ => false
    let s := (if here.any late then s.landAll else s).performAll here
    if away.isEmpty then s else s.upd fun c => { c with landing := c.landing ++ [{ pieces := away }] }

/-- Take the outstanding operation with an index off the list; an operation older than the open segment
counts there no more. -/
def Core.dropOutst (c : Core) (k : Nat) : Core :=
  { c with outst := c.outst.eraseIdx k
           seg := c.seg.map fun g => if k < g.pre then { g with pre := g.pre - 1 } else g }

/-- Write an interlocked result. When its operation is older than the open segment, the entry state has it
too (R375). -/
def Core.landOutst (c : Core) (k : Nat) (w : Write) : Core :=
  let old := match c.seg with | some g => decide (k < g.pre) | none => false
  let c := (match w with | .v r _ _ => if old then c else c.journalV r | _ => c).land w
  match c.seg with
  | none => c
  | some g =>
    if !old then c
    else
      match w with
      | .s r v t =>
        if r = 0 then c
        else { c with seg := some { g with save := { g.save with s := g.save.s.set r.toNat v r.isLt, staint := g.save.staint.set r.toNat t r.isLt } } }
      | .a r v t => { c with seg := some { g with save := { g.save with a := g.save.a.set r.toNat v r.isLt, ataint := g.save.ataint.set r.toNat t r.isLt } } }
      | .v r m v => { c with seg := some { g with journal := g.journal.map fun e => if e.1 == r then (e.1, mergeLanes m e.2 v) else e } }
      | _ => c

/-- Complete the outstanding operation with index `k`, writing a result. -/
def Core.finish (c : Core) (k : Nat) (w : Write) (flags : BitVec 11 := 0) : Core :=
  ((c.landOutst k w).dropOutst k).raise flags

/-- The source of an error in the L1 line that holds an address: dirty or clean (R116, R376). -/
def Core.l1Error (c : Core) (x : Nat) : BadSource := if c.l1.any fun y => y.1 == x / 128 && y.2 == 0 then .l1Dirty x else .l1Clean x

/-- The source of an error in a register file (R376): of s- and a-registers, or of vector register `v` by whether the segment has
journalled it. -/
def Core.regError (c : Core) (v : Option Nat) : BadSource :=
  match v with
  | none => .regS
  | some n => if (match c.seg with | some g => g.journal.any fun e => e.1.toNat == n | none => false) then .regVWritten else .regVOld

/-- The uncorrectable error that an event has found (R376): its source, a location of memory being marked. An error in a word of a
bank is logged BANK-UE (R431, R438); one that a read bus gives after two repetitions is marked by then. -/
def State.foundBad (s : State) : State × BadSource :=
  let x := s.ev.addr
  let bus := match s.ev.bus with | some (0, n, _) => decide (n > 2) | _ => false
  let s := s.updDev fun v => v.busError (domeOfPa x) x s.ev.bus
  let at_ (p : Place) : State × BadSource :=
    let q := s.markAt (p, x)
    let r := if p = .phys then poisonUnit x else (q.2 / 8 * 8, 8)
    let s := if p = .phys ∧ tierOf x = 0 ∧ !inWindow x then s.updDev fun v => v.log (domeOfPa x) 0x0002 2 3 0 (BitVec.ofNat 64 x) 0 s.ctx.toNat s.partition else s
    (s.updDev fun v => v.markPoison q.1 r.1 r.2, .memory p x)
  if bus then (s, .memory .phys x)
  else
    match s.ev.space with
    | 0 => (s, s.core.l1Error x)
    | 1 => at_ .own
    | 2 => at_ (.spad s.partition s.ev.slot)
    | 3 => at_ (.dome s.focus.dome)
    | 4 => at_ .lane
    | _ => at_ .phys

/-- The latency class of a G-space access (R456): by the slowest tier that its leaf allows. The classes are numbered by their rows
in R456's table (log 36). -/
def State.gClass (s : State) (va : Addr) : Nat :=
  match s.dev.walk s.ctx va with
  | .ok (_, e) => if pteTier e = 0 then 4 else if pteTier e = 3 then 6 else 5
  | .error _ => 5

/-- The class of an outstanding access (R456); a division is none. A load is classed by where the event found it. -/
def State.lateClass (s : State) (x : Outstanding) : Option Nat :=
  match x with
  | .load _ _ => some (match s.ev.space with | 1 => 0 | 2 => 1 | 3 => 2 | 4 => 0 | _ => s.gClass s.ev.va)
  | .division _ _ _ _ _ => none
  | .atomic pl _ _ _ _ _ _ _ ea _ => some (match pl with | .spad _ _ => 1 | .dome _ => 2 | .phys => s.gClass (BitVec.ofNat 80 ea) | _ => 0)
  | .queue _ _ _ _ => some 12
  | .engine e => some (match e.kind with | 1 => 7 | 2 => 7 | 7 => 8 | 3 => 9 | 4 => 9 | 5 => 10 | _ => if e.node = s.dev.node then 11 else 9)

/-- In Meridian mode an access that completes later than its declared latency is logged (R457, R438). The wait itself changes no
result. -/
def State.merLate (s : State) : State :=
  match s.core.outst[s.ev.index]? with
  | none => s
  | some x =>
    if s.core.mer && s.ev.late != 0 then
      (match s.lateClass x with | some k => s.logEvent 0x0041 0 (BitVec.ofNat 64 k) (BitVec.ofNat 64 s.ev.late) | none => s)
    else s

/-- LOAD_RETURN: the data of the load that the event names arrives (R154); data that is uncorrectable is
consumed, and the destination keeps its value (R376). An event that is not `ok` reports an error where `space` and `addr` say, for
an access at `va`; one that tells of errors on the read bus has them logged (R431). -/
def execLoadReturn (s : State) : Host.Outcome State Fault Refusal :=
  let s := s.merLate
  .next (match s.core.outst[s.ev.index]? with
    | some (.load w none) =>
      if s.ev.ok then
        (s.updDev fun v => v.busError (domeOfPa s.ev.addr) s.ev.addr (s.ev.bus.map fun b => (b.1, Nat.min b.2.1 2, b.2.2))).upd fun c => c.finish s.ev.index w
      else
        let (s, src) := s.foundBad
        (s.upd fun c => c.dropOutst s.ev.index).consume src (s.ev.va.toNat % 2 ^ 64)
    | some (.load _ (some b)) => (s.upd fun c => c.dropOutst s.ev.index).consume b.1 b.2
    | _ => s)

/-- An earlier division than operation `k` keeps the divider (R193). -/
def Core.dividing (c : Core) (k : Nat) : Bool := (c.outst.take k).any fun x => match x with | .division _ _ _ _ _ => true | _ => false

/-- DIVISION_COMPLETE: the division that the event names ends, once the divider has done those before it (R193). -/
def execDivisionComplete (s : State) : Host.Outcome State Fault Refusal :=
  .next (match s.core.outst[s.ev.index]? with
    | some (.division op x y d t) =>
      if s.core.dividing s.ev.index then s
      else
        let (q, f) := divide op x y
        s.upd fun c => c.finish s.ev.index (.s d q t) f
    | _ => s)

/-- K_STORE_LAND: the oldest store in flight to a scratchpad lands (R120, R124). -/
def execKStoreLand (s : State) : Host.Outcome State Fault Refusal :=
  .next (match s.core.landing with
    | [] => s
    | l :: rest => (s.upd fun c => { c with landing := rest }).performAll l.pieces)

end Sys2Proof.Machine
end

