-- ==== Sys2Proof/Machine/Address.lean ====
section
/-! DEFINITION. Address operations of the A slot (R197, R198). -/

namespace Sys2Proof.Machine

/-- An address result (R197): latency 1, taint passes (R127). -/
def State.addrOp (s : State) (i : Instr) (o : AForm) (v : Addr) (t : Option Taint) : Host.Outcome State Fault Refusal :=
  s.ifAllowedG i o.g fun s => s.wA 1 o.t v t

/-- AADD (R197). -/
def execAadd (o : AForm) (s : State) : Host.Outcome State Fault Refusal :=
  s.addrOp (.aadd o) o (s.core.areg o.base + (s.core.sreg o.idx).signExtend 80) (joinTaint (s.core.aTaint o.base) (s.core.sTaint o.idx))
/-- AADDI (R197). -/
def execAaddi (o : AForm) (s : State) : Host.Outcome State Fault Refusal :=
  s.addrOp (.aaddi o) o (s.core.areg o.base + o.off.signExtend 80) (s.core.aTaint o.base)
/-- AMOV (R197). -/
def execAmov (o : AForm) (s : State) : Host.Outcome State Fault Refusal :=
  s.addrOp (.amov o) o (s.core.areg o.base) (s.core.aTaint o.base)
/-- ASET (R197). -/
def execAset (o : AForm) (s : State) : Host.Outcome State Fault Refusal :=
  s.addrOp (.aset o) o (o.off.setWidth 16 ++ s.core.sreg o.idx) (s.core.sTaint o.idx)
/-- ASCL (R197). -/
def execAscl (o : AForm) (s : State) : Host.Outcome State Fault Refusal :=
  s.addrOp (.ascl o) o (s.core.areg o.base + (s.core.sreg o.idx).signExtend 80 <<< o.mod.toNat)
    (joinTaint (s.core.aTaint o.base) (s.core.sTaint o.idx))
/-- AGET (R197): the low 64 bits, or the high 16. -/
def execAget (o : AForm) (s : State) : Host.Outcome State Fault Refusal :=
  s.ifAllowedG (.aget o) o.g fun s =>
    let a := s.core.areg o.base
    s.wS 1 o.t (if o.mod = 0 then a.setWidth 64 else (a >>> 64).setWidth 64) (s.core.aTaint o.base)
/-- ACMP (R198). -/
def execAcmp (o : AForm) (s : State) : Host.Outcome State Fault Refusal :=
  s.ifAllowed (.acmp o) fun s =>
    s.upd fun c => c.pushScalar (intCond o.mod.toNat (c.areg o.base) (c.areg5 o.t))

end Sys2Proof.Machine
end

