-- ==== Sys2Proof/Machine/Scalar.lean ====
section
/-! DEFINITION. Integer, bit-field and compare operations of the S slot, the predicate stack, the tensor index
(R192 to R203, R216, R217). -/

namespace Sys2Proof.Machine

/-- A binary scalar operation: d := f(s_a, s_b) with a latency, under its guard; taint passes (R127, R192). -/
def State.scalar2 (s : State) (o : SR) (lat : Nat) (f : Word → Word → Word) : Host.Outcome State Fault Refusal :=
  s.whenActive o.g fun s =>
    s.wS lat o.d (f (s.core.sreg o.a) (s.core.sreg o.b)) (joinTaint (s.core.sTaint o.a) (s.core.sTaint o.b))

/-- A unary scalar operation in SR form (R195). -/
def State.scalar1 (s : State) (o : SR) (f : Word → Word) : Host.Outcome State Fault Refusal :=
  s.whenActive o.g fun s => s.wS 1 o.d (f (s.core.sreg o.a)) (s.core.sTaint o.a)

/-- An immediate operation (R194). -/
def State.scalarImm (s : State) (o : SI) (f : Word → Word) : Host.Outcome State Fault Refusal :=
  s.whenActive o.g fun s => s.wS 1 o.d (f (s.core.sreg o.a)) (s.core.sTaint o.a)

/-- A division starts on the core's divider (R193): its result is interlocked (R154). -/
def State.startDivision (s : State) (o : SR) (op : Nat) : Host.Outcome State Fault Refusal :=
  s.whenActive o.g fun s =>
    s.upd fun c => { c with outst := c.outst ++ [.division op (c.sreg o.a) (c.sreg o.b) o.d (joinTaint (c.sTaint o.a) (c.sTaint o.b))] }

/-- ADD (R192). -/
def execAdd (o : SR) (s : State) : Host.Outcome State Fault Refusal := s.scalar2 o 1 fun a b => a + b
/-- SUB (R192). -/
def execSub (o : SR) (s : State) : Host.Outcome State Fault Refusal := s.scalar2 o 1 fun a b => a - b
/-- MUL (R192). -/
def execMul (o : SR) (s : State) : Host.Outcome State Fault Refusal := s.scalar2 o 3 fun a b => a * b
/-- MULH (R192). -/
def execMulh (o : SR) (s : State) : Host.Outcome State Fault Refusal :=
  s.scalar2 o 3 fun a b => wordOf (sw a * sw b / (2 ^ 64 : Nat))
/-- MULHU (R192). -/
def execMulhu (o : SR) (s : State) : Host.Outcome State Fault Refusal :=
  s.scalar2 o 3 fun a b => BitVec.ofNat 64 (a.toNat * b.toNat / 2 ^ 64)
/-- DIV (R193). -/
def execDiv (o : SR) (s : State) : Host.Outcome State Fault Refusal := s.startDivision o 0
/-- DIVU (R193). -/
def execDivu (o : SR) (s : State) : Host.Outcome State Fault Refusal := s.startDivision o 1
/-- REM (R193). -/
def execRem (o : SR) (s : State) : Host.Outcome State Fault Refusal := s.startDivision o 2
/-- REMU (R193). -/
def execRemu (o : SR) (s : State) : Host.Outcome State Fault Refusal := s.startDivision o 3
/-- AND (R192). -/
def execAnd (o : SR) (s : State) : Host.Outcome State Fault Refusal := s.scalar2 o 1 fun a b => a &&& b
/-- OR (R192). -/
def execOr (o : SR) (s : State) : Host.Outcome State Fault Refusal := s.scalar2 o 1 fun a b => a ||| b
/-- XOR (R192). -/
def execXor (o : SR) (s : State) : Host.Outcome State Fault Refusal := s.scalar2 o 1 fun a b => a ^^^ b
/-- SHL (R192). -/
def execShl (o : SR) (s : State) : Host.Outcome State Fault Refusal := s.scalar2 o 1 fun a b => a <<< (b.toNat % 64)
/-- SHR (R192). -/
def execShr (o : SR) (s : State) : Host.Outcome State Fault Refusal := s.scalar2 o 1 fun a b => a >>> (b.toNat % 64)
/-- SRA (R192). -/
def execSra (o : SR) (s : State) : Host.Outcome State Fault Refusal :=
  s.scalar2 o 1 fun a b => a.sshiftRight (b.toNat % 64)
/-- MIN (R192). -/
def execMin (o : SR) (s : State) : Host.Outcome State Fault Refusal := s.scalar2 o 1 fun a b => if b.slt a then b else a
/-- MAX (R192). -/
def execMax (o : SR) (s : State) : Host.Outcome State Fault Refusal := s.scalar2 o 1 fun a b => if a.slt b then b else a
/-- MINU (R192). -/
def execMinu (o : SR) (s : State) : Host.Outcome State Fault Refusal := s.scalar2 o 1 fun a b => if b.ult a then b else a
/-- MAXU (R192). -/
def execMaxu (o : SR) (s : State) : Host.Outcome State Fault Refusal := s.scalar2 o 1 fun a b => if a.ult b then b else a
/-- SLT (R192). -/
def execSlt (o : SR) (s : State) : Host.Outcome State Fault Refusal := s.scalar2 o 1 fun a b => if a.slt b then 1 else 0
/-- SLTU (R192). -/
def execSltu (o : SR) (s : State) : Host.Outcome State Fault Refusal := s.scalar2 o 1 fun a b => if a.ult b then 1 else 0

/-- SEL (R192): the third register is fn[4:0]. -/
def execSel (o : SR) (s : State) : Host.Outcome State Fault Refusal :=
  s.whenActive o.g fun s =>
    let c := o.fn.setWidth 5
    s.wS 1 o.d (if s.core.sreg c != 0 then s.core.sreg o.a else s.core.sreg o.b)
      (joinTaint (joinTaint (s.core.sTaint o.a) (s.core.sTaint o.b)) (s.core.sTaint c))

/-- ADDI (R194). -/
def execAddi (o : SI) (s : State) : Host.Outcome State Fault Refusal := s.scalarImm o fun a => a + sext32 o.imm
/-- ANDI (R194). -/
def execAndi (o : SI) (s : State) : Host.Outcome State Fault Refusal := s.scalarImm o fun a => a &&& sext32 o.imm
/-- ORI (R194). -/
def execOri (o : SI) (s : State) : Host.Outcome State Fault Refusal := s.scalarImm o fun a => a ||| sext32 o.imm
/-- XORI (R194). -/
def execXori (o : SI) (s : State) : Host.Outcome State Fault Refusal := s.scalarImm o fun a => a ^^^ sext32 o.imm
/-- SHLI (R194). -/
def execShli (o : SI) (s : State) : Host.Outcome State Fault Refusal := s.scalarImm o fun a => a <<< (o.imm.toNat % 64)
/-- SHRI (R194). -/
def execShri (o : SI) (s : State) : Host.Outcome State Fault Refusal := s.scalarImm o fun a => a >>> (o.imm.toNat % 64)
/-- SRAI (R194). -/
def execSrai (o : SI) (s : State) : Host.Outcome State Fault Refusal :=
  s.scalarImm o fun a => a.sshiftRight (o.imm.toNat % 64)
/-- LI (R194). -/
def execLi (o : SI) (s : State) : Host.Outcome State Fault Refusal :=
  s.whenActive o.g fun s => s.wS 1 o.d (sext32 o.imm)
/-- LIH (R194). -/
def execLih (o : SI) (s : State) : Host.Outcome State Fault Refusal :=
  s.scalarImm o fun a => o.imm ++ a.setWidth 32
/-- CLZ (R195). -/
def execClz (o : SR) (s : State) : Host.Outcome State Fault Refusal := s.scalar1 o fun a => BitVec.ofNat 64 (clz64 a)
/-- CTZ (R195). -/
def execCtz (o : SR) (s : State) : Host.Outcome State Fault Refusal := s.scalar1 o fun a => BitVec.ofNat 64 (ctz64 a)
/-- POPC (R195). -/
def execPopc (o : SR) (s : State) : Host.Outcome State Fault Refusal := s.scalar1 o fun a => BitVec.ofNat 64 (popc64 a)
/-- BSWAP (R195). -/
def execBswap (o : SR) (s : State) : Host.Outcome State Fault Refusal := s.scalar1 o bswap64

/-- Low bit and width of a bit field (R196). -/
def fieldLo (imm : BitVec 32) : Nat := imm.toNat % 64
def fieldWidth (imm : BitVec 32) : Nat := imm.toNat / 64 % 64 + 1

/-- EXTS (R196). -/
def execExts (o : SI) (s : State) : Host.Outcome State Fault Refusal :=
  s.scalarImm o fun a => wordOf (sextInt (a.toNat / 2 ^ fieldLo o.imm) (fieldWidth o.imm))
/-- EXTZ (R196). -/
def execExtz (o : SI) (s : State) : Host.Outcome State Fault Refusal :=
  s.scalarImm o fun a => BitVec.ofNat 64 (a.toNat / 2 ^ fieldLo o.imm % 2 ^ fieldWidth o.imm)
/-- INS (R196): its destination is a source. -/
def execIns (o : SI) (s : State) : Host.Outcome State Fault Refusal :=
  s.whenActive o.g fun s =>
    let m : Word := BitVec.ofNat 64 ((2 ^ fieldWidth o.imm - 1) * 2 ^ fieldLo o.imm)
    let v := (s.core.sreg o.a) <<< fieldLo o.imm
    s.wS 1 o.d ((s.core.sreg o.d &&& ~~~m) ||| (v &&& m)) (joinTaint (s.core.sTaint o.a) (s.core.sTaint o.d))

/-- CMP (R199). -/
def execCmp (o : SB) (s : State) : Host.Outcome State Fault Refusal :=
  .next (s.upd fun c => c.pushScalar (intCond o.cc.toNat (c.sreg o.a) (c.sreg o.b)))
/-- CMPI (R199). -/
def execCmpi (o : SI) (s : State) : Host.Outcome State Fault Refusal :=
  .next (s.upd fun c => c.pushScalar (intCond (o.fn.toNat % 16) (c.sreg o.a) (sext32 o.imm)))

/-- PELSE (R202): waits for a top mask in flight; at depth 0 it raises PSTACK. -/
def execPelse (_ : SR) (s : State) : Host.Outcome State Fault Refusal :=
  match s.core.pstack with
  | [] => .next (s.trap PSTACK .s s.core.pstackInfo)
  | e :: rest =>
    if e.due > s.core.tau then .next (s.waitTau e.due)
    else
      let (m, b) := parentOf rest
      .next (s.upd fun c => { c with pnext := some ({ m := m &&& ~~~e.m, b := b && !e.b, due := dueOf rest } :: rest) })

/-- The word that PRD writes (R203); entry 0 is the bottom. -/
def prdWord (st : List PredEntry) : Word :=
  let es := st.reverse
  let bits (f : PredEntry → Bool) : Nat := es.foldr (fun e acc => (if f e then 1 else 0) + 2 * acc) 0
  BitVec.ofNat 64 (bits PredEntry.b % 2 ^ 16 + st.length % 32 * 2 ^ 16 + bits PredEntry.live % 2 ^ 16 * 2 ^ 32)

/-- PRD (R203). -/
def execPrd (o : SR) (s : State) : Host.Outcome State Fault Refusal :=
  s.whenActive o.g fun s => s.wS 1 o.d (prdWord s.core.pstack)

/-- The stack that PWR rebuilds from `n` entries and their bits (R203). -/
def rebuildStack (bits : Nat) : Nat → List PredEntry
  | 0 => []
  | n + 1 =>
    let st := rebuildStack bits n
    let (m, b) := parentOf st
    let x := bitOf bits n
    { m := if x then m else 0, b := b && x, due := 0 } :: st

/-- PWR (R203). -/
def execPwr (o : SR) (s : State) : Host.Outcome State Fault Refusal :=
  s.whenActive o.g fun s =>
    let v := (s.core.sreg o.a).toNat
    let depth := v / 2 ^ 16 % 32
    if depth > 16 then s.trap PSTACK .s s.core.pstackInfo
    else s.upd fun c => { c with pwr := some (rebuildStack v depth) }

/-- Shape entry `n` of R216. -/
def Core.shape (c : Core) (n : Nat) : Shape := c.shapes[n % 16]'(Nat.mod_lt _ (by decide))

/-- TIDX (R217): a coordinate at or above D raises ILLOP. -/
def execTidx (o : SR) (s : State) : Host.Outcome State Fault Refusal :=
  s.whenActive o.g fun s =>
    let h := s.core.shape (o.fn.toNat % 16)
    let k := o.fn.toNat / 16 % 8
    if k ≥ h.dims then s.trapOp ILLOP (.tidx o)
    else s.wS 3 o.d (BitVec.ofNat 64 (tidxCoord h ((s.core.sreg o.a).toNat % 2 ^ 32) k)) (s.core.sTaint o.a)

end Sys2Proof.Machine
end

