-- ==== Sys2Proof/Machine/Control.lean ====
section
/-! DEFINITION. Transfers of control, events, suspension, exit, and the task's own traps (R205 to R215, R221
to R223). -/

namespace Sys2Proof.Machine

/-- The target of a relative transfer (R147), as a 32-bit position. -/
def Core.relTarget (c : Core) (off : BitVec 32) : Pos := ((c.pos : Int) + off.toInt).toNat % 2 ^ 32

/-- Take a transfer to a position: it is fetched next (R208). A relative target below 0 lies beyond every
stream. -/
def Core.goTo (c : Core) (p : Pos) : Core := { c with target := some p }

/-- A relative transfer (R205, R208). -/
def Core.goRel (c : Core) (off : BitVec 32) : Core :=
  c.goTo (if (c.pos : Int) + off.toInt < 0 then 2 ^ 32 - 1 else c.relTarget off)

/-- BR (R205). -/
def execBr (o : SB) (s : State) : Host.Outcome State Fault Refusal :=
  s.whenActive o.g fun s =>
    if intCond o.cc.toNat (s.core.sreg o.a) (s.core.sreg o.b) then s.upd fun c => c.goRel o.off else s

/-- BRI (R205). -/
def execBri (o : SB) (s : State) : Host.Outcome State Fault Refusal :=
  s.whenActive o.g fun s =>
    if intCond o.cc.toNat (s.core.sreg o.a) (o.imm8.signExtend 64) then s.upd fun c => c.goRel o.off else s

/-- JMP (R205). -/
def execJmp (o : SB) (s : State) : Host.Outcome State Fault Refusal :=
  s.whenActive o.g fun s => s.upd fun c => c.goRel o.off

/-- CALL (R205): s31 receives the position of the next bundle. -/
def execCall (o : SB) (s : State) : Host.Outcome State Fault Refusal :=
  s.whenActive o.g fun s => (s.wS 1 31 (BitVec.ofNat 64 s.core.seqPos)).upd fun c => c.goRel o.off

/-- DBNZ (R206). -/
def execDbnz (o : SB) (s : State) : Host.Outcome State Fault Refusal :=
  s.whenActive o.g fun s =>
    let v := s.core.sreg o.a - 1
    let s := s.wS 1 o.a v (s.core.sTaint o.a)
    if v != 0 then s.upd fun c => c.goRel o.off else s

/-- A register transfer (R207): a target beyond 30 bits raises ILLOP. -/
def State.goReg (s : State) (i : Instr) (a : Reg) (f : State → State) : State :=
  let v := (s.core.sreg a).toNat
  if v ≥ 2 ^ 30 then s.trapOp ILLOP i else (f s).upd fun c => c.goTo v

/-- RET (R207). -/
def execRet (o : SR) (s : State) : Host.Outcome State Fault Refusal :=
  s.whenActive o.g fun s => s.goReg (.ret o) o.a id

/-- JR (R207). -/
def execJr (o : SR) (s : State) : Host.Outcome State Fault Refusal :=
  s.whenActive o.g fun s => s.goReg (.jr o) o.a id

/-- CALLR (R207): s_a is read before s_d is written. -/
def execCallr (o : SR) (s : State) : Host.Outcome State Fault Refusal :=
  s.whenActive o.g fun s => s.goReg (.callr o) o.a fun s => s.wS 1 o.d (BitVec.ofNat 64 s.core.seqPos)

/-- Set the event latch of a task slot (R210): of the resident task, or the EVT bit of its record; a task in
WAITEV becomes READY, and its resumption consumes the event (R31, R35). -/
def State.setEvent (s : State) (p slot : Nat) : State :=
  match s.residentOf p slot with
  | some u => s.setCore u { s.getCore u with evt := true }
  | none =>
    match s.dev.slotOf p slot with
    | none => s
    | some t =>
      s.updDev fun v =>
        if t.st = 3 then ((v.updSlot p slot fun x => { x with st := 0, evt := true }).readied p slot).writeRecord p slot
        else (v.updSlot p slot fun x => { x with evt := true }).writeRecord p slot

/-- SEV (R210): a CIDX at or above GSIZE raises XLATE, as do bits above it. -/
def execSev (o : SR) (s : State) : Host.Outcome State Fault Refusal :=
  s.whenActive o.g fun s =>
    let v := (s.core.sreg o.a).toNat
    match s.core.task with
    | none => s.trap XLATE .s v
    | some t =>
      if v ≥ t.gsize.toNat then s.trap XLATE .s v
      else
        let s := s.commitSeg
        if v = t.cidx.toNat then s.upd fun c => { c with evt := true }
        else
          match s.dev.gangOf t.gang with
          | none => s
          | some g => if g.ended.contains (g.slots.getD v 0) then s else s.setEvent t.part (g.slots.getD v 0)

/-- SEV.all (R210): every other task of the gang. -/
def execSevAll (o : SR) (s : State) : Host.Outcome State Fault Refusal :=
  s.whenActive o.g fun s =>
    let s := s.commitSeg
    match s.core.task with
    | none => s
    | some t =>
      if t.spawned then s
      else
        match s.dev.gangOf t.gang with
        | none => s
        | some g => g.slots.foldl (fun s i => if i = t.slot ∨ g.ended.contains i then s else s.setEvent t.part i) s

/-- A voluntary suspension point (R34): its checks unless the bundle has issued; an open segment closes; the wait for outstanding
operations (R27), then the suspension. In monitor mode, which MRET alone leaves (R362), it raises ILLOP (DESIGN CHOICE, log 108). -/
def State.suspendPoint (s : State) (i : Instr) (f : State → State) : State :=
  if s.core.mon.mode then s.trapOp ILLOP i
  else
    match (if s.core.late then none else s.suspendCheck (slotOfOp i)) with
    | some (code, sl, info) => s.trap code sl info
    | none => if s.core.outst.isEmpty then f s else s.commitSeg.wait

/-- WFE (R211, R397): with the latch set it clears it; otherwise the task suspends in WAITEV, and a queue
processor waits. An event that comes once the suspension has begun does not stop it (R34). -/
def execWfe (o : SR) (s : State) : Host.Outcome State Fault Refusal :=
  s.whenActive o.g fun s =>
    match s.focus with
    | .qp d _ =>
      if (s.dev.dome d).qpEvent then s.syncPoint.updDev fun v => v.updDome d fun x => { x with qpEvent := false }
      else s.wait
    | .core _ =>
      if s.core.evt && !s.core.late then s.syncPoint.upd fun c => { c with evt := false }
      else s.suspendPoint (.wfe o) fun s => s.suspendTask 3 3 0 0 false

/-- YIELD (R212). -/
def execYield (o : SR) (s : State) : Host.Outcome State Fault Refusal :=
  s.whenActive o.g fun s => s.suspendPoint (.yield o) fun s => s.suspendTask 4 4 0 0 false

/-- SUSP (R212): the footprint image goes to the spill area. -/
def execSusp (o : SR) (s : State) : Host.Outcome State Fault Refusal :=
  s.whenActive o.g fun s => s.suspendPoint (.susp o) fun s => s.suspendTask 4 1 0 0 true

/-- A store, an atomic or a copy of another unit is on its way to the scratchpad of the focused task (R130, R356). -/
def State.routedHere (s : State) : Bool :=
  match s.core.task with
  | none => false
  | some t =>
    let here : Place := .spad t.part t.slot
    let flies (c : Core) : Bool :=
      (c.landing.any fun l => l.pieces.any fun p => decide (p.place = here)) ||
      c.outst.any fun x => match x with 
        | .atomic p _ _ _ _ _ _ _ _ _ => decide (p = here)
        | .engine e => e.pieces.any fun p => decide (p.place = here)
        | _ => false
    s.parked.any fun x => x.1 != s.focus && flies x.2

/-- EXIT (R214): QUEUE while a result queue is not empty; an open segment closes; a wait while the dome's held signals leave no
room for those of this EXIT (R409), and while partners' accesses to its scratchpad are on their way (R356); then the results land, the stores are published, EXITED is written into the record and the task ends.
Monitor mode is left by MRET alone (R362; log 108). -/
def execExit (o : SR) (s : State) : Host.Outcome State Fault Refusal :=
  s.whenActive o.g fun s =>
    if s.core.mon.mode then s.trapOp ILLOP (.exit o)
    else
    match (if s.core.late then none else s.core.mat.busyQueue) with
    | some q => s.trap QUEUE .s q
    | none =>
      match s.core.task with
      | none => s
      | some t =>
        if s.dev.holdFull t.part (s.dev.endSignals t s.core.owesTrig) then s.commitSeg.wait
        else if !s.core.outst.isEmpty || s.routedHere then s.commitSeg.wait
        else
          let s := (s.commitSeg.upd Core.settle).release 5
          let kept := s.core
          let s := s.updDev fun v =>
            (v.updSlot t.part t.slot fun x => { x with st := 6, why := 0, cpos := kept.pos, kept := some kept }).writeRecord t.part t.slot
          s.endTask

/-- TRAP (R221): TRAPI once the bundle has issued. -/
def execTrap (o : SI) (s : State) : Host.Outcome State Fault Refusal :=
  s.whenActive o.g fun s => s.commitSeg.trapAfter TRAPI .s o.imm.toNat

/-- Cycles of τ until no operation in flight that can set a flag remains (R222): results, beats, bound-checked
drains. -/
def Core.flagTime (c : Core) : Nat :=
  let a := c.results.foldl (fun n r => if r.can then Nat.max n (r.due - c.tau) else n) 0
  let b := c.mat.beats.foldl (fun n r => Nat.max n r.left) a
  c.mat.drains.foldl (fun n r => if r.can then Nat.max n r.left else n) b

/-- An outstanding operation whose flags TRAPF waits for (R222): divisions, AMO fadd, CPYX and COLL. -/
def Outstanding.canFlag : Outstanding → Bool
  | .division _ _ _ _ _ => true
  | .atomic _ _ _ op _ _ _ _ _ _ => op == 9
  | .engine e => e.kind == 2 || e.kind == 5
  | _ => false

/-- The tiles whose CLIPMASK word is nonzero (R189). -/
def MatCtx.clipTiles (m : MatCtx) : Nat :=
  (List.range 4).foldl (fun n t => if h : t < 4 then (if m.tiles[t].data.clip = 0 then n else n + 2 ^ t) else n) 0

/-- TRAPF (R222). -/
def execTrapf (o : SR) (s : State) : Host.Outcome State Fault Refusal :=
  s.whenActive o.g fun s =>
    let c := s.core
    if c.flagTime > 0 then s.waitTau (c.tau + c.flagTime)
    else if c.outst.any Outstanding.canFlag then s.wait
    else if c.sticky &&& fCLIP != 0 && c.aen &&& fCLIP != 0 then s.trap CLIPT .s c.mat.clipTiles
    else if c.sticky &&& c.aen &&& ~~~fCLIP != 0 then s.trap ARITH .s (c.sticky &&& c.aen &&& ~~~fCLIP).toNat
    else s

/-- TRET (R223): ILLOP outside the handler, MHND while the matrix context is saved and not restored. -/
def execTret (o : SR) (s : State) : Host.Outcome State Fault Refusal :=
  s.whenActive o.g fun s =>
    if !s.core.hnd then s.trapOp ILLOP (.tret o)
    else if s.core.mdue then s.trap MHND .s 0
    else s.upd Core.tret

end Sys2Proof.Machine
end

