-- ==== Sys2Proof/Machine/Queue.lean ====
section
/-! DEFINITION. Result queues as the other slots see them: pops, their wait and their fault (R260, R288, R290). -/

namespace Sys2Proof.Machine

/-- Result queue `q`. -/
def MatCtx.queue (m : MatCtx) (q : BitVec 2) : List QEntry := m.queues[q.toNat]'q.isLt

/-- The drains in flight to a queue. -/
def MatCtx.inFlight (m : MatCtx) (q : BitVec 2) : List Drain := m.drains.filter fun d => d.q == q

/-- What an access to the head of a queue meets (R260): the entry, a structural wait until a drain in flight
enters, or QUEUE with its detail. -/
inductive Head where
  | entry (e : QEntry)
  | waitFor (left : Nat)
  | empty
  deriving Repr

/-- The head of a queue (R260). -/
def MatCtx.head (m : MatCtx) (q : BitVec 2) : Head :=
  match m.queue q with
  | e :: _ => .entry e
  | [] =>
    match m.inFlight q with
    | [] => .empty
    | d :: ds => .waitFor (ds.foldl (fun n x => Nat.min n x.left) d.left)

/-- The detail of QUEUE at an underflow (R189). -/
def queueInfo (q : BitVec 2) : Nat := q.toNat + 256

/-- Pop the next value quarter of a queue's head (R260). `popped` counts entries that leave, for the counts of
the same bundle's drain (R288). -/
def Core.popQuarter (c : Core) (q : BitVec 2) : Core :=
  match c.mat.queue q with
  | [] => c
  | e :: rest =>
    let gone := e.popped ≥ 3
    let es := if gone then rest else { e with popped := e.popped + 1 } :: rest
    { c with mat := { c.mat with queues := c.mat.queues.set q.toNat es q.isLt }
             popped := if gone then c.popped.set q.toNat (c.popped[q.toNat]'q.isLt + 1) q.isLt else c.popped }

/-- Element (row, column) of a tile-shaped vector. -/
def tileAt (v : Vector Lane 4096) (row col : Nat) : Lane := if h : 256 * row + col < 4096 then v[256 * row + col] else 0

/-- Use the head entry of a queue: an open segment closes (R261, R314), then the wait, the fault, or the
effect. -/
def State.withHead (s : State) (q : BitVec 2) (sl : Slot) (f : QEntry → State → State) : State :=
  match s.core.mat.head q with
  | .empty => s.trap QUEUE sl (queueInfo q)
  | .waitFor n => s.waitTau (s.core.tau + Nat.max n 1)
  | .entry e => f e s.commitSeg

end Sys2Proof.Machine
end

