-- ==== Sys2Proof/Machine/Special.lean ====
section
/-! DEFINITION. The special functions of R233 and R234. Division, reciprocal and square roots are exact. The
transcendental functions are computed in fixed point with 704 fraction bits and an error far below 2^-640,
then rounded once; every such result is inexact, because the exact cases of R234 are taken first (log 14). -/

namespace Sys2Proof.Machine

/-- Fraction bits of the fixed-point computations. -/
def FB : Nat := 704

/-- 1 in fixed point. -/
def one704 : Nat := 2 ^ FB

/-- Integer square root by bits: the largest r with r² ≤ n, below 2^k above `r`. -/
def isqrtBits (n : Nat) : Nat → Nat → Nat
  | 0, r => r
  | k + 1, r => if (r + 2 ^ k) * (r + 2 ^ k) ≤ n then isqrtBits n k (r + 2 ^ k) else isqrtBits n k r

/-- Integer square root. -/
def isqrt (n : Nat) : Nat := isqrtBits n (Nat.log2 n / 2 + 1) 0

/-- Σ terms of e^y for 0 ≤ y < 1 in fixed point: `t` is y^k / k!. -/
def expSeries (y : Nat) : Nat → Nat → Nat → Nat
  | 0, _, _ => 0
  | fuel + 1, k, t => if t = 0 then 0 else t + expSeries y fuel (k + 1) (t * y / one704 / (k + 1))

/-- e^y in fixed point for 0 ≤ y < 1. -/
def fxExp (y : Nat) : Nat := expSeries y 200 0 one704

/-- Σ z^(2k+1)/(2k+1) in fixed point: `t` is z^(2k+1). -/
def atanhSeries (z2 : Nat) : Nat → Nat → Nat → Nat
  | 0, _, _ => 0
  | fuel + 1, k, t => if t = 0 then 0 else t / (2 * k + 1) + atanhSeries z2 fuel (k + 1) (t * z2 / one704)

/-- ln of n/d for 1 ≤ n/d ≤ 2, in fixed point: 2 artanh((n − d)/(n + d)). -/
def fxLn (n d : Nat) : Nat :=
  let z := (n - d) * one704 / (n + d)
  2 * atanhSeries (z * z / one704) 240 0 z

/-- ln 2 in fixed point. -/
def fxLn2 : Nat := fxLn 2 1

/-- Σ of the sine series in fixed point: `t` is y^(2k+1)/(2k+1)!, terms alternate. -/
def sinSeries (y2 : Nat) : Nat → Nat → Nat → Nat × Nat
  | 0, _, _ => (0, 0)
  | fuel + 1, k, t =>
    if t = 0 then (0, 0)
    else
      let (p, m) := sinSeries y2 fuel (k + 1) (t * y2 / one704 / ((2 * k + 2) * (2 * k + 3)))
      if k % 2 = 0 then (p + t, m) else (p, m + t)

/-- arctan(1/q) in fixed point: Σ ± (1/q)^(2k+1)/(2k+1). -/
def atanInv (q : Nat) : Nat → Nat → Nat → Nat × Nat
  | 0, _, _ => (0, 0)
  | fuel + 1, k, t =>
    if t = 0 then (0, 0)
    else
      let (p, m) := atanInv q fuel (k + 1) (t / (q * q))
      if k % 2 = 0 then (p + t / (2 * k + 1), m) else (p, m + t / (2 * k + 1))

/-- π in fixed point, by Machin's formula. -/
def fxPi : Nat :=
  let a := atanInv 5 200 0 (one704 / 5)
  let b := atanInv 239 80 0 (one704 / 239)
  16 * (a.1 - a.2) - 4 * (b.1 - b.2)

/-- e^(−n/d) in fixed point for n, d > 0; 0 when it lies below the precision. -/
def fxExpNeg (n d : Nat) : Nat :=
  if n ≥ 800 * d then 0
  else
    let y := n * one704 / d
    let k := y / fxLn2
    let r := y - k * fxLn2
    one704 * one704 / fxExp r / 2 ^ k

/-- Σ of the erf series in fixed point: `t` is x^(2k+1)/k!. -/
def erfSeries (x2 : Nat) : Nat → Nat → Nat → Nat × Nat
  | 0, _, _ => (0, 0)
  | fuel + 1, k, t =>
    if t = 0 then (0, 0)
    else
      let (p, m) := erfSeries x2 fuel (k + 1) (t * x2 / one704 / (k + 1))
      if k % 2 = 0 then (p + t / (2 * k + 1), m) else (p, m + t / (2 * k + 1))

/-- An inexact value of `v` units of 2^-704 as a ratio: the odd half unit keeps it off every tie and every
representable value. -/
def inexactRat (v : Nat) : Nat × Nat := (2 * (v / 2 ^ 64) + 1, 2 * 2 ^ (FB - 64))

/-- A result that lies just below 1. -/
def belowOne (tail : Nat) : Nat × Nat :=
  let u := tail / 2 ^ 64
  (2 * (2 ^ (FB - 64) - u) - 1, 2 * 2 ^ (FB - 64))

/-- 2^(n/d) for a fraction 0 < n/d < 1: numerator and denominator. -/
def exp2Frac (n d : Nat) : Nat × Nat := inexactRat (fxExp (n * fxLn2 / d))

/-- |sin(π n/d)| for 0 < n/d < 1, n/d no half-integer. -/
def sinPiFrac (n d : Nat) : Nat × Nat :=
  let m := if 2 * n > d then d - n else n
  let y := m * fxPi / d
  let (p, q) := sinSeries (y * y / one704) 200 0 y
  inexactRat (p - q)

/-- tanh(n/d) for n/d > 0. -/
def tanhPos (n d : Nat) : Nat × Nat :=
  let e := fxExpNeg (2 * n) d
  if n ≥ 4 * d then belowOne (2 * e * one704 / (one704 + e))
  else inexactRat ((one704 - e) * one704 / (one704 + e))

/-- erf(n/d) for n/d > 0. -/
def erfPos (n d : Nat) : Nat × Nat :=
  if n ≥ 10 * d then belowOne 0
  else
    let x := n * one704 / d
    let (p, q) := erfSeries (x * x / one704) 900 0 x
    let v := 2 * (p - q) * one704 / isqrt (fxPi * one704)
    if v ≥ one704 then belowOne 0 else inexactRat v

/-- 1/(1 + e^(−n/d)) for n/d > 0 (`neg` false), or for its negation. -/
def sigmRat (neg : Bool) (n d : Nat) : Nat × Nat :=
  let e := fxExpNeg n d
  if neg then inexactRat (e * one704 / (one704 + e))
  else if n ≥ 4 * d then belowOne (e * one704 / (one704 + e))
  else inexactRat (one704 * one704 / (one704 + e))

/-- The infinity of a sign, or under `sat` the largest magnitude with SAT (R234). -/
def infRes (s sat : Bool) (f : Flags) : FRes :=
  if sat then (if s then 0xFF7FFFFF else 0x7F7FFFFF, f ||| fSAT) else (if s then 0xFF800000 else 0x7F800000, f)

/-- The zero of a sign. -/
def zeroRes (s : Bool) : FRes := (if s then 0x80000000 else 0, 0)

/-- Operand of a unary special function: NaN first (R234), then the value under FTZ (R75). -/
def specUn (ftz : Bool) (a : Lane) (f : FVal → FRes) : FRes :=
  if isNaN a then (quiet a, 0) else f (f32Val (flushIn ftz a))

/-- VRCP (R234). -/
def fRcp (rm : Nat) (sat ftz : Bool) (a : Lane) : FRes :=
  specUn ftz a fun v =>
    match v with
    | .fin s 0 _ => infRes s sat fDZ
    | .fin s m e => let x := dyad m e; roundF32 rm sat ftz s x.2 x.1
    | .inf s => zeroRes s
    | .nan _ _ => (canonicalNaN, 0)

/-- A square root n/d · 2^k of a positive dyadic, floored, with the sticky half unit when inexact. -/
def sqrtRat (m : Nat) (e : Int) : Nat × Nat :=
  let x := dyad m e
  let n := x.1 * x.2 * 2 ^ 400
  let r := isqrt n
  (2 * r + (if r * r = n then 0 else 1), 2 * x.2 * 2 ^ 200)

/-- VRSQ (R234). -/
def fRsq (rm : Nat) (sat ftz : Bool) (a : Lane) : FRes :=
  specUn ftz a fun v =>
    match v with
    | .fin s 0 _ => infRes s sat fDZ
    | .fin false m e =>
      let x := dyad m e
      -- 1/√(n/d) = √(n·d)/n
      let n := x.1 * x.2 * 2 ^ 800
      let r := isqrt n
      roundF32 rm sat ftz false (2 * r + (if r * r = n then 0 else 1)) (2 * x.1 * 2 ^ 400)
    | .inf false => zeroRes false
    | _ => (canonicalNaN, fIV)

/-- VSQRT (R234). -/
def fSqrt (rm : Nat) (sat ftz : Bool) (a : Lane) : FRes :=
  specUn ftz a fun v =>
    match v with
    | .fin s 0 _ => zeroRes s
    | .fin false m e => let x := sqrtRat m e; roundF32 rm sat ftz false x.1 x.2
    | .inf false => (0x7F800000, 0)
    | _ => (canonicalNaN, fIV)

/-- VDIV (R234). -/
def fDiv (rm : Nat) (sat ftz : Bool) (a b : Lane) : FRes :=
  match firstNaN [a, b] with
  | some n => (n, 0)
  | none =>
    match f32Val (flushIn ftz a), f32Val (flushIn ftz b) with
    | .fin _ 0 _, .fin _ 0 _ => (canonicalNaN, fIV)
    | .inf _, .inf _ => (canonicalNaN, fIV)
    | .fin s _ _, .fin t 0 _ => infRes (s != t) sat fDZ
    | .fin s m e, .fin t k x =>
      let p := dyad m e
      let q := dyad k x
      roundF32 rm sat ftz (s != t) (p.1 * q.2) (p.2 * q.1)
    | .fin s _ _, .inf t => zeroRes (s != t)
    | .inf s, .fin t _ _ => (if s != t then 0xFF800000 else 0x7F800000, 0)
    | _, _ => (canonicalNaN, 0)

/-- VEXP2 (R234). -/
def fExp2 (rm : Nat) (sat ftz : Bool) (a : Lane) : FRes :=
  specUn ftz a fun v =>
    match v with
    | .inf s => if s then zeroRes false else (0x7F800000, 0)
    | .nan _ _ => (canonicalNaN, 0)
    | .fin s m e =>
      let x := dyad m e
      -- 2^±(n/d) = 2^i · 2^f with 0 ≤ f < 1
      let q := x.1 / x.2
      let r := x.1 % x.2
      if q > 400 then
        (if s then roundF32 rm sat ftz false 1 (2 ^ 400) else roundF32 rm sat ftz false (2 ^ 400 + 1) 1)
      else if r = 0 then
        (if s then roundF32 rm sat ftz false 1 (2 ^ q) else roundF32 rm sat ftz false (2 ^ q) 1)
      else if s then
        let f := exp2Frac (x.2 - r) x.2
        roundF32 rm sat ftz false f.1 (f.2 * 2 ^ (q + 1))
      else
        let f := exp2Frac r x.2
        roundF32 rm sat ftz false (f.1 * 2 ^ q) f.2

/-- VLOG2 (R234). -/
def fLog2 (rm : Nat) (sat ftz : Bool) (a : Lane) : FRes :=
  specUn ftz a fun v =>
    match v with
    | .fin _ 0 _ => infRes true sat fDZ
    | .fin false m e =>
      let k := Nat.log2 m
      let i : Int := (k : Int) + e
      if m = 2 ^ k then roundF32 rm sat ftz (decide (i < 0)) i.natAbs 1
      else
        -- log2 = i + f with 0 < f < 1
        let f := fxLn m (2 ^ k) * one704 / fxLn2
        if i ≥ 0 then
          let x := inexactRat (i.toNat * one704 + f)
          roundF32 rm sat ftz false x.1 x.2
        else
          let x := inexactRat (i.natAbs * one704 - f)
          roundF32 rm sat ftz true x.1 x.2
    | .inf false => (0x7F800000, 0)
    | _ => (canonicalNaN, fIV)

/-- VTANH (R234). -/
def fTanh (rm : Nat) (sat ftz : Bool) (a : Lane) : FRes :=
  specUn ftz a fun v =>
    match v with
    | .fin s 0 _ => zeroRes s
    | .fin s m e => let x := dyad m e; let y := tanhPos x.1 x.2; roundF32 rm sat ftz s y.1 y.2
    | .inf s => (if s then 0xBF800000 else 0x3F800000, 0)
    | .nan _ _ => (canonicalNaN, 0)

/-- VERF (R234). -/
def fErf (rm : Nat) (sat ftz : Bool) (a : Lane) : FRes :=
  specUn ftz a fun v =>
    match v with
    | .fin s 0 _ => zeroRes s
    | .fin s m e => let x := dyad m e; let y := erfPos x.1 x.2; roundF32 rm sat ftz s y.1 y.2
    | .inf s => (if s then 0xBF800000 else 0x3F800000, 0)
    | .nan _ _ => (canonicalNaN, 0)

/-- VSIGM (R234). -/
def fSigm (rm : Nat) (sat ftz : Bool) (a : Lane) : FRes :=
  specUn ftz a fun v =>
    match v with
    | .fin _ 0 _ => (0x3F000000, 0)
    | .fin s m e => let x := dyad m e; let y := sigmRat s x.1 x.2; roundF32 rm sat ftz false y.1 y.2
    | .inf s => if s then zeroRes false else (0x3F800000, 0)
    | .nan _ _ => (canonicalNaN, 0)

/-- VSINP (R234): sin(π·a). -/
def fSinp (rm : Nat) (sat ftz : Bool) (a : Lane) : FRes :=
  specUn ftz a fun v =>
    match v with
    | .inf _ => (canonicalNaN, fIV)
    | .nan _ _ => (canonicalNaN, 0)
    | .fin s m e =>
      let x := dyad m e
      let r := x.1 % (2 * x.2)
      let neg := s != decide (r > x.2)
      let q := r % x.2
      if q = 0 then zeroRes s
      else if 2 * q = x.2 then (if neg then 0xBF800000 else 0x3F800000, 0)
      else let y := sinPiFrac q x.2; roundF32 rm sat ftz neg y.1 y.2

end Sys2Proof.Machine
end

