-- ==== Sys2Proof/Machine/VectorArith.lean ====
section
/-! DEFINITION. Element arithmetic, special functions and compares of the V slots (R229 to R239, R254, R262). -/

namespace Sys2Proof.Machine

/-- An element operation (R231, R262): its result with a latency, and occupancy of the slot for 4 cycles. -/
def State.vElem (s : State) (o : VForm) (lat : Nat) (can : Bool) (f : Nat → FRes) : Host.Outcome State Fault Refusal :=
  .next ((s.vResult o lat can f).occupyV o 4)

/-- A float operation on lanes for `ty` f32, an integer one for i32 and u32 (R231). -/
def State.vArith (s : State) (o : VForm) (fl : Lane → Lane → Lane → FRes) (int : Lane → Lane → Lane → Lane) :
    Host.Outcome State Fault Refusal :=
  let a := s.core.vreg o.a
  let c := s.core.vreg o.c
  let b := s.bLane o
  if o.ty = 0 then s.vElem o 6 true fun l => fl (laneAt a l) (b l) (laneAt c l)
  else s.vElem o 3 false fun l => (int (laneAt a l) (b l) (laneAt c l), 0)

/-- A bitwise or integer operation of two operands, whatever `ty` (R231); `can` says that it can set a flag. -/
def State.vInt (s : State) (o : VForm) (f : Lane → Lane → FRes) (can : Bool := false) : Host.Outcome State Fault Refusal :=
  let a := s.core.vreg o.a
  let b := s.bLane o
  s.vElem o 3 can fun l => f (laneAt a l) (b l)

/-- The lane type is signed (R231). -/
def VForm.signed (o : VForm) : Bool := o.ty == 0x0F

/-- VADD (R231). -/
def execVadd (o : VForm) (s : State) : Host.Outcome State Fault Refusal :=
  s.vArith o (fun a b _ => fAdd o.rm.toNat o.sat s.core.ftz a b) fun a b _ => a + b
/-- VSUB (R231). -/
def execVsub (o : VForm) (s : State) : Host.Outcome State Fault Refusal :=
  s.vArith o (fun a b _ => fSub o.rm.toNat o.sat s.core.ftz a b) fun a b _ => a - b
/-- VMUL (R231). -/
def execVmul (o : VForm) (s : State) : Host.Outcome State Fault Refusal :=
  s.vArith o (fun a b _ => fMul o.rm.toNat o.sat s.core.ftz a b) fun a b _ => a * b
/-- VFMA (R231). -/
def execVfma (o : VForm) (s : State) : Host.Outcome State Fault Refusal :=
  s.vArith o (fun a b c => fFma o.rm.toNat o.sat s.core.ftz false false a b c) fun a b c => a * b + c
/-- VFMS (R231). -/
def execVfms (o : VForm) (s : State) : Host.Outcome State Fault Refusal :=
  s.vArith o (fun a b c => fFma o.rm.toNat o.sat s.core.ftz false true a b c) fun a b c => a * b - c
/-- VFNMA (R231). -/
def execVfnma (o : VForm) (s : State) : Host.Outcome State Fault Refusal :=
  s.vArith o (fun a b c => fFma o.rm.toNat o.sat s.core.ftz true false a b c) fun a b c => c - a * b

/-- The smaller or the larger of two lanes in a lane type (R231, R232). -/
def laneMinMax (ty : BitVec 5) (isMax : Bool) (a b : Lane) : Lane :=
  if ty = 0 then fMinMax isMax a b
  else
    let lt (x y : Lane) : Bool := if ty = 0x0F then x.slt y else x.ult y
    if isMax then (if lt a b then b else a) else (if lt b a then b else a)

/-- VMIN (R231, R232). -/
def execVmin (o : VForm) (s : State) : Host.Outcome State Fault Refusal := s.vInt o fun a b => (laneMinMax o.ty false a b, 0)
/-- VMAX (R231, R232). -/
def execVmax (o : VForm) (s : State) : Host.Outcome State Fault Refusal := s.vInt o fun a b => (laneMinMax o.ty true a b, 0)

/-- A unary operation (R231): it can set SAT in a saturating integer form. -/
def State.vUnary (s : State) (o : VForm) (f : Lane → FRes) : Host.Outcome State Fault Refusal :=
  let a := s.core.vreg o.a
  s.vElem o 3 (o.sat && o.ty != 0) fun l => f (laneAt a l)

/-- The absolute value of a lane (R231). -/
def laneAbs (ty : BitVec 5) (sat : Bool) (a : Lane) : FRes :=
  if ty = 0 then (a &&& 0x7FFFFFFF, 0)
  else if ty = 0x10 then (a, 0)
  else if a = 0x80000000 && sat then (0x7FFFFFFF, fSAT)
  else (if a.getLsbD 31 then 0 - a else a, 0)

/-- The negation of a lane (R231). -/
def laneNeg (ty : BitVec 5) (sat : Bool) (a : Lane) : FRes :=
  if ty = 0 then (a ^^^ 0x80000000, 0)
  else if sat && ty == 0x0F && a == 0x80000000 then (0x7FFFFFFF, fSAT)
  else if sat && ty == 0x10 && a != 0 then (0, fSAT)
  else (0 - a, 0)

/-- VABS (R231). -/
def execVabs (o : VForm) (s : State) : Host.Outcome State Fault Refusal := s.vUnary o (laneAbs o.ty o.sat)
/-- VNEG (R231). -/
def execVneg (o : VForm) (s : State) : Host.Outcome State Fault Refusal := s.vUnary o (laneNeg o.ty o.sat)
/-- VAND (R231). -/
def execVand (o : VForm) (s : State) : Host.Outcome State Fault Refusal := s.vInt o fun a b => (a &&& b, 0)
/-- VOR (R231). -/
def execVor (o : VForm) (s : State) : Host.Outcome State Fault Refusal := s.vInt o fun a b => (a ||| b, 0)
/-- VXOR (R231). -/
def execVxor (o : VForm) (s : State) : Host.Outcome State Fault Refusal := s.vInt o fun a b => (a ^^^ b, 0)
/-- VNOT (R231). -/
def execVnot (o : VForm) (s : State) : Host.Outcome State Fault Refusal := s.vUnary o fun a => (~~~a, 0)
/-- VSHL (R231). -/
def execVshl (o : VForm) (s : State) : Host.Outcome State Fault Refusal := s.vInt o fun a b => (a <<< (b.toNat % 32), 0)
/-- VSHR (R231). -/
def execVshr (o : VForm) (s : State) : Host.Outcome State Fault Refusal := s.vInt o fun a b => (a >>> (b.toNat % 32), 0)
/-- VSRA (R231). -/
def execVsra (o : VForm) (s : State) : Host.Outcome State Fault Refusal := s.vInt o fun a b => (a.sshiftRight (b.toNat % 32), 0)

/-- The value of a lane in an integer type. -/
def laneInt (ty : BitVec 5) (a : Lane) : Int := if ty = 0x0F then a.toInt else (a.toNat : Int)

/-- An exact integer clamped to the range of a lane type (R231). -/
def clampLane (ty : BitVec 5) (x : Int) : FRes :=
  let lo : Int := if ty = 0x0F then -2147483648 else 0
  let hi : Int := if ty = 0x0F then 2147483647 else 4294967295
  if x < lo then (BitVec.ofInt 32 lo, fSAT) else if hi < x then (BitVec.ofInt 32 hi, fSAT) else (BitVec.ofInt 32 x, 0)

/-- VMULH (R231). -/
def execVmulh (o : VForm) (s : State) : Host.Outcome State Fault Refusal :=
  s.vInt o fun a b => (BitVec.ofInt 32 (laneInt o.ty a * laneInt o.ty b / (2 ^ 32 : Nat)), 0)
/-- VADDS (R231). -/
def execVadds (o : VForm) (s : State) : Host.Outcome State Fault Refusal :=
  s.vInt o (fun a b => clampLane o.ty (laneInt o.ty a + laneInt o.ty b)) true
/-- VSUBS (R231). -/
def execVsubs (o : VForm) (s : State) : Host.Outcome State Fault Refusal :=
  s.vInt o (fun a b => clampLane o.ty (laneInt o.ty a - laneInt o.ty b)) true

/-- A special function (R233): latency 12. -/
def State.vSpecial (s : State) (o : VForm) (f : Nat → Bool → Bool → Lane → FRes) : Host.Outcome State Fault Refusal :=
  let a := s.core.vreg o.a
  s.vElem o 12 true fun l => f o.rm.toNat o.sat s.core.ftz (laneAt a l)

/-- VRCP (R233, R234). -/
def execVrcp (o : VForm) (s : State) : Host.Outcome State Fault Refusal := s.vSpecial o fRcp
/-- VRSQ (R233, R234). -/
def execVrsq (o : VForm) (s : State) : Host.Outcome State Fault Refusal := s.vSpecial o fRsq
/-- VSQRT (R233, R234). -/
def execVsqrt (o : VForm) (s : State) : Host.Outcome State Fault Refusal := s.vSpecial o fSqrt
/-- VDIV (R233, R234). -/
def execVdiv (o : VForm) (s : State) : Host.Outcome State Fault Refusal :=
  let a := s.core.vreg o.a
  let b := s.bLane o
  s.vElem o 12 true fun l => fDiv o.rm.toNat o.sat s.core.ftz (laneAt a l) (b l)
/-- VEXP2 (R233, R234). -/
def execVexp2 (o : VForm) (s : State) : Host.Outcome State Fault Refusal := s.vSpecial o fExp2
/-- VLOG2 (R233, R234). -/
def execVlog2 (o : VForm) (s : State) : Host.Outcome State Fault Refusal := s.vSpecial o fLog2
/-- VTANH (R233, R234). -/
def execVtanh (o : VForm) (s : State) : Host.Outcome State Fault Refusal := s.vSpecial o fTanh
/-- VSIGM (R233, R234). -/
def execVsigm (o : VForm) (s : State) : Host.Outcome State Fault Refusal := s.vSpecial o fSigm
/-- VSINP (R233, R234). -/
def execVsinp (o : VForm) (s : State) : Host.Outcome State Fault Refusal := s.vSpecial o fSinp
/-- VERF (R233, R234). -/
def execVerf (o : VForm) (s : State) : Host.Outcome State Fault Refusal := s.vSpecial o fErf

/-- A mask from a condition on the lanes. -/
def maskOf (f : Nat → Bool) : LaneMask := BitVec.ofNat 1024 ((List.range 1024).foldr (fun l n => (if f l then 1 else 0) + 2 * n) 0)

/-- Push a vector condition whose mask is written after `lat` cycles, with its flags (R200, R262); `can` says that it can set one. -/
def State.pushMask (s : State) (o : VForm) (lat : Nat) (m : LaneMask) (fl : Flags) (can : Bool := false) : State :=
  (s.upd fun c => (c.pushVector m (c.tau + lat)).put lat .none fl can).occupyV o 4

/-- VCMP (R235): signed codes compare as signed and unsigned codes as unsigned, whatever `ty`. -/
def execVcmp (o : VForm) (s : State) : Host.Outcome State Fault Refusal :=
  let a := s.core.vreg o.a
  let b := s.bLane o
  let cc := o.fn.toNat / 4
  let r (l : Nat) : Bool × Flags := if o.ty = 0 then floatCond cc (laneAt a l) (b l) else (intCond cc (laneAt a l) (b l), 0)
  .next (s.pushMask o 3 (maskOf fun l => (r l).1) ((List.range 1024).foldl (fun f l => f ||| (r l).2) 0) (o.ty == 0))

/-- The class of an FP32 encoding as a bit number of VCLS (R236): 8 for a NaN. -/
def laneClass (x : Lane) : Nat :=
  let neg := x.getLsbD 31
  let m := x.toNat % 2 ^ 31
  if m > 0x7F800000 then 8
  else if m = 0x7F800000 then (if neg then 0 else 7)
  else if m = 0 then (if neg then 3 else 4)
  else if m < 0x800000 then (if neg then 2 else 5)
  else (if neg then 1 else 6)

/-- VCLS (R236). -/
def execVcls (o : VForm) (s : State) : Host.Outcome State Fault Refusal :=
  let a := s.core.vreg o.a
  let sel := o.imm8.toNat + (if o.fn.getLsbD 0 then 256 else 0)
  .next (s.pushMask o 3 (maskOf fun l => bitOf sel (laneClass (laneAt a l))) 0)

/-- VSEL (R237): every lane, by the top mask. -/
def execVsel (o : VForm) (s : State) : Host.Outcome State Fault Refusal :=
  let a := s.core.vreg o.a
  let b := s.bLane o
  let m := s.core.topM
  .next ((s.wV 3 o.d (-1) (vOf fun l => if m.getLsbD l then laneAt a l else b l)).occupyV o 4)

/-- VMTOV (R238). -/
def execVmtov (o : VForm) (s : State) : Host.Outcome State Fault Refusal :=
  let m := s.core.topM
  let v := if o.fn.getLsbD 0 then vOf fun l => if l < 32 then m.extractLsb' (32 * l) 32 else 0
           else vOf fun l => if m.getLsbD l then 0xFFFFFFFF else 0
  .next ((s.wV 3 o.d (-1) v).occupyV o 4)

/-- VVTOM (R238). -/
def execVvtom (o : VForm) (s : State) : Host.Outcome State Fault Refusal :=
  let a := s.core.vreg o.a
  .next (s.pushMask o 3
    (maskOf fun l => if o.fn.getLsbD 0 then (laneAt a (l / 32)).getLsbD (l % 32) else laneAt a l != 0) 0)

/-- VMCNT (R239). -/
def execVmcnt (o : VForm) (s : State) : Host.Outcome State Fault Refusal :=
  let m := s.core.topM
  let n := if o.fn.getLsbD 0 then ((List.range 1024).find? fun l => m.getLsbD l).getD 1024
           else (List.range 1024).foldl (fun n l => if m.getLsbD l then n + 1 else n) 0
  .next ((s.wS 3 o.d (BitVec.ofNat 64 n)).occupyV o 1)

/-- The clamp of one lane (R254). -/
def laneClamp (ty : BitVec 5) (a b c : Lane) : Lane :=
  if ty = 0 then (if isNaN a then quiet a else fMinMax false c (fMinMax true a b))
  else laneMinMax ty false c (laneMinMax ty true a b)

/-- VCLMP (R254). -/
def execVclmp (o : VForm) (s : State) : Host.Outcome State Fault Refusal :=
  let a := s.core.vreg o.a
  let b := s.core.vreg o.b
  let c := s.core.vreg o.c
  s.vElem o 3 false fun l => (laneClamp o.ty (laneAt a l) (laneAt b l) (laneAt c l), 0)

end Sys2Proof.Machine
end

