-- ==== Sys2Proof/Machine/VectorMove.lean ====
section
/-! DEFINITION. Moves within a register, reductions and scans, the tensor index of lanes (R240 to R247, R255,
R262). -/

namespace Sys2Proof.Machine

/-- A move: each active lane receives a value (R240), with a latency and an occupancy. -/
def State.vMove (s : State) (o : VForm) (lat : Nat) (f : Nat → Lane) : Host.Outcome State Fault Refusal :=
  .next ((s.wV lat o.d (s.core.lanesOf o.p) (vOf f)).occupyV o 4)

/-- VMOV (R240). -/
def execVmov (o : VForm) (s : State) : Host.Outcome State Fault Refusal :=
  let a := s.core.vreg o.a
  s.vMove o 3 fun l => laneAt a l
/-- VSPLAT (R240). -/
def execVsplat (o : VForm) (s : State) : Host.Outcome State Fault Refusal :=
  let x : Lane := if o.fn.getLsbD 0 then o.imm8.signExtend 32 else (s.core.sreg o.a).setWidth 32
  s.vMove o 3 fun _ => x
/-- VIOTA (R240). -/
def execViota (o : VForm) (s : State) : Host.Outcome State Fault Refusal :=
  let base : Lane := (s.core.sreg o.a).setWidth 32
  let step : Lane := o.imm8.signExtend 32
  s.vMove o 3 fun l =>
    let x := if o.fn.toNat % 4 = 0 then l else if o.fn.toNat % 4 = 1 then l % 64 else l / 64
    base + BitVec.ofNat 32 x * step

/-- The index operand of the axis operations (R241). -/
def State.axisIndex (s : State) (o : VForm) : Nat :=
  if o.fn.getLsbD 0 then (s.core.sreg o.b).toNat % 2 ^ 32 else o.imm8.toNat

/-- VBCR (R241). -/
def execVbcr (o : VForm) (s : State) : Host.Outcome State Fault Refusal :=
  let a := s.core.vreg o.a
  let k := s.axisIndex o % 64
  s.vMove o 4 fun l => laneAt a (l / 64 * 64 + k)
/-- VBCC (R241). -/
def execVbcc (o : VForm) (s : State) : Host.Outcome State Fault Refusal :=
  let a := s.core.vreg o.a
  let r := s.axisIndex o % 16
  s.vMove o 8 fun l => laneAt a (64 * r + l % 64)
/-- VROTR (R241). -/
def execVrotr (o : VForm) (s : State) : Host.Outcome State Fault Refusal :=
  let a := s.core.vreg o.a
  let n := s.axisIndex o
  s.vMove o 4 fun l => laneAt a (l / 64 * 64 + (l + n) % 64)
/-- VROTC (R241). -/
def execVrotc (o : VForm) (s : State) : Host.Outcome State Fault Refusal :=
  let a := s.core.vreg o.a
  let n := s.axisIndex o
  s.vMove o 8 fun l => laneAt a ((l / 64 + n) % 16 * 64 + l % 64)
/-- VPERMR (R242). -/
def execVpermr (o : VForm) (s : State) : Host.Outcome State Fault Refusal :=
  let a := s.core.vreg o.a
  let b := s.core.vreg o.b
  s.vMove o 4 fun l =>
    let x := laneAt b l
    if x.getLsbD 31 then 0 else laneAt a (l / 64 * 64 + x.toNat % 64)

/-- VEXT (R243). -/
def execVext (o : VForm) (s : State) : Host.Outcome State Fault Refusal :=
  let x := laneAt (s.core.vreg o.a) ((s.core.sreg o.b).toNat % 1024)
  .next ((s.wS 4 o.d (if o.ty = 0x0F then x.signExtend 64 else x.setWidth 64)).occupyV o 1)

/-- VINS (R226, R243): one lane, when it is active; the others are those of d at issue. -/
def execVins (o : VForm) (s : State) : Host.Outcome State Fault Refusal :=
  let l := (s.core.sreg o.b).toNat % 1024
  let x : Lane := (s.core.sreg o.a).setWidth 32
  let d := s.core.vreg o.d
  let m : LaneMask := if (s.core.lanesOf o.p).getLsbD l then -1 else 0
  .next ((s.wV 4 o.d m (vOf fun k => if k = l then x else laneAt d k)).occupyV o 1)

/-- VTRN (R244). -/
def execVtrn (o : VForm) (s : State) : Host.Outcome State Fault Refusal :=
  let a := s.core.vreg o.a
  s.vMove o 12 fun l =>
    let row := l / 64
    let q := l % 64 / 16
    let j := l % 16
    laneAt a (64 * j + 16 * q + row)

/-- A combining step of a reduction or a scan (R245): operation code fn[2:0]. -/
def redStep (op : Nat) (ty : BitVec 5) (rm : Nat) (sat ftz : Bool) (p q : Lane × Nat) : (Lane × Nat) × Flags :=
  let bits (x y : Lane) : Lane := match op with | 3 => x &&& y | 4 => x ||| y | _ => x ^^^ y
  if ty = 0 then
    nanStep (fun x y =>
      match op with
      | 0 => fAdd rm false ftz x y
      | 1 => (fMinMax true x y, 0)
      | 2 => (fMinMax false x y, 0)
      | _ => (bits x y, 0)) p q
  else
    let i := Nat.min p.2 q.2
    match op with
    | 0 => (if sat then (let r := clampLane ty (laneInt ty p.1 + laneInt ty q.1); ((r.1, i), r.2)) else ((p.1 + q.1, i), 0))
    | 1 => ((laneMinMax ty true p.1 q.1, i), 0)
    | 2 => ((laneMinMax ty false p.1 q.1, i), 0)
    | _ => ((bits p.1 q.1, i), 0)

/-- An input of a reduction or a scan: an f32 NaN is quiet (R62, R82), and with FTZ a sum reads a subnormal as zero (R75). -/
def redIn (op : Nat) (ty : BitVec 5) (ftz : Bool) (x : Lane) : Lane :=
  if ty = 0 then (if isNaN x then quiet x else if op = 0 then flushIn ftz x else x) else x

/-- The identity of an operation (R245). -/
def redIdentity (op : Nat) (ty : BitVec 5) : Lane :=
  match op with
  | 1 => if ty = 0 then 0xFF800000 else if ty = 0x0F then 0x80000000 else 0
  | 2 => if ty = 0 then 0x7F800000 else if ty = 0x0F then 0x7FFFFFFF else 0xFFFFFFFF
  | 3 => 0xFFFFFFFF
  | _ => 0

/-- One level of the tree of R246: neighbours combine; an absent one passes the other on. -/
def redLevel (step : Lane × Nat → Lane × Nat → (Lane × Nat) × Flags) : List (Option (Lane × Nat)) → List (Option (Lane × Nat)) × Flags
  | some p :: some q :: rest =>
    let (r, f) := step p q
    let (xs, g) := redLevel step rest
    (some r :: xs, f ||| g)
  | none :: q :: rest => let (xs, g) := redLevel step rest; (q :: xs, g)
  | p :: none :: rest => let (xs, g) := redLevel step rest; (p :: xs, g)
  | [p] => ([p], 0)
  | [] => ([], 0)

/-- The tree of R246 over `2^k` inputs. -/
def redTree (step : Lane × Nat → Lane × Nat → (Lane × Nat) × Flags) : Nat → List (Option (Lane × Nat)) → Option (Lane × Nat) × Flags
  | 0, xs => ((xs.headD none), 0)
  | k + 1, xs =>
    let (ys, f) := redLevel step xs
    let (r, g) := redTree step k ys
    (r, f ||| g)

/-- An input of a reduction on the focused core. -/
def State.redArg (s : State) (o : VForm) (x : Lane) : Lane := redIn (o.fn.toNat % 8) o.ty s.core.ftz x

/-- The operation can set a flag (R222): an f32 sum, or a saturating integer one. -/
def redFlags (o : VForm) : Bool := o.fn.toNat % 8 == 0 && (o.ty == 0 || o.sat)

/-- The operation of a reduction on the focused core. -/
def State.redOp (s : State) (o : VForm) : Lane × Nat → Lane × Nat → (Lane × Nat) × Flags :=
  redStep (o.fn.toNat % 8) o.ty o.rm.toNat o.sat s.core.ftz

/-- VREDR (R246). -/
def execVredr (o : VForm) (s : State) : Host.Outcome State Fault Refusal :=
  let a := s.core.vreg o.a
  let m := s.core.lanesOf o.p
  let rs := (List.range 16).map fun row =>
    redTree (s.redOp o) 6 ((List.range 64).map fun k => if m.getLsbD (64 * row + k) then some (s.redArg o (laneAt a (64 * row + k)), k) else none)
  let vals := (rs.map fun r => match r.1 with | some p => p.1 | none => 0).toArray
  .next ((s.wV 10 o.d m (vOf fun l => vals.getD (l / 64) 0) (rs.foldl (fun f r => f ||| r.2) 0) (redFlags o)).occupyV o 4)

/-- VREDC (R246). -/
def execVredc (o : VForm) (s : State) : Host.Outcome State Fault Refusal :=
  let a := s.core.vreg o.a
  let m := s.core.lanesOf o.p
  let rs := (List.range 64).map fun k =>
    redTree (s.redOp o) 4 ((List.range 16).map fun row => if m.getLsbD (64 * row + k) then some (s.redArg o (laneAt a (64 * row + k)), row) else none)
  let vals := (rs.map fun r => match r.1 with | some p => p.1 | none => 0).toArray
  .next ((s.wV 14 o.d m (vOf fun l => vals.getD (l % 64) 0) (rs.foldl (fun f r => f ||| r.2) 0) (redFlags o)).occupyV o 4)

/-- The fold of VSCANR over the active lanes of a row (R247): for each, the value before it (none at the
first) and the running value. -/
def scanFold (step : Lane × Nat → Lane × Nat → (Lane × Nat) × Flags) :
    Option (Lane × Nat) → List (Lane × Nat) → List (Nat × Option Lane × Lane) × Flags
  | _, [] => ([], 0)
  | none, x :: xs =>
    let (r, f) := scanFold step (some x) xs
    ((x.2, none, x.1) :: r, f)
  | some t, x :: xs =>
    let (u, f) := step t x
    let (r, g) := scanFold step (some (u.1, u.2)) xs
    ((x.2, some t.1, u.1) :: r, f ||| g)

/-- VSCANR (R247). -/
def execVscanr (o : VForm) (s : State) : Host.Outcome State Fault Refusal :=
  let a := s.core.vreg o.a
  let m := s.core.lanesOf o.p
  let excl := o.fn.getLsbD 3
  let rs := (List.range 16).map fun row =>
    let xs := (List.range 64).filterMap fun k => if m.getLsbD (64 * row + k) then some (s.redArg o (laneAt a (64 * row + k)), k) else none
    let (r, f) := scanFold (s.redOp o) none xs
    (r.map fun x => (64 * row + x.1, if excl then x.2.1.getD (redIdentity (o.fn.toNat % 8) o.ty) else x.2.2), f)
  .next ((s.wV 10 o.d m (vOfLanes (rs.flatMap Prod.fst)) (rs.foldl (fun f r => f ||| r.2) 0) (redFlags o)).occupyV o 4)

/-- VTIDX (R255): ILLOP when the coordinate is at or above D. -/
def execVtidx (o : VForm) (s : State) : Host.Outcome State Fault Refusal :=
  let h := s.core.shape (o.fn.toNat % 16)
  let k := o.imm8.toNat % 8
  if k ≥ h.dims then .next (s.trapOp ILLOP (.vtidx o))
  else
    let a := s.core.vreg o.a
    s.vMove o 6 fun l => BitVec.ofNat 32 (tidxCoord h (laneAt a l).toNat k)

end Sys2Proof.Machine
end

