-- ==== Sys2Proof/Machine/VectorConv.lean ====
section
/-! DEFINITION. Conversions, packing, block quantisation and bound checks of the V slots (R69 to R71, R248 to
R254). -/

namespace Sys2Proof.Machine

/-- Take the next random word (R69, R71, R355): a segment that has popped sixteen closes first. -/
def State.popWord (s : State) : Option (Word × State) :=
  match s.core.rbq with
  | [] => none
  | w :: rest =>
    let s := match s.core.seg with
      | some g => if g.words.length ≥ 16 then s.commitSeg else s
      | none => s
    some (w, s.upd fun c => { c with rbq := rest, seg := c.seg.map fun g => { g with words := g.words ++ [w] } })

/-- An operation that rounds: under SR it takes the bundle's random word, popped once for each bundle, and it
waits while the queue is empty (R69). -/
def State.withWord (s : State) (rm : BitVec 3) (f : Nat → State → State) : State :=
  if rm ≠ 5 then f 0 s
  else
    match s.core.word with
    | some w => f w.toNat s
    | none =>
      match s.popWord with
      | none => s.wait
      | some (w, s) => f w.toNat (s.upd fun c => { c with word := some w })

/-- The random bits of a result (R70): lane, slot, result number 0. -/
def srBits (o : VForm) (w l : Nat) : Nat := mix w (l + (if o.v1 then 1024 else 0))

/-- The check of an element as written (R253): no bound register when `tid` is 0. -/
def State.checkLane (s : State) (o : VForm) (f : Nat) (x : Nat) : Nat × Bool :=
  if o.tid = 0 then (x, false) else checkPlain (s.core.bound o.tid) f x

/-- The BOUND trap of an operation with a latency becomes due when its result is written (R253). -/
def State.trapLater (s : State) (o : VForm) (lat : Nat) (out : Bool) : State :=
  if o.tid ≠ 0 ∧ trapDue (s.core.bound o.tid) out then s.upd fun c => c.put lat (.bound (issueKey c.tau (if o.v1 then 3 else 2)) o.tid) else s

/-- A conversion of each active lane with the check of R253 (R248, R249, R252, R254): `conv` gives the element
bits and flags of a lane, in format `f`. -/
def State.vConv (s : State) (o : VForm) (lat f : Nat) (conv : Nat → Nat × Flags) : State :=
  let m := s.core.lanesOf o.p
  let rs : Vector (Nat × Flags × Bool) 1024 := Vector.ofFn fun i =>
    if m.getLsbD i.val then (let r := conv i.val; let k := s.checkLane o f r.1; (k.1, r.2 ||| flagIf k.2 fBND, k.2)) else (0, 0, false)
  let s := s.wV lat o.d m (rs.map fun r => BitVec.ofNat 32 r.1) (rs.foldl (fun g r => g ||| r.2.1) 0) true
  (s.trapLater o lat (rs.any fun r => r.2.2)).occupyV o 4

/-- VCVT (R248). -/
def execVcvt (o : VForm) (s : State) : Host.Outcome State Fault Refusal :=
  .next (s.withWord o.rm fun w s =>
    let a := s.core.vreg o.a
    let src := o.fn.toNat % 32
    s.vConv o 6 o.ty.toNat fun l =>
      vcvtElem o.ty.toNat src o.rm.toNat (srBits o w l) o.sat s.core.ftz ((laneAt a l).toNat % 2 ^ formatBits src))

/-- The scaling of one lane by 2^n (R249). -/
def laneScale (rm r : Nat) (sat ftz : Bool) (a : Lane) (n : Int) : Nat × Flags :=
  let a := flushIn ftz a
  match f32Val a with
  | .nan _ _ => ((quiet a).toNat, 0)
  | .inf _ => (a.toNat, 0)
  | .fin s m e =>
    if m = 0 then (a.toNat, 0)
    else flushOut fp32 ftz (fp32.convert rm r sat (.fin s m (e + max (-512) (min 512 n))))

/-- VSCL (R249). -/
def execVscl (o : VForm) (s : State) : Host.Outcome State Fault Refusal :=
  .next (s.withWord o.rm fun w s =>
    let a := s.core.vreg o.a
    let b := s.bLane o
    s.vConv o 6 0 fun l => laneScale o.rm.toNat (srBits o w l) o.sat s.core.ftz (laneAt a l) (b l).toInt)

/-- VBCHK (R254). -/
def execVbchk (o : VForm) (s : State) : Host.Outcome State Fault Refusal :=
  let a := s.core.vreg o.a
  .next (s.vConv o 3 o.ty.toNat fun l => ((laneAt a l).toNat % 2 ^ formatBits o.ty.toNat, 0))

/-- A lane of a part of VPACK (R250): 2w lanes of each row from lane 2w·p. -/
def partLane (w p l : Nat) : Bool := 2 * w * p ≤ l % 64 && l % 64 < 2 * w * (p + 1)

/-- VPACK (R226, R250): the lanes outside the part are those of d at issue. -/
def execVpack (o : VForm) (s : State) : Host.Outcome State Fault Refusal :=
  let a := s.core.vreg o.a
  let w := formatBits o.ty.toNat
  let p := o.fn.toNat % 16
  let k := 32 / w
  let d := s.core.vreg o.d
  .next ((s.wV 4 o.d (-1) (vOf fun l =>
    if partLane w p l then
      let j := l % 64 - 2 * w * p
      BitVec.ofNat 32 ((List.range k).foldr (fun i n => (laneAt a (l / 64 * 64 + k * j + i)).toNat % 2 ^ w + 2 ^ w * n) 0)
    else laneAt d l)).occupyV o 4)

/-- VUNPK (R250). -/
def execVunpk (o : VForm) (s : State) : Host.Outcome State Fault Refusal :=
  let a := s.core.vreg o.a
  let w := formatBits o.ty.toNat
  let p := o.fn.toNat % 16
  let k := 32 / w
  .next ((s.wV 4 o.d (-1) (vOf fun l =>
    BitVec.ofNat 32 ((laneAt a (l / 64 * 64 + 2 * w * p + l % 64 / k)).toNat / 2 ^ (w * (l % 64 % k)) % 2 ^ w))).occupyV o 4)

/-- A block format is a PSB format (R12). -/
def isPsb (f : Nat) : Bool := f == 0x08 || f == 0x09 || f == 0x0A

/-- Elements of a block (R251): 16 for PSB, else 32. -/
def blockLen (f : Nat) : Nat := if isPsb f then 16 else 32

/-- E and S of R251: element bytes and scale bytes of a row. -/
def rowElemBytes (f : Nat) : Nat := 8 * formatBits f
def rowScaleBytes (f : Nat) : Nat := if isPsb f then 8 else 2

/-- A block as quantised: its elements, scale bytes and flags (R77, R78). -/
def quantBlock (f rm : Nat) (vs : List FVal) (rs : List Nat) : List Nat × List Byte × Flags :=
  if isPsb f then
    let (es, e, h, fl) := quantPsb (formatBits f) rm vs rs
    (es, [BitVec.ofNat 8 e, BitVec.ofNat 8 h], fl)
  else
    let (es, x, fl) := quantScaled f rm vs rs
    (es, [BitVec.ofNat 8 x], fl)

/-- The check of a quantised block's elements (R253). -/
def checkBlock (b : Bound) (f : Nat) (es : List Nat) (sc : List Byte) : List Nat × Bool :=
  let rs := (es.zip (List.range es.length)).map fun x => checkScaled b f (sc.getD 0 0).toNat (sc.getD 1 0).toNat x.2 x.1
  (rs.map Prod.fst, rs.any Prod.snd)

/-- The quantised planes of one row: element bytes, scale bytes, flags, and whether an element was out of
bounds (R251). -/
def State.quantRow (s : State) (o : VForm) (w row : Nat) : List Byte × List Byte × Flags × Bool :=
  let f := o.ty.toNat
  let n := blockLen f
  let a := s.core.vreg o.a
  let bs := (List.range (64 / n)).map fun j =>
    let lanes := (List.range n).map fun i => 64 * row + n * j + i
    let (es, sc, fl) := quantBlock f o.rm.toNat (lanes.map fun l => f32Val (flushIn s.core.ftz (laneAt a l))) (lanes.map fun l => srBits o w l)
    if o.tid = 0 then (es, sc, fl, false)
    else
      let (es, out) := checkBlock (s.core.bound o.tid) f es sc
      (es, sc, fl ||| flagIf out fBND, out)
  (packStream (formatBits f) (bs.flatMap fun b => b.1), bs.flatMap fun b => b.2.1, bs.foldl (fun g b => g ||| b.2.2.1) 0, bs.any fun b => b.2.2.2)

/-- VQNT (R251). -/
def execVqnt (o : VForm) (s : State) : Host.Outcome State Fault Refusal :=
  .next (s.withWord o.rm fun w s =>
    let f := o.ty.toNat
    let p := o.fn.toNat % 16
    let rows := (List.range 16).map fun r => s.quantRow o w r
    let s1 := s.wBytes 16 o.d (rowElemBytes f * p) (rows.map fun r => r.1) (rows.foldl (fun g r => g ||| r.2.2.1) 0) true
    ((s1.wBytes 16 o.c (rowScaleBytes f * p) (rows.map fun r => r.2.1)).trapLater o 16 (rows.any fun r => r.2.2.2)).occupyV o 4)

/-- VDQT (R252). -/
def execVdqt (o : VForm) (s : State) : Host.Outcome State Fault Refusal :=
  .next (s.withWord o.rm fun w s =>
    let f := o.ty.toNat
    let p := o.fn.toNat % 16
    let n := blockLen f
    let a := s.core.vreg o.a
    let c := s.core.vreg o.c
    let es := ((List.range 16).map fun r => sliceOf (rowBytes a r) (rowElemBytes f * p) (rowElemBytes f)).toArray
    let ss := ((List.range 16).map fun r => sliceOf (rowBytes c r) (rowScaleBytes f * p) (rowScaleBytes f)).toArray
    s.vConv o 16 0 fun l =>
      let k := l % 64
      let sc := ss.getD (l / 64) []
      let e0 := if isPsb f then sc.getD (k / n * 2) 0 else sc.getD (k / n) 0
      let e1 := if isPsb f then sc.getD (k / n * 2 + 1) 0 else 0
      let x := streamElem (es.getD (l / 64) []) (formatBits f) k
      flushOut fp32 s.core.ftz (fp32.convert o.rm.toNat (srBits o w l) o.sat (blockVal f x e0.toNat e1.toNat (k % n))))

end Sys2Proof.Machine
end

