-- ==== Sys2Proof/Machine/VectorStream.lean ====
section
/-! DEFINITION. Conditional streams and result-queue pops of the V slots (R256 to R261). -/

namespace Sys2Proof.Machine

/-- Words of a record (R256). -/
def recordLen (o : VForm) : Nat := if o.fn.getLsbD 0 then 2 else 1

/-- The words that VSPUSH appends to sub-queue `g` (R257). -/
def State.pushWords (s : State) (o : VForm) (g : Nat) : List Lane :=
  let a := s.core.vreg o.a
  let b := s.core.vreg o.b
  let m := s.core.lanesOf o.p
  (List.range 256).flatMap fun i =>
    let l := 256 * g + i
    if m.getLsbD l then (if o.fn.getLsbD 0 then [laneAt a l, laneAt b l] else [laneAt a l]) else []

/-- VSPUSH (R257): QUEUE when a sub-queue would hold more than 512 words. -/
def execVspush (o : VForm) (s : State) : Host.Outcome State Fault Refusal :=
  let new : Vector (List Lane) 4 := Vector.ofFn fun g => s.core.streams[g] ++ s.pushWords o g.val
  if new.any fun q => q.length > 512 then .next (s.trap QUEUE (vSlot o) 0)
  else .next (((s.commitSeg).upd fun c => { c with streams := new }).occupyV o 4)

/-- VSPOP (R258). -/
def execVspop (o : VForm) (s : State) : Host.Outcome State Fault Refusal :=
  let r := recordLen o
  let s := s.commitSeg
  let qs := (s.core.streams.toList.map List.toArray).toArray
  let n (g : Nat) : Nat := Nat.min 256 ((qs.getD g #[]).size / r)
  let word (j l : Nat) : Lane := if l % 256 < n (l / 256) then (qs.getD (l / 256) #[]).getD (r * (l % 256) + j) 0 else 0
  let m := maskOf fun l => l % 256 < n (l / 256)
  let s := s.wV 6 o.d (-1) (vOf (word 0))
  let s := if r = 2 then s.wV 6 o.c (-1) (vOf (word 1)) else s
  let s := s.upd fun c => { c with streams := Vector.ofFn fun g => c.streams[g].drop (r * n g.val) }
  .next (s.pushMask o 6 m 0)

/-- VSBAL (R259): whole records in order, shared out in consecutive runs; a trailing incomplete record stays at
its own tail. -/
def execVsbal (o : VForm) (s : State) : Host.Outcome State Fault Refusal :=
  let r := recordLen o
  let s := s.commitSeg
  let whole (q : List Lane) : Nat := q.length / r * r
  let qs := s.core.streams.toList
  let all := qs.flatMap fun q => q.take (whole q)
  let t := all.length / r
  let share (g : Nat) : Nat := t / 4 + (if g < t % 4 then 1 else 0)
  let start (g : Nat) : Nat := (List.range g).foldl (fun n k => n + share k) 0
  let new : Vector (List Lane) 4 := Vector.ofFn fun g =>
    (all.drop (r * start g.val)).take (r * share g.val) ++ (s.core.streams[g]).drop (whole s.core.streams[g])
  .next ((s.upd fun c => { c with streams := new }).occupyV o (4 + (t + 63) / 64))

/-- The queue of a VQPOP (R260). -/
def popQueue (o : VForm) : BitVec 2 := o.fn.setWidth 2

/-- VQPOP, value part (R260): the pop takes place whatever lanes are active. -/
def execVqpop (o : VForm) (s : State) : Host.Outcome State Fault Refusal :=
  .next (s.withHead (popQueue o) (vSlot o) fun e s =>
    let v := vOf fun l => tileAt e.elems (l / 64) (64 * e.popped + l % 64)
    ((s.wV 4 o.d (s.core.lanesOf o.p) v).upd fun c => c.popQuarter (popQueue o)).occupyV o 4)

/-- VQPOP.side (R260). -/
def execVqpopSide (o : VForm) (s : State) : Host.Outcome State Fault Refusal :=
  .next (s.withHead (popQueue o) (vSlot o) fun e s =>
    let v := vOf fun l => tileAt e.sides (l / 64) (64 * (o.imm8.toNat % 4) + l % 64)
    (s.wV 4 o.d (s.core.lanesOf o.p) v).occupyV o 4)

/-- VQPOP.info (R260). -/
def execVqpopInfo (o : VForm) (s : State) : Host.Outcome State Fault Refusal :=
  .next (s.withHead (popQueue o) (vSlot o) fun e s =>
    let v := vOf fun l =>
      if l = 0 then e.ovc.setWidth 32 else if l = 1 then BitVec.ofNat 32 (e.tile.toNat + 4 * e.popped) else 0
    (s.wV 4 o.d (s.core.lanesOf o.p) v).occupyV o 4)

end Sys2Proof.Machine
end

