-- ==== Sys2Proof/Machine/MatrixRow.lean ====
section
/-! DEFINITION. Exact sums, operand alignment (R86 to R89), and the feeder (R269 to R277). -/

namespace Sys2Proof.Machine

/-- The exact sum of two dyadic numbers. -/
def Dyadic.add (a b : Dyadic) : Dyadic :=
  if a.m = 0 then b
  else if b.m = 0 then a
  else
    let e := min a.e b.e
    ⟨a.m * (2 ^ (a.e - e).toNat : Nat) + b.m * (2 ^ (b.e - e).toNat : Nat), e⟩

/-- The opposite of a dyadic number. -/
def Dyadic.neg (a : Dyadic) : Dyadic := ⟨-a.m, a.e⟩

/-- The magnitude of a dyadic number. -/
def Dyadic.abs (a : Dyadic) : Dyadic := ⟨a.m.natAbs, a.e⟩

/-- The exact product of two dyadic numbers. -/
def Dyadic.mul (a b : Dyadic) : Dyadic := ⟨a.m * b.m, a.e + b.e⟩

/-- The exact sum of dyadic numbers. -/
def dySum (xs : List Dyadic) : Dyadic := xs.foldl Dyadic.add ⟨0, 0⟩

/-- a < b. -/
def Dyadic.lt (a b : Dyadic) : Bool := decide ((b.add a.neg).m > 0)

/-- A dyadic number as a value. -/
def Dyadic.val (a : Dyadic) : FVal := .fin (decide (a.m < 0)) a.m.natAbs a.e

/-- The value of a finite FP32 encoding as a dyadic number; 0 for an infinity or a NaN. -/
def dyOf (x : Lane) : Dyadic :=
  match f32Val x with
  | .fin s m e => ⟨if s then -(m : Int) else m, e⟩
  | _ => ⟨0, 0⟩

/-- P of R86: the magnitude planes of an activation format. -/
def planesOf (f : Nat) : Nat :=
  match f with
  | 0x0E => 2
  | 0x0A => 4 | 0x0D => 4 | 0x07 => 4
  | 0x05 => 6 | 0x06 => 6 | 0x09 => 6
  | 0x0B => 8 | 0x0C => 8 | 0x03 => 8 | 0x04 => 8
  | 0x08 => 9
  | _ => 12

/-- w of R87: the aligned width of a weight format. -/
def widthOf (f : Nat) : Nat :=
  match f with
  | 0x0E => 2
  | 0x0D => 4 | 0x07 => 4 | 0x0A => 4
  | 0x0B => 8 | 0x03 => 8 | 0x04 => 8 | 0x05 => 8 | 0x06 => 8 | 0x09 => 8
  | _ => 16

/-- The integer formats, which align with G = 0 (R88). -/
def isIntFmt (f : Nat) : Bool := f == 0x0B || f == 0x0C || f == 0x0D || f == 0x0E

/-- The mantissas of a group of activation values under exponent G, and whether one is inexact (R88). -/
def mantissas (G : Int) (vs : List FVal) : List (Bool × Nat) × Bool :=
  let rs := vs.map fun v => match v with
    | .fin s m e => (let x := dyad m (e - G); let k := roundNat 0 0 s x.1 x.2; ((s, k.1), k.2))
    | _ => ((false, 0), false)
  (rs.map Prod.fst, rs.any Prod.snd)

/-- align of R88 for activations: exponent, signed magnitudes, inexact. -/
def alignGroup (lim : Nat) (int : Bool) (vs : List FVal) : Int × List (Bool × Nat) × Bool :=
  let am := amaxOf vs
  let G : Int := if int || am.1 == 0 then 0 else dyLog2 am.1 am.2 - Nat.log2 lim
  let (ms, ix) := mantissas G vs
  if ms.any fun x => x.2 > lim then
    let (ms, ix) := mantissas (G + 1) vs
    (G + 1, ms, ix)
  else (G, ms, ix)

/-- A row of 256 values aligned in 16 groups (R88), and whether the alignment is inexact. -/
def alignRow (planes : Nat) (int : Bool) (vs : List FVal) : Row × Bool :=
  let gs := (List.range 16).map fun g => alignGroup (2 ^ planes - 1) int ((vs.drop (16 * g)).take 16)
  let ms := (gs.flatMap fun g => g.2.1).toArray
  ({ finite := true,
     exps := Vector.ofFn fun g => (gs.getD g.val (0, [], false)).1
     mags := Vector.ofFn fun k => (ms.getD k.val (false, 0)).2
     neg := BitVec.ofNat 256 ((List.range 256).foldr (fun k acc => (if (ms.getD k (false, 0)).1 then 1 else 0) + 2 * acc) 0)
     marked := false },
   gs.any fun g => g.2.2)

/-- The values of a row's elements (R57, R58, R271): `scaled` when the row has a scale plane. -/
def rowValues (f : Nat) (scaled : Bool) (elems scales : List Byte) : List FVal :=
  let w := formatBits f
  let es := elems.toArray
  let sc := scales.toArray
  let b (a : Array Byte) (i : Nat) : Nat := (a.getD i 0).toNat
  let elem (k : Nat) : Nat :=
    (b es (w * k / 8) + 256 * b es (w * k / 8 + 1) + 65536 * b es (w * k / 8 + 2)) / 2 ^ (w * k % 8) % 2 ^ w
  (List.range 256).map fun k =>
    if !scaled then elemVal f (elem k)
    else if isPsb f then blockVal f (elem k) (b sc (2 * (k / 16))) (b sc (2 * (k / 16) + 1)) (k % 16)
    else blockVal f (elem k) (b sc (k / 32)) 0 (k % 32)

/-- A value that makes a row non-finite (R89). -/
def FVal.finite : FVal → Bool
  | .fin _ _ _ => true
  | _ => false

/-- The latched row of fetched bytes (R275), and whether its alignment is inexact. -/
def decodeRow (f : Nat) (scaled : Bool) (elems scales : List Byte) : Row × Bool :=
  let vs := rowValues f scaled elems scales
  if vs.all FVal.finite then alignRow (planesOf f) (isIntFmt f) vs
  else ({ Row.zero with finite := false }, false)

/-- Fields of a feeder descriptor (R270). -/
def fdB (d : List Byte) : Nat := fieldAt d 0 8
def fdSpace (d : List Byte) : Nat := fieldAt d 8 1
def fdUnfold (d : List Byte) : Bool := fieldAt d 9 1 == 1
def fdScales (d : List Byte) : Bool := bitOf (fieldAt d 0xA 1) 0
def fdN (d : List Byte) : Nat := fieldAt d 0xC 4

/-- A descriptor obeys R270. -/
def fdValid (d : List Byte) : Bool :=
  let rng (off n hi : Nat) : Bool := 1 ≤ fieldAt d off n && fieldAt d off n ≤ hi
  1 ≤ fdSpace d && fdSpace d ≤ 3 && fieldAt d 9 1 ≤ 1 && fieldAt d 0xA 1 ≤ 1 && zeroAt d 0xB 1 && zeroAt d 0x28 24
    && (!fdUnfold d
        || (rng 0x10 2 65535 && rng 0x12 2 65535 && rng 0x14 2 65535 && rng 0x16 1 15 && rng 0x17 1 15
            && rng 0x18 1 15 && rng 0x19 1 15 && rng 0x1A 1 15 && rng 0x1B 1 15 && fieldAt d 0x1C 1 ≤ 15 && fieldAt d 0x1D 1 ≤ 15
            && zeroAt d 0x1E 2 && rng 0x20 2 65535 && rng 0x22 2 65535))

/-- A row's values come with scales (R271). -/
def fdScaled (d : List Byte) (f : Nat) : Bool :=
  isPsb f || f == 0x05 || f == 0x06 || f == 0x07 || ((f == 0x03 || f == 0x04) && fdScales d)

/-- The format is refused at a latch in unfold mode (R275). -/
def fdRefuses (d : List Byte) (f : Nat) : Bool :=
  fdUnfold d && (isPsb f || f == 0x05 || f == 0x06 || f == 0x07 || ((f == 0x03 || f == 0x04) && fdScales d))

/-- The element index of unfold (R272), or none where it gives 0. -/
def unfoldIndex (d : List Byte) (n k : Nat) : Option Nat :=
  let C := fieldAt d 0x10 2
  let W := fieldAt d 0x12 2
  let H := fieldAt d 0x14 2
  let kw := fieldAt d 0x16 1
  let kh := fieldAt d 0x17 1
  let OW := fieldAt d 0x20 2
  let OH := fieldAt d 0x22 2
  if n ≥ fdN d ∨ n ≥ OW * OH then none
  else
    let u := fieldAt d 0x24 4 + k
    let c := u % C
    let kx := u / C % kw
    let ky := u / (C * kw)
    if ky ≥ kh then none
    else
      let iy : Int := (n / OW * fieldAt d 0x19 1 + ky * fieldAt d 0x1B 1 : Nat) - (fieldAt d 0x1D 1 : Nat)
      let ix : Int := (n % OW * fieldAt d 0x18 1 + kx * fieldAt d 0x1A 1 : Nat) - (fieldAt d 0x1C 1 : Nat)
      if iy < 0 ∨ iy ≥ H ∨ ix < 0 ∨ ix ≥ W then none else some ((iy.toNat * W + ix.toNat) * C + c)

/-- One byte of a row, as a load of the task reads it (R273), or the fault and its offset (R274). -/
def State.rowByte (s : State) (as : Nat) (x : Nat) : Except (Nat × Nat) Byte :=
  match s.place as x 1 .load with
  | .error c => .error (c, addrInfo x)
  | .ok p => if (s.poisoned 1 [p]).isSome then .error (POISON, addrInfo x) else .ok (s.byteAt p.1 p.2)

/-- Bytes of a row from an offset up. -/
def State.rowBytesAt (s : State) (as : Nat) : Nat → Nat → Except (Nat × Nat) (List Byte)
  | _, 0 => .ok []
  | x, n + 1 =>
    match s.rowByte as x with
    | .error e => .error e
    | .ok b =>
      match s.rowBytesAt as (x + 1) n with
      | .error e => .error e
      | .ok bs => .ok (b :: bs)

/-- The elements of a row in unfold mode, packed as a row of 256 elements (R272). -/
def State.unfoldRow (s : State) (d : List Byte) (f n : Nat) : Nat → Except (Nat × Nat) (List Nat)
  | 0 => .ok []
  | k + 1 =>
    match s.unfoldRow d f n k with
    | .error e => .error e
    | .ok xs =>
      match unfoldIndex d n k with
      | none => .ok (xs ++ [0])
      | some i =>
        let w := formatBits f
        match s.rowBytesAt (fdSpace d) (fdB d + w * i / 8) ((w + 7) / 8) with
        | .error e => .error e
        | .ok bs => .ok (xs ++ [leNat bs / 2 ^ (w * i % 8) % 2 ^ w])

/-- The bytes of row `n` (R271, R272): elements and scales, or the fault of the fetch. -/
def State.readRow (s : State) (d : List Byte) (f n : Nat) : Except (Nat × Nat) (List Byte × List Byte) :=
  if fdUnfold d then
    match s.unfoldRow d f n 256 with
    | .error e => .error e
    | .ok xs => .ok (packStream (formatBits f) xs, [])
  else
    let x := fdB d + n * fieldAt d 0x10 8
    let y := fieldAt d 0x18 8 + n * fieldAt d 0x20 8
    let sc := fdScaled d f
    if sc && x % 64 != 0 then .error (ALIGN, addrInfo x)
    else if sc && y % 64 != 0 then .error (ALIGN, addrInfo y)
    else
      match s.rowBytesAt (fdSpace d) x (32 * formatBits f) with
      | .error e => .error e
      | .ok es =>
        if !sc then .ok (es, [])
        else
          match s.rowBytesAt (fdSpace d) y (if isPsb f then 32 else 8) with
          | .error e => .error e
          | .ok ss => .ok (es, ss)

/-- The read of row `n` (R273): a P-space row arrives 4 cycles later, another one when its event says so. -/
def State.fetchRow (s : State) (d : List Byte) (n : Nat) : Fetched :=
  let f := s.core.fmt.cur.extractLsb' 0 5
  let due := if fdSpace d = 1 then some (s.core.wall + 4) else none
  if fdRefuses d f.toNat then { n := n, afmt := f, elems := [], scales := [], fault := none, due := due }
  else
    match s.readRow d f.toNat n with
    | .error e => { n := n, afmt := f, elems := [], scales := [], fault := some e, due := due }
    | .ok x => { n := n, afmt := f, elems := x.1, scales := x.2, fault := none, due := due }

/-- Row `n` of a descriptor is a zero row, which is not read (R272, R273). -/
def fdZeroRow (d : List Byte) (n : Nat) : Bool :=
  n ≥ fdN d || (fdUnfold d && n ≥ fieldAt d 0x20 2 * fieldAt d 0x22 2)

/-- The reads of several rows (R273). -/
def State.fetchRows (s : State) (d : List Byte) (ns : List Nat) : List Fetched :=
  (ns.filter fun n => !fdZeroRow d n).map fun n => s.fetchRow d n

/-- What latching the next row meets (R273 to R275). -/
inductive Latch where
  | illop
  | fault (code off : Nat)
  | waiting
  | row (f : Feeder) (flags : Flags)

/-- Latch the next row (R275): `pp` and `rp` are the caller's. A row whose fetch faulted, or whose AFMT differs, is
read again here. -/
def State.latchRow (s : State) : Latch :=
  let fd := s.core.mat.feeder
  let f := s.core.fmt.cur.extractLsb' 0 5
  match fd.desc with
  | none => .illop
  | some d =>
    if fdRefuses d f.toNat then .illop
    else
      let n := fd.pos
      let rest := (fd.pre.filter fun r => r.n > n) ++ s.fetchRows d [n + 3]
      if fdZeroRow d n then .row { fd with pos := n + 1, lrow := Row.zero, pre := rest } 0
      else
        let again : Fetched := { s.fetchRow d n with due := some s.core.wall }
        let r := match fd.pre.find? fun r => r.n == n with
          | some r => if r.afmt == f && r.fault.isNone then r else again
          | none => again
        match r.fault with
        | some e => .fault e.1 e.2
        | none =>
          if !(match r.due with | some t => t ≤ s.core.wall | none => false) then .waiting
          else
            let (row, ix) := decodeRow f.toNat (fdScaled d f.toNat) r.elems r.scales
            .row { fd with pos := n + 1, lrow := row, pre := rest } (flagIf ix fALGN)

/-- The fault of a row's fetch (R274): a poisoned byte is consumed, the others are traps of the M slot. -/
def State.rowFault (s : State) (code off : Nat) : State :=
  if code = POISON then
    match s.core.mat.feeder.desc with
    | some d =>
      (match s.place (fdSpace d) off 1 .load with
       | .ok p => s.consumeHere (.memory p.1 p.2) off
       | .error _ => s.trap POISON .m off)
    | none => s.trap POISON .m off
  else s.trap code .m off

/-- The end of the P space that a descriptor may lie in: the task's footprint, or a queue processor's data
memory (R276, R317, R397). -/
def State.descLimit (s : State) : Nat :=
  match s.core.task with | some t => t.foot | none => if s.isQp then s.pExtent else 0

/-- FEEDCFG (R276). -/
def execFeedcfg (o : XForm) (s : State) : Host.Outcome State Fault Refusal :=
  s.ifAllowedG (.feedcfg o) o.g fun s =>
    let x := (s.core.sreg o.a).toNat
    if x % 64 ≠ 0 then s.trap ALIGN .x (addrInfo x)
    else if x + 64 > s.descLimit then s.trap XLATE .x (addrInfo x)
    else if (s.poisoned 64 [(.own, x)]).isSome then s.consumeHere (.memory .own x) x
    else
      let d := s.bytesAt .own x 64
      if !fdValid d then s.trapOp ILLOP (.feedcfg o)
      else
        let pre := s.fetchRows d [0, 1, 2]
        s.upd fun c =>
          { c with mat := { c.mat with feeder := { Feeder.reset with desc := some d, pre := pre } }
                   seg := c.seg.map fun g => { g with feederMoved := true } }

/-- FEEDER_ROW_ARRIVE: the prefetched row with the index that the event names arrives (R273). -/
def execFeederRowArrive (s : State) : Host.Outcome State Fault Refusal :=
  .next (s.upd fun c =>
    let come (r : Fetched) : Fetched := if r.n == s.ev.index && r.due.isNone then { r with due := some c.wall } else r
    { c with mat := { c.mat with feeder := { c.mat.feeder with pre := c.mat.feeder.pre.map come } } })

end Sys2Proof.Machine
end

