-- ==== Sys2Proof/Machine/MatrixBeat.lean ====
section
/-! DEFINITION. The arithmetic of a beat (R80, R90 to R97, R99) and of a checked drain (R100, R101, R106). -/

namespace Sys2Proof.Machine

/-- The bank that is live (R23); bank 1 when `live` is set. -/
def Core.bankNo (c : Core) : Nat := if c.live then 1 else 0

/-- Bank `b`. -/
def Core.bank (c : Core) (b : Nat) : Bank := c.banks[b % 2]'(Nat.mod_lt _ (by decide))

/-- The array of macro `m` of bank `b` (R23, R95). -/
def Core.array (c : Core) (b m : Nat) : ArrState := c.arrays[(4 * b + m) % 8]'(Nat.mod_lt _ (by decide))

/-- Update an array. -/
def Core.updArray (c : Core) (k : Nat) (f : ArrState → ArrState) : Core :=
  { c with arrays := c.arrays.set (k % 8) (f (c.arrays[k % 8]'(Nat.mod_lt _ (by decide)))) (Nat.mod_lt _ (by decide)) }

/-- The weight format that governs a bank (R112, R265): its recorded one, else FMT.WFMT. -/
def Core.weightFmt (c : Core) (b : Nat) : Nat := ((c.bank b).fmt.getD (c.fmt.cur.extractLsb' 8 5)).toNat

/-- The weight width of a beat (R265). -/
def Core.weightWidth (c : Core) : Nat := widthOf (c.weightFmt c.bankNo)

/-- Cm of R22. -/
def colsPerMacro (w : Nat) : Nat := 512 / w

/-- The tiles that `acc` names (R265), or none where the value is illegal. -/
def tilesNamed (w : Nat) (acc : BitVec 2) : Option (List Nat) :=
  if w ≥ 8 then some [acc.toNat]
  else if w = 4 then (if acc.toNat % 2 = 0 then some [acc.toNat, acc.toNat + 1] else none)
  else if acc = 0 then some [0, 1, 2, 3] else none

/-- The tile that macro `m` feeds (R90). -/
def tileOfMacro (w : Nat) (acc : BitVec 2) (m : Nat) : Nat :=
  if w ≥ 8 then acc.toNat else if w = 4 then acc.toNat + m / 2 else m

/-- The weight mantissa of row `k` of local column `n` of macro `m` (R87, R109), from the plane section. -/
def weightAt (planes : Array Byte) (w m n k : Nat) : Int :=
  let u := (List.range w).foldr
    (fun j acc => (if (planes.getD (16384 * m + 32 * (j * colsPerMacro w + n) + k / 8) 0).getLsbD (k % 8) then 1 else 0) + 2 * acc) 0
  sextInt u w

/-- The part of a weight whose bits lie below charge plane `n` (R91): all of it when the sign bit does. -/
def lowPart (w n : Nat) (x : Int) : Int := if n ≥ w then x else x % (2 ^ n : Nat)

/-- ε(n) of R94. -/
def epsOf (n : Nat) : Nat := if n = 0 then 0 else Nat.max 1 (if n < 3 then 0 else 2 ^ (n - 3))

/-- F of R97: the converter full scale with `n` charge planes. -/
def fullScale (w n : Nat) : Nat := 3 * (if n < w then 16 * (2 ^ n - 1) else 16 * 2 ^ (w - 1)) / 4

/-- A converter reading of Q (R95, R97): the full scale when Q is beyond it, else Q with the error of the part,
reduced into the bound; and whether it clipped. -/
def readingOf (w n f : Nat) (q : Int) (err : Int) : Int × Bool :=
  let F : Int := fullScale w n
  let b : Int := (f * epsOf n : Nat)
  if q.natAbs > fullScale w n then (if q < 0 then -F else F, true) else (q + max (-b) (min b err), false)

/-- sum96 of R91: the sum of the terms in the window, and the magnitude discarded. The exponent of a term is that
of its scale; terms that are zero have none (log 20). -/
def sum96 (ts : List Dyadic) : Dyadic × Dyadic :=
  match ts.filter fun t => t.m != 0 with
  | [] => (⟨0, 0⟩, ⟨0, 0⟩)
  | t :: rest =>
    let cut := rest.foldl (fun e x => max e x.e) t.e - 71
    let keep (x : Dyadic) : Dyadic × Dyadic :=
      if x.e ≥ cut then (x, ⟨0, 0⟩)
      else
        let d : Nat := 2 ^ (cut - x.e).toNat
        let q : Int := (x.m.natAbs / d : Nat)
        (⟨if x.m < 0 then -q else q, cut⟩, ⟨(x.m.natAbs % d : Nat), x.e⟩)
    let ks := (t :: rest).map keep
    (dySum (ks.map Prod.fst), dySum (ks.map Prod.snd))

/-- Half a unit in the last place of an FP32 encoding (R96). -/
def halfUlp (x : Lane) : Dyadic := ⟨1, ((Nat.max (x.toNat / 2 ^ 23 % 256) 1 : Nat) : Int) - 151⟩

/-- Round an exact value into FP32, RNE, saturating (R80). -/
def roundAcc (x : Dyadic) : FRes :=
  let y := dyad x.m.natAbs x.e
  roundF32 0 true false (decide (x.m < 0)) y.1 y.2

/-- An addition into a sidecar: the contributions exactly, one rounding RUP (R96). -/
def sideAdd (side : Lane) (x : Dyadic) : Lane :=
  if x.m = 0 then side
  else
    match f32Val side with
    | .fin s m e => let z := (Dyadic.mk (if s then -(m : Int) else m) e).add x; let y := dyad z.m.natAbs z.e; (roundF32 2 false false (decide (z.m < 0)) y.1 y.2).1
    | _ => side

/-- What one beat makes of a value and its sidecar (R91, R96): value, sidecar, flags, whether either rounding
saturated (R80). `extra` is the converter term. An element that is infinite already stays so, with no flag (DESIGN CHOICE, log 94). -/
def accumulate (acc side : Lane) (ts : List Dyadic) (sub : Bool) (extra : Dyadic) : Lane × Lane × Flags × Bool :=
  let (sum, lost) := sum96 ts
  let (y, fy) := roundAcc sum
  let y := if sub then fNeg y else y
  let (z, fz) := fAdd 0 true false acc y
  let bound := dySum [extra, lost, if fy &&& fNX = 0 then ⟨0, 0⟩ else halfUlp y, if fz &&& fNX = 0 then ⟨0, 0⟩ else halfUlp z]
  let past := (fy ||| fz) &&& fOF != 0
  (z, sideAdd side bound, flagIf (lost.m != 0) fALGN ||| flagIf past (fOF ||| fSAT), past)

/-- What a beat applies (R278): plane, activation row with its active rows and their signs by group, tile row,
ACC, and for each macro the effective split and f of R95. -/
structure BeatIn where
  i     : Nat
  exps  : Vector Int 16
  act   : List (List (Nat × Bool))
  r     : Nat
  sub   : Bool
  w     : Nat
  bank  : Bank
  planes : Array Byte
  split : List Nat
  age   : List Nat
  /-- number of the first free reading of the beat (log 8) -/
  free  : Nat

/-- The active rows of plane `i` (R91), by group of 16, with their signs. -/
def activeRows (row : Row) (i : Nat) (signed : Bool) : List (List (Nat × Bool)) :=
  (List.range 16).map fun g => (List.range 16).filterMap fun j =>
    let k := 16 * g + j
    if (if h : k < 256 then (row.mags[k]).testBit i else false) then some (k, signed && row.neg.getLsbD k) else none

/-- The scale of segment `g` of macro `m` in the beat (R91). -/
def BeatIn.scale (b : BeatIn) (m g : Nat) : Int :=
  (if h : g < 16 then b.exps[g] else 0) + (if h : 16 * m + g < 64 then b.bank.gw[16 * m + g] else 0) + b.i

/-- The terms of bank column `n` (R91), and whether a reading clipped. -/
def BeatIn.terms (b : BeatIn) (n : Nat) : List Dyadic × Bool :=
  let cm := colsPerMacro b.w
  let m := n / cm
  let nch := b.split.getD m 0 - b.i
  let ts := (List.range 16).map fun g =>
    let ws := (b.act.getD g []).map fun k => let x := weightAt b.planes b.w m (n % cm) k.1; (x, k.2)
    let all := ws.foldl (fun t x => if x.2 then t - x.1 else t + x.1) 0
    if nch = 0 then ((⟨all, b.scale m g⟩ : Dyadic), false)
    else
      let q := ws.foldl (fun t x => if x.2 then t - lowPart b.w nch x.1 else t + lowPart b.w nch x.1) 0
      let rd := readingOf b.w nch (b.age.getD m 1) q (Config.converterError (b.free + 16 * n + g))
      (⟨all - q + rd.1, b.scale m g⟩, rd.2)
  (ts.map Prod.fst, ts.any Prod.snd)

/-- The converter term of a macro's columns (R96). -/
def BeatIn.bound (b : BeatIn) (m : Nat) : Dyadic :=
  let e := b.age.getD m 1 * epsOf (b.split.getD m 0 - b.i)
  if e = 0 then ⟨0, 0⟩ else dySum ((List.range 16).map fun g => ⟨(e : Int), b.scale m g⟩)

/-- The terms of a macro's checksum column (R99). -/
def BeatIn.ckTerms (b : BeatIn) (m : Nat) : List Dyadic :=
  (List.range 16).map fun g =>
    ⟨(b.act.getD g []).foldl (fun t k => let x := if h : 256 * m + k.1 < 1024 then b.bank.ck[256 * m + k.1] else 0; if k.2 then t - x else t + x) 0,
      b.scale m g⟩

/-- Replace the first elements of row `r` of a tile-shaped vector. -/
def setRow (v : Vector Lane 4096) (r : Nat) (xs : Array Lane) : Vector Lane 4096 :=
  Vector.ofFn fun k => if k.val / 256 = r ∧ k.val % 256 < xs.size then xs.getD (k.val % 256) 0 else v[k]

/-- What a beat makes of one tile (R91 to R99, R278): the tile, its new CLIPMASK bits, and the flags. `n0` is the bank
column that meets tile column 0. The macros add to the row check in ascending order (DESIGN CHOICE, log 94). -/
def BeatIn.tile (b : BeatIn) (t : TileData) (n0 : Nat) (macros : List Nat) : TileData × Word × Flags :=
  let cols := Nat.min 256 (2048 / b.w)
  let bounds := (List.range 4).map b.bound
  let out := (List.range cols).map fun x =>
    let (ts, clipped) := b.terms (n0 + x)
    let (z, sd, fl, past) := accumulate (tileAt t.elems b.r x) (tileAt t.sides b.r x) ts b.sub (bounds.getD ((n0 + x) / colsPerMacro b.w) ⟨0, 0⟩)
    (z, (if clipped then 0x7F800000 else sd), fl ||| flagIf clipped fCLIP, past, clipped)
  let arr := out.toArray
  let clips := (List.range cols).foldl (fun w x => if (arr.getD x (0, 0, 0, false, false)).2.2.2.2 then w ||| BitVec.ofNat 64 (2 ^ (x / 4)) else w) (0 : Word)
  let past := (out.filter fun o => o.2.2.2.1).length
  let rc := macros.foldl (fun (x : Lane × Lane × Flags) m =>
      let y := accumulate x.1 x.2.1 (b.ckTerms m) b.sub ⟨0, 0⟩
      (y.1, y.2.1, x.2.2 ||| y.2.2.1))
    (if h : b.r < 16 then t.rowCheck[b.r] else 0, if h : b.r < 16 then t.rowSide[b.r] else 0, 0)
  let hits := (b.act.flatMap id)
  let sum := hits.foldl (fun (v : Vector Dyadic 256) k =>
      if h : k.1 < 256 then
        v.set k.1 ((v[k.1]).add ⟨if k.2 == b.sub then 1 else -1, (if h : k.1 / 16 < 16 then b.exps[k.1 / 16] else 0) + b.i⟩) h
      else v) t.sumRow
  ({ t with
     elems := setRow t.elems b.r (out.map fun o => o.1).toArray
     sides := setRow t.sides b.r (out.map fun o => o.2.1).toArray
     rowCheck := if h : b.r < 16 then t.rowCheck.set b.r rc.1 h else t.rowCheck
     rowSide := if h : b.r < 16 then t.rowSide.set b.r rc.2.1 h else t.rowSide
     sumRow := sum
     ovc := BitVec.ofNat 16 (Nat.min 0xFFFF (t.ovc.toNat + past)) },
   clips, out.foldl (fun f o => f ||| o.2.2.1) rc.2.2)

/-- What a beat of a non-finite row makes of one tile (R89). -/
def nanTile (w r : Nat) (t : TileData) : TileData :=
  let cols := Nat.min 256 (2048 / w)
  { t with elems := setRow t.elems r (Array.replicate cols canonicalNaN), sides := setRow t.sides r (Array.replicate cols 0x7F800000) }

/-- The compare of a checked drain is skipped (R100). -/
def ckSkips (t : TileData) : Bool :=
  t.ovc != 0 || t.elems.any isNaN || t.sides.any fun x => x == 0x7F800000

/-- A prediction of R100 for tile column `x`, bank column `n`: value and sidecar. `mag` and `neg` are the aligned sum
row. -/
def predict (w : Nat) (b : Bank) (planes : Array Byte) (p : Nat) (row : Row) (inexact : Bool) (n : Nat) : Lane × Lane :=
  let cm := colsPerMacro w
  let m := n / cm
  let gw (g : Nat) : Int := if h : 16 * m + g < 64 then b.gw[16 * m + g] else 0
  let gs (g : Nat) : Int := if h : g < 16 then row.exps[g] else 0
  let ws := ((List.range 256).map fun k => weightAt planes w m (n % cm) k).toArray
  let q := (List.range (p + 2)).foldl (fun (q : Lane × Lane) i =>
      let act := activeRows row i true
      let ts := (List.range 16).map fun g =>
        (⟨(act.getD g []).foldl (fun t k => if k.2 then t - ws.getD k.1 0 else t + ws.getD k.1 0) 0, gs g + gw g + i⟩ : Dyadic)
      let y := accumulate q.1 q.2 ts false ⟨0, 0⟩
      (y.1, y.2.1)) ((0 : Lane), (0 : Lane))
  if inexact then (q.1, sideAdd q.2 (dySum ((List.range 256).map fun k => ⟨((ws.getD k 0).natAbs : Int), gs (k / 16) - 1 + gw (k / 16)⟩)))
  else q

/-- One comparison of R101: prediction and sidecar, the elements and sidecars of the row or column, abs and rel. An
infinity among the elements makes both sides infinite unless rel is 0 (log 21). -/
def mismatch (tol : Word) (p sp : Lane) (es ss : List Lane) : Bool :=
  let abs_ : Lane := tol.setWidth 32
  let rel : Lane := (tol >>> 32).setWidth 32
  let inf (x : Lane) : Bool := x.toNat % 2 ^ 31 == 0x7F800000
  if inf abs_ || inf rel || inf sp || ss.any inf then false
  else
    let z (x : Lane) : Dyadic := if isNaN x then ⟨0, 0⟩ else (dyOf x).abs
    if inf p || es.any inf then (z rel).m == 0
    else
      let d := ((dyOf p).add (dySum (es.map dyOf)).neg).abs
      let lim := dySum [z abs_, (z rel).mul (dySum (es.map fun x => (dyOf x).abs)), dySum (ss.map dyOf), dyOf sp]
      lim.lt d

/-- The bank column that meets column 0 of tile `t` (R90). -/
def tileBase (w t : Nat) : Nat := if w ≥ 8 then 0 else if w = 4 then 256 * (t % 2) else 256 * t

/-- Columns written at a weight width (R101). -/
def tileCols (w : Nat) : Nat := if w = 16 then 128 else 256

/-- The comparison of a checked drain (R100, R101). -/
structure CkData where
  tol  : Word
  cols : Nat
  /-- predicted row and its sidecars -/
  q    : List (Lane × Lane)

/-- The hidden beats of a checked drain of tile `t` (R100). -/
def Core.ckData (c : Core) (t : Nat) (d : TileData) : CkData :=
  let af := (c.fmt.cur.extractLsb' 0 5).toNat
  let w := c.weightWidth
  let cls := if w = 2 then 0 else if w = 4 then 1 else if w = 8 then 2 else 3
  let idx := 4 * (af - 1) + cls
  let b := c.bank c.bankNo
  let planes := (memRun b.planes 0 65536).toArray
  let (row, ix) := alignRow (planesOf af + 2) false (d.sumRow.toList.map Dyadic.val)
  { tol := if h : idx < 56 then c.tol[idx] else 0, cols := tileCols w,
    q := (List.range (tileCols w)).map fun x => predict w b planes (planesOf af) row ix (tileBase w t + x) }

/-- Row `r` mismatches (R101). -/
def CkData.rowBad (k : CkData) (d : TileData) (r : Nat) : Bool :=
  mismatch k.tol (if h : r < 16 then d.rowCheck[r] else 0) (if h : r < 16 then d.rowSide[r] else 0)
    ((List.range k.cols).map fun x => tileAt d.elems r x) ((List.range k.cols).map fun x => tileAt d.sides r x)

/-- Column `x` mismatches (R101). -/
def CkData.colBad (k : CkData) (d : TileData) (x : Nat) : Bool :=
  let q := k.q.getD x (0, 0)
  mismatch k.tol q.1 q.2 ((List.range 16).map fun r => tileAt d.elems r x) ((List.range 16).map fun r => tileAt d.sides r x)

/-- The mismatching rows and columns (R101). -/
def CkData.bad (k : CkData) (d : TileData) : List Nat × List Nat :=
  ((List.range 16).filter fun r => k.rowBad d r, (List.range k.cols).filter fun x => k.colBad d x)

/-- Element (r, x) with the correction of R106. An infinite element or row check counts as 0 in it (DESIGN CHOICE, log 21). -/
def CkData.fixed (k : CkData) (d : TileData) (r x : Nat) : Lane :=
  let p := if h : r < 16 then d.rowCheck[r] else 0
  let a := dySum ((List.range k.cols).map fun x => dyOf (tileAt d.elems r x))
  let v := dySum [dyOf (tileAt d.elems r x), dyOf p, a.neg]
  let y := dyad v.m.natAbs v.e
  (roundF32 0 false false (decide (v.m < 0)) y.1 y.2).1

end Sys2Proof.Machine
end

