-- ==== Sys2Proof/Machine/MatrixImage.lean ====
section
/-! DEFINITION. The image of a matrix context in a save area (R298, R380). -/

namespace Sys2Proof.Machine

/-- Write bytes at a VA of a context as the device does on its own, page by page, where a leaf grants the
store. `fuel` bounds the pages. -/
def Device.writeBlock (v : Device) (ctx : BitVec 12) : Nat → Addr → List Byte → Device
  | 0, _, _ => v
  | fuel + 1, va, bs =>
    if bs.isEmpty then v
    else
      let n := 65536 - va.toNat % 65536
      let head := bs.take n
      let v := match v.locate ctx va .store with
        | .ok (.phys, pa) => v.publish pa head
        | .ok (.dome d, o) => v.updDome d fun x => { x with spad := memPut x.spad o head }
        | _ => v
      v.writeBlock ctx fuel (va + BitVec.ofNat 80 n) (bs.drop n)

/-- Write pieces of a save area: offsets and bytes. -/
def Device.writePieces (v : Device) (ctx : BitVec 12) (base : Addr) (ps : List (Nat × List Byte)) : Device :=
  ps.foldl (fun v p => v.writeBlock ctx (p.2.length / 65536 + 2) (base + BitVec.ofNat 80 p.1) p.2) v

/-- Lanes in number order, 4 bytes each (R379). -/
def laneBytes (xs : List Lane) : List Byte := xs.flatMap fun x => bytesOfNat 4 x.toNat

/-- The pieces of a tile's state (R380). -/
def tilePieces (off : Nat) (d : TileData) : List (Nat × List Byte) :=
  [(off, laneBytes d.elems.toList), (off + 0x4000, laneBytes d.sides.toList), (off + 0x8000, bytesOfNat 2 d.ovc.toNat),
   (off + 0x8008, bytesOfNat 8 d.clip.toNat)]

/-- CKSTAT fields (R104). -/
def MatCtx.pend (m : MatCtx) : Bool := m.ckstat.getLsbD 0
def MatCtx.ckTile (m : MatCtx) : BitVec 2 := m.ckstat.extractLsb' 1 2
def MatCtx.loc (m : MatCtx) : Bool := m.ckstat.getLsbD 18
def MatCtx.isFixed (m : MatCtx) : Bool := m.ckstat.getLsbD 19

/-- The bytes of a matrix image that are marked *device* (R380): offsets and lengths. -/
def matSpans : List (Nat × Nat) :=
  [(0x50, 0xFB0), (0x1000, 0x2000)] ++
    (List.range 4).flatMap fun t => [(0x3000 + 0x14000 * t + 0x8010, 0x1FF0), (0x3000 + 0x14000 * t + 0xA000 + 0x8010, 0x1FF0)]

/-- The form in which the device bytes of an image hold a matrix context (R380; log 22). -/
def matForm (m : MatCtx) : Core := { Core.reset with mat := m }

/-- Device bytes of a state, of an image that begins at offset `base` of the save area. -/
def deviceBytes (c : Core) (base : Nat) (spans : List (Nat × Nat)) : List Byte :=
  spans.flatMap fun r => (List.range r.2).map fun k => Config.deviceForm c (base + r.1 + k)

/-- Device bytes as pieces of a save area. -/
def devicePieces (c : Core) (base : Nat) (spans : List (Nat × Nat)) : List (Nat × List Byte) :=
  spans.map fun r => (r.1, (List.range r.2).map fun k => Config.deviceForm c (base + r.1 + k))

/-- The entries of a queue with its drains in flight, in the order in which they stand in an image (R380; log 22). -/
def MatCtx.slotsOf (m : MatCtx) (q : Nat) : List QEntry :=
  (if h : q < 4 then m.queues[q] else []) ++ ((m.drains.filter fun d => d.q.toNat == q).map Drain.entry)

/-- The image of a matrix context (R380) at offset `base` of the save area: queue counts and drains in flight take a byte each from
0x48 (log 22). -/
def matImage (c : Core) (base : Nat) : List (Nat × List Byte) :=
  let m := c.mat
  let va (b : Bank) : List Byte := match b.va with | some a => bytesOfNat 10 a.toNat | none => List.replicate 10 0xFF
  [(0, bytesOfNat 1 c.bankNo), (0x08, va (c.bank 0)), (0x18, va (c.bank 1)), (0x30, bytesOfNat 8 m.ckstat.toNat),
   (0x38, bytesOfNat 8 m.ckloc.toNat), (0x40, [if m.isFixed then 1 else 0]),
   (0x41, match m.fault with | some f => [f.q.setWidth 8, f.tid.setWidth 8] | none => [0, 0]),
   (0x48, (List.range 4).map fun q => BitVec.ofNat 8 (if h : q < 4 then (m.queues[q]).length else 0)),
   (0x4C, (List.range 4).map fun q => BitVec.ofNat 8 (m.drains.filter fun d => d.q.toNat == q).length)]
  ++ (List.range 4).flatMap (fun t =>
    if h : t < 4 then
      let x := m.tiles[t]
      tilePieces (0x3000 + 0x14000 * t) x.data
        ++ (match x.epoch with | some e => tilePieces (0x3000 + 0x14000 * t + 0xA000) e.data | none => [])
    else [])
  ++ (List.range 4).flatMap (fun q =>
    let es := m.slotsOf q
    (es.zip (List.range es.length)).flatMap fun e =>
      let off := 0x53000 + 0x9000 * (4 * q + e.2)
      [(off, laneBytes e.1.elems.toList), (off + 0x4000, laneBytes e.1.sides.toList),
       (off + 0x8000, bytesOfNat 2 e.1.ovc.toNat ++ [e.1.tile.setWidth 8])])
  ++ devicePieces (matForm m) base matSpans

/-- Bytes of a save area, read at SYSTEM scope. -/
def Device.areaBytes (v : Device) (ctx : BitVec 12) (area : Addr) (off n : Nat) : List Byte := v.readVa ctx (area + BitVec.ofNat 80 off) n

/-- The state whose device bytes are these (R379): one that the device keeps for a save, else what this revision makes of the bytes,
else the first that it keeps (log 22). -/
def deviceOf (bs : List Byte) (base : Nat) (spans : List (Nat × Nat)) (cands : List Core) : Core :=
  match cands.find? fun c => deviceBytes c base spans == bs with
  | some c => c
  | none => (Config.deviceState bs).getD (cands.headD Core.reset)

/-- The lanes that bytes hold (R379). -/
def lanesOfBytes (bs : List Byte) : Nat → Lane :=
  let a := bs.toArray
  fun k => a.getD (4 * k + 3) 0 ++ a.getD (4 * k + 2) 0 ++ a.getD (4 * k + 1) 0 ++ a.getD (4 * k) 0

/-- The parts of a tile that an image gives (R380); the rest stays. -/
def readTile (rd : Nat → Nat → List Byte) (off : Nat) (d : TileData) : TileData :=
  let es := lanesOfBytes (rd off 0x4000)
  let ss := lanesOfBytes (rd (off + 0x4000) 0x4000)
  { d with elems := Vector.ofFn fun i => es i.val, sides := Vector.ofFn fun i => ss i.val,
           ovc := BitVec.ofNat 16 (leNat (rd (off + 0x8000) 2)), clip := BitVec.ofNat 64 (leNat (rd (off + 0x8008) 8)) }

/-- An entry of a result queue in an image (R380). -/
def readEntry (rd : Nat → Nat → List Byte) (q i popped : Nat) : QEntry :=
  let off := 0x53000 + 0x9000 * (4 * q + i)
  let es := lanesOfBytes (rd off 0x4000)
  let ss := lanesOfBytes (rd (off + 0x4000) 0x4000)
  { elems := Vector.ofFn fun i => es i.val, sides := Vector.ofFn fun i => ss i.val,
    ovc := BitVec.ofNat 16 (leNat (rd (off + 0x8000) 2)), tile := BitVec.ofNat 2 (leNat (rd (off + 0x8002) 1)), popped := popped }

/-- The matrix context that an image holds (R298, R380): `rd` reads its bytes, `m` has its device state. -/
def readMat (rd : Nat → Nat → List Byte) (m : MatCtx) : MatCtx :=
  let count (q : Nat) : Nat := leNat (rd (0x48 + q) 1) % 5
  let queue (q : Fin 4) : List QEntry :=
    (List.range (count q.val)).map fun i => readEntry rd q.val i (((m.queues[q]).getD i ⟨Vector.replicate 4096 0, Vector.replicate 4096 0, 0, 0, 0⟩).popped)
  let drain (d : Drain × Nat) : Drain :=
    let before := ((m.drains.take d.2).filter fun x => x.q == d.1.q).length
    { d.1 with entry := readEntry rd d.1.q.toNat (count d.1.q.toNat + before) 0 }
  { m with
    tiles := Vector.ofFn fun t =>
      let x := m.tiles[t]
      let off := 0x3000 + 0x14000 * t.val
      { x with data := readTile rd off x.data, epoch := x.epoch.map fun e => { e with data := readTile rd (off + 0xA000) e.data } }
    queues := Vector.ofFn queue
    drains := (m.drains.zip (List.range m.drains.length)).map drain
    ckstat := BitVec.ofNat 64 (leNat (rd 0x30 8)), ckloc := BitVec.ofNat 64 (leNat (rd 0x38 8))
    fault := m.fault.map fun f => { f with q := BitVec.ofNat 2 (leNat (rd 0x41 1)), tid := BitVec.ofNat 4 (leNat (rd 0x42 1)) } }

/-- The bytes of spans of an area, one after another. -/
def Device.spanBytes (v : Device) (ctx : BitVec 12) (area : Addr) (base : Nat) (spans : List (Nat × Nat)) : List Byte :=
  spans.flatMap fun r => v.areaBytes ctx area (base + r.1) r.2

/-- The matrix context that an area holds in the image at offset `base` (R298, R380); `ms` are those that the device keeps. -/
def Device.matFrom (v : Device) (ctx : BitVec 12) (area : Addr) (base : Nat) (ms : List MatCtx) : MatCtx :=
  readMat (fun off n => v.areaBytes ctx area (base + off) n)
    (deviceOf (v.spanBytes ctx area base matSpans) base matSpans (ms.map matForm)).mat

/-- Bytes of a matrix context in a save area (R379). -/
def matAreaBytes : Nat := 0xE3000

end Sys2Proof.Machine
end

