-- ==== Sys2Proof/Machine/Matrix.lean ====
section
/-! DEFINITION. The instructions and events of the M slot (R264 to R268, R277 to R298). -/

namespace Sys2Proof.Machine

/-- Tile `t` of a matrix context. -/
def MatCtx.tile (m : MatCtx) (t : Nat) : Tile := m.tiles[t % 4]'(Nat.mod_lt _ (by decide))

/-- Update a tile. -/
def MatCtx.updTile (m : MatCtx) (t : Nat) (f : Tile → Tile) : MatCtx :=
  { m with tiles := m.tiles.set (t % 4) (f (m.tile t)) (Nat.mod_lt _ (by decide)) }

/-- A set of tiles as a mask. -/
def tileMask (ts : List Nat) : BitVec 4 := ts.foldl (fun m t => m ||| BitVec.ofNat 4 (2 ^ t)) 0

/-- The open segment notes tiles written, epochs taken, and a feeder that moved (R375, R376). -/
def Core.noteTiles (c : Core) (written epochs : BitVec 4) (moved : Bool) : Core :=
  { c with seg := c.seg.map fun g =>
      let own := g.entry == c.pos
      { g with tilesW := g.tilesW ||| written ||| epochs
               epochs := if own then g.epochs ||| epochs else g.epochs
               again := if own then g.again else g.again ||| epochs
               feederMoved := g.feederMoved || moved } }

/-- The τ cycles until every earlier beat into a set of tiles has landed (R279). -/
def Core.beatWait (c : Core) (m : BitVec 4) : Nat :=
  c.mat.beats.foldl (fun n b => if b.tiles &&& m = 0 then n else Nat.max n b.left) 0

/-- An M-slot operation: what the unit refuses, an illegal use, MHND (R266, R367), else its effect. -/
def State.mOp (s : State) (i : Instr) (legal : Bool) (f : State → State) : Host.Outcome State Fault Refusal :=
  s.ifAllowed i fun s =>
    if !legal then s.trapOp ILLOP i
    else if s.core.hnd && !s.core.msaved then s.trap MHND .m 0
    else f s

/-- Wait under R279 for the beats into a set of tiles, then act. -/
def State.afterBeats (s : State) (m : BitVec 4) (f : State → State) : State :=
  let n := s.core.beatWait m
  if n = 0 then f s else s.waitTau (s.core.tau + n)

/-- MEPOCH on a set of tiles (R107, R285). -/
def Core.takeEpochs (c : Core) (ts : List Nat) : Core :=
  let fd := c.mat.feeder
  { c.noteTiles 0 (tileMask ts) false with
    mat := ts.foldl (fun m t => m.updTile t fun x => { x with epoch := some { data := x.data, feeder := fd } }) c.mat }

/-- The flag `.ep` (R268): the tiles named take their epochs first. -/
def State.withEp (s : State) (ep : Bool) (ts : List Nat) (f : State → State) : State :=
  if ep then s.afterBeats (tileMask ts) fun s => f (s.upd fun c => c.takeEpochs ts) else f s

/-- Flags of the M form (R264). -/
def MForm.fS (o : MForm) : Bool := o.flags.getLsbD 0
def MForm.fLast (o : MForm) : Bool := o.flags.getLsbD 1
def MForm.fCk (o : MForm) : Bool := o.flags.getLsbD 2
def MForm.fSgn (o : MForm) : Bool := o.flags.getLsbD 3
def MForm.fEp (o : MForm) : Bool := o.flags.getLsbD 4

/-- The tiles that an instruction with `.ep` names; without `.ep` any value is legal (R264, R265). -/
def Core.epTiles (c : Core) (o : MForm) : Option (List Nat) := if MForm.fEp o then tilesNamed c.weightWidth o.acc else some []

/-- What latching a row does for an instruction (R273 to R275). -/
def State.withLatch (s : State) (i : Instr) (f : Feeder → Flags → State → State) : State :=
  match s.latchRow with
  | .illop => s.trapOp ILLOP i
  | .fault c off => s.rowFault c off
  | .waiting => s.wait
  | .row fd fl => f fd fl s

/-- MPUSH (R277). -/
def execMpush (o : MForm) (s : State) : Host.Outcome State Fault Refusal :=
  s.mOp (.mpush o) (s.core.epTiles o).isSome fun s =>
    s.withLatch (.mpush o) fun fd fl s =>
      s.withEp (MForm.fEp o) ((s.core.epTiles o).getD []) fun s =>
        s.upd fun c => ({ c with mat := { c.mat with feeder := { fd with pp := 0, rp := o.row } } }.noteTiles 0 0 true).raise fl

/-- The reason that forces a macro's split to 0 for every tile (R93), and f of R95. -/
def Core.macroMode (c : Core) (m : Nat) : Bool × Nat :=
  let a := c.array c.bankNo m
  let old := match a.calAt with
    | none => true
    | some t => decide (c.wall - t > c.mon.lcal.toNat)
  let f := match a.calAt with
    | some t => if 2 * (c.wall - t) ≤ c.mon.lcal.toNat then 1 else 2
    | none => 1
  (c.mer || c.fbk.getLsbD (4 * c.bankNo + m) || old, f)

/-- The beat that an MBEAT applies now (R278). -/
def State.beatIn (s : State) (o : MForm) : BeatIn :=
  let c := s.core
  let w := c.weightWidth
  let fd := c.mat.feeder
  let b := c.bank c.bankNo
  let eff (m : Nat) : Nat :=
    if (c.macroMode m).1 || (c.mat.tile (tileOfMacro w o.acc m)).override then 0 else o.split.toNat
  { i := fd.pp.toNat, exps := fd.lrow.exps, act := activeRows fd.lrow fd.pp.toNat (MForm.fSgn o),
    r := (fd.rp.toNat + o.row.toNat) % 16, sub := c.fmt.cur.getLsbD 28, w := w, bank := b,
    planes := (memRun b.planes 0 65536).toArray, split := (List.range 4).map eff,
    age := (List.range 4).map fun m => (c.macroMode m).2, free := s.free }

/-- The effect of a beat on the tiles (R89, R278), with its flags to be set when it lands (R279). -/
def State.beat (s : State) (o : MForm) (ts : List Nat) : State :=
  let c := s.core
  let b := s.beatIn o
  let w := b.w
  let forced := (List.range 4).any fun m => (c.macroMode m).1
  let splt := flagIf (o.split != 0 && forced) fSPLT
  let row := c.mat.feeder.lrow
  let (tiles, clips, fl) :=
    if row.finite then
      ts.foldl (fun (x : MatCtx × List (Nat × Word) × Flags) t =>
        let y := b.tile (x.1.tile t).data (tileBase w t) ((List.range 4).filter fun m => tileOfMacro w o.acc m == t)
        (x.1.updTile t fun d => { d with data := y.1 }, x.2.1 ++ [(t, y.2.1)], x.2.2 ||| y.2.2)) (c.mat, [], 0)
    else
      (ts.foldl (fun (m : MatCtx) t => m.updTile t fun d => { d with data := nanTile w b.r d.data }) c.mat, [], flagIf (!row.marked) fIV)
  let beat : Beat := { left := 8, tiles := tileMask ts, bank := c.live, clips := clips, flags := fl ||| splt }
  let used := if row.finite && (b.split.any fun n => n > b.i) then 16 * (2048 / w) else 0
  let s := { s with free := s.free + used }
  s.upd fun c =>
    let m := { tiles with beats := c.mat.beats ++ [beat], feeder := { tiles.feeder with lrow := { row with marked := row.marked || !row.finite } } }
    ({ c with mat := m }).noteTiles (tileMask ts) 0 false

/-- A macro of the live bank has an armed parity error (R297). -/
def Core.parityArmed (c : Core) : Bool := (List.range 4).any fun m => (c.array c.bankNo m).parity

/-- An armed parity error on a macro of the live bank is consumed by the beat (R98, R297). -/
def Core.takeParity (c : Core) : Core :=
  let ks := (List.range 4).map fun m => 4 * c.bankNo + m
  if c.parityArmed then
    { ks.foldl (fun c k => c.updArray k fun a => { a with parity := false }) c with badDue := some .parity }
  else c

/-- The pointers after a beat (R278). -/
def Core.beatNext (c : Core) (o : MForm) (latched : Option (Feeder × Flags)) : Core :=
  match latched with
  | some (fd, fl) =>
    (({ c with mat := { c.mat with feeder := { fd with pp := 0, rp := c.mat.feeder.rp + 1 } } }).noteTiles 0 0 true).raise fl
  | none =>
    if MForm.fS o then
      ({ c with mat := { c.mat with feeder := { c.mat.feeder with pp := c.mat.feeder.pp + 1 } } }).noteTiles 0 0 true
    else c

/-- A macro of a bank is busy with a calibration (R98). -/
def Core.bankBusy (c : Core) (b : Nat) : Bool := (List.range 4).any fun m => (c.array b m).busy.isSome || (c.array b m).queued

/-- The power controller holds beats of the present window (R353). -/
def Core.beatHeld (c : Core) : Bool :=
  c.burstHeld && decide (c.window = c.wall / 256) && decide (c.burstBeats + c.mat.beats.length ≥ c.allowance c.window)

/-- The window that starts at a time is granted headroom: what the power controller has last decided before it (R462). -/
def Device.headroomAt (v : Device) (t : Nat) : Bool := match v.headroom.find? fun h => decide (h.1 ≤ t) with | some h => h.2 | none => true

/-- The power controller's view of a beat that would issue now (R25, R353, R462): none while it is held, else the count of
the window with it. -/
def State.beatPace (s : State) (digital : Bool) : Option Core :=
  let c := s.core
  let w := c.wall / 256
  let f := s.dev.powerF
  let n := if c.digital.1 = w then c.digital.2 else 0
  let high := match c.phint with | some (b, k, l) => decide (b ≤ 256 * w) && decide (256 * w + 256 ≤ b + k) && decide (l ≥ 9) | none => false
  let full := digital && !(high && s.dev.headroomAt (256 * w)) && decide (n ≥ 140 * f / 16)
  let slow := decide (f < 16) && decide (c.burstBeats + c.mat.beats.length ≥ c.allowance w * f / 16)
  if full || slow || c.beatHeld then none else some (if digital then c.countDigital else c)

/-- MBEAT (R112, R265, R278 to R281). A beat that consumes a parity error with no segment open leaves its tiles as they were (R376). -/
def execMbeat (o : MForm) (s : State) : Host.Outcome State Fault Refusal :=
  let c := s.core
  let fmtOk := match (c.bank c.bankNo).fmt with | some f => f == c.fmt.cur.extractLsb' 8 5 | none => true
  let ts := tilesNamed c.weightWidth o.acc
  s.mOp (.mbeat o) (ts.isSome && fmtOk) fun s =>
    if s.core.bankBusy s.core.bankNo then s.wait
    else
    match s.beatPace ((s.beatIn o).split.all fun n => n == 0) with
    | none => s.wait
    | some c =>
      let s := { s with core := c }
      let go (latched : Option (Feeder × Flags)) (s : State) : State :=
        s.withEp (MForm.fEp o) (ts.getD []) fun s =>
          (if s.core.parityArmed && s.core.seg.isNone then s else s.beat o (ts.getD [])).upd fun c => (c.beatNext o latched).takeParity
      if MForm.fLast o then s.withLatch (.mbeat o) fun fd fl s => go (some (fd, fl)) s else go none s

/-- MSHIFT (R280). -/
def execMshift (o : MForm) (s : State) : Host.Outcome State Fault Refusal :=
  s.mOp (.mshift o) (s.core.epTiles o).isSome fun s =>
    s.withEp (MForm.fEp o) ((s.core.epTiles o).getD []) fun s =>
      s.upd fun c =>
        ({ c with mat := { c.mat with feeder := { c.mat.feeder with pp := c.mat.feeder.pp + o.plane + 1 } } }).noteTiles 0 0 true

/-- Reset a tile, keeping its epoch (R282, R283). -/
def Tile.zero (t : Tile) : Tile := { Tile.reset with epoch := t.epoch }

/-- MZERO (R283). -/
def execMzero (o : MForm) (s : State) : Host.Outcome State Fault Refusal :=
  s.mOp (.mzero o) true fun s =>
    s.afterBeats (tileMask [o.acc.toNat]) fun s =>
      s.upd fun c => ({ c with mat := c.mat.updTile o.acc.toNat Tile.zero }).noteTiles (tileMask [o.acc.toNat]) 0 false

/-- MEPOCH (R285). -/
def execMepoch (o : MForm) (s : State) : Host.Outcome State Fault Refusal :=
  s.mOp (.mepoch o) true fun s =>
    s.afterBeats (tileMask [o.acc.toNat]) fun s => s.upd fun c => c.takeEpochs [o.acc.toNat]

/-- A WLOAD of the core is in flight (R322). -/
def Core.wloadBusy (c : Core) : Bool := c.outst.any fun x => match x with | .engine e => e.kind == 7 | _ => false

/-- MSWAP (R295): it waits until a WLOAD into the shadow bank has written its token (R23). -/
def execMswap (o : MForm) (s : State) : Host.Outcome State Fault Refusal :=
  s.mOp (.mswap o) true fun s =>
    if s.core.wloadBusy then s.wait else (s.commitSeg).upd fun c => { c with live := !c.live }

/-- CKSTAT from its fields (R104); TILE, NROW and NCOL are those of the last checked drain. -/
def ckWord (pend : Bool) (t : BitVec 2) (skip : Bool) (nrow ncol : Nat) (loc fixed retry : Bool) : Word :=
  let b (x : Bool) (k : Nat) : Nat := if x then 2 ^ k else 0
  BitVec.ofNat 64 (b pend 0 + t.toNat * 2 + b skip 3 + nrow * 2 ^ 4 + ncol * 2 ^ 9 + b loc 18 + b fixed 19 + b retry 20)

/-- Clear bits of CKSTAT. -/
def MatCtx.ckClear (m : MatCtx) (bits : Nat) : MatCtx := { m with ckstat := m.ckstat &&& ~~~BitVec.ofNat 64 bits }

/-- Set bits of CKSTAT. -/
def MatCtx.ckSet (m : MatCtx) (bits : Nat) : MatCtx := { m with ckstat := m.ckstat ||| BitVec.ofNat 64 bits }

/-- MRETRY (R107, R286). -/
def execMretry (o : MForm) (s : State) : Host.Outcome State Fault Refusal :=
  s.mOp (.mretry o) true fun s =>
    s.afterBeats (tileMask [o.acc.toNat]) fun s =>
      (s.commitSeg).upd fun c =>
        let m := c.mat
        let t := m.tile o.acc.toNat
        let m1 := match t.epoch with
          | some e => { m.updTile o.acc.toNat fun t => { t with data := e.data, override := true } with feeder := e.feeder }
          | none => m.updTile o.acc.toNat fun t => { t.zero with override := true }
        { c with mat := if m.pend && m.ckTile == o.acc then { m1.ckClear 0x100001 with fault := none } else m1 }

/-- The bound check of an entry (R289): the elements as kept, and whether one was out of bounds. -/
def checkEntry (b : Bound) (v : Vector Lane 4096) : Vector Lane 4096 × Bool :=
  let r : Vector (Lane × Bool) 4096 := Vector.ofFn fun i =>
    let x := v[i].toNat
    let y := checkPlain b 0 x
    (if y.1 = x then v[i] else BitVec.ofNat 32 y.1, y.2)
  (r.map Prod.fst, r.any Prod.snd)

/-- A drain of tile `t` issues (R287 to R289). -/
def Core.drain (c : Core) (t : BitVec 2) (q : BitVec 2) (keep : Bool) (tid : BitVec 4) : Core :=
  let d := (c.mat.tile t.toNat).data
  let (es, out) := if tid = 0 then (d.elems, false) else checkEntry (c.bound tid) d.elems
  let e : QEntry := { elems := es, sides := d.sides, ovc := d.ovc, tile := t, popped := 0 }
  let dr : Drain := { left := 16, q := q, entry := e, bound := if trapDue (c.bound tid) out && tid != 0 then tid else 0,
                      flags := flagIf out fBND, can := tid != 0 }
  let m := if keep then c.mat else c.mat.updTile t.toNat Tile.zero
  { c with mat := { m with drains := m.drains ++ [dr] } }

/-- Entries of a queue as they stand before the bundle, with the drains in flight (R288). -/
def Core.queueUse (c : Core) (q : BitVec 2) : Nat :=
  (c.mat.queue q).length + c.popped[q.toNat]'q.isLt + (c.mat.inFlight q).length

/-- The masks of mismatching rows and columns. -/
def rowSet (rs : List Nat) : BitVec 16 := rs.foldl (fun m r => m ||| BitVec.ofNat 16 (2 ^ r)) 0
def colSet (xs : List Nat) : BitVec 256 := xs.foldl (fun m x => m ||| BitVec.ofNat 256 (2 ^ x)) 0

/-- A checked drain finds mismatches (R103, R288): the fault record. -/
def Core.ckFail (c : Core) (t q : BitVec 2) (tid : BitVec 4) (rows cols : List Nat) : Core :=
  { c with mat := { c.mat with ckstat := ckWord true t false rows.length cols.length false false false
                               fault := some { q := q, tid := tid, rows := rowSet rows, cols := colSet cols } } }

/-- A checked drain passes, or its compare is skipped (R288). -/
def Core.ckPass (c : Core) (t : BitVec 2) (skip : Bool) : Core :=
  if c.mat.pend && c.mat.ckTile != t then c
  else { c with mat := { c.mat with ckstat := ckWord false t skip 0 0 false false false, fault := none } }

/-- A structural wait of `n` τ cycles that an operation adds before it issues (R288, R292, R293). -/
def State.serve (s : State) (n : Nat) (f : State → State) : State :=
  if s.core.served ∨ n = 0 then f s else (s.upd fun c => { c with served := true }).waitTau (s.core.tau + n)

/-- The drain of an MDRAIN once its waits are over (R288). A mismatch makes TILECK due: the handler is entered before the next bundle,
unless a checkpoint comes first, which keeps the fault pending (R359, R382). -/
def State.mdrain (s : State) (o : MForm) : State :=
  let t := o.acc
  let keep := o.imm.getLsbD 4
  let tid : BitVec 4 := o.imm.setWidth 4
  let done (s : State) : State := s.upd fun c => ({ c with mat := c.mat.ckClear 0x80000 }).drain t o.q keep tid
  if s.core.mat.isFixed && s.core.mat.ckTile == t then (s.commitSeg).upd fun c => { c with mat := c.mat.ckClear 0x80000 }
  else if s.core.queueUse o.q ≥ 4 then s.trap QUEUE .m o.q.toNat
  else if MForm.fCk o then
    let d := (s.core.mat.tile t.toNat).data
    if ckSkips d then done ((s.commitSeg).upd fun c => c.ckPass t true)
    else
      let (rows, cols) := (s.core.ckData t.toNat d).bad d
      if rows.isEmpty && cols.isEmpty then done ((s.commitSeg).upd fun c => c.ckPass t false)
      else
        { s.upd (fun c => { c.ckFail t o.q tid rows cols with reraise := true }) with
          last := .trapped { code := TILECK, slot := 4, info := BitVec.ofNat 64 t.toNat } }
  else done s.commitSeg

/-- The hidden beats of a checked drain (R100, R288): P + 2 fully digital ones, one in each cycle, which write no tile. -/
def Core.hidden (c : Core) (p : Nat) : Core :=
  { c with mat := { c.mat with beats := c.mat.beats ++ (List.range (p + 2)).map fun j =>
      ({ left := 8 + j, tiles := 0, bank := c.live, clips := [], flags := 0 } : Beat) } }

/-- MDRAIN (R288): first R279, then P + 14 cycles with `.ck`, in which its hidden beats issue and land (R353). -/
def execMdrain (o : MForm) (s : State) : Host.Outcome State Fault Refusal :=
  s.mOp (.mdrain o) true fun s =>
    s.afterBeats (tileMask [o.acc.toNat]) fun s =>
      let p := planesOf (s.core.fmt.cur.extractLsb' 0 5).toNat
      if MForm.fCk o then
        if s.core.served then s.mdrain o
        else (s.upd fun c => c.hidden p).serve (p + 14) fun s => s.mdrain o
      else s.mdrain o

/-- MCKLOC's effect (R292): CKLOC from the pending comparison, and LOC. -/
def Core.locate (c : Core) : Core :=
  match c.mat.fault with
  | none => c
  | some f =>
    let xs := (List.range 256).filter fun x => f.cols.getLsbD x
    let lo := xs.headD 0
    let hi := xs.getLastD 0
    { c with mat := { c.mat.ckSet 0x40000 with ckloc := BitVec.ofNat 64 (f.rows.toNat + lo * 2 ^ 16 + hi * 2 ^ 24) } }

/-- MCKLOC (R292). -/
def execMckloc (o : MForm) (s : State) : Host.Outcome State Fault Refusal :=
  s.mOp (.mckloc o) true fun s => if s.core.mat.pend then s.serve 16 fun s => s.upd Core.locate else s

/-- The correction of R106: the row, the column and the value, when NROW = NCOL = 1 and both checks pass. -/
def Core.correction (c : Core) : Option (Nat × Nat × Lane) :=
  match c.mat.fault with
  | none => none
  | some f =>
    match (List.range 16).filter fun r => f.rows.getLsbD r, (List.range 256).filter fun x => f.cols.getLsbD x with
    | [r], [x] =>
      let t := c.mat.ckTile.toNat
      let d := (c.mat.tile t).data
      let k := c.ckData t d
      let v := k.fixed d r x
      let d' := { d with elems := d.elems.setIfInBounds (256 * r + x) v }
      if k.rowBad d' r || k.colBad d' x then none else some (r, x, v)
    | _, _ => none

/-- MCKFIX (R106, R293). -/
def execMckfix (o : MForm) (s : State) : Host.Outcome State Fault Refusal :=
  s.mOp (.mckfix o) true fun s =>
    if !s.core.mat.pend then s.commitSeg
    else
      let t := s.core.mat.ckTile
      s.afterBeats (tileMask [t.toNat]) fun s =>
        s.serve (if s.core.mat.loc then 24 else 40) fun s =>
          let locate (s : State) : State := if s.core.mat.loc then s else s.upd Core.locate
          match s.core.correction, s.core.mat.fault with
          | some (r, x, v), some f =>
            if s.core.queueUse f.q ≥ 4 then s.trap QUEUE .m f.q.toNat
            else
              (locate s.commitSeg).upd fun c =>
                let m := c.mat.updTile t.toNat fun d => { d with data := { d.data with elems := d.data.elems.setIfInBounds (256 * r + x) v } }
                { c with mat := { (m.ckClear 1).ckSet 0x80000 with fault := none } }.drain t f.q false f.tid
          | _, _ => (locate s.commitSeg).upd fun c => { c with mat := c.mat.ckSet 0x100000 }

/-- The macros that `mac` names (R296). -/
def macrosNamed (o : MForm) : List Nat := if o.mac = 4 then [0, 1, 2, 3] else [o.mac.toNat]

/-- The bank that `bnk` names (R23). -/
def bankNamed (o : MForm) : Nat := if o.bnk then 1 else 0

/-- Macros of a bank named by a mask over both banks, as MFBK's fallback has them (R98). -/
def macroBits (o : MForm) : BitVec 8 := (macrosNamed o).foldl (fun m k => m ||| BitVec.ofNat 8 (2 ^ (4 * bankNamed o + k))) 0

/-- MCAL (R98, R296, R305): it issues at once and ends the fallback of its macros. Their 4,096 cycles begin now, or once no beat and no
WLOAD is in flight on them. An MCAL on a macro that calibrates starts its cycles anew (DESIGN CHOICE, log 28). -/
def execMcal (o : MForm) (s : State) : Host.Outcome State Fault Refusal :=
  s.mOp (.mcal o) true fun s =>
    (s.commitSeg).upd fun c =>
      let b := bankNamed o
      let free := c.calFree b
      { (macrosNamed o).foldl (fun c m => c.updArray (4 * b + m) fun a =>
          { a with busy := if free then some (c.wall + 4096) else none, queued := !free }) c with
        fbk := c.fbk &&& ~~~macroBits o }

/-- MFBK (R98, R296): until the task ends, or the next MCAL on them. -/
def execMfbk (o : MForm) (s : State) : Host.Outcome State Fault Refusal :=
  s.mOp (.mfbk o) true fun s =>
    (s.commitSeg).upd fun c => { c with fbk := c.fbk ||| macroBits o }

/-- MCAL_COMPLETE: the calibration of the array that the event names ends when its 4,096 cycles are over (R98). -/
def execMcalComplete (s : State) : Host.Outcome State Fault Refusal :=
  .next (s.upd fun c => c.updArray s.ev.arr fun a => a.calDue c.wall)

/-- An idle core is given monitor duty (R369): MODE 1 with TVALID 0, from MVEC, where the core has a monitor (log 29). -/
def Core.onDuty (c : Core) : Core :=
  if c.mon.mcode = 0 then c
  else { c with pos := c.mon.mvec.toNat, sig := SigState.target, mon := { c.mon with mode := true, tvalid := false, saved := false, thnd := false } }

/-- The monitor's calibration of an array is due: CALPER enables it, and a period of it has passed since the last one (R98). -/
def ArrState.monDue (a : ArrState) (per : BitVec 32) (now : Nat) : Bool :=
  per != 0 && a.busy.isNone && !a.queued && (match a.monAt with | some t => decide (t + per.toNat ≤ now) | none => true)

/-- MONITOR_CALIBRATION: the monitor calibrates an array of an idle core (R98), on the period of CALPER, and the core is on monitor
duty until it ends it (R369). -/
def execMonitorCalibration (s : State) : Host.Outcome State Fault Refusal :=
  .next (
    let u := Agent.core s.ev.core
    let c := s.getCore u
    if c.task.isSome || c.stopped || !(c.arrays[s.ev.arr % 8]'(Nat.mod_lt _ (by decide))).monDue c.mon.calper c.wall then s
    else s.setCore u (c.updArray s.ev.arr fun a => { a with calAt := some c.wall, monAt := some c.wall }).onDuty)

/-- MCTX (R266, R298): illegal outside a handler. -/
def State.mctx (s : State) (i : Instr) (f : State → State) : Host.Outcome State Fault Refusal :=
  s.ifAllowed i fun s => if !s.core.hnd then s.trapOp ILLOP i else f s

/-- Every tile. -/
def allTiles : BitVec 4 := 15

/-- The pages of a matrix context's image (R379). -/
def matPages : Nat := (matAreaBytes + 65535) / 65536

/-- MCTX.save (R279, R298): the image goes to the handler region of the save area. -/
def execMctxSave (o : MForm) (s : State) : Host.Outcome State Fault Refusal :=
  s.mctx (.mctxSave o) fun s =>
    if s.core.msaved then s.trapOp ILLOP (.mctxSave o)
    else
      s.afterBeats allTiles fun s =>
        let s := s.commitSeg
        let ctx := s.ctx
        let base := s.core.mon.csave + 0x160000
        let s := s.updDev fun v =>
          (v.writeBlock ctx 16 base (List.replicate matAreaBytes 0)).writePieces ctx base (matImage s.core 0x160000)
        s.upd fun c => { c with msaved := true, mdue := true, mcopy := some c.mat }

/-- MCTX.restore (R279, R298): the context as the handler region holds it; the copy that the device keeps where the region is not
usable (log 59). The copy stays, for a later one. After MCTX.keep, which discards it, nothing is reloaded (DESIGN CHOICE, log 59). -/
def execMctxRestore (o : MForm) (s : State) : Host.Outcome State Fault Refusal :=
  s.mctx (.mctxRestore o) fun s =>
    if !s.core.msaved then s.trap MHND .m 0
    else
      s.afterBeats allTiles fun s =>
        let area := s.core.mon.csave
        let m := match s.core.mcopy with
          | none => s.core.mat
          | some m => if s.dev.usable s.ctx (area + 0x160000) matPages then s.dev.matFrom s.ctx area 0x160000 [m] else m
        (s.commitSeg).upd fun c => { c with mat := m, mdue := false }

/-- MCTX.keep (R279, R298). -/
def execMctxKeep (o : MForm) (s : State) : Host.Outcome State Fault Refusal :=
  s.mctx (.mctxKeep o) fun s =>
    if !s.core.msaved then s.trap MHND .m 0
    else s.afterBeats allTiles fun s => (s.commitSeg).upd fun c => { c with mcopy := none, mdue := false }

/-- MINJ.acc (R297): invert one bit of an element. -/
def execMinjAcc (o : MForm) (s : State) : Host.Outcome State Fault Refusal :=
  s.mOp (.minjAcc o) true fun s =>
    s.afterBeats (tileMask [o.acc.toNat]) fun s =>
      (s.commitSeg).upd fun c =>
        let k := 256 * o.row.toNat + o.imm.toNat % 256
        let b := o.split.toNat + (if o.plane = 0 then 16 else 0)
        { c with mat := c.mat.updTile o.acc.toNat fun t =>
            { t with data := { t.data with elems := t.data.elems.setIfInBounds k (tileAt t.data.elems o.row.toNat (o.imm.toNat % 256) ^^^ BitVec.ofNat 32 (2 ^ b)) } } }

/-- Invert bit `b` of a 24-bit two's-complement checksum entry (R99, R297). -/
def flipCk (x : Int) (b : Nat) : Int := sextInt ((x % 16777216).toNat ^^^ 2 ^ b) 24

/-- MINJ.cks (R297). -/
def execMinjCks (o : MForm) (s : State) : Host.Outcome State Fault Refusal :=
  s.mOp (.minjCks o) true fun s =>
    (s.commitSeg).upd fun c =>
      let b := bankNamed o
      let k := c.bank b
      let i := 256 * o.mac.toNat + o.imm.toNat % 256
      let x := if h : i < 1024 then k.ck[i] else 0
      { c with banks := c.banks.set (b % 2) { k with ck := k.ck.setIfInBounds i (flipCk x o.split.toNat) } (Nat.mod_lt _ (by decide)) }

/-- MINJ.par (R297). -/
def execMinjPar (o : MForm) (s : State) : Host.Outcome State Fault Refusal :=
  s.mOp (.minjPar o) true fun s =>
    (s.commitSeg).upd fun c => (macrosNamed o).foldl (fun c m => c.updArray (4 * bankNamed o + m) fun a => { a with parity := true }) c

/-- BEAT_LAND: the beats whose 8 cycles have passed land (R279). -/
def execBeatLand (s : State) : Host.Outcome State Fault Refusal := .next (s.upd Core.beatsDue)

/-- DRAIN_ENTER_QUEUE: the drains whose 16 cycles have passed enter their queues (R287). -/
def execDrainEnterQueue (s : State) : Host.Outcome State Fault Refusal := .next (s.upd Core.drainsDue)

/-- FIXED_RESULT_WRITEBACK: the results whose latency has elapsed are written (R153). An event that is not `ok` reports that the
operation of result `index` consumed an uncorrectable error of a register file, whose destination then keeps its value (R376): of
the s- and a-registers with `count` 0, else of vector register `value`. -/
def execFixedResultWriteback (s : State) : Host.Outcome State Fault Refusal :=
  .next (if s.ev.ok then s.upd Core.landDue
    else (s.upd fun c => { c with results := c.results.eraseIdx s.ev.index }).consume
      (s.core.regError (if s.ev.count = 0 then none else some s.ev.value)) 0)

end Sys2Proof.Machine
end

