-- ==== Sys2Proof/Machine/Fetch.lean ====
section
/-! DEFINITION. Fetching a bundle from a dictionary and a code stream (R146 to R148, R182), and the CRC of
block signatures (R149). -/

namespace Sys2Proof.Machine

/-- The code that the focused unit runs (R146, R182): the task's, or the monitor's, whose NATV header lies at
MCODE. -/
def State.codeSrc (s : State) : Except (Nat × Int) CodeSrc :=
  if s.isQp || !s.core.mon.mode then .ok s.core.code
  else
    match s.readG .fetch s.core.mon.mcode.toNat 64 with
    | .error e => .error e
    | .ok h => .ok (codeOf s.core.mon.mcode h)

/-- A fetched bundle: its bits, the halfwords that it feeds to the signature (R149), and the next position. -/
structure Fetch where
  bits : Nat
  feed : List Nat
  next : Nat
  deriving DecidableEq, Repr

/-- The detail of an ILLOP of the code stream (R189): the position has 30 bits. -/
def streamInfo (pos half : Nat) : Nat := pos % 2 ^ 30 + half * 2 ^ 32 + 2 ^ 63

/-- Read code bytes (R148): PERM or XLATE with the address; a queue processor reads its instruction memory (R395). -/
def State.codeBytes (s : State) (va : Addr) (n : Nat) : Except (Nat × Nat) (List Byte) :=
  if s.isQp then .ok (memRun s.core.imem va.toNat n)
  else
  match s.readG .fetch va.toNat n with
  | .error (c, x) => .error (c, addrInfo x)
  | .ok bs => .ok bs

/-- The bundle at a position of a code stream, or the trap and its detail (R146, R147). -/
def State.fetchAt (s : State) (src : CodeSrc) (pos : Nat) : Except (Nat × Nat) Fetch :=
  if !src.valid || pos ≥ src.clen then .error (ILLOP, streamInfo pos 0)
  else
    match s.codeBytes (src.code + BitVec.ofNat 80 (2 * pos)) 2 with
    | .error e => .error e
    | .ok hb =>
      let h := leNat hb
      if h = 0xFFFF then
        if pos + 25 > src.clen then .error (ILLOP, streamInfo pos 0xFFFF)
        else
          match s.codeBytes (src.code + BitVec.ofNat 80 (2 * pos + 2)) 48 with
          | .error e => .error e
          | .ok bs => .ok { bits := leNat bs, feed := [0xFFFF], next := pos + 25 }
      else if h ≥ src.dlen then .error (ILLOP, streamInfo pos h)
      else
        match s.codeBytes (src.dict + BitVec.ofNat 80 (48 * h)) 48 with
        | .error e => .error e
        | .ok bs => .ok { bits := leNat bs, feed := [h], next := pos + 1 }

/-- The ranges of code that the fetch of the next bundle reads (R146, R182). -/
def State.fetchVas (s : State) : List (Nat × Nat) :=
  if s.isQp then []
  else
    (if s.core.mon.mode then [(s.core.mon.mcode.toNat, 64)] else []) ++
      match s.codeSrc with
      | .error _ => []
      | .ok src =>
        let x := src.code.toNat + 2 * s.core.pos
        if !src.valid || s.core.pos ≥ src.clen then []
        else
          (x, 2) :: match s.codeBytes (BitVec.ofNat 80 x) 2 with
            | .error _ => []
            | .ok hb => [if leNat hb = 0xFFFF then (x + 2, 48) else (src.dict.toNat + 48 * leNat hb, 48)]

/-- What the fetch of the next bundle does to the translation caches and the page table (R416, R418, R421). -/
def State.fetchTouch (s : State) : State :=
  s.fetchVas.foldl (fun s x =>
    match [x.1, x.1 + x.2 - 1].findSome? fun a => (match s.place 0 a 1 .fetch with | .error c => some (a, c) | .ok _ => none) with
    | some (a, c) => s.failWalk 0 a c
    | none => s.touch 0 x.1 x.2 .fetch) s

/-- The bundle at the position of the focused unit. -/
def State.fetch (s : State) : Except (Nat × Nat) Fetch :=
  match s.codeSrc with
  | .error (c, x) => .error (c, addrInfo x)
  | .ok src => s.fetchAt src s.core.pos

/-- The position after `n` bundles of a code stream from `pos` up, or none where the stream ends before
(R318). A halfword that cannot be read counts as an index. -/
def State.afterBundles (s : State) (src : CodeSrc) : Nat → Nat → Option Nat
  | 0, pos => some pos
  | n + 1, pos =>
    if pos ≥ src.clen then none
    else
      let h := match s.codeBytes (src.code + BitVec.ofNat 80 (2 * pos)) 2 with | .ok bs => leNat bs | .error _ => 0
      if h = 0xFFFF then (if pos + 25 > src.clen then none else s.afterBundles src n (pos + 25)) else s.afterBundles src n (pos + 1)

/-- One bit of the CRC of R149. -/
def crcBit (c : BitVec 16) : BitVec 16 := if c.getLsbD 15 then (c <<< 1) ^^^ 0x1021 else c <<< 1

/-- One byte of the CRC of R149. -/
def crcByte (c : BitVec 16) (b : Nat) : BitVec 16 :=
  crcBit (crcBit (crcBit (crcBit (crcBit (crcBit (crcBit (crcBit (c ^^^ BitVec.ofNat 16 (b % 256 * 256)))))))))

/-- Feed halfwords to the CRC (R149). -/
def crcFeed (c : BitVec 16) (hs : List Nat) : BitVec 16 := hs.foldl (fun c h => crcByte (crcByte c h) (h / 256)) c

end Sys2Proof.Machine
end

