-- ==== Sys2Proof/Machine/Setup.lean ====
section
/-! DEFINITION. Set-up instructions of the X slot (R299 to R304), the FMT pipeline (R83 to R85), random words
(R354, R355). -/

namespace Sys2Proof.Machine

/-- The check of an FMTW value (R83): RESV for a reserved field, ILLOP for a code outside its list. -/
def fmtRefuses (w : Word) : Option Nat :=
  let f (lo n : Nat) : Nat := w.toNat / 2 ^ lo % 2 ^ n
  if f 5 3 ≠ 0 ∨ f 13 3 ≠ 0 ∨ f 21 3 ≠ 0 ∨ f 30 34 ≠ 0 then some RESV
  else if f 0 5 = 0 ∨ f 0 5 > 0xE ∨ f 8 5 = 0 ∨ f 8 5 > 0xE ∨ f 16 5 > 0x11 ∨ f 24 3 > 5 ∨ f 28 2 > 1 then some ILLOP
  else none

/-- FMTW (R84, R300): the write counts this bundle and the next four. -/
def execFmtw (o : XForm) (s : State) : Host.Outcome State Fault Refusal :=
  s.ifAllowedG (.fmtw o) o.g fun s =>
    let w := s.core.sreg o.a
    match fmtRefuses w with
    | some code => s.trapOp code (.fmtw o)
    | none => s.upd fun c => { c with fmt := { c.fmt with pend := c.fmt.pend ++ [(5, w)] } }

/-- The pending writes whose effect point has come take effect in order (R84). -/
def FmtState.due (f : FmtState) : FmtState :=
  { cur := f.pend.foldl (fun cur p => if p.1 = 0 then p.2 else cur) f.cur, pend := f.pend.filter fun p => p.1 != 0 }

/-- A bundle has issued: the pending writes count it (R84). -/
def FmtState.count (f : FmtState) : FmtState := ({ f with pend := f.pend.map fun p => (p.1 - 1, p.2) } : FmtState).due

/-- FMT_TAKE_EFFECT (R84): the pending writes whose count has ended take effect. -/
def execFmtTakeEffect (s : State) : Host.Outcome State Fault Refusal := .next (s.upd fun c => { c with fmt := c.fmt.due })

/-- FMTR (R300): the value in effect. -/
def execFmtr (o : XForm) (s : State) : Host.Outcome State Fault Refusal :=
  s.ifAllowedG (.fmtr o) o.g fun s => s.wS 1 o.d s.core.fmt.cur

/-- FMTR.pend (R300): the value of the latest FMTW. -/
def execFmtrPend (o : XForm) (s : State) : Host.Outcome State Fault Refusal :=
  s.ifAllowedG (.fmtrPend o) o.g fun s =>
    s.wS 1 o.d (match s.core.fmt.pend.getLast? with | some p => p.2 | none => s.core.fmt.cur)

/-- The number of a bound register or shape entry in imm24[3:0]. -/
def numOf (o : XForm) : BitVec 4 := o.imm.setWidth 4

/-- BNDW (R301). -/
def execBndw (o : XForm) (s : State) : Host.Outcome State Fault Refusal :=
  s.ifAllowedG (.bndw o) o.g fun s =>
    let f : BitVec 5 := o.fn.setWidth 5
    let lo : Lane := (s.core.sreg o.a).setWidth 32
    let hi : Lane := (s.core.sreg o.b).setWidth 32
    if (elemVal f.toNat lo.toNat).isNan || (elemVal f.toNat hi.toNat).isNan then s.trapOp ILLOP (.bndw o)
    else
      s.upd fun c =>
        { c with bounds := c.bounds.set (numOf o).toNat { lo := lo, hi := hi, fmt := f, act := o.fn.extractLsb' 5 2 } (numOf o).isLt }

/-- BNDR (R301). -/
def execBndr (o : XForm) (s : State) : Host.Outcome State Fault Refusal :=
  s.ifAllowedG (.bndr o) o.g fun s =>
    let b := s.core.bound (numOf o)
    s.wS 1 o.d (b.hi ++ b.lo)

/-- BNDR.fa (R301). -/
def execBndrFa (o : XForm) (s : State) : Host.Outcome State Fault Refusal :=
  s.ifAllowedG (.bndrFa o) o.g fun s =>
    let b := s.core.bound (numOf o)
    s.wS 1 o.d ((b.act ++ b.fmt).setWidth 64)

/-- SHPW (R303). -/
def execShpw (o : XForm) (s : State) : Host.Outcome State Fault Refusal :=
  s.ifAllowedG (.shpw o) o.g fun s =>
    let n : BitVec 32 := (s.core.sreg o.a).setWidth 32
    if n = 0 then s.trapOp ILLOP (.shpw o)
    else
      s.upd fun c =>
        let h := c.shapes[(numOf o).toNat]'(numOf o).isLt
        let h' : Shape := { dims := o.fn.toNat % 8, sizes := h.sizes.setIfInBounds (o.imm.toNat / 16 % 8) n }
        { c with shapes := c.shapes.set (numOf o).toNat h' (numOf o).isLt }

/-- CKTOL (R102, R304). -/
def execCktol (o : XForm) (s : State) : Host.Outcome State Fault Refusal :=
  s.ifAllowedG (.cktol o) o.g fun s =>
    let w : Word := (s.core.sreg o.b).setWidth 32 ++ ((s.core.sreg o.a).setWidth 32 : BitVec 32)
    s.upd fun c => { c with tol := c.tol.setIfInBounds (o.imm.toNat % 64) w }

/-- CKTOL.rd (R304). -/
def execCktolRd (o : XForm) (s : State) : Host.Outcome State Fault Refusal :=
  s.ifAllowedG (.cktolRd o) o.g fun s =>
    s.wS 1 o.d (if h : o.imm.toNat % 64 < 56 then s.core.tol[o.imm.toNat % 64] else 0)

/-- RBCFG (R355). -/
def execRbcfg (o : XForm) (s : State) : Host.Outcome State Fault Refusal :=
  s.ifAllowedG (.rbcfg o) o.g fun s =>
    (s.commitSeg).upd fun c => { c with rbkey := c.sreg o.a, rbctr := c.sreg o.b, rbq := [] }

/-- RBPOP (R71, R355). -/
def execRbpop (o : XForm) (s : State) : Host.Outcome State Fault Refusal :=
  s.ifAllowedG (.rbpop o) o.g fun s =>
    match s.popWord with
    | none => s.wait
    | some (w, s) => s.wS 1 o.d w

/-- RB_GENERATE (R354). -/
def execRbGenerate (s : State) : Host.Outcome State Fault Refusal := .next (s.upd Core.rbAppend)

end Sys2Proof.Machine
end

