-- ==== Sys2Proof/Machine/Loops.lean ====
section
/-! DEFINITION. Loop nests and the loop buffer (R316 to R321). -/

namespace Sys2Proof.Machine

/-- A descriptor of `n` bytes in P space at offset `x` (R317): its checks, then what to do with its bytes. -/
def State.withDesc (s : State) (x n : Nat) (f : List Byte → State) : State :=
  if x % 64 ≠ 0 then s.trap ALIGN .x (addrInfo x)
  else if x + n > s.descLimit then s.trap XLATE .x (addrInfo x)
  else
    match s.poisoned 64 ((List.range ((n + 63) / 64)).map fun k => (.own, x + 64 * k)) with
    | some b => s.consumeHere b x
    | none => f (s.bytesAt .own x n)

/-- A nest descriptor obeys R317. -/
def nestValid (d : List Byte) : Bool :=
  let D := fieldAt d 0 1
  let J := fieldAt d 1 1
  let regs := (List.range J).map fun j => fieldAt d (2 + j) 1
  1 ≤ D && D ≤ 6 && J ≤ 4 && (regs.all fun r => r < 16) && regs.Nodup
    && (List.range 4).all (fun j => j < J || (fieldAt d (2 + j) 1 == 0 && fieldAt d 6 2 / 2 ^ (3 * j) % 8 == 0))
    && fieldAt d 6 2 < 2 ^ 12
    && (List.range 6).all (fun i => i < D || zeroAt d (8 + 4 * i) 4)
    && (List.range 6).all (fun i => (List.range 4).all fun j => (i < D && j < J) || zeroAt d (0x20 + 16 * i + 4 * j) 4)

/-- The nest of a descriptor (R317). -/
def nestOf (d : List Byte) : Nest :=
  let D := fieldAt d 0 1
  { counts := (List.range D).map fun i => fieldAt d (8 + 4 * i) 4
    slots := (List.range (fieldAt d 1 1)).map fun j =>
      (BitVec.ofNat 4 (fieldAt d (2 + j) 1), fieldAt d 6 2 / 2 ^ (3 * j) % 8,
       (List.range D).map fun i => sfieldAt d (0x20 + 16 * i + 4 * j) 4) }

/-- A replay is frozen while the handler runs (R321). -/
def Core.frozenReplay (c : Core) : Bool := c.hnd && (match c.handler with | some e => e.replay.isSome | none => false)

/-- LNEST (R317, R321). -/
def execLnest (o : XForm) (s : State) : Host.Outcome State Fault Refusal :=
  s.ifAllowedG (.lnest o) o.g fun s =>
    if s.core.frozenReplay then s.trapOp ILLOP (.lnest o)
    else
      s.withDesc (s.core.sreg o.a).toNat 128 fun d =>
        if !nestValid d then s.trapOp ILLOP (.lnest o) else s.upd fun c => { c with nest := some (nestOf d) }

/-- N of R318. -/
def Nest.total (n : Nest) : Nat := n.counts.foldl (fun a b => a * b) 1

/-- idx_i(t) of R319. -/
def idxAt (counts : List Nat) (i t : Nat) : Nat :=
  let below := (counts.take i).foldl (fun a b => a * b) 1
  t / below % counts.getD i 1

/-- The registers at the start of iteration `it` (R319). -/
def Core.iterStart (c : Core) : Core :=
  match c.replay with
  | none => c
  | some r =>
    let c := (r.nest.slots.zip r.a0).foldl (fun c x =>
      let ((reg, delay, strides), a0) := x
      let t := Nat.min (r.it - delay) (r.n - 1)
      let off := (strides.zip (List.range strides.length)).foldl (fun (a : Int) y => a + y.1 * (idxAt r.nest.counts y.2 t : Nat)) 0
      c.setA reg (a0 + BitVec.ofInt 80 off) none) c
    { c with replay := some { r with rb := if r.rot then r.it % 16 else 0 } }

/-- The largest stage of a body (R318). -/
def Replay.smax (r : Replay) : Nat := (r.stages.take r.len).foldl Nat.max 0

/-- The body bundle that is next runs in this iteration (R319). -/
def Replay.runs (r : Replay) : Bool :=
  let st := r.stages.getD r.b 0
  st ≤ r.it && r.it - st < r.n

/-- The position after the body. -/
def Replay.after (r : Replay) : Nat := (r.poss.getLastD (0, 0)).2

/-- A replay ends (R319): the nest is cleared and the bundle after the body is next. -/
def Core.endReplay (c : Core) (r : Replay) : Core := { c with replay := none, nest := none, pos := r.after }

/-- A body bundle is done (R319, R320): the next body bundle, the next iteration, or the end. -/
def Core.replayNext (c : Core) (r : Replay) : Core :=
  if r.b + 1 < r.len then
    { c with replay := some { r with b := r.b + 1 }, pos := r.posOf (r.b + 1) }
  else if r.brk ∨ r.it + 1 ≥ r.n + r.smax then c.endReplay r
  else ({ c with replay := some { r with b := 0, it := r.it + 1 }, pos := r.posOf 0 } : Core).iterStart

/-- LBODY (R318, R321): the replay is set up; its first iteration starts once the bundle has issued. -/
def execLbody (o : XForm) (s : State) : Host.Outcome State Fault Refusal :=
  s.ifAllowed (.lbody o) fun s =>
    let L := o.fn.toNat % 32 + 1
    match s.core.nest, s.codeSrc with
    | some n, .ok src =>
      if s.core.frozenReplay || s.core.replay.isSome then s.trapOp ILLOP (.lbody o)
      else
        match s.afterBundles src L s.core.seqPos with
        | none => s.trapOp ILLOP (.lbody o)
        | some stop =>
          if n.total = 0 then s.upd fun c => { c with nest := none, seqPos := stop }
          else
            let stage (b : Nat) : Nat :=
              if b ≤ 20 then (s.core.sreg o.a).toNat / 2 ^ (3 * b) % 8 else (s.core.sreg o.b).toNat / 2 ^ (3 * (b - 21)) % 8
            let r : Replay :=
              { nest := n, a0 := n.slots.map fun x => s.core.areg x.1, n := n.total, it := 0, rb := 0, rot := o.imm.getLsbD 0,
                start := s.core.seqPos, len := L, stages := (List.range 32).map stage, body := [], poss := [], b := 0, brk := false }
            s.upd fun c => { c with replay := some r }
    | _, _ => s.trapOp ILLOP (.lbody o)

/-- An operation that a loop body may not hold (R209, R318). -/
def bodyRefuses (i : Instr) : Bool :=
  match i with
  | .br _ | .bri _ | .jmp _ | .call _ | .ret _ | .jr _ | .callr _ | .dbnz _ | .wfe _ | .yield _ | .susp _ | .exit _ | .trap _
  | .tret _ | .deq _ | .deqt _ | .cmbopen _ | .cmbopenTry _ | .lnest _ | .lbody _ => true
  | _ => false

/-- LBRK (R320). -/
def execLbrk (o : XForm) (s : State) : Host.Outcome State Fault Refusal :=
  s.ifAllowedG (.lbrk o) o.g fun s =>
    match s.core.replay with
    | none => s.trapOp ILLOP (.lbrk o)
    | some r => s.upd fun c => { c with replay := some { r with brk := true } }

/-- LBRK.drain (R320). -/
def execLbrkDrain (o : XForm) (s : State) : Host.Outcome State Fault Refusal :=
  s.ifAllowedG (.lbrkDrain o) o.g fun s =>
    match s.core.replay with
    | none => s.trapOp ILLOP (.lbrkDrain o)
    | some r => s.upd fun c => { c with replay := some { r with n := Nat.min r.n (r.it + 1) } }

/-- LSTAT (R320). -/
def execLstat (o : XForm) (s : State) : Host.Outcome State Fault Refusal :=
  s.ifAllowedG (.lstat o) o.g fun s =>
    let k := o.fn.toNat % 16
    let v := match s.core.replay with
      | none => 0
      | some r =>
        if k = 0 then r.it
        else if k = 7 then r.rb
        else if k - 1 ≥ r.nest.counts.length then 0
        else idxAt r.nest.counts (k - 1) (Nat.min r.it (r.n - 1))
    s.wS 1 o.d (BitVec.ofNat 64 v)

end Sys2Proof.Machine
end

