-- ==== Sys2Proof/Machine/Memory.lean ====
section
/-! DEFINITION. Memory operations of the A slot (R306 to R315). -/

namespace Sys2Proof.Machine

/-- The watchpoint of lowest number that covers bytes accessed (R384); `ld` and `st` say what the access
counts for. Only G-space accesses of a task are watched. -/
def State.watchHit (s : State) (as : Nat) (ld st : Bool) (rs : List (Int × Nat)) : Option Nat :=
  if as ≠ 0 ∨ s.isQp ∨ s.core.mon.mode then none
  else
    (List.range 4).find? fun k =>
      let w := (s.core.mon.wpc[k % 4]'(Nat.mod_lt _ (by decide))).toNat
      let b := (s.core.mon.wpa[k % 4]'(Nat.mod_lt _ (by decide))).toNat
      let sz := w / 4 % 64
      ((ld && bitOf w 0) || (st && bitOf w 1)) && rs.any fun r => overlaps r.1.toNat r.2 (b / 2 ^ sz * 2 ^ sz) (2 ^ sz)

/-- The checks of one access of `n` aligned bytes (R307): ALIGN, XLATE and PERM, WATCH; or its place. -/
def State.checked (s : State) (as : Nat) (x : Int) (n : Nat) (k : Kind) (ld st : Bool) (f : Place × Nat → State) : State :=
  if x % n ≠ 0 then s.trap ALIGN .a (addrInfo x)
  else
    match s.place as x n k with
    | .error code => s.memTrap code as x .a
    | .ok p =>
      match s.watchHit as ld st [(x, n)] with
      | some w => s.trap WATCH .a w
      | none => f p

/-- A load goes to memory: its data, or the error in it, returns later (R154). -/
def State.startLoad (s : State) (w : Write) (bad : Option (BadSource × Nat)) : State :=
  s.upd fun c => { c with outst := c.outst ++ [.load w bad] }

/-- The taint of an address: of the registers that the operand reads (R127). -/
def State.addrTaint (s : State) (o : AForm) (idx : Bool) : Option Taint :=
  joinTaint (if o.as != 0 && o.base == 0 then none else s.core.aTaint o.base) (if idx then s.core.sTaint o.idx else none)

/-- The stores that the address of an access promises (R127). -/
def State.floors (s : State) (o : AForm) (idx : Bool) : List Nat := s.dev.promised (s.addrTaint o idx)

/-- What a read of chunks of `n` bytes leaves behind: the stores that it took (R121, R123), and lines in the L1 (R116). -/
def State.hasRead (s : State) (fl : List Nat) (n : Nat) (ps : List (Place × Nat)) : State := (s.saw fl n ps).l1Read n ps

/-- The error in the data of chunks of `n` bytes, with the address of the first chunk that has one (R189, R376). -/
def State.badAt (s : State) (n : Nat) (xs : List Int) (ps : List (Place × Nat)) : Option (BadSource × Nat) :=
  (xs.zip ps).findSome? fun p => (s.poisoned n [p.2]).map fun b => (b, addrInfo p.1)

/-- A scalar load (R307): the bytes as they stand at issue, zero-extended. -/
def State.loadScalar (s : State) (o : AForm) : State :=
  let n := sizeBytes o.size.toNat
  let x := s.ea o (sxOf o)
  s.checked o.as.toNat x n .load true false fun p =>
    let fl := s.floors o true
    let v := BitVec.ofNat 64 (leNat (s.bytesVia fl p.1 p.2 n))
    ((s.hasRead fl n [p]).touch o.as.toNat x n .load).startLoad (.s o.t v none) (s.badAt n [x] [p])

/-- What LDC reads at a place (R126): each byte, and the store that it takes from global memory. -/
def State.consumed (s : State) (fl : List Nat) (X : Nat) (p : Place × Nat) (n : Nat) : List (Byte × Option (Nat × GStore)) :=
  (List.range n).map fun k =>
    match pieceByte s.core.heldPieces p.1 (p.2 + k) with
    | some b => (b, none)
    | none =>
      if p.1 = .phys then
        (let r := s.dev.consumeByte s.focus s.core fl X (p.2 + k)
         (r.1, r.2.map fun x => (p.2 + k, x)))
      else (s.byteAt p.1 (p.2 + k), none)

/-- The releases that have published the stores that stand at `n` bytes of a scratchpad (R120, R127): none where the store has landed
and its issuer has not released since. -/
def State.farRels (s : State) (p : Place × Nat) (n : Nat) : List Nat :=
  let q := s.markAt p
  (List.range n).filterMap fun k =>
    (s.dev.far.reverse.find? fun f => f.place == q.1 && decide (f.addr ≤ q.2 + k) && decide (q.2 + k < f.addr + f.len)).bind fun f =>
      if f.issuer = s.focus then none else f.rel

/-- The taint of an LDC of scope `X` that took stores `xs` of global memory, or stores of a scratchpad published at `ts` (R127): the
releases at which they were published to the reader; it joins the taint of its address. -/
def State.ldcTaint (s : State) (o : AForm) (xs : List (Nat × GStore)) (ts : List Nat) : Option Taint :=
  joinTaint (some { scope := o.scope, rels := (xs.filterMap fun x => x.2.toUnit s.focus).map (fun t => (o.scope.toNat, t)) ++ ts.map fun t => (o.scope.toNat, t) })
    (s.addrTaint o true)

/-- LDC (R126, R307): as LD at CORE scope and in P space. The stores that it returns are read ones (R121). -/
def State.loadConsume (s : State) (o : AForm) : State :=
  if o.scope = 0 ∨ o.as = 1 then s.loadScalar o
  else
    let n := sizeBytes o.size.toNat
    let x := s.ea o (sxOf o)
    s.checked o.as.toNat x n .load true false fun p =>
      let bs := s.consumed (s.floors o true) o.scope.toNat p n
      let xs := bs.filterMap Prod.snd
      let v := BitVec.ofNat 64 (leNat (bs.map Prod.fst))
      let u := (s.touch o.as.toNat x n .load).l1Read n [p]
      let new := xs.map fun y => (y.1, y.2.id)
      (u.upd fun c => { c with raced := c.raced ++ new.filter fun r => !c.raced.contains r }).startLoad
        (.s o.t v (s.ldcTaint o xs (s.farRels p n))) (s.badAt n [x] [p])

/-- LD (R307). -/
def execLd (o : AForm) (s : State) : Host.Outcome State Fault Refusal :=
  s.ifAllowedG (.ld o) o.g fun s => s.loadScalar o

/-- LDC (R126, R307). -/
def execLdc (o : AForm) (s : State) : Host.Outcome State Fault Refusal :=
  s.ifAllowedG (.ldc o) o.g fun s => s.loadConsume o

/-- ST (R307). -/
def execSt (o : AForm) (s : State) : Host.Outcome State Fault Refusal :=
  s.ifAllowedG (.st o) o.g fun s =>
    let n := sizeBytes o.size.toNat
    let x := s.ea o (sxOf o)
    s.checked o.as.toNat x n .store false true fun p =>
      (s.touch o.as.toNat x n .store).store o.as.toNat [{ place := p.1, addr := p.2, bytes := bytesOfNat n (s.core.sreg o.t).toNat }] 1

/-- Rows of a vector access (R308). -/
def rowsOf (o : AForm) : Nat := o.mod.toNat + 1

/-- The row addresses of VLD and VST (R308). -/
def State.rowAddrs (s : State) (o : AForm) (n : Nat) : List Int :=
  (List.range n).map fun (k : Nat) => addrIn o.as.toNat (s.ea o false + 256 * k)

/-- The row addresses of VLDS (R307). -/
def State.stridedAddrs (s : State) (o : AForm) (n : Nat) : List Int :=
  (List.range n).map fun (k : Nat) => addrIn o.as.toNat (s.eaBase o + (sw (s.core.sreg o.idx)) * k)

/-- The places of rows, in chunks of 64 bytes, or the fault of lowest address (R308). -/
def State.rowPlaces (s : State) (as : Nat) (k : Kind) (xs : List Int) : Except (Nat × Int) (List (Place × Nat)) :=
  let rs := xs.flatMap fun x => (List.range 4).map fun (j : Nat) =>
    let a := addrIn as (x + 64 * j)
    (a, s.place as a 64 k)
  let bad := rs.filterMap fun r => match r.2 with | .error e => some (e, r.1) | .ok _ => none
  match bad with
  | [] => .ok (rs.filterMap fun r => match r.2 with | .ok p => some p | .error _ => none)
  | b :: bs => .error (bs.foldl (fun m r => if r.2 < m.2 then r else m) b)

/-- The bytes of each row that active lanes name: one range of 4 bytes for each active lane. -/
def laneRanges (m : LaneMask) (xs : List Int) : List (Int × Nat) :=
  (xs.zip (List.range xs.length)).flatMap fun r =>
    (List.range 64).filterMap fun k => if m.getLsbD (64 * r.2 + k) then some (r.1 + 4 * k, 4) else none

/-- The checks of a row access (R308): ALIGN, then the fault of lowest address, then WATCH. -/
def State.checkedRows (s : State) (as : Nat) (m : LaneMask) (xs : List Int) (k : Kind) (ld st : Bool)
    (f : List (Place × Nat) → State) : State :=
  match xs.find? fun x => x % 64 ≠ 0 with
  | some x => s.trap ALIGN .a (addrInfo x)
  | none =>
    match s.rowPlaces as k xs with
    | .error e => s.memTrap e.1 as e.2 .a
    | .ok ps =>
      match s.watchHit as ld st (laneRanges m xs) with
      | some w => s.trap WATCH .a w
      | none => f ps

/-- The lanes of rows 0 to n − 1. -/
def rowMask (n : Nat) : LaneMask := BitVec.ofNat 1024 (2 ^ (64 * n) - 1)

/-- A register whose rows are a run of bytes (R227). -/
def vOfBytes (bs : List Byte) : VReg :=
  let arr := bs.toArray
  vOf fun l => arr.getD (4 * l + 3) 0 ++ arr.getD (4 * l + 2) 0 ++ arr.getD (4 * l + 1) 0 ++ arr.getD (4 * l) 0

/-- The bytes of the lanes of a register in rows 0 to n − 1 (R227). -/
def bytesOfV (v : VReg) (n : Nat) : List Byte := (v.toList.take (64 * n)).flatMap fun x => bytesOfNat 4 x.toNat

/-- The addresses of the chunks of 64 bytes of rows. -/
def chunkAddrs (as : Nat) (xs : List Int) : List Int := xs.flatMap fun x => (List.range 4).map fun (j : Nat) => addrIn as (x + 64 * j)

/-- A vector load of rows (R308). -/
def State.loadRows (s : State) (o : AForm) (xs : List Int) : State :=
  let m := s.core.lanesOf o.g &&& rowMask xs.length
  s.checkedRows o.as.toNat m xs .load true false fun ps =>
    let fl := s.floors o true
    let v := vOfBytes (s.readVia fl 64 ps)
    let s1 := xs.foldl (fun s x => s.touch o.as.toNat x 256 .load) (s.hasRead fl 64 ps)
    ((s1.startLoad (.v (s.core.vnum o.t) m v) (s.badAt 64 (chunkAddrs o.as.toNat xs) ps)).upd fun c => c.journalV (c.vnum o.t)).occupyA xs.length

/-- VLD (R308). -/
def execVld (o : AForm) (s : State) : Host.Outcome State Fault Refusal :=
  s.ifAllowed (.vld o) fun s => s.loadRows o (s.rowAddrs o (rowsOf o))

/-- VLDS (R307): a stride that is no multiple of 64 raises ALIGN. -/
def execVlds (o : AForm) (s : State) : Host.Outcome State Fault Refusal :=
  s.ifAllowed (.vlds o) fun s =>
    if (s.core.sreg o.idx).toNat % 64 ≠ 0 then s.trap ALIGN .a (addrInfo (s.eaBase o))
    else s.loadRows o (s.stridedAddrs o (rowsOf o))

/-- The bound check of stored lanes (R308, R309): the lanes as stored, whether one was out of bounds. -/
def boundLanes (b : Bound) (m : LaneMask) (v : VReg) : VReg × Bool :=
  let w := formatBits b.fmt.toNat
  let r : Vector (Lane × Bool) 1024 := Vector.ofFn fun i =>
    if m.getLsbD i.val then
      (let x := v[i].toNat % 2 ^ w
       let y := checkPlain b b.fmt.toNat x
       (if y.1 = x then v[i] else BitVec.ofNat 32 y.1, y.2))
    else (v[i], false)
  (r.map Prod.fst, r.any Prod.snd)

/-- The flags and the BOUND of a store's check become due with the next τ (R253). -/
def State.boundEffect (s : State) (tid : BitVec 4) (out : Bool) : State :=
  if tid = 0 then s
  else
    s.upd fun c =>
      c.put 1 (if trapDue (c.bound tid) out then .bound (issueKey c.tau 1) tid else .none) (flagIf out fBND) true

/-- Stores of the active lanes of rows (R308): pieces of 4 bytes, one for each active lane. -/
def lanePieces (m : LaneMask) (ps : List (Place × Nat)) (v : VReg) : List Piece :=
  (ps.zip (List.range ps.length)).flatMap fun r =>
    if (List.range 16).all fun j => m.getLsbD (16 * r.2 + j) then
      [{ place := r.1.1, addr := r.1.2, bytes := (List.range 16).flatMap fun j => bytesOfNat 4 (laneAt v (16 * r.2 + j)).toNat }]
    else
      (List.range 16).filterMap fun j =>
        if m.getLsbD (16 * r.2 + j) then
          some { place := r.1.1, addr := r.1.2 + 4 * j, bytes := bytesOfNat 4 (laneAt v (16 * r.2 + j)).toNat }
        else none

/-- A store of rows from lane values (R308). -/
def State.storeRows (s : State) (o : AForm) (n : Nat) (v : VReg) (f : State → State) : State :=
  let m := s.core.lanesOf o.g &&& rowMask n
  let xs := s.rowAddrs o n
  s.checkedRows o.as.toNat m xs .store false true fun ps =>
    let (v', out) := if o.tid = 0 then (v, false) else boundLanes (s.core.bound o.tid) m v
    let s := xs.foldl (fun s x => s.touch o.as.toNat x 256 .store) s
    ((f (s.store o.as.toNat (lanePieces m ps v') n)).boundEffect o.tid out).occupyA n

/-- VST (R308). -/
def execVst (o : AForm) (s : State) : Host.Outcome State Fault Refusal :=
  s.ifAllowed (.vst o) fun s => s.storeRows o (rowsOf o) (s.core.vreg o.t) id

/-- VST of a result queue (R308): the next value quarter of the head entry; the pop happens whether or not
lanes are active. -/
def execVstQueue (o : AForm) (s : State) : Host.Outcome State Fault Refusal :=
  s.ifAllowed (.vstQueue o) fun s =>
    let q : BitVec 2 := o.mod.setWidth 2
    match s.core.mat.head q with
    | .waitFor n => s.waitTau (s.core.tau + Nat.max n 1)
    | .empty =>
      -- the faults of the address come first, as the entry's general rules list them
      s.checkedRows o.as.toNat (s.core.lanesOf o.g) (s.rowAddrs o 16) .store false true fun _ => s.trap QUEUE .a (queueInfo q)
    | .entry e =>
      let v := vOf fun l => tileAt e.elems (l / 64) (64 * e.popped + l % 64)
      s.storeRows o 16 v fun s => (s.commitSeg).upd fun c => c.popQuarter q

/-- The address of lane `l` of a gather or a scatter (R309). -/
def State.laneEa (s : State) (o : AForm) (l : Nat) : Int :=
  let x := (laneAt (s.core.vreg o.idx) l).toInt
  let x := if sxOf o then x * sizeBytes o.size.toNat else x
  addrIn o.as.toNat ((if o.as != 0 && o.base == 0 then 0 else ((s.core.areg o.base).toNat : Int)) + x + dispOf o)

/-- The place of one lane's element, or its fault (R309). -/
def State.lanePlace (s : State) (o : AForm) (l : Nat) (k : Kind) : Except (Nat × Int) (Place × Nat) :=
  let n := sizeBytes o.size.toNat
  let x := s.laneEa o l
  if x % n ≠ 0 then .error (ALIGN, x)
  else if o.as = 4 then (if x < 0 ∨ x + n > 256 then .error (XLATE, x) else .ok (.lane, 256 * l + x.toNat))
  else match s.place o.as.toNat x n k with | .error e => .error (e, x) | .ok p => .ok p

/-- The active lanes with their places, or the fault of the lowest faulting lane (R309). -/
def State.lanePlaces (s : State) (o : AForm) (k : Kind) : Except (Nat × Int) (List (Nat × Place × Nat)) :=
  ((List.range 1024).filter fun l => (s.core.lanesOf o.g).getLsbD l).mapM fun l => (s.lanePlace o l k).map fun p => (l, p)

/-- The checks of a gather or a scatter (R309). -/
def State.checkedLanes (s : State) (o : AForm) (k : Kind) (ld st : Bool) (f : List (Nat × Place × Nat) → State) : State :=
  match s.lanePlaces o k with
  | .error e => s.memTrap e.1 o.as.toNat e.2 .a
  | .ok ps =>
    match s.watchHit o.as.toNat ld st (ps.map fun p => (s.laneEa o p.1, sizeBytes o.size.toNat)) with
    | some w => s.trap WATCH .a w
    | none => f ps

/-- VGATH (R309). -/
def execVgath (o : AForm) (s : State) : Host.Outcome State Fault Refusal :=
  s.ifAllowed (.vgath o) fun s =>
    let n := sizeBytes o.size.toNat
    s.checkedLanes o .load true false fun ps =>
      let fl := s.floors o false
      let v := vOfLanes (ps.map fun p => (p.1, BitVec.ofNat 32 (leNat (s.bytesVia fl p.2.1 p.2.2 n))))
      let s1 := ps.foldl (fun s p => s.touch o.as.toNat (s.laneEa o p.1) n .load) (s.hasRead fl n (ps.map Prod.snd))
      ((s1.startLoad (.v (s.core.vnum o.t) (s.core.lanesOf o.g) v) (s.badAt n (ps.map fun p => s.laneEa o p.1) (ps.map Prod.snd))).upd fun c => c.journalV (c.vnum o.t)).occupyA 16

/-- VSCAT (R309): a higher lane's store comes later. -/
def execVscat (o : AForm) (s : State) : Host.Outcome State Fault Refusal :=
  s.ifAllowed (.vscat o) fun s =>
    let n := sizeBytes o.size.toNat
    s.checkedLanes o .store false true fun ps =>
      let m := s.core.lanesOf o.g
      let (v, out) := if o.tid = 0 then (s.core.vreg o.t, false) else boundLanes (s.core.bound o.tid) m (s.core.vreg o.t)
      let s1 := ps.foldl (fun s p => s.touch o.as.toNat (s.laneEa o p.1) n .store) s
      ((s1.store o.as.toNat (ps.map fun p => { place := p.2.1, addr := p.2.2, bytes := bytesOfNat n (laneAt v p.1).toNat }) 16).boundEffect
        o.tid out).occupyA 16

/-- The offset of LSLD and LSST (R310). -/
def State.sliceOffset (s : State) (o : AForm) : Int :=
  let i : Int := (s.core.sreg o.idx).toNat
  (if sxOf o then i * sizeBytes o.size.toNat else i) + dispOf o

/-- The checks of a lane-private access (R310). -/
def State.checkedSlice (s : State) (o : AForm) (f : Nat → State) : State :=
  let n := sizeBytes o.size.toNat
  let x := s.sliceOffset o
  if x % n ≠ 0 then s.trap ALIGN .a (addrInfo x)
  else if x < 0 ∨ x + n > 256 then s.trap XLATE .a (addrInfo x)
  else f x.toNat

/-- LSLD (R310). -/
def execLsld (o : AForm) (s : State) : Host.Outcome State Fault Refusal :=
  s.ifAllowed (.lsld o) fun s =>
    let n := sizeBytes o.size.toNat
    s.checkedSlice o fun x =>
      let v := vOf fun l => BitVec.ofNat 32 (leNat (s.bytesAt .lane (256 * l + x) n))
      let lanes := (List.range 1024).filter fun l => (s.core.lanesOf o.g).getLsbD l
      let bad := s.badAt n (lanes.map fun _ => s.sliceOffset o) (lanes.map fun l => (.lane, 256 * l + x))
      ((s.startLoad (.v (s.core.vnum o.t) (s.core.lanesOf o.g) v) bad).upd fun c => c.journalV (c.vnum o.t)).occupyA 4

/-- LSST (R310). -/
def execLsst (o : AForm) (s : State) : Host.Outcome State Fault Refusal :=
  s.ifAllowed (.lsst o) fun s =>
    let n := sizeBytes o.size.toNat
    s.checkedSlice o fun x =>
      let v := s.core.vreg o.t
      let lanes := (List.range 1024).filter fun l => (s.core.lanesOf o.g).getLsbD l
      (s.store 4 (lanes.map fun l => { place := .lane, addr := 256 * l + x, bytes := bytesOfNat n (laneAt v l).toNat }) 1).occupyA 4

/-- A line operation (R311): it changes timing only; the translation caches fill when the address is mapped, and a malformed entry
on its walk is logged (R416). `f` is its effect on the lines of the L1. -/
def State.lineOp (s : State) (i : Instr) (o : AForm) (f : State → Nat → State) : Host.Outcome State Fault Refusal :=
  s.ifAllowedG i o.g fun s =>
    let x := s.ea o (sxOf o)
    match s.place 0 x 1 .any with
    | .error code => s.failWalk 0 x code
    | .ok p => if p.1 = .phys then f (s.touch 0 x 1 .any) p.2 else s.touch 0 x 1 .any

/-- PREF (R311). -/
def execPref (o : AForm) (s : State) : Host.Outcome State Fault Refusal := s.lineOp (.pref o) o fun s pa => s.l1Fill pa 1
/-- A dirty line of the L1 is written back as a release at a scope would (R116, R117, R311): it records the scope, at most DEVICE, and its
copies in the dome's other L1s are invalidated. Its stores stay unpublished. -/
def State.lineBack (s : State) (scope line : Nat) : State :=
  if s.core.l1.contains (line, 0) then s.writeBack scope fun k => k == line else s
/-- WBL (R311): at CORE scope nothing is written back (R117). -/
def execWbl (o : AForm) (s : State) : Host.Outcome State Fault Refusal :=
  s.lineOp (.wbl o) o fun s pa => s.lineBack o.scope.toNat (pa / 128)
/-- INVL (R311): the line is written back, to the L2 at least, and invalidated. -/
def execInvl (o : AForm) (s : State) : Host.Outcome State Fault Refusal :=
  s.lineOp (.invl o) o fun s pa =>
    (s.lineBack (Nat.max 1 o.scope.toNat) (pa / 128)).upd fun c => { c with l1 := c.l1.filter fun l => l.1 != pa / 128 }

/-- The page of a context that holds an address (R312): its level, and its number at that level; where no leaf maps it, a pinned
page, else the base page. -/
def Device.pageOf (v : Device) (ctx : BitVec 12) (va : Addr) : Nat × Nat :=
  match v.walk ctx va with
  | .ok (lvl, _) => (lvl, va.toNat / 2 ^ levelShift lvl)
  | .error _ =>
    match v.pins.find? fun p => p.1 == ctx && p.2.2.1 == va.toNat / 2 ^ levelShift p.2.1 with
    | some p => (p.2.1, p.2.2.1)
    | none => (5, va.toNat / 65536)

/-- Add to the pin count of a page, which stays at 65,535 (R312). -/
def Device.pin (v : Device) (ctx : BitVec 12) (page : Nat × Nat) : Device :=
  if v.pins.any fun p => p.1 == ctx && (p.2.1, p.2.2.1) == page then
    { v with pins := v.pins.map fun p => if p.1 == ctx && (p.2.1, p.2.2.1) == page then (p.1, p.2.1, p.2.2.1, Nat.min 65535 (p.2.2.2 + 1)) else p }
  else { v with pins := v.pins ++ [(ctx, page.1, page.2, 1)] }

/-- Take from the pin count of a page; at zero, a deferred migration is tried again (R312, R426). -/
def Device.unpin (v : Device) (ctx : BitVec 12) (page : Nat × Nat) : Device :=
  let v' := { v with pins := (v.pins.map fun p => if p.1 == ctx && (p.2.1, p.2.2.1) == page then (p.1, p.2.1, p.2.2.1, p.2.2.2 - 1) else p).filter fun p => p.2.2.2 != 0 }
  if v'.pins.length < v.pins.length then v'.retryDeferred fun c k => c == ctx && k * 65536 / 2 ^ levelShift page.1 == page.2 else v'

/-- LPIN, page form (R312): XLATE on an unmapped address. -/
def execLpin (o : AForm) (s : State) : Host.Outcome State Fault Refusal :=
  s.ifAllowedG (.lpin o) o.g fun s =>
    let x := s.ea o false
    match s.place 0 x 1 .any with
    | .error code => s.memTrap code 0 x .a
    | .ok _ =>
      let ctx := s.ctx
      (s.commitSeg.touch 0 x 1 .any).updDev fun v => v.pin ctx (v.pageOf ctx (BitVec.ofInt 80 x))

/-- LUNPIN, page form (R312). -/
def execLunpin (o : AForm) (s : State) : Host.Outcome State Fault Refusal :=
  s.ifAllowedG (.lunpin o) o.g fun s =>
    let ctx := s.ctx
    let va := BitVec.ofInt 80 (s.ea o false)
    s.commitSeg.updDev fun v => v.unpin ctx (v.pageOf ctx va)

/-- LPIN, line form (R312): at most 4,096 lines for each dome and context. -/
def execLpinLine (o : AForm) (s : State) : Host.Outcome State Fault Refusal :=
  s.ifAllowedG (.lpinLine o) o.g fun s =>
    let x := s.ea o false
    let ctx := s.ctx
    let line := x.toNat / 128
    match s.place 0 x 1 .any with
    | .error code => s.commitSeg.failWalk 0 x code
    | .ok p =>
      (s.commitSeg.touch 0 x 1 .any).updDev fun v => v.updDome (l2Home p.2) fun d =>
        if d.linePins.contains (ctx, line) || (d.linePins.filter fun q => q.1 == ctx).length ≥ 4096 then d
        else { d with linePins := d.linePins ++ [(ctx, line)] }

/-- LUNPIN, line form (R312). -/
def execLunpinLine (o : AForm) (s : State) : Host.Outcome State Fault Refusal :=
  s.ifAllowedG (.lunpinLine o) o.g fun s =>
    let ctx := s.ctx
    let line := (s.ea o false).toNat / 128
    s.commitSeg.updDev fun v => { v with domes := v.domes.map fun d => { d with linePins := d.linePins.filter fun q => q != (ctx, line) } }

/-- The value that an atomic writes, and its flags (R313); operation 12 is CAS, whose operand is written when the
old value equals the expected one. `w` is the width in bits. FTZ does not act
on atomics (R75). -/
def atomicNew (op w : Nat) (old v e : Nat) : Nat × Flags :=
  let m := 2 ^ w
  let sg (x : Nat) : Int := sextInt x w
  let f (r : Lane × Flags) : Nat × Flags := (r.1.toNat, r.2)
  match op with
  | 0 => ((old + v) % m, 0)
  | 1 => (old &&& v, 0)
  | 2 => (old ||| v, 0)
  | 3 => (old ^^^ v, 0)
  | 4 => (if sg v < sg old then v else old, 0)
  | 5 => (if sg old < sg v then v else old, 0)
  | 6 => (Nat.min old v, 0)
  | 7 => (Nat.max old v, 0)
  | 8 => (v, 0)
  | 9 => f (fAdd 0 false false (BitVec.ofNat 32 old) (BitVec.ofNat 32 v))
  | 10 => ((fMinMax false (BitVec.ofNat 32 old) (BitVec.ofNat 32 v)).toNat, 0)
  | 11 => ((fMinMax true (BitVec.ofNat 32 old) (BitVec.ofNat 32 v)).toNat, 0)
  | _ => (if old = e then v else old, 0)

/-- Start an atomic (R136, R313): its checks, then it is outstanding until it is performed. -/
def State.startAtomic (s : State) (i : Instr) (o : AForm) (op : Nat) (d : Option Reg) (e : Word) : Host.Outcome State Fault Refusal :=
  s.ifAllowedG i o.g fun s =>
    let n := sizeBytes o.size.toNat
    let x := s.eaBase o
    s.checked o.as.toNat x n .atomic true true fun p =>
      if s.core.mer && 9 ≤ op && op ≤ 11 then s.trap MERID .a 0
      else
        let v := (s.core.sreg o.idx).toNat % 2 ^ (8 * n)
        let fl := s.floors o false
        let s := s.commitSeg.touch o.as.toNat x n .atomic
        s.upd fun c =>
          { c with outst := c.outst ++ [.atomic p.1 p.2 n op (BitVec.ofNat 64 v) (BitVec.ofNat 64 (e.toNat % 2 ^ (8 * n))) d o.scope (addrInfo x) fl] }

/-- AMO (R313). -/
def execAmo (o : AForm) (s : State) : Host.Outcome State Fault Refusal := s.startAtomic (.amo o) o o.mod.toNat (some o.t) 0
/-- AMOS (R313). -/
def execAmos (o : AForm) (s : State) : Host.Outcome State Fault Refusal := s.startAtomic (.amos o) o o.mod.toNat none 0
/-- CAS (R313). -/
def execCas (o : AForm) (s : State) : Host.Outcome State Fault Refusal := s.startAtomic (.cas o) o 12 (some o.t) (s.core.sreg o.t)

/-- Write the bytes of an atomic at the coherence point of its scope (R136, R137): in G space a store that is published at the scope at
once, the task's own; the scratchpad itself elsewhere. At CORE scope G space has no stated coherence point: the atomic is there a read
under R123 and a store of the task's own, not published (DESIGN CHOICE, log 103). Bytes of the task's own unpublished stores that the
atomic writes over are gone, and no later release publishes them (DESIGN CHOICE, log 64). -/
def State.atomicWrite (s : State) (pl : Place) (x : Nat) (bs : List Byte) (scope : Nat) : State :=
  match pl with
  | .phys =>
    if scope = 0 then s.perform { place := pl, addr := x, bytes := bs }
    else
      let id := s.dev.nextStore
      (s.upd fun c => { c with dirty := c.dirty.flatMap fun y => y.outside x bs.length, view := c.view ++ [id] }).updDev
        fun v => v.publishAs (.unit s.focus) scope x bs
  | _ => s.perform { place := pl, addr := x, bytes := bs }

/-- What an atomic reads at the coherence point of its scope (R136): each byte, and the store of global memory that it is from. -/
def State.pointBytes (s : State) (fl : List Nat) (pl : Place) (x n scope : Nat) : List (Byte × Option (Nat × GStore)) :=
  (List.range n).map fun k =>
    if pl = .phys ∧ scope ≠ 0 then
      match s.dev.pointStore s.focus s.core fl scope (x + k) with
      | some y => (y.byte (x + k), some (x + k, y))
      | none => (s.dev.below (x + k), none)
    else (s.byteIn fl pl (unitAt x n k) (x + k), none)

/-- ATOMIC_PERFORMED (R136, R313): the atomic that the event names reads the latest value at its coherence point, writes, but for a
CAS that finds another value than the one expected, and returns the old value, which the task has then read (R121). Earlier stores of the task to scratchpads land first (R115). -/
def execAtomicPerformed (s : State) : Host.Outcome State Fault Refusal :=
  let s := s.merLate
  .next (match s.core.outst[s.ev.index]? with
    | some (.atomic pl x n op v e d scope ea fl) =>
      let s := s.landAll
      match s.poisoned n [(pl, x)] with
      | some b => (s.upd fun c => c.dropOutst s.ev.index).consume b ea
      | none =>
        let bs := s.pointBytes fl pl x n scope.toNat
        let old := leNat (bs.map Prod.fst)
        let (new, f) := atomicNew op (8 * n) old v.toNat e.toNat
        let seen := bs.filterMap Prod.snd
        let fresh := (seen.map fun y => (y.1, y.2.id)).filter fun r => !s.core.raced.contains r
        let s := if pl = .phys ∧ scope = 0 then s.hasRead fl n [(pl, x)] else s.upd fun c => { c with raced := c.raced ++ fresh }
        let s := if op = 12 ∧ old ≠ e.toNat then s else s.atomicWrite pl x (bytesOfNat n new) scope.toNat
        s.upd fun c => c.finish s.ev.index (match d with | some r => .s r (BitVec.ofNat 64 old) none | none => .none) f
    | _ => s)

end Sys2Proof.Machine
end

