-- ==== Sys2Proof/Machine/Engines.lean ====
section
/-! DEFINITION. Engines and tokens: copies, weight loads, scoreboard counters (R129 to R134, R322 to R333). -/

namespace Sys2Proof.Machine

/-- Engine operations outstanding on a core (R322). -/
def Core.engineCount (c : Core) : Nat := (c.outst.filter fun x => match x with | .engine _ => true | _ => false).length

/-- Counter `k` of a core. -/
def Core.counter (c : Core) (k : BitVec 3) : Nat × BitVec 3 := c.counters[k.toNat]'k.isLt

/-- An engine operation counts on its counter, which records the widest scope (R129, R132). -/
def Core.countUp (c : Core) (k : Option (BitVec 3)) (scope : BitVec 3) : Core :=
  match k with
  | none => c
  | some k =>
    let (n, x) := c.counter k
    { c with counters := c.counters.set k.toNat (n + 1, if x.toNat < scope.toNat then scope else x) k.isLt }

/-- A counted operation completes; at zero the recorded scope becomes CORE (R129, R132). -/
def Core.countDown (c : Core) (k : Option (BitVec 3)) : Core :=
  match k with
  | none => c
  | some k =>
    let (n, x) := c.counter k
    { c with counters := c.counters.set k.toNat (n - 1, if n ≤ 1 then 0 else x) k.isLt }

/-- The counter that fn[3:0] names (R322). -/
def counterOf (o : XForm) : Option (BitVec 3) := if o.fn.getLsbD 3 then some (o.fn.setWidth 3) else none

/-- An engine operation issues (R129, R322): its token becomes pending. -/
def Core.startEngine (c : Core) (e : EngineOp) : Core :=
  { c with outst := c.outst ++ [Outstanding.engine e], tokens := c.tokens.filter fun t => t.reg != e.tok }.countUp e.ctr e.scope

/-- The ranges of global memory among pieces. -/
def physRanges (ps : List Piece) : List (Nat × Nat) := (ps.filter fun p => decide (p.place = .phys)).map fun p => (p.addr, p.bytes.length)

/-- The pieces whose bytes are among the first `n`. -/
def piecesTo (n : Nat) : List Piece → List Piece
  | [] => []
  | p :: ps => if p.bytes.length ≤ n then p :: piecesTo (n - p.bytes.length) ps else []

/-- The ranges of global memory that the first read of a token acquires (R131, R330): the destinations of a copy or a get, as far as
they are reported as written. -/
def EngineOp.ranges (e : EngineOp) (bytes : Nat) : List (Nat × Nat) :=
  if e.kind = 1 ∨ e.kind = 2 ∨ e.kind = 4 then e.wrote ++ physRanges (piecesTo (bytes - e.cursor) e.pieces) else []

/-- An engine operation completes (R129, R131, R323): its token is written, then its counter goes down. `code` is the
trap of the first read of a token with an error. -/
def Core.engineDone (c : Core) (k : Nat) (e : EngineOp) (status bytes : Nat) (flags : BitVec 11) (code : Option Nat) : Core :=
  let c := c.finish k (.s e.tok (BitVec.ofNat 64 (bytes % 2 ^ 48 + status * 2 ^ 48)) none) flags
  ({ c with tokens := c.tokens ++ [{ reg := e.tok, trap := if status = 0 then none else code, scope := e.scope, ranges := e.ranges bytes }] } : Core).countDown e.ctr

/-- An engine instruction (R322): sixteen outstanding operations hold the next, and a segment closes. -/
def State.engineSlot (s : State) (f : State → State) : State :=
  if s.core.engineCount ≥ 16 then s.wait else f s.commitSeg

/-- A copy as its descriptor gives it (R325, R327): source, destination, dimensions (count, source stride,
destination stride), element bytes of each side, conversion (source and destination format, rounding, SAT). -/
structure CopyDesc where
  src   : Int
  srcSp : Nat
  q     : BitVec 2
  dst   : Int
  dstSp : Nat
  dims  : List (Nat × Int × Int)
  ssz   : Nat
  dsz   : Nat
  conv  : Option (Nat × Nat × Nat × Bool)
  start : Nat
  trapOn : Bool
  snode : BitVec 16
  dnode : BitVec 16

/-- Formats of CPYX (R327). -/
def cpyxFormat (f : Nat) : Bool := boundFormat f

/-- The copy of a descriptor; `conv` for CPYX. -/
def copyOf (conv : Bool) (d : List Byte) : CopyDesc :=
  let D := fieldAt d 0xF 1
  { src := fieldAt d 0 10, srcSp := fieldAt d 0xA 1, q := BitVec.ofNat 2 (fieldAt d 0xB 1), dst := fieldAt d 0x10 10, dstSp := fieldAt d 0x1A 1
    dims := (List.range D).map fun i => (fieldAt d (0x30 + 16 * i) 4, sfieldAt d (0x34 + 16 * i) 6, sfieldAt d (0x3A + 16 * i) 6)
    ssz := if conv then formatBits (fieldAt d 0x20 1) / 8 else 2 ^ fieldAt d 0x1E 1
    dsz := if conv then formatBits (fieldAt d 0x21 1) / 8 else 2 ^ fieldAt d 0x1E 1
    conv := if conv then some (fieldAt d 0x20 1, fieldAt d 0x21 1, fieldAt d 0x22 1 % 8, bitOf (fieldAt d 0x22 1) 3) else none
    start := fieldAt d 0x28 8, trapOn := bitOf (fieldAt d 0xE 1) 0
    snode := BitVec.ofNat 16 (fieldAt d 0xC 2), dnode := BitVec.ofNat 16 (fieldAt d 0x1C 2) }

/-- N of R326. -/
def CopyDesc.total (c : CopyDesc) : Nat := c.dims.foldl (fun n d => n * d.1) 1

/-- A descriptor is valid for an operation (R325 to R327, R330): kind 1 CPY, 2 CPYX, 3 FPUT, 4 FGET. -/
def copyValid (kind : Nat) (d : List Byte) : Bool :=
  let D := fieldAt d 0xF 1
  let c := copyOf (kind == 2) d
  let spaces :=
    if kind == 3 then c.srcSp ≤ 4 && c.dstSp == 5
    else if kind == 4 then c.srcSp == 5 && c.dstSp ≤ 3
    else c.srcSp ≤ 4 && c.dstSp ≤ 3
  let fmts := if kind == 2 then
      fieldAt d 0x1E 1 == 0 && cpyxFormat (fieldAt d 0x20 1) && cpyxFormat (fieldAt d 0x21 1) && fieldAt d 0x22 1 % 8 ≤ 4
        && fieldAt d 0x22 1 < 16
    else fieldAt d 0x1E 1 ≤ 3 && zeroAt d 0x20 3
  spaces && fieldAt d 0xB 1 < 4 && fieldAt d 0xE 1 < 2 && 1 ≤ D && D ≤ 12 && zeroAt d 0x1B 1 && zeroAt d 0x1F 1 && fmts
    && zeroAt d 0x23 5 && (List.range 12).all (fun i => i < D || zeroAt d (0x30 + 16 * i) 16) && zeroAt d 0xF0 16
    && (c.total == 0 || c.start < c.total) && c.total * c.dsz < 2 ^ 48
    && (c.srcSp != 4 || (c.ssz == 4 && (kind != 2 || fieldAt d 0x20 1 == 0) && c.total == 1024 && c.dims.all fun x => x.2.1 == 0))

/-- Every element address is a multiple of its element size (R326). -/
def CopyDesc.aligned (c : CopyDesc) : Bool :=
  c.total == 0
    || ((c.srcSp == 4 || (c.src % c.ssz == 0 && c.dims.all fun d => d.1 ≤ 1 || d.2.1 % c.ssz == 0))
        && c.dst % c.dsz == 0 && c.dims.all fun d => d.1 ≤ 1 || d.2.2 % c.dsz == 0)

/-- The offset Σ idx_i(e) × stride_i of element `e` (R326), for the strides that `f` picks. -/
def CopyDesc.offset (c : CopyDesc) (f : Nat × Int × Int → Int) (e : Nat) : Int :=
  (c.dims.zip (List.range c.dims.length)).foldl (fun (t : Int) d => t + f d.1 * (idxAt (c.dims.map Prod.fst) d.2 e : Nat)) 0

/-- Element `e` of the destination as the copy writes it, with the conversion flags (R327). -/
def CopyDesc.convert (c : CopyDesc) (bs : List Byte) : List Byte × Flags :=
  match c.conv with
  | none => (bs, 0)
  | some (sf, df, rm, sat) => (let r := convertElem df sf rm 0 sat false (leNat bs); (bytesOfNat c.dsz r.1, r.2))

/-- What a copy will have done (R326, R328): pieces, destination bytes complete, flags, status. -/
structure CopyRun where
  pieces : List Piece
  /-- the flags of each element -/
  each   : List Flags := []
  bytes  : Nat
  flags  : Flags
  status : Nat
  /-- the space, the address and the trap code where it failed -/
  fault  : Option (Nat × Int × Nat) := none

/-- The status of a fault (R324). -/
def faultStatus (code : Nat) (src : Bool) : Nat := if code = PERM then 5 else if src then 3 else 4

/-- The address of element `e` on each side (R326). -/
def CopyDesc.srcAt (c : CopyDesc) (e : Nat) : Int := addrIn c.srcSp (c.src + c.offset (fun d => d.2.1) e)
def CopyDesc.dstAt (c : CopyDesc) (e : Nat) : Int := addrIn c.dstSp (c.dst + c.offset (fun d => d.2.2) e)

/-- The source bytes of element `e` (R130, R326), or the status and the trap code of its failure: from the popped entry for space 4;
none from a remote source. -/
def State.copySource (s : State) (c : CopyDesc) (entry : Option QEntry) (e : Nat) : Except (Nat × Nat) (List Byte) :=
  if c.srcSp = 4 then
    match entry with
    | some q => .ok (bytesOfNat 4 (tileAt q.elems (e / 64) (64 * q.popped + e % 64)).toNat)
    | none => .ok (List.replicate 4 0)
  else if c.srcSp = 5 then .ok (List.replicate c.ssz 0)
  else
    match s.place c.srcSp (c.srcAt e) c.ssz .load with
    | .error code => .error (faultStatus code true, code)
    | .ok p => if (s.poisoned c.ssz [p]).isSome then .error (6, POISON) else .ok (s.bytesAt p.1 p.2 c.ssz)

/-- The elements of a copy from `e` on (R326, R328); it stops at the first that fails. A remote destination keeps the
bytes for the fabric at its remote address. -/
def State.copyRun (s : State) (c : CopyDesc) (entry : Option QEntry) : Nat → Nat → CopyRun → CopyRun
  | 0, _, r => r
  | n + 1, e, r =>
    match s.copySource c entry e with
    | .error (st, code) => { r with status := st, fault := some (c.srcSp, c.srcAt e, code) }
    | .ok bs =>
      let (out, fl) := c.convert bs
      let x := c.dstAt e
      if c.dstSp = 5 then
        s.copyRun c entry n (e + 1) { r with pieces := { place := .phys, addr := (x % 2 ^ 80).toNat, bytes := out } :: r.pieces, each := fl :: r.each, bytes := r.bytes + c.dsz, flags := r.flags ||| fl }
      else
        match s.place c.dstSp x c.dsz .store with
        | .error code => { r with status := faultStatus code false, fault := some (c.dstSp, x, code) }
        | .ok p =>
          s.copyRun c entry n (e + 1)
            { r with pieces := { place := p.1, addr := p.2, bytes := out } :: r.pieces, each := fl :: r.each, bytes := r.bytes + c.dsz, flags := r.flags ||| fl }

/-- The places that a copy reads in its first `n` elements. -/
def State.copyReads (s : State) (c : CopyDesc) (n : Nat) : List (Place × Nat) :=
  if c.srcSp ≥ 4 then []
  else (List.range n).filterMap fun k => match s.place c.srcSp (c.srcAt (c.start + k)) c.ssz .load with | .ok p => some p | .error _ => none

/-- What the reads and the translations of a copy leave behind (R123, R416, R418): racing values that it took, A and D bits, and the
walk of the access that failed. -/
def State.copyTouch (s : State) (c : CopyDesc) (n : Nat) (fault : Option (Nat × Int × Nat)) : State :=
  let s := s.saw [] c.ssz (s.copyReads c n)
  let s := (List.range n).foldl (fun s k =>
    (s.touch c.srcSp (c.srcAt (c.start + k)) c.ssz .load).touch c.dstSp (c.dstAt (c.start + k)) c.dsz .store) s
  match fault with | some (as, x, code) => s.failWalk as x code | none => s

/-- The lines with failing check values that a copy moves whole and unchanged, each with the place it moves to (R442). -/
def State.copyCarry (s : State) (c : CopyDesc) (n : Nat) : List (Nat × BitVec 32) :=
  if s.dev.checks.isEmpty || c.conv.isSome || c.srcSp != 0 || c.dstSp != 0 then []
  else
    let es := (List.range n).filterMap fun k =>
      match s.place 0 (c.srcAt (c.start + k)) c.ssz .load, s.place 0 (c.dstAt (c.start + k)) c.dsz .store with
      | .ok (.phys, a), .ok (.phys, b) => some (a, b)
      | _, _ => none
    carryOf s.dev.checks c.ssz es

/-- The lines with failing check values among those that a put reads (R443). -/
def State.failingReads (s : State) (c : CopyDesc) (n : Nat) : List (Nat × BitVec 32) :=
  if s.dev.checks.isEmpty then []
  else s.dev.checks.filter fun x => (s.copyReads c n).any fun p => p.1 == .phys && overlaps p.2 c.ssz x.1 64

/-- The run of a copy (R326): valid descriptors only; alignment first. -/
def State.copyAll (s : State) (c : CopyDesc) (entry : Option QEntry) : CopyRun :=
  if !c.aligned then { pieces := [], bytes := 0, flags := 0, status := 7 }
  else
    let r := s.copyRun c entry (c.total - c.start) c.start { pieces := [], bytes := 0, flags := 0, status := 0 }
    { r with pieces := r.pieces.reverse, each := r.each.reverse }

/-- The scope of a copy (R130): at least the home scope of its destination space (R113). -/
def copyScope (scope : BitVec 3) (dstSp : Nat) : BitVec 3 :=
  let home : BitVec 3 := if dstSp = 2 then 1 else if dstSp = 3 then 2 else 0
  if scope.toNat < home.toNat then home else scope

/-- The operation record of a copy. -/
def copyOp (kind : Nat) (o : XForm) (scope : BitVec 3) (d : List Byte) (c : CopyDesc) (r : CopyRun) (carry : List (Nat × BitVec 32)) : EngineOp :=
  { kind := kind, tok := o.d, ctr := counterOf o, scope := copyScope scope c.dstSp, pieces := r.pieces, status := r.status, bytes := r.bytes,
    flags := r.flags, trapOn := c.trapOn, desc := d, va := 0, image := [], handle := 0, pos := 0, group := 0,
    node := if kind = 3 then c.dnode else c.snode, carry := carry, each := r.each }

/-- A device node can be reached: it is this device, or a route names it on a port whose link is up (R455). -/
def Device.reaches (v : Device) (n : BitVec 16) : Bool :=
  n == v.node || v.routes.any fun r => r.node == n && v.vports.getLsbD r.vport

/-- The request of an FGET leaves for its node (R134): the remote VAs and lengths. -/
def State.askRemote (s : State) (kind : Nat) (c : CopyDesc) (r : CopyRun) : State :=
  if kind ≠ 4 ∨ c.snode = s.dev.node ∨ !s.dev.reaches c.snode ∨ r.pieces.isEmpty then s
  else
    let f : Frame := .get c.snode s.ctx ((List.range r.pieces.length).map fun k => ((c.srcAt (c.start + k) % (2 ^ 80 : Nat)).toNat, c.ssz))
    s.updDev fun v => { v with egress := v.egress ++ [f] }

/-- A copy instruction (R325 to R330): the descriptor, the pop of a queue source, the reads of the source; the writes
follow at completion. -/
def State.startCopy (s : State) (kind : Nat) (o : XForm) (scope : BitVec 3) : State :=
  s.withDesc (s.core.sreg o.a).toNat 256 fun d =>
    let c := copyOf (kind == 2) d
    let go (entry : Option QEntry) (s : State) : State :=
      let r := if copyValid kind d then s.copyAll c entry else { pieces := [], bytes := 0, flags := 0, status := 2 }
      let n := r.bytes / c.dsz
      let carry := if kind = 3 then s.failingReads c n else s.copyCarry c n
      let s := if copyValid kind d then (s.copyTouch c n r.fault).askRemote kind c r else s
      s.upd fun k => k.startEngine (copyOp kind o scope d c r carry)
    s.engineSlot fun s =>
      if copyValid kind d && c.aligned && c.srcSp == 4 then
        s.withHead c.q .x fun e s => (go (some e) s).upd fun k => k.popQuarter c.q
      else go none s

/-- CPY (R326). -/
def execCpy (o : XForm) (s : State) : Host.Outcome State Fault Refusal :=
  s.ifAllowedG (.cpy o) o.g fun s => s.startCopy 1 o o.scope

/-- CPYX (R327). -/
def execCpyx (o : XForm) (s : State) : Host.Outcome State Fault Refusal :=
  s.ifAllowedG (.cpyx o) o.g fun s => s.startCopy 2 o o.scope

/-- FPUT (R134, R330), at FABRIC scope. -/
def execFput (o : XForm) (s : State) : Host.Outcome State Fault Refusal :=
  s.ifAllowedG (.fput o) o.g fun s => s.startCopy 3 o 4

/-- FGET (R134, R330), at FABRIC scope. -/
def execFget (o : XForm) (s : State) : Host.Outcome State Fault Refusal :=
  s.ifAllowedG (.fget o) o.g fun s => s.startCopy 4 o 4

/-- Adjacent pieces of one place joined. -/
def joinPieces : List Piece → List Piece
  | [] => []
  | p :: ps =>
    match joinPieces ps with
    | q :: qs => if p.place = q.place ∧ p.addr + p.bytes.length = q.addr then { p with bytes := p.bytes ++ q.bytes } :: qs else p :: q :: qs
    | [] => [p]

/-- An engine writes a piece for the focused unit (R130): published at a scope in global memory, in place elsewhere. -/
def State.publishPiece (s : State) (scope : Nat) (p : Piece) : State :=
  match p.place with
  | .phys => s.updDev fun v => v.publishAs (.engine s.focus) scope p.addr p.bytes
  | _ => s.perform p

/-- An engine writes pieces (R130, R442): whole lines that carry the check values of their source keep them. -/
def State.engineWrites (s : State) (scope : Nat) (ps : List Piece) (carry : List (Nat × BitVec 32)) : State :=
  ((joinPieces ps).foldl (fun s p => s.publishPiece scope p) s).updDev fun v => carry.foldl (fun v x => v.carried s.partition x) v

/-- COPY_COMPLETE: the copy that the event names publishes its bytes, writes its token and counts down (R328). -/
def execCopyComplete (s : State) : Host.Outcome State Fault Refusal :=
  let s := s.merLate
  .next (match s.core.outst[s.ev.index]? with
    | some (.engine e) =>
      if e.kind = 1 ∨ e.kind = 2 then
        (s.engineWrites e.scope.toNat e.pieces e.carry).upd fun c => c.engineDone s.ev.index e e.status e.bytes e.flags (if e.trapOn then some COPYT else none)
      else s
    | _ => s)

/-- Fill the pieces of a get with the bytes that the remote device read, in order. -/
def fillPieces : List Piece → List Byte → List Piece
  | [], _ => []
  | p :: ps, bs => { p with bytes := sliceOf bs 0 p.bytes.length } :: fillPieces ps (bs.drop p.bytes.length)

/-- A byte at a place as a party at FABRIC scope reads it (R134). -/
def Device.fabricByte (v : Device) (p : Place) (x : Nat) : Byte :=
  match p with
  | .phys => v.byteOf (fun y => y.wide 3) x
  | .dome d => memGet (v.dome d).spad x
  | _ => 0

/-- The copy of an operation, from its cursor on (R329, R381). -/
def EngineOp.copy (e : EngineOp) : CopyDesc :=
  let c := copyOf (e.kind == 2) e.desc
  { c with start := c.start + e.cursor / c.dsz }

/-- An FPUT or FGET to this device itself (R330): the elements move through the context's own translation; the first that fails stops
it. The state, the status and the bytes complete. -/
def State.fabricLocal (s : State) (e : EngineOp) : State × Nat × Nat :=
  let c := e.copy
  let ctx := s.ctx
  let one (x : State × Nat × Nat) (p : Piece × Nat) : State × Nat × Nat :=
    let (s, st, n) := x
    if st ≠ 0 then x
    else
      let va : Addr := if e.kind = 3 then BitVec.ofNat 80 p.1.addr else BitVec.ofInt 80 (c.srcAt (c.start + p.2))
      match s.dev.locate ctx va (if e.kind = 3 then .store else .load) with
      | .error code => (s.logWalk ctx va, faultStatus code (e.kind = 4), n)
      | .ok (pl, x) =>
        if e.kind = 3 then
          ((s.updDev fun v => (v.markEntry ctx va true).put (.engine s.focus) 4 { place := pl, addr := x, bytes := p.1.bytes }), 0, n + c.dsz)
        else if s.dev.poisonedAt pl x c.ssz then (s, 6, n)
        else
          let bs := (List.range c.ssz).map fun k => s.dev.fabricByte pl (x + k)
          ((s.updDev fun v => v.markEntry ctx va false).publishPiece 4 { p.1 with bytes := bs }, 0, n + c.dsz)
  (e.pieces.zip (List.range e.pieces.length)).foldl one (s, 0, e.cursor)

/-- Where the first `m` pieces of an FPUT to this device itself stand. -/
def State.putPlaces (s : State) (e : EngineOp) (m : Nat) : List Piece :=
  (e.pieces.take m).filterMap fun p =>
    match s.dev.locate s.ctx (BitVec.ofNat 80 p.addr) .store with | .ok (pl, x) => some { p with place := pl, addr := x } | .error _ => none

/-- The lines that an FPUT or FGET to this device itself has moved whole carry their check values (R442): `n` elements have moved. -/
def State.fabricCarry (s : State) (e : EngineOp) (n : Nat) : List (Nat × BitVec 32) :=
  let c := e.copy
  let there (x : Int) (k : Kind) : Except Nat (Place × Nat) := s.dev.locate s.ctx (BitVec.ofInt 80 x) k
  let ends (k : Nat) : Except Nat (Place × Nat) × Except Nat (Place × Nat) :=
    if e.kind = 3 then (s.place c.srcSp (c.srcAt (c.start + k)) c.ssz .load, there (c.dstAt (c.start + k)) .store)
    else (there (c.srcAt (c.start + k)) .load, s.place c.dstSp (c.dstAt (c.start + k)) c.dsz .store)
  carryOf (if e.kind = 3 then e.carry else s.dev.checks) c.ssz
    ((List.range n).filterMap fun k => match ends k with | (.ok (.phys, a), .ok (.phys, b)) => some (a, b) | _ => none)

/-- The lines with failing check values among the first `m` elements that a put has sent (R443). -/
def State.failsSent (s : State) (e : EngineOp) (m : Nat) : List Nat :=
  let c := e.copy
  (e.carry.filter fun x => (s.copyReads c m).any fun p => p.1 == .phys && overlaps p.2 c.ssz x.1 64).map Prod.fst

/-- The places of the bytes of pieces. -/
def placesOf (ps : List Piece) : List (Place × Nat) := ps.flatMap fun p => (List.range p.bytes.length).map fun i => (p.place, p.addr + i)

/-- The bytes of a get arrive (R134, R442): whole lines carry the check values that the sender's payload has. -/
def State.getArrives (s : State) (ps : List Piece) : State :=
  let ps := fillPieces ps s.ev.data
  (s.engineWrites 4 ps []).updDev fun v => v.carryLines s.partition (placesOf ps) s.ev.ingress.checks

/-- Bytes of an FPUT leave for their node, with their remote VAs (R134, R330). -/
def State.sendPut (s : State) (node : BitVec 16) (ps : List Piece) : State :=
  if ps.isEmpty then s
  else s.updDev fun v => { v with egress := v.egress ++ [.put node s.ctx ((joinPieces ps).map fun p => (p.addr, p.bytes))] }

/-- An FPUT to this device itself has written its bytes at places here, which its token acquires as that of a get does (R118, R131). -/
def EngineOp.landedAt (e : EngineOp) (ps : List Piece) : EngineOp := { e with kind := 4, pieces := ps }

/-- The status codes that the fabric's answer may give an FPUT (kind 3) or an FGET (R324, R330). -/
def fabricStatus (kind st : Nat) : Bool := if kind = 3 then [4, 5, 8, 9].contains st else [3, 5, 6, 8, 9].contains st

/-- FABRIC_COPY_COMPLETE (R134, R328, R330, R443): the FPUT or FGET that the event names ends. The fabric's answer is the event's:
`ok`, else its status code in `value` and in `count` the elements before the first that failed; the bytes of a get in `data`, with
the check values of its lines. Every line sent whose check value fails at egress is logged E2E, and a put that is otherwise done
then has status 0x08. -/
def execFabricCopyComplete (s : State) : Host.Outcome State Fault Refusal :=
  let s := s.merLate
  .next (match s.core.outst[s.ev.index]? with
    | some (.engine e) =>
      if e.kind = 3 ∨ e.kind = 4 then
        let c := e.copy
        let done (s : State) (e : EngineOp) (st bytes : Nat) (fails : List Nat) : State :=
          let fails := if st = 8 ∧ fails = [] then [s.ev.addr] else fails
          (s.updDev fun v => v.logFails 2 0 s.partition fails).upd fun c =>
            c.engineDone s.ev.index e st bytes e.flags (if e.trapOn then some COPYT else none)
        let send (s : State) (ps : List Piece) : State := s.sendPut e.node ps
        if e.status = 2 ∨ e.status = 7 then done s e e.status 0 []
        else if !s.dev.reaches e.node then done s e 9 e.cursor []
        else if e.node = s.dev.node then
          let (s', st, n) := s.fabricLocal e
          let m := (n - e.cursor) / c.dsz
          done (s'.updDev fun v => (s.fabricCarry e m).foldl (fun v x => v.carried s.partition x) v)
            (if e.kind = 3 then e.landedAt (s.putPlaces e m) else e) (if st = 0 then e.status else st) n []
        else if s.ev.ok then
          if e.kind = 3 then done (send s e.pieces) e (if e.carry.isEmpty then e.status else 8) e.bytes (e.carry.map Prod.fst)
          else done (s.getArrives e.pieces) e e.status e.bytes []
        else if !fabricStatus e.kind s.ev.value then s
        else
          let ps := if s.ev.value = 8 then e.pieces else if s.ev.value = 9 then [] else e.pieces.take s.ev.count
          let n := e.cursor + ps.length * c.dsz
          if e.kind = 3 then done (send s ps) e s.ev.value n (s.failsSent e ps.length)
          else done (s.getArrives ps) e s.ev.value n []
      else s
    | _ => s)

/-- The elements that a copy has moved when it stops (R329): a whole number of 4,096 destination bytes, which the manual leaves open.
What the fabric brings of a get comes at its end, so one of another node stops where it started (log 107). -/
def State.movedAtStop (s : State) (e : EngineOp) (free : Nat) : Nat :=
  let here := e.node == s.dev.node
  if e.status = 2 ∨ e.status = 7 ∨ (e.kind ≥ 3 ∧ !s.dev.reaches e.node) ∨ (e.kind = 4 ∧ !here) then 0
  else free % ((e.bytes - e.cursor) / 4096 + 1) * (4096 / e.copy.dsz)

/-- Lines of a copy's destination that lie whole among pieces. -/
def wholeIn (ps : List Piece) (cs : List (Nat × BitVec 32)) : List (Nat × BitVec 32) :=
  cs.filter fun x => (List.range 64).all fun i => ps.any fun p => p.meets (x.1 + i) 1

/-- A copy at its cursor (R329, R381): its first `m` elements are done. -/
def EngineOp.advance (e : EngineOp) (m : Nat) (wrote : List (Nat × Nat)) : EngineOp :=
  { e with pieces := e.pieces.drop m, each := e.each.drop m, cursor := e.cursor + m * e.copy.dsz
           early := (e.each.take m).foldl (fun f x => f ||| x) e.early, wrote := e.wrote ++ wrote }

/-- A copy stops at a 4,096-byte boundary of its destination bytes (R329): the elements before it are done, published as they are at
its end, and the cursor is recorded. -/
def State.stopCopy (s : State) (k : Nat) : State :=
  match s.core.outst[k]? with
  | some (.engine e) =>
    if e.kind < 1 ∨ 4 < e.kind then s
    else
      let (x, s) := s.freeVal
      let m := s.movedAtStop e x
      let ps := e.pieces.take m
      let put (s : State) (e : EngineOp) : State := s.upd fun c => { c with outst := c.outst.set k (.engine e) }
      if e.kind ≤ 2 then put (s.engineWrites e.scope.toNat ps (wholeIn ps e.carry)) (e.advance m (physRanges ps))
      else if e.node = s.dev.node then
        let (t, _, n) := s.fabricLocal { e with pieces := ps }
        let m := (n - e.cursor) / 4096 * (4096 / e.copy.dsz)
        put (t.updDev fun v => (s.fabricCarry e m).foldl (fun v x => v.carried s.partition x) v)
          (e.advance m (physRanges (if e.kind = 3 then s.putPlaces e m else e.pieces.take m)))
      else put ((s.sendPut e.node ps).updDev fun v => v.logFails 2 0 s.partition (s.failsSent e m)) (e.advance m [])
  | _ => s

/-- Every copy in flight stops at its cursor (R329). -/
def State.stopCopies (s : State) : State := (List.range s.core.outst.length).foldl State.stopCopy s

/-- The destinations of elements that a popped queue entry gave, from element `e` on, as they stand now: up to the first that
fails, with its status, space, address and trap code (R326, R356). -/
def State.replace (s : State) (c : CopyDesc) : Nat → List Piece → CopyRun → CopyRun
  | _, [], r => r
  | e, p :: ps, r =>
    let x := c.dstAt e
    match s.place c.dstSp x c.dsz .store with
    | .error code => { r with status := faultStatus code false, fault := some (c.dstSp, x, code) }
    | .ok q => s.replace c (e + 1) ps { r with pieces := r.pieces ++ [{ place := q.1, addr := q.2, bytes := p.bytes }], bytes := r.bytes + c.dsz }

/-- The run of a copy that is issued again from its cursor (R329, R381): its sources are read again, but for a queue entry that is
already popped. -/
def State.rerun (s : State) (e : EngineOp) : CopyRun :=
  let c := e.copy
  if c.srcSp ≠ 4 then s.copyAll c none
  else
    let r := if c.dstSp = 5 then { pieces := e.pieces, bytes := e.pieces.length * c.dsz, flags := 0, status := 0 }
      else s.replace c c.start e.pieces { pieces := [], bytes := 0, flags := 0, status := 0 }
    let n := r.bytes / c.dsz
    { r with each := e.each.take n, flags := (e.each.take n).foldl (fun f x => f ||| x) 0, status := if r.status = 0 then e.status else r.status }

/-- The copies kept across a checkpoint are issued again (R329, R381): each from the element at its cursor, its token counting the bytes
from the original start. -/
def State.reissueOne (s : State) (k : Nat) : State :=
  match s.core.outst[k]? with
  | some (.engine e) =>
    if e.kind < 1 ∨ 4 < e.kind ∨ copyValid e.kind e.desc = false then s
    else
      let c := e.copy
      let r := s.rerun e
      let n := r.bytes / c.dsz
      let e' := { e with pieces := r.pieces, each := r.each, status := r.status, bytes := e.cursor + r.bytes, flags := e.early ||| r.flags
                         carry := if e.kind = 3 then s.failingReads c n else s.copyCarry c n }
      ((s.copyTouch c n r.fault).askRemote e.kind c r).upd fun k' => { k' with outst := k'.outst.set k (.engine e') }
  | _ => s
def State.reissue (s : State) : State := (List.range s.core.outst.length).foldl State.reissueOne s

/-- A macro image's trailer breaks R110 (R111). -/
def trailerBad (t : List Byte) : Bool :=
  let f := fieldAt t 0 1
  !(1 ≤ f && f ≤ 0xE && fieldAt t 1 1 == widthOf f && fieldAt t 2 1 < 2 && zeroAt t 3 61 && zeroAt t 0xCC0 832)

/-- The base pages of the range that a WLOAD reads (R331). -/
def wloadPages (a : Addr) : List Addr :=
  let lo := a.toNat / 65536
  (List.range ((a.toNat + 0x10FFF) / 65536 - lo + 1)).map fun k => BitVec.ofNat 80 ((lo + k) * 65536)

/-- The leaf of a page as the unit in focus has it: from a cache, else from a walk (R420). -/
def State.leafOf (s : State) (p : Addr) : Option (Nat × Nat) :=
  match s.leaves.find? fun c => c.hits s.ctx p with
  | some c => some (c.lvl, c.low)
  | none => match s.dev.walk s.ctx p with | .ok x => some x | .error _ => none

/-- The checks of a WLOAD's source (R331), in order: the status of the first failure, with the trap code and the page of a failed
translation, else the image and its places; `fl` are the stores that a tainted address promises (R127). -/
def State.wloadCheck (s : State) (fl : List Nat) (a : Addr) : Except (Nat × Option (Nat × Addr)) (List Byte × List (Place × Nat)) :=
  let ps := wloadPages a
  let bad (p : Addr) : Option (Nat × Addr) := match s.translate s.ctx p .wload with | .ok _ => none | .error code => some (code, p)
  if a.toNat % 4096 ≠ 0 then .error (0x15, none)
  else if a.toNat / 2 ^ 21 ≠ (a.toNat + 0x10FFF) / 2 ^ 21 ∨ ps.any (fun p => match s.leafOf p with | some (_, e) => !pteCG e | none => false) then .error (0x13, none)
  else
    match ps.findSome? bad with
    | some x => .error (0x10, some x)
    | none =>
      if ps.any (fun p => match s.leafOf p with | some (_, e) => !pteMI e | none => true) then .error (0x11, none)
      else if ps.any (fun p => match s.leafOf p with | some (_, e) => !s.dev.pinned s.ctx p e | none => true) then .error (0x12, none)
      else
        match s.chunks 0 .wload 4096 a.toNat 17 with
        | .error e => .error (0x10, some (e.1, BitVec.ofInt 80 e.2))
        | .ok cs =>
          let img := s.readVia fl 4096 cs
          if trailerBad (img.drop 0x10000) then .error (0x14, none)
          else if (s.poisoned 4096 cs).isSome then .error (0x16, none)
          else .ok (img, cs)

/-- WLOAD (R331 to R333). Beats in flight on the shadow bank land first; the wait advances τ, since no beat would
land otherwise (log 23). -/
def execWload (o : XForm) (s : State) : Host.Outcome State Fault Refusal :=
  s.ifAllowedG (.wload o) o.g fun s =>
    let b := 1 - s.core.bankNo
    let n := s.core.mat.beats.foldl (fun n x => if x.bank != s.core.live then Nat.max n x.left else n) 0
    if s.core.wloadBusy || s.core.bankBusy b then s.wait
    else if n > 0 then s.waitTau (s.core.tau + n)
    else
      s.engineSlot fun s =>
        let a := s.core.areg o.base
        let fl := s.dev.promised (s.core.aTaint o.base)
        let (st, img) : Nat × List Byte := match s.wloadCheck fl a with | .error x => (x.1, []) | .ok x => (0, x.1)
        let s := match s.wloadCheck fl a with
          | .ok x => s.saw fl 4096 x.2
          | .error (_, some (code, p)) => s.failWalk 0 p.toNat code
          | .error (_, none) => s
        let s := (List.range 17).foldl (fun s k =>
          if st = 0 ∨ st = 0x14 ∨ st = 0x16 then s.touch 0 ((a.toNat + 4096 * k : Nat) : Int) 4096 .wload else s) s
        let e : EngineOp :=
          { kind := 7, tok := o.d, ctr := counterOf o, scope := 0, pieces := [], status := st, bytes := if st = 0 then 69632 else 0, flags := 0,
            trapOn := match s.core.task with | some t => t.trapRej | none => false
            desc := [], va := a, image := img, handle := 0, pos := b, group := 0, node := 0, carry := [] }
        s.upd fun c => c.startEngine e

/-- The bank of an image (R109, R110). -/
def bankOf (va : Addr) (img : List Byte) : Bank :=
  let t := (img.drop 0x10000).toArray
  let byte (k : Nat) : Nat := (t.getD k 0).toNat
  { planes := cellsOf 0 (img.take 0x10000)
    gw := Vector.ofFn fun i => sextInt (byte (0x40 + 2 * i.val) + 256 * byte (0x41 + 2 * i.val)) 16
    ck := Vector.ofFn fun i => sextInt (byte (0xC0 + 3 * i.val) + 256 * byte (0xC1 + 3 * i.val) + 65536 * byte (0xC2 + 3 * i.val)) 24
    fmt := some (BitVec.ofNat 5 (byte 0)), va := some va }

/-- The dome whose cores last loaded an image group (R423). -/
def Device.noteImage (v : Device) (ctx : BitVec 12) (va : Addr) (d : Nat) : Device :=
  let g := va.toNat / 2 ^ 21
  { v with images := (v.images.filter fun x => !(x.1 == ctx && x.2.1 == g)) ++ [(ctx, g, d)] }

/-- WLOAD_COMPLETE: the WLOAD that the event names writes its token (R331). -/
def execWloadComplete (s : State) : Host.Outcome State Fault Refusal :=
  let s := s.merLate
  .next (match s.core.outst[s.ev.index]? with
    | some (.engine e) =>
      if e.kind = 7 then
        let trap := if e.trapOn then some WIMG else none
        let setBank (c : Core) (b : Bank) : Core := { c with banks := c.banks.set (e.pos % 2) b (Nat.mod_lt _ (by decide)) }
        if e.status = 0 then
          let algn := bitOf (fieldAt (e.image.drop 0x10002) 0 1) 0
          let ctx := s.ctx
          let s' := s.updDev fun v => v.noteImage ctx e.va s.focus.dome
          s'.upd fun c => (setBank c (bankOf e.va e.image)).engineDone s.ev.index e 0 e.bytes (flagIf algn fALGN) trap
        else
          s.upd fun c => (if e.status = 0x16 then setBank c Bank.reset else c).engineDone s.ev.index e e.status 0 0 trap
      else s
    | _ => s)

/-- SCWAIT (R132, R333). -/
def execScwait (o : XForm) (s : State) : Host.Outcome State Fault Refusal :=
  s.ifAllowedG (.scwait o) o.g fun s =>
    let (n, x) := s.core.counter (o.fn.setWidth 3)
    if n > o.imm.toNat % 65536 then s.wait else (s.commitSeg).acquire x.toNat

/-- SCRD (R333). -/
def execScrd (o : XForm) (s : State) : Host.Outcome State Fault Refusal :=
  s.ifAllowedG (.scrd o) o.g fun s => s.wS 1 o.d (BitVec.ofNat 64 (s.core.counter (o.fn.setWidth 3)).1)

end Sys2Proof.Machine
end

