-- ==== Sys2Proof/Machine/Hwq.lean ====
section
/-! DEFINITION. Hardware queues (R48, R334 to R337) and the combine buffers that release into them (R345 to
R351): configuration, handles, the combine arithmetic, release records. -/

namespace Sys2Proof.Machine

/-- Hardware queue `q` of a partition, when it is configured (R334). -/
def Device.hwq (v : Device) (p q : Nat) : Option HwQueue := v.queues.find? fun x => x.part == p && x.q == q

/-- Update a hardware queue. -/
def Device.updHwq (v : Device) (p q : Nat) (f : HwQueue → HwQueue) : Device :=
  { v with queues := updateFirst (fun x => x.part == p && x.q == q) f v.queues }

/-- A task slot still waits on a queue (R32, R48): suspended in WAITQ, or in the wait of a DEQT. -/
def Device.waitsOn (v : Device) (p q slot : Nat) : Bool :=
  match v.slotOf p slot with
  | some t => (t.st == 2 && t.qnum == q) || t.deqtQ == some q
  | none => false

/-- Give an item of queue `q` to a waiting task (R35, R48): a suspended one is READY and its DREG receives the item; a DEQT, or a
DEQ whose suspension is still to come, finds it. -/
def Device.giveItem (v : Device) (p q slot : Nat) (x : Word) : Device :=
  match v.slotOf p slot with
  | none => v
  | some t =>
    if t.st = 2 then
      ((v.updSlot p slot fun t => { t with st := 0, kept := t.kept.map fun c => c.setS t.dreg x none }).readied p slot).writeRecord p slot
    else v.updSlot p slot fun t => { t with deqtQ := none, deqtGot := some (q, x) }

/-- A task joins the waiters of a queue, at the end of their order (R48). -/
def Device.joinWait (v : Device) (p q slot : Nat) : Device :=
  (v.updHwq p q fun y => { y with waiters := y.waiters.filter (fun i => i != slot) ++ [slot] }).updSlot p slot fun t => { t with deqtQ := some q }

/-- Append an item (R48, R335): the oldest waiter takes it, else it joins a queue with room; none when the queue
is full or not configured. -/
def Device.enqueue (v : Device) (p q : Nat) (x : Word) : Option Device :=
  match v.hwq p q with
  | none => none
  | some h =>
    match h.waiters.dropWhile fun i => !v.waitsOn p q i with
    | i :: rest => some ((v.updHwq p q fun y => { y with waiters := rest }).giveItem p q i x)
    | [] =>
      if h.items.length < h.cap then some (v.updHwq p q fun y => { y with items := y.items ++ [x], waiters := [] }) else none

/-- The combine buffer of a context in a dome (R345). -/
def Device.combineOf (v : Device) (ctx : BitVec 12) (d : Nat) : Option Combine :=
  v.combines.find? fun c => c.ctx == ctx && c.dome == d

/-- Update a combine buffer. -/
def Device.updCombine (v : Device) (ctx : BitVec 12) (d : Nat) (f : Combine → Combine) : Device :=
  { v with combines := updateFirst (fun c => c.ctx == ctx && c.dome == d) f v.combines }

/-- Fields of a combine configuration (R345). -/
def cmbSlots (w : Word) : Nat := w.toNat % 2 ^ 16
def cmbRow (w : Word) : Nat := w.toNat / 2 ^ 16 % 2 ^ 10 * 64
def cmbKmax (w : Word) : Nat := w.toNat / 2 ^ 26 % 2 ^ 5
def cmbBf16 (w : Word) : Bool := w.getLsbD 31
def cmbPol (w : Word) : Nat := w.toNat / 2 ^ 32 % 4
def cmbCompletion (w : Word) : Bool := w.getLsbD 34
def cmbQueue (w : Word) : Nat := w.toNat / 2 ^ 35 % 2 ^ 8

/-- A combine slot that is free with its first generation (R346). -/
def CmbSlot.reset : CmbSlot :=
  { state := 0, gen := 1, token := 0, k := 0, dest := 0, deadline := 0, gates := [], bitmap := 0, rows := [], order := 0, done := 0,
    opener := none, ctx := 0, record := 0, outcome := 4, told := false, mer := false }

/-- Slot `i` of a buffer. -/
def Combine.slot (c : Combine) (i : Nat) : Option CmbSlot := c.slots[i]?

/-- Update slot `i` of a buffer. -/
def Combine.updSlot (c : Combine) (i : Nat) (f : CmbSlot → CmbSlot) : Combine :=
  { c with slots := c.slots.modify i f }

/-- The generation that follows another: from 0x3FFF to 1 (R349). -/
def genAfter (g : BitVec 14) : BitVec 14 := if g = 0x3FFF then 1 else g + 1

/-- Slot `i` may release its record (R349, R351): it holds one, and where its release is ORDERED no slot opened earlier waits. -/
def Combine.mayRelease (c : Combine) (i : Nat) : Bool :=
  match c.slot i with
  | some x => x.state == 2 && !((x.mer || !cmbCompletion c.word) && c.slots.any fun y => y.state != 0 && y.order < x.order)
  | none => false

/-- The slot whose record is enqueued next (R349, R351): of those that may release, the first to have completed. -/
def Combine.nextRelease (c : Combine) : Option Nat :=
  let at_ (i : Nat) : Nat := match c.slot i with | some x => x.done | none => 0
  match (List.range c.slots.length).filter c.mayRelease with
  | [] => none
  | i :: rest => some (rest.foldl (fun b i => if at_ i < at_ b then i else b) i)

/-- A record is held for lack of a configured queue (R349): CMB-STALL names the slot of the first. -/
def Device.cmbStall (v : Device) (c : Combine) (i : Nat) : Device :=
  if c.stalled || (v.hwq c.part (cmbQueue c.word)).isSome then v
  else
    let gen := match c.slot i with | some x => x.gen.toNat | none => 0
    (v.updCombine c.ctx c.dome fun c => { c with stalled := true }).log c.dome 0x0042 0 2 0
      (BitVec.ofNat 64 (i + gen * 2 ^ 16 + c.dome * 2 ^ 30 + v.node.toNat * 2 ^ 32)) 0 c.ctx.toNat c.part

/-- Enqueue the release records of a buffer while one is next and its queue takes it (R349): the slot becomes
free, its generation advances. `fuel` bounds the records. -/
def Device.cmbDrain (v : Device) (ctx : BitVec 12) (d : Nat) : Nat → Device
  | 0 => v
  | fuel + 1 =>
    match v.combineOf ctx d with
    | none => v
    | some c =>
      match c.nextRelease with
      | none => v
      | some i =>
        let rec64 : Word := (match c.slot i with | some x => x.record | none => 0) ||| BitVec.ofNat 64 (c.seq % 256 * 2 ^ 56)
        match v.enqueue c.part (cmbQueue c.word) rec64 with
        | none => v.cmbStall c i
        | some v =>
          let v := v.updCombine ctx d fun c =>
            { c.updSlot i (fun x => { x with state := 0, gen := genAfter x.gen, rows := [] }) with seq := c.seq + 1, stalled := false }
          v.cmbDrain ctx d fuel

/-- Room has come in a queue: the buffers that release into it go on (R349). -/
def Device.cmbRelease (v : Device) (p q : Nat) : Device :=
  (v.combines.filter fun c => c.part == p && cmbQueue c.word == q).foldl (fun v c => v.cmbDrain c.ctx c.dome (c.slots.length + 1)) v

/-- Remove the head item of a queue (R336). -/
def Device.dequeue (v : Device) (p q : Nat) : Option (Word × Device) :=
  match v.hwq p q with
  | none => none
  | some h =>
    match h.items with
    | [] => none
    | x :: rest => some (x, (v.updHwq p q fun y => { y with items := rest }).cmbRelease p q)

/-- An FP32 product and an FMA under the NaN rule (R82, R348): a gate and a row element at position `p`, and
the running value with its index. -/
def cmbMul (g x : Lane) (p : Nat) : (Lane × Nat) × Flags := nanStep (fMul 0 false false) (g, p) (x, p)
def cmbFma (g x : Lane) (p : Nat) (y : Lane × Nat) : (Lane × Nat) × Flags :=
  let q : Lane := if isNaN x then x else if isNaN g then g else x
  nanStep (fun q c => if isNaN q then (q, 0) else fFma 0 false false false false g q c) (q, p) y

/-- The gates of the positions that have arrived, renormalised when `renorm` (R348): the sum in ascending order,
then the quotients. -/
def cmbGates (renorm : Bool) (as : List (Nat × Lane)) : List (Nat × Lane) × Flags :=
  match renorm, as with
  | true, (p0, g0) :: rest =>
    let sum := rest.foldl (fun (a : (Lane × Nat) × Flags) x =>
      (let r := nanStep (fAdd 0 false false) a.1 (x.2, x.1); (r.1, a.2 ||| r.2))) ((g0, p0), 0)
    as.foldl (fun (a : List (Nat × Lane) × Flags) x =>
      (let r := nanStep (fDiv 0 false false) (x.2, x.1) sum.1; (a.1 ++ [(x.1, r.1.1)], a.2 ||| r.2))) ([], sum.2)
  | _, _ => (as, 0)

/-- Element `x` of a row as FP32 (R348). -/
def cmbElem (bf16 : Bool) (row : List Byte) (x : Nat) : Lane :=
  if bf16 then BitVec.ofNat 32 (fieldAt row (2 * x) 2 * 2 ^ 16) else BitVec.ofNat 32 (fieldAt row (4 * x) 4)

/-- One element of the output row (R348): the gates and row elements of the arrived positions, ascending. -/
def cmbSum : List (Nat × Lane × Lane) → Lane × Flags
  | [] => (0, 0)
  | (p0, g0, x0) :: rest =>
    let r := rest.foldl (fun (a : (Lane × Nat) × Flags) y =>
      (let r := cmbFma y.2.1 y.2.2 y.1 a.1; (r.1, a.2 ||| r.2))) (cmbMul g0 x0 p0)
    (r.1.1, r.2)

/-- The positions of a slot that have arrived, ascending. -/
def CmbSlot.arrived (x : CmbSlot) : List Nat := (List.range x.k).filter fun p => x.bitmap.getLsbD p
/-- The mask of the positions that are missing. -/
def CmbSlot.missing (x : CmbSlot) : Nat := 2 ^ x.k - 1 - x.bitmap.toNat % 2 ^ x.k

/-- The output row of a slot and its flags (R348). -/
def CmbSlot.outRow (x : CmbSlot) (w : Word) : List Byte × Flags :=
  let (gs, f) := cmbGates (cmbPol w == 0 && x.missing != 0) (x.arrived.map fun p => (p, x.gates.getD p 0))
  let row (p : Nat) : List Byte := ((x.rows.find? fun r => r.1 == p).map Prod.snd).getD []
  let terms := gs.map fun g => (g.1, g.2, row g.1)
  let n := cmbRow w / (if cmbBf16 w then 2 else 4)
  (List.range n).foldl (fun (a : List Byte × Flags) i =>
    let (y, fl) := cmbSum (terms.map fun t => (t.1, t.2.1, cmbElem (cmbBf16 w) t.2.2 i))
    if cmbBf16 w then
      (let r := convertElem 1 0 0 0 false false y.toNat; (a.1 ++ bytesOfNat 2 r.1, a.2 ||| fl ||| r.2))
    else (a.1 ++ bytesOfNat 4 y.toNat, a.2 ||| fl)) ([], f)

/-- A range of G space takes a device's store (R348): every byte has W, and no byte of it is poisoned. -/
def Device.rowWritable (v : Device) (ctx : BitVec 12) (va : Addr) (n : Nat) : Bool :=
  (List.range n).all fun i =>
    match v.locate ctx (va + BitVec.ofNat 80 i) .store with
    | .ok (pl, x) => !v.poisonedAt pl x 1
    | .error _ => false

/-- The first byte of an output row whose translation fails: a malformed entry that its walk meets is logged (R416). -/
def Device.logRow (v : Device) (ctx : BitVec 12) (d : Nat) (va : Addr) (n : Nat) : Device :=
  match (List.range n).find? fun i => (match v.locate ctx (va + BitVec.ofNat 80 i) .store with | .ok _ => false | .error _ => true) with
  | some i => v.logWalk d 2 0 ((v.combineOf ctx d).map (fun c => c.part) |>.getD 0xFF) ctx (va + BitVec.ofNat 80 i)
  | none => v

/-- The flag bits 3 to 7 of a release record (R349): IV, DZ, OF, UF, NX. -/
def cmbFlagBits (f : Flags) : Nat :=
  let b (g : Flags) (k : Nat) : Nat := if f &&& g != 0 then 2 ^ k else 0
  b fIV 3 + b fDZ 4 + b fOF 5 + b fUF 6 + b fNX 7

/-- The engine writes an output row (R348, R418): published at DEVICE scope, with A and D set in the pages it touches. -/
def Device.writeRow (v : Device) (ctx : BitVec 12) (va : Addr) (row : List Byte) : Device :=
  ((v.markEntry ctx va true).markEntry ctx (va + BitVec.ofNat 80 (row.length - 1)) true).writeAs .device 3 ctx va row

/-- A slot completes (R348, R349): the output row, the record, and its release. `late` says that its own
deadline passed. -/
def Device.cmbComplete (v : Device) (ctx : BitVec 12) (d i : Nat) (late : Bool) : Device :=
  match v.combineOf ctx d with
  | none => v
  | some c =>
    match c.slot i with
    | none => v
    | some x =>
      let short := x.missing != 0
      let byPol := short && cmbPol c.word == 2
      let (row, f) := if byPol then ([], 0) else x.outRow c.word
      let ok := !byPol && v.rowWritable x.ctx x.dest row.length
      let v := if ok then v.writeRow x.ctx x.dest row else if byPol then v else v.logRow x.ctx d x.dest row.length
      let bit (b : Bool) (k : Nat) : Nat := if b then 2 ^ k else 0
      let fl := bit late 0 + bit (short && cmbPol c.word == 0) 1 + bit (!ok) 2 + cmbFlagBits f
      let v := v.updCombine ctx d fun c =>
        { c.updSlot i (fun x =>
            { x with state := 2, record := BitVec.ofNat 64 (x.token.toNat + x.missing * 2 ^ 32 + fl * 2 ^ 48)
                     done := c.opens, outcome := if !ok then 3 else if short then 2 else 1 }) with opens := c.opens + 1 }
      v.cmbDrain ctx d (c.slots.length + 1)

end Sys2Proof.Machine
end

