-- ==== Sys2Proof/Machine/Queues.lean ====
section
/-! DEFINITION. Queue instructions (R334 to R337). -/

namespace Sys2Proof.Machine

/-- The queue number of a queue instruction (R334). -/
def Core.queueNo (c : Core) (o : XForm) : Nat := if o.fn.getLsbD 0 then (c.sreg o.b).toNat % 256 else o.imm.toNat % 256

/-- A queue instruction on a configured queue (R334): ILLOP otherwise. -/
def State.withQueue (s : State) (i : Instr) (o : XForm) (f : HwQueue → State) : State :=
  match s.dev.hwq s.partition (s.core.queueNo o) with
  | none => s.trapOp ILLOP i
  | some h => f h

/-- An interlocked result of a queue instruction goes on its way (R154, R335, R336). -/
def State.queueResult (s : State) (d : Reg) (v : Word) (a : Option Reg) (st : Word) : State :=
  s.upd fun c => { c with outst := c.outst ++ [.queue d v a st] }

/-- ENQ (R48, R335): the item is appended or given to the oldest waiter, and 1 returns; a full queue returns 0.
An open segment closes first (R337). -/
def execEnq (o : XForm) (s : State) : Host.Outcome State Fault Refusal :=
  s.ifAllowedG (.enq o) o.g fun s =>
    s.withQueue (.enq o) o fun h =>
      let s := s.commitSeg
      match s.dev.enqueue h.part h.q (s.core.sreg o.a) with
      | none => s.queueResult o.d 0 none 0
      | some v => ({ s with dev := v } : State).queueResult o.d 1 none 0

/-- An item leaves a queue for the destinations of an instruction (R336): it acquires at DEVICE. -/
def State.takeItem (s : State) (x : Word) (v : Device) (d : Reg) (a : Option Reg) : State :=
  (({ s with dev := v } : State).syncPoint.acquire 3).queueResult d x a 1

/-- The item of queue `q` that a wait of the focused task has been given and that it has not taken (R48, R336). -/
def State.givenItem (s : State) (q : Nat) : Option Word :=
  match s.core.task with
  | none => none
  | some t => ((s.dev.slotOf t.part t.slot).bind fun x => x.deqtGot.filter fun (g : Nat × Word) => g.1 == q).map Prod.snd

/-- The item that a queue has for the focused task, one given to its wait or the head, with the device that is left (R48, R336). -/
def State.headItem (s : State) (h : HwQueue) : Option (Word × Device) :=
  match s.givenItem h.q, s.core.task with
  | some x, some t => some (x, s.dev.updSlot t.part t.slot fun y => { y with deqtGot := none })
  | _, _ => s.dev.dequeue h.part h.q

/-- The focused task joins the waiters of a queue, where it is not one of them already (R48). -/
def State.joinQueue (s : State) (h : HwQueue) : State :=
  match s.core.task with
  | none => s
  | some t =>
    match s.dev.slotOf t.part t.slot with
    | some x => if x.deqtQ == some h.q || x.deqtGot.isSome then s else s.updDev fun v => v.joinWait h.part h.q t.slot
    | none => s

/-- The task joins the waiters of a queue and suspends (R34, R48, R336): its wait begins once its bundle has issued. -/
def State.suspendOnQueue (s : State) (i : Instr) (h : HwQueue) (d : Reg) : State :=
  (if s.core.late then s.joinQueue h else s).suspendPoint i fun s => (s.joinQueue h).suspendTask 2 2 h.q d false

/-- DEQ (R336): the head item, or suspension, which an item that comes later does not stop (R34). -/
def State.deq (s : State) (i : Instr) (o : XForm) : State :=
  s.withQueue i o fun h =>
    let s := s.commitSeg
    match (if s.core.late then none else s.headItem h) with
    | some (x, v) => s.takeItem x v o.d none
    | none => s.suspendOnQueue i h o.d

/-- The operation is a DEQ, or a Meridian DEQT, that finds its queue empty (R336): it acts once its bundle has
issued, as a suspension point. -/
def State.deqSuspends (s : State) (o : XForm) : Bool :=
  match s.dev.hwq s.partition (s.core.queueNo o) with
  | none => false
  | some h => h.items.isEmpty && (s.givenItem h.q).isNone

/-- DEQ (R336). -/
def execDeq (o : XForm) (s : State) : Host.Outcome State Fault Refusal :=
  s.ifAllowedG (.deq o) o.g fun s => s.deq (.deq o) o

/-- DEQT (R336): an item at once, or within n cycles, in which it is one of the queue's waiters (R48); then zeros. In Meridian
mode it sets NDET and is DEQ. -/
def execDeqt (o : XForm) (s : State) : Host.Outcome State Fault Refusal :=
  s.ifAllowedG (.deqt o) o.g fun s =>
    if s.core.mer then
      s.withQueue (.deqt o) o fun _ => (s.upd fun c => c.raise fNDET).deq (.deqt o) o
    else
      s.withQueue (.deqt o) o fun h =>
        let n := o.imm.toNat / 256
        match s.headItem h with
        | some (x, v) => (s.upd fun c => { c with deqtAt := none }).takeItem x v o.d (some o.a)
        | none =>
          let giveUp : State := (s.leaveWait.syncPoint.upd fun c => { c with deqtAt := none }).queueResult o.d 0 (some o.a) 0
          match s.core.deqtAt with
          | none => if n = 0 then giveUp else ((s.joinQueue h).upd fun c => { c with deqtAt := some (c.wall + n, false) }).wait
          | some (_, true) => giveUp
          | some (_, false) => s.wait

/-- DEQT_TIMEOUT: the wait of a DEQT is over (R336). -/
def execDeqtTimeout (s : State) : Host.Outcome State Fault Refusal :=
  .next (match s.core.deqtAt with
    | some (t, false) => if s.core.wall ≥ t then s.upd fun c => { c with deqtAt := some (t, true) } else s
    | _ => s)

/-- QSTAT (R337): the count and the capacity less one; latency 4. -/
def execQstat (o : XForm) (s : State) : Host.Outcome State Fault Refusal :=
  s.ifAllowedG (.qstat o) o.g fun s =>
    s.withQueue (.qstat o) o fun h =>
      s.wS 4 o.d (BitVec.ofNat 64 (h.items.length + (h.cap - 1) % 2 ^ 16 * 2 ^ 32))

/-- QUEUE_RESULT_RETURN: the status or item of the operation that the event names is written (R335, R336,
R346). -/
def execQueueResultReturn (s : State) : Host.Outcome State Fault Refusal :=
  let s := s.merLate
  .next (match s.core.outst[s.ev.index]? with
    | some (.queue d v a st) =>
      let k := s.ev.index
      s.upd fun c =>
        let c := c.landOutst k (.s d v none)
        (match a with | some r => c.landOutst k (.s r st none) | none => c).dropOutst k
    | _ => s)

end Sys2Proof.Machine
end

