-- ==== Sys2Proof/Machine/Sync.lean ====
section
/-! DEFINITION. Phases, barriers and triggers (R339 to R341). -/

namespace Sys2Proof.Machine

/-- An atomic of the task has not been performed yet (R340, and by R121 one with a result too: log 91). -/
def Core.amosLeft (c : Core) : Bool := c.outst.any fun x => match x with | .atomic .. => true | _ => false

/-- The release of a synchronisation instruction (R340): it waits for atomics, closes the segment, and publishes. -/
def State.phaseRelease (s : State) (scope : BitVec 3) (f : State → State) : State :=
  if s.core.amosLeft then s.wait else f (s.syncPoint.release scope.toNat)

/-- PHASE (R340). -/
def execPhase (o : XForm) (s : State) : Host.Outcome State Fault Refusal :=
  s.ifAllowedG (.phase o) o.g fun s => s.phaseRelease o.scope fun s => s.acquire o.scope.toNat

/-- TRIG (R51, R340): the first one of a task ends its trigger obligation; it waits while the dome's held
signals leave no room for the one that it would add (R409). -/
def execTrig (o : XForm) (s : State) : Host.Outcome State Fault Refusal :=
  s.ifAllowedG (.trig o) o.g fun s =>
    match s.core.task with
    | none => s.phaseRelease o.scope id
    | some t =>
      if s.core.owesTrig && !t.spawned && s.dev.holdFull t.part (s.dev.triggerSignals t.part t.lid) then s.wait
      else
        s.phaseRelease o.scope fun s =>
          if s.core.owesTrig && !t.spawned then
            (s.upd fun c => { c with owesTrig := false }).updDev fun v => v.endObligation t.part t.lid
          else s

/-- The barrier that imm24[5:0] names (R44, R339): ILLOP when the gang has not bound it. -/
def State.withBarrier (s : State) (i : Instr) (o : XForm) (f : TaskInfo → Gang → Nat → State) : State :=
  let n := o.imm.toNat % 64
  match s.core.task with
  | none => s.trapOp ILLOP i
  | some t =>
    match s.dev.gangOf t.gang with
    | none => s.trapOp ILLOP i
    | some g => if n ≥ t.barriers then s.trapOp ILLOP i else f t g n

/-- The task's last arrival at barrier `n` is in a generation that has not completed (R341). -/
def Core.pendingAt (c : Core) (g : Gang) (n : Nat) : Bool :=
  c.arrivals.any fun a => a.1 == n && a.2 == (g.bars.getD n (0, [])).1

/-- A task waits at a barrier (R45, R341), from the wall cycle that is noted. -/
def State.barrierWait (s : State) : State := (s.upd fun c => { c with barFrom := some (c.barFrom.getD c.wall) }).wait

/-- Count an arrival of CIDX `k` at barrier `n` (R341). -/
def Gang.arrive (g : Gang) (n k : Nat) : Gang :=
  ({ g with bars := g.bars.modify n fun b => (b.1, b.2 ++ [k]) } : Gang).settle

/-- BARR (R341). -/
def execBarr (o : XForm) (s : State) : Host.Outcome State Fault Refusal :=
  s.ifAllowedG (.barr o) o.g fun s =>
    s.withBarrier (.barr o) o fun t g n =>
      if s.core.pendingAt g n then s.barrierWait
      else
        s.phaseRelease o.scope fun s =>
          let gen := (g.bars.getD n (0, [])).1
          let s := s.upd fun c => { c with arrivals := (n, gen) :: c.arrivals.filter fun a => a.1 != n }
          s.updDev fun v => { v with gangs := v.gangs.map fun x => if x.id == t.gang then x.arrive n t.cidx.toNat else x }

/-- BARW (R341). -/
def execBarw (o : XForm) (s : State) : Host.Outcome State Fault Refusal :=
  s.ifAllowedG (.barw o) o.g fun s =>
    s.withBarrier (.barw o) o fun _ g n =>
      if s.core.pendingAt g n then s.barrierWait else s.syncPoint.acquire o.scope.toNat

/-- BARQ (R341): latency 2. -/
def execBarq (o : XForm) (s : State) : Host.Outcome State Fault Refusal :=
  s.ifAllowedG (.barq o) o.g fun s =>
    s.withBarrier (.barq o) o fun _ g n =>
      if s.core.pendingAt g n then s.syncPoint.wS 2 o.d 0 else (s.syncPoint.acquire o.scope.toNat).wS 2 o.d 1

end Sys2Proof.Machine
end

