-- ==== Sys2Proof/Machine/Collective.lean ====
section
/-! DEFINITION. Collectives (R135, R342 to R344). -/

namespace Sys2Proof.Machine

/-- Fields of the collective descriptor (R342). -/
def collSend (d : List Byte) : Nat := fieldAt d 0 10
def collGroup (d : List Byte) : Nat := fieldAt d 0xA 2
def collRecv (d : List Byte) : Nat := fieldAt d 0x10 10
def collKind (d : List Byte) : Nat := fieldAt d 0x1A 1
def collOp (d : List Byte) : Nat := fieldAt d 0x1B 1
def collFmt (d : List Byte) : Nat := fieldAt d 0x1C 1
def collRoot (d : List Byte) : Nat := fieldAt d 0x1E 2
def collCount (d : List Byte) : Nat := fieldAt d 0x20 8
def collLo (d : List Byte) : Nat := fieldAt d 0x28 8
def collHi (d : List Byte) : Nat := fieldAt d 0x30 8

/-- Element bytes of the descriptor's format. -/
def collSize (d : List Byte) : Nat := formatBits (collFmt d) / 8

/-- A descriptor keeps the limits that hold in every group (R342). -/
def collForm (d : List Byte) : Bool :=
  collKind d ≤ 3 && collOp d ≤ 5 && [0, 1, 2, 0x0F, 0x10].contains (collFmt d) && zeroAt d 0x1D 1 && zeroAt d 0x38 8
    && (collKind d > 1 || (collLo d ≤ collHi d && collHi d ≤ collCount d))

/-- A descriptor is valid for a group of `p` participants (R342, R343). -/
def collValid (d : List Byte) (p : Nat) : Bool :=
  collForm d && (collKind d != 1 || collCount d % p == 0) && (collKind d != 3 || collRoot d < p)

/-- Participants that join with these descriptors agree (R342). -/
def collAgree (a b : List Byte) : Bool :=
  sliceOf a 0xA 6 == sliceOf b 0xA 6 && sliceOf a 0x1A 3 == sliceOf b 0x1A 3 && collRoot a == collRoot b && collCount a == collCount b

/-- The first byte and the number of bytes that rank `r` sends (R342, R343). -/
def collSendRange (d : List Byte) (r : Nat) : Nat × Nat :=
  match collKind d with
  | 0 | 1 => (collSend d + collLo d * collSize d, (collHi d - collLo d) * collSize d)
  | 2 => (collSend d, collCount d * collSize d)
  | _ => (collSend d, if r = collRoot d then collCount d * collSize d else 0)

/-- The group with a number. -/
def Device.group (v : Device) (g : Nat) : Option CollGroup := v.groups.find? fun x => x.group == g

/-- Update a group. -/
def Device.updGroup (v : Device) (g : Nat) (f : CollGroup → CollGroup) : Device :=
  { v with groups := updateFirst (fun x => x.group == g) f v.groups }

/-- The rank of a task in a group (R342). -/
def Device.rankIn (v : Device) (g : CollGroup) (t : TaskInfo) : Option Nat :=
  g.members.findIdx? fun m => m.node == v.node && m.lid == t.lid && m.task == t.index.toNat

/-- An access of `n` bytes of G space from `x` up uses the translation caches (R418, R420), page by page. -/
def State.touchAll (s : State) (x n : Nat) (k : Kind) : State :=
  if n = 0 then s
  else (List.range ((x + n + 65535) / 65536 - x / 65536)).foldl (fun s i => s.touch 0 ((Nat.max x ((x / 65536 + i) * 65536) : Nat) : Int) 1 k) s

/-- The lines with failing check values among `n` bytes of G space from `x` up (R443). -/
def State.failingLines (s : State) (ps : List (Place × Nat)) : List (Nat × BitVec 32) :=
  s.dev.checks.filter fun c => ps.any fun p => p.1 == .phys && overlaps p.2 1 c.1 64

/-- A group has members on other devices. -/
def Device.hasRemote (v : Device) (g : CollGroup) : Bool := g.members.any fun m => m.node != v.node

/-- COLL (R322, R342): the descriptor and the send buffer as they stand at issue; the task joins its group. -/
def execColl (o : XForm) (s : State) : Host.Outcome State Fault Refusal :=
  s.ifAllowedG (.coll o) o.g fun s =>
    s.withDesc (s.core.sreg o.a).toNat 64 fun d =>
      s.engineSlot fun s =>
        let op (st rank : Nat) (img : List Byte) : EngineOp :=
          { kind := 5, tok := o.d, ctr := counterOf o, scope := 4, pieces := [], status := st, bytes := 0, flags := 0, trapOn := false,
            desc := d, va := 0, image := img, handle := 0, pos := rank, group := collGroup d, node := 0, carry := [] }
        let start (s : State) (e : EngineOp) : State := s.upd fun c => c.startEngine e
        match s.core.task, s.dev.group (collGroup d) with
        | some t, some g =>
          match s.dev.rankIn g t with
          | none => start s (op (if collForm d then 0x0B else 2) 0 [])
          | some r =>
            if !collValid d g.members.length then start s (op 2 r [])
            else
              let (x, n) := collSendRange d r
              let join (s : State) : State := s.updDev fun v =>
                v.updGroup g.group fun y => { y with joined := y.joined ++ [(r, t.part, t.slot, d)] }
              match s.chunks 0 .load 1 x n with
              | .error (c, ea) => start (join (s.failWalk 0 ea c)) { op 0 r [] with bytes := faultStatus c true }
              | .ok ps =>
                let bad := (s.poisoned 1 ps).isSome
                let leaves := if s.dev.hasRemote g then s.failingLines ps else []
                start (join ((s.saw [] 1 ps).touchAll x n .load))
                  { op 0 r (if bad then [] else s.readChunks 1 ps) with bytes := if bad then 6 else 0, carry := leaves }
        | _, _ => start s (op (if collForm d then 0x0B else 2) 0 [])

/-- What a participant brings (R342): descriptor, sent bytes, and the status of its read. -/
structure CollPart where
  desc   : List Byte
  sent   : List Byte
  status : Nat

/-- The outstanding COLL of a core in a group. -/
def Core.collOp (c : Core) (g : Nat) : Option (Nat × EngineOp) :=
  ((List.range c.outst.length).filterMap fun k =>
    match c.outst[k]? with
    | some (Outstanding.engine e) => if e.kind = 5 ∧ e.group = g ∧ e.status = 0 then some (k, e) else none
    | _ => none).head?

/-- The unit of the participant of rank `r`, when it has joined and is resident. -/
def State.collUnit (s : State) (g : CollGroup) (r : Nat) : Option Agent :=
  (g.joined.find? fun j => j.1 == r).bind fun j => s.residentOf j.2.1 j.2.2.1

/-- The participants in rank order (R342): local ones as they joined, remote ones from the fabric's bytes, each a
descriptor and what it sends. None while a local one has not joined. -/
def State.collParts (s : State) (g : CollGroup) : Nat → List Participant → List Byte → Option (List CollPart)
  | _, [], _ => some []
  | r, m :: ms, bs =>
    if m.node = s.dev.node then
      match (s.collUnit g r).bind fun u => (s.getCore u).collOp g.group with
      | none => none
      | some (_, e) => (s.collParts g (r + 1) ms bs).map fun ps => { desc := e.desc, sent := e.image, status := e.bytes } :: ps
    else
      let d := sliceOf bs 0 64
      let n := (collSendRange d r).2
      (s.collParts g (r + 1) ms (bs.drop (64 + n))).map fun ps => { desc := d, sent := sliceOf (bs.drop 64) 0 n, status := 0 } :: ps

/-- Element `i` of a reduction over the participants (R343): its bytes and flags, or none where it is absent at every
rank. -/
def collReduce (ps : List CollPart) (d : List Byte) (i : Nat) : Option (List Byte) × Flags :=
  let f := collFmt d
  let w := collSize d
  let isInt := f == 0x0F || f == 0x10
  let elem (p : CollPart) : Nat := fieldAt (p.sent.drop ((i - collLo p.desc) * w)) 0 w
  let xs := (ps.zip (List.range ps.length)).map fun x =>
    if collLo x.1.desc ≤ i ∧ i < collHi x.1.desc then
      some ((BitVec.ofNat 32 (if isInt then elem x.1 else (convertElem 0 f 0 0 false false (elem x.1)).1) : Lane), x.2)
    else none
  let (r, fl) := redTree (redStep (collOp d) (BitVec.ofNat 5 (if isInt then f else 0)) 0 false false) (ceilLog2 ps.length) xs
  match r with
  | none => (none, fl)
  | some (v, _) =>
    if isInt then (some (bytesOfNat w v.toNat), fl)
    else (let y := convertElem f 0 0 0 false false v.toNat; (some (bytesOfNat w y.1), fl ||| y.2))

/-- What the participants' receive buffers get (R343): for each rank, bytes at byte offsets; and the flags. -/
def collResults (ps : List CollPart) (d : List Byte) : (Nat → List (Nat × List Byte)) × Flags :=
  let w := collSize d
  let n := collCount d
  if collKind d ≤ 1 then
    let rs := (List.range n).map fun i => collReduce ps d i
    let out := (rs.zip (List.range n)).filterMap fun x => x.1.1.map fun b => (x.2, b)
    let fl := rs.foldl (fun f r => f ||| r.2) 0
    let m := n / ps.length
    (fun r =>
      if collKind d = 0 then out.map fun x => (x.1 * w, x.2)
      else (out.filter fun x => x.1 / m == r).map fun x => (x.1 % m * w, x.2), fl)
  else if collKind d = 2 then
    (fun _ => [(0, ps.flatMap fun p => p.sent)], 0)
  else (fun _ => [(0, ((ps[collRoot d]?).map fun p => p.sent).getD [])], 0)

/-- The pieces of a receive buffer in the focused unit's context, or the trap code and the address of a fault. -/
def State.collPieces (s : State) (base : Nat) (out : List (Nat × List Byte)) : Except (Nat × Int) (List Piece) :=
  out.foldl (fun (acc : Except (Nat × Int) (List Piece)) x =>
    match acc with
    | .error e => .error e
    | .ok ps =>
      match s.chunks 0 .store 1 ((base + x.1 : Nat) : Int) x.2.length with
      | .error e => .error e
      | .ok qs => .ok (ps ++ (qs.zip x.2).map fun q => { place := q.1.1, addr := q.1.2, bytes := [q.2] })) (.ok [])

/-- The focused unit's oldest COLL in a group ends (R344). One whose data failed its check value at egress has status 0x08, logged
E2E (R443). -/
def State.collDone (s : State) (g status bytes : Nat) (fl : Flags) : State :=
  match s.core.collOp g with
  | none => s
  | some (k, e) =>
    let fails := if status = 0x0A then [] else e.carry.map Prod.fst
    (s.updDev fun v => v.logFails 2 0 s.partition fails).upd fun c =>
      c.engineDone k e (if status = 0 ∧ fails ≠ [] then 8 else status) bytes fl none

/-- The bytes of a receive buffer for rank `r` of `p` (R343). -/
def collRecvBytes (d : List Byte) (p : Nat) : Nat :=
  collSize d * (match collKind d with | 1 => collCount d / p | 2 => collCount d * p | _ => collCount d)

/-- The ranges of global memory that a collective names for the focused unit (R135): its send and receive buffers. -/
def State.collNamed (s : State) (d : List Byte) (r p : Nat) : List (Nat × Nat) :=
  let one (x n : Nat) : List (Nat × Nat) := match s.chunks 0 .any 1 x n with
    | .error _ => []
    | .ok ps => ((joinBytes (ps.map fun q => (q.1, q.2, 0))).filter fun q => decide (q.place = .phys)).map fun q => (q.addr, q.bytes.length)
  one (collSendRange d r).1 (collSendRange d r).2 ++ one (collRecv d) (collRecvBytes d p)

/-- A group's collective completes (R118, R135, R343, R344): the named buffers are released by every local participant, every local
receive buffer is written, the named buffers are acquired, then every token is written. A participant's fault is the status of all of
them; a completion with an error status releases and acquires the named buffers too (DEDUCED, log 93).
The oldest COLL of each member takes part; the later ones wait for the next (log 93). -/
def State.collFinish (s : State) (g : CollGroup) (ps : List CollPart) : State :=
  let units := (List.range g.members.length).filterMap fun r => (s.collUnit g r).map fun u => (r, u)
  let clear (s : State) : State :=
    s.updDev fun v => v.updGroup g.group fun y =>
      { y with joined := (List.range g.members.length).foldl (fun l r => l.eraseP fun j => j.1 == r) y.joined }
  let named (s : State) (r : Nat) : List (Nat × Nat) := s.collNamed (((ps[r]?).map CollPart.desc).getD []) r ps.length
  let released (s : State) : State := units.foldl (fun s x => s.onUnit x.2 fun s => (s.commitSeg).releaseBytes 4 (named s x.1)) s
  let all (s : State) (st : Nat) (len : Nat → Nat) (fl : Flags) : State :=
    let s := units.foldl (fun s x => s.onUnit x.2 fun s => s.acquireBytes 4 (named s x.1)) s
    clear (units.foldl (fun s x => s.onUnit x.2 fun s => s.collDone g.group st (len x.1) fl) s)
  match ps with
  | [] => clear s
  | p0 :: _ =>
    if ps.any fun p => !collAgree p.desc p0.desc then all (released s) 0x0A (fun _ => 0) 0
    else
      match ps.find? fun p => p.status != 0 with
      | some p => all (released s) p.status (fun _ => 0) 0
      | none =>
        let (out, fl) := collResults ps p0.desc
        let dest (r : Nat) : Nat := ((ps[r]?).map fun p => collRecv p.desc).getD 0
        let pieces (x : Nat × Agent) : Except (Nat × Int) (List Piece) := (s.refocus x.2).collPieces (dest x.1) (out x.1)
        match units.findSome? fun x => match pieces x with | .error e => some (x.2, e) | .ok _ => none with
        | some (u, e) => all (released (s.onUnit u fun s => s.failWalk 0 e.2 e.1)) (faultStatus e.1 false) (fun _ => 0) 0
        | none =>
          let s' := released s
          let s' := units.foldl (fun s x =>
            match pieces x with
            | .error _ => s
            | .ok qs => s.onUnit x.2 fun s =>
              (s.touchAll (dest x.1) (collRecvBytes p0.desc ps.length) .store).engineWrites 4 qs []) s'
          all s' 0 (fun r => (out r).foldl (fun n y => n + y.2.length) 0) fl

/-- COLL_COMPLETE (R344): the focused core's operation that the event names ends with the status that it met at
issue; or the collective of the event's group completes once every local participant has joined, the remote ones'
descriptors and sent bytes being the event's, in rank order. -/
def execCollComplete (s : State) : Host.Outcome State Fault Refusal :=
  let s := s.merLate
  .next (match s.core.outst[s.ev.index]? with
    | some (.engine e) =>
      if e.kind = 5 ∧ e.status ≠ 0 then s.upd fun c => c.engineDone s.ev.index e e.status 0 0 none
      else
        match s.dev.group s.ev.group with
        | none => s
        | some g => (match s.collParts g 0 g.members s.ev.data with | none => s | some ps => s.collFinish g ps)
    | _ =>
      match s.dev.group s.ev.group with
      | none => s
      | some g => (match s.collParts g 0 g.members s.ev.data with | none => s | some ps => s.collFinish g ps))

end Sys2Proof.Machine
end

