-- ==== Sys2Proof/Machine/Combine.lean ====
section
/-! DEFINITION. Combine instructions and their events (R346 to R351), burst declarations (R352, R353). -/

namespace Sys2Proof.Machine

/-- Fields of a handle (R346): slot, generation, dome, node. -/
def handleSlot (h : Word) : Nat := h.toNat % 2 ^ 16
def handleGen (h : Word) : Nat := h.toNat / 2 ^ 16 % 2 ^ 14
def handleDome (h : Word) : Nat := h.toNat / 2 ^ 30 % 4
def handleNode (h : Word) : BitVec 16 := h.extractLsb' 32 16

/-- The handle of a slot (R346). -/
def handleOf (slot : Nat) (gen : BitVec 14) (dome : Nat) (node : BitVec 16) : Word :=
  BitVec.ofNat 64 (slot % 2 ^ 16 + gen.toNat * 2 ^ 16 + dome % 4 * 2 ^ 30 + node.toNat * 2 ^ 32)

/-- An open record keeps within its limits (R346). -/
def openValid (w : Word) (r : List Byte) : Bool :=
  let k := fieldAt r 4 1
  let idx (p : Nat) : Nat := fieldAt r (0x20 + 2 * p) 2
  1 ≤ k && k ≤ cmbKmax w && k ≤ 16 && zeroAt r 5 3 && zeroAt r 0x12 2 && zeroAt r 0x18 8
    && (List.range 16).all (fun p => if p < k then p == 0 || idx (p - 1) < idx p else idx p == 0)
    && (List.range 16).all fun p => p < k || zeroAt r (0x40 + 4 * p) 4

/-- The slot that an open record opens (R346). In Meridian mode its deadline is ignored, and the field holds when its wait
is logged (R351). -/
def CmbSlot.opened (x : CmbSlot) (r : List Byte) (now order : Nat) (opener : Option Nat) (ctx : BitVec 12) (mer : Bool) : CmbSlot :=
  let dl := fieldAt r 0x14 4
  { x with
    state := 1, token := BitVec.ofNat 32 (fieldAt r 0 4), k := fieldAt r 4 1, dest := BitVec.ofNat 80 (fieldAt r 8 10)
    deadline := if mer then now + 2 ^ 20 + 1 else if dl = 0 then 0 else now + dl
    gates := (List.range 16).map fun p => BitVec.ofNat 32 (fieldAt r (0x40 + 4 * p) 4)
    bitmap := 0, rows := [], order := order, opener := opener, ctx := ctx, record := 0, outcome := 4, told := false,
    mer := mer }

/-- CMBOPEN and CMBOPEN.try (R346): the open record, a free slot, its handle. -/
def State.cmbOpen (s : State) (i : Instr) (o : XForm) (try_ : Bool) : State :=
  let ctx := s.ctx
  let d := s.focus.dome
  match s.dev.combineOf ctx d with
  | none => s.trapOp ILLOP i
  | some c =>
    if cmbSlots c.word = 0 then s.trapOp ILLOP i
    else
      s.withDesc (s.core.sreg o.a).toNat 128 fun r =>
        if !openValid c.word r then s.trapOp ILLOP i
        else
          match c.slots.findIdx? fun x => x.state == 0 with
          | none => if try_ then s.commitSeg.queueResult o.d (BitVec.ofNat 64 (2 ^ 63)) none 0 else s.wait
          | some k =>
            let s := s.commitSeg
            let who := s.core.task.map TaskInfo.slot
            let gen := match c.slot k with | some x => x.gen | none => 1
            let now := s.dev.time
            let mer := s.core.mer
            let s := s.updDev fun v => v.updCombine ctx d fun c =>
              { c.updSlot k (fun x => x.opened r now c.opens who ctx mer) with opens := c.opens + 1 }
            s.queueResult o.d (handleOf k gen d s.dev.node) none 0

/-- CMBOPEN (R346). -/
def execCmbopen (o : XForm) (s : State) : Host.Outcome State Fault Refusal :=
  s.ifAllowedG (.cmbopen o) o.g fun s => s.cmbOpen (.cmbopen o) o false

/-- CMBOPEN.try (R346). -/
def execCmbopenTry (o : XForm) (s : State) : Host.Outcome State Fault Refusal :=
  s.ifAllowedG (.cmbopenTry o) o.g fun s => s.cmbOpen (.cmbopenTry o) o true

/-- The row bytes of a put (R347): those of the context's buffer in the dome that the handle names; for another device, and for
handle 0, those of the buffer in the core's own dome (log 68). -/
def State.putBytes (s : State) (h : Word) : Nat :=
  let d := if handleNode h = s.dev.node ∧ h ≠ 0 then handleDome h else s.focus.dome
  match s.dev.combineOf s.ctx d with
  | some c => cmbRow c.word
  | none => 0

/-- CMBPUT (R322, R347): the row is read at issue and goes on its way. -/
def execCmbput (o : XForm) (s : State) : Host.Outcome State Fault Refusal :=
  s.ifAllowedG (.cmbput o) o.g fun s =>
    let pos := (s.core.sreg o.b).toNat
    if pos ≥ 16 then s.trapOp RESV (.cmbput o)
    else
      s.engineSlot fun s =>
        let h := s.core.sreg o.a
        let x := (s.core.areg o.base).toNat
        let n := s.putBytes h
        let start (s : State) (st : Nat) (img : List Byte) (carry : List (Nat × BitVec 32)) : State := s.upd fun c => c.startEngine
          { kind := 6, tok := o.d, ctr := counterOf o, scope := 0, pieces := [], status := st, bytes := if st = 0 then n else 0, flags := 0,
            trapOn := false, desc := [], va := s.core.areg o.base, image := img, handle := h, pos := pos, group := 0, node := handleNode h,
            carry := carry }
        match s.chunks 0 .load 1 x n with
        | .error (c, ea) => start (s.failWalk 0 ea c) (faultStatus c true) [] []
        | .ok ps =>
          let bad := (s.poisoned 1 ps).isSome
          let fl := s.dev.promised (s.core.aTaint o.base)
          start ((s.saw fl 1 ps).touchAll x n .load) (if bad then 6 else 0) (if bad then [] else s.readVia fl 1 ps)
            (if handleNode h = s.dev.node then [] else s.failingLines ps)

/-- A put arrives at a buffer (R347): the outcome's status, and the buffer as it leaves it. A slot that has completed and whose
record is held takes no further row (log 68). -/
def Combine.receive (c : Combine) (slot gen pos : Nat) (row : List Byte) : Nat × Combine :=
  let drop (st : Nat) : Nat × Combine := (st, { c with discards := c.discards + 1 })
  match c.slot slot with
  | none => drop 0x0C
  | some x =>
    if x.state == 0 || x.gen.toNat != gen then drop 0x0C
    else if pos ≥ x.k then drop 0x0E
    else if x.bitmap.getLsbD pos then drop 0x0D
    else if x.state != 1 then drop 0x0C
    else (0, c.updSlot slot fun x => { x with bitmap := x.bitmap ||| BitVec.ofNat 16 (2 ^ pos), rows := x.rows ++ [(pos, row)] })

/-- A put arrives in this device (R347, R348): a full bitmap completes the slot. -/
def Device.cmbReceive (v : Device) (ctx : BitVec 12) (h : Word) (own pos : Nat) (row : List Byte) : Nat × Device :=
  let d := if h = 0 then own else handleDome h
  match v.combineOf ctx d with
  | none => (if h = 0 then 0x0E else 0x0C, v)
  | some c =>
    if h = 0 then (0x0E, v.updCombine ctx d fun c => { c with discards := c.discards + 1 })
    else
      let (st, c') := c.receive (handleSlot h) (handleGen h) pos row
      let v := v.updCombine ctx d fun _ => c'
      let full := match c'.slot (handleSlot h) with | some x => st == 0 && x.missing == 0 | none => false
      (st, if full then v.cmbComplete ctx d (handleSlot h) false else v)

/-- The status codes that the fabric's answer may give a put to another device (R324, R347). -/
def cmbStatus (st : Nat) : Bool := [8, 9, 0x0C, 0x0D, 0x0E].contains st

/-- CMBPUT_ARRIVAL (R347): the put that the event names arrives, and its token is written. A put to another device leaves with its
row, and takes the outcome that the fabric reports (`value`), or 0x09 without a route; one whose data fails its check value at
egress is sent with status 0x08, logged E2E (R443). -/
def execCmbputArrival (s : State) : Host.Outcome State Fault Refusal :=
  let s := s.merLate
  .next (match s.core.outst[s.ev.index]? with
    | some (.engine e) =>
      if e.kind = 6 then
        let done (s : State) (st : Nat) : State :=
          let s := if st = 8 then s.updDev fun v => v.logFails 2 0 s.partition (if e.carry.isEmpty then [s.ev.addr] else e.carry.map Prod.fst) else s
          s.upd fun c => c.engineDone s.ev.index e st (if st = 0 then e.bytes else 0) 0 none
        if e.status ≠ 0 then done s e.status
        else if e.handle = 0 ∨ e.node = s.dev.node then
          let (st, v) := s.dev.cmbReceive s.ctx e.handle s.focus.dome e.pos e.image
          done { s with dev := v } st
        else if !s.dev.reaches e.node then done s 9
        else
          let sent (s : State) : State := s.updDev fun v => { v with egress := v.egress ++ [.row e.node s.ctx e.handle e.pos e.image] }
          if !e.carry.isEmpty then done (sent s) 8
          else if s.ev.ok then done (sent s) 0
          else if cmbStatus s.ev.value then done (if s.ev.value = 9 then s else sent s) s.ev.value
          else s
      else s
    | _ => s)

/-- CMB_DEADLINE (R348, R351): the deadline of the event's slot has come: the deadline step; in Meridian mode the wait is
logged, and the slot stays open. -/
def execCmbDeadline (s : State) : Host.Outcome State Fault Refusal :=
  .next (match s.dev.combineOf s.ev.ctx s.ev.dome with
    | none => s
    | some c =>
      match c.slot s.ev.slot with
      | none => s
      | some x =>
        if x.state != 1 || x.deadline == 0 || s.dev.time < x.deadline then s
        else if x.mer then
          s.updDev fun v =>
            (v.updCombine s.ev.ctx s.ev.dome fun c => c.updSlot s.ev.slot fun x => { x with deadline := 0 }).log s.ev.dome 0x0042 0 2 0
              (handleOf s.ev.slot x.gen s.ev.dome v.node) (BitVec.ofNat 64 (v.time - (x.deadline - (2 ^ 20 + 1)))) s.ev.ctx.toNat c.part
        else s.updDev fun v => v.cmbComplete s.ev.ctx s.ev.dome s.ev.slot true)

/-- CMB_RELEASE_ENQUEUE (R349): the held records of the event's buffer are enqueued while its queue takes them. -/
def execCmbReleaseEnqueue (s : State) : Host.Outcome State Fault Refusal :=
  .next (s.updDev fun v =>
    match v.combineOf s.ev.ctx s.ev.dome with
    | none => v
    | some c => v.cmbDrain s.ev.ctx s.ev.dome (c.slots.length + 1))

/-- What a handle of this device names (R350): the buffer, the slot, its arrival bitmap and state; none for a stale
handle. A slot that is complete and whose record is held is not released yet, but a fault of it shows. -/
def State.cmbLook (s : State) (h : Word) : Option (Combine × CmbSlot × Nat) :=
  match s.dev.combineOf s.ctx (handleDome h) with
  | none => none
  | some c =>
    match c.slot (handleSlot h) with
    | none => none
    | some x =>
      if handleGen h = 0 then none
      else if x.state != 0 && x.gen.toNat == handleGen h then some (c, x, if x.state == 2 && x.outcome == 3 then 3 else 0)
      else if x.state == 0 && x.gen == genAfter (BitVec.ofNat 14 (handleGen h)) && x.outcome != 4 then some (c, x, x.outcome)
      else none

/-- The first look at a faulted slot by its opener raises COMBINE (R350): the state that has told it, or none. -/
def State.cmbTell (s : State) (h : Word) : Option State :=
  match s.cmbLook h, s.core.task with
  | some (_, x, 3), some t =>
    if x.opener == some t.slot && !x.told then
      some (s.updDev fun v => v.updCombine s.ctx (handleDome h) fun c => c.updSlot (handleSlot h) fun x => { x with told := true })
    else none
  | _, _ => none

/-- The detail of COMBINE (R189). -/
def handleInfo (h : Word) : Nat := h.toNat % 2 ^ 48

/-- A poll of another device's handle (R350): bitmap, state and discard count are that device's, a free value within their fields
(log 68). -/
def remotePoll (x : Nat) : Word := BitVec.ofNat 64 (x % 2 ^ 16 + x / 2 ^ 16 % 2 ^ 16 % 5 * 2 ^ 16 + x / 2 ^ 32 % 2 ^ 32 * 2 ^ 32)

/-- CMBPOLL (R345, R350): latency 8. What the arrival bitmap of a stale handle reads as is open (log 68). -/
def execCmbpoll (o : XForm) (s : State) : Host.Outcome State Fault Refusal :=
  s.ifAllowedG (.cmbpoll o) o.g fun s =>
    let h := s.core.sreg o.a
    if h = 0 then
      s.commitSeg.wS 8 o.d (match s.dev.combineOf s.ctx s.focus.dome with | some c => c.word | none => 0)
    else if handleNode h ≠ s.dev.node then
      let (x, s) := s.commitSeg.freeVal
      s.wS 8 o.d (remotePoll x)
    else
      match s.cmbTell h with
      | some s => s.trap COMBINE .x (handleInfo h)
      | none =>
        let s := s.commitSeg
        match s.cmbLook h with
        | some (c, x, st) => s.wS 8 o.d (BitVec.ofNat 64 (x.bitmap.toNat + st * 2 ^ 16 + c.discards.toNat * 2 ^ 32))
        | none =>
          let (x, s) := s.freeVal
          let n := match s.dev.combineOf s.ctx (handleDome h) with | some c => c.discards.toNat | none => 0
          s.wS 8 o.d (BitVec.ofNat 64 (x % 2 ^ 16 + 4 * 2 ^ 16 + n * 2 ^ 32))

/-- CMBCLOSE (R350, R351): latency 8. Whether a slot of another device was open is a free value (log 68). -/
def execCmbclose (o : XForm) (s : State) : Host.Outcome State Fault Refusal :=
  s.ifAllowedG (.cmbclose o) o.g fun s =>
    let h := s.core.sreg o.a
    if h = 0 then s.commitSeg.wS 8 o.d 0
    else if handleNode h ≠ s.dev.node then
      let (x, s) := s.commitSeg.freeVal
      s.wS 8 o.d (BitVec.ofNat 64 (x % 2))
    else
      match s.cmbTell h with
      | some s => s.trap COMBINE .x (handleInfo h)
      | none =>
        match s.cmbLook h with
        | some (_, x, _) =>
          if x.state != 1 then s.commitSeg.wS 8 o.d 0
          else if x.mer || s.core.mer then s.trap MERID .x 0
          else
            let ctx := s.ctx
            (s.commitSeg.updDev fun v => v.cmbComplete ctx (handleDome h) (handleSlot h) false).wS 8 o.d 1
        | none => s.commitSeg.wS 8 o.d 0

/-- PHINT (R352). -/
def execPhint (o : XForm) (s : State) : Host.Outcome State Fault Refusal :=
  s.ifAllowedG (.phint o) o.g fun s =>
    let n := (s.core.sreg o.b).toNat
    if n = 0 then s.trapOp ILLOP (.phint o)
    else s.upd fun c => { c with phint := some (c.wall + (c.sreg o.a).toNat, n, o.imm.toNat % 32) }

/-- PHCLR (R352). -/
def execPhclr (o : XForm) (s : State) : Host.Outcome State Fault Refusal :=
  s.ifAllowedG (.phclr o) o.g fun s => s.upd fun c => { c with phint := none }

/-- BURST_WINDOW_END: the window of the focused core that is over is accounted (R353). -/
def execBurstWindowEnd (s : State) : Host.Outcome State Fault Refusal := .next (s.upd Core.windowDue)

end Sys2Proof.Machine
end

