-- ==== Sys2Proof/Machine/Checkpoint.lean ====
section
/-! DEFINITION. Completing outstanding operations, the context save area (R379 to R381), checkpoint pre-emption
(R382, R405), banks across it (R28), CTXSV and CTXLD (R373). -/

namespace Sys2Proof.Machine

/-- Let an event name operation `k`, do it, and put the event's operands back. -/
def State.atEvent (s : State) (k : Nat) (f : State → Host.Outcome State Fault Refusal) : State :=
  let g := match s.core.outst[k]? with | some (.engine e) => e.group | _ => s.ev.group
  match f { s with ev := { s.ev with index := k, group := g, ok := true, bus := none, late := 0, space := 0 } } with
  | .next t => { t with ev := s.ev }
  | _ => s

/-- Complete the outstanding operation with index `k` (R154, R322). -/
def State.completeOp (s : State) (k : Nat) : State :=
  match s.core.outst[k]? with
  | some (.load _ _) => s.atEvent k execLoadReturn
  | some (.division _ _ _ _ _) => s.atEvent k execDivisionComplete
  | some (.atomic _ _ _ _ _ _ _ _ _ _) => s.atEvent k execAtomicPerformed
  | some (.queue _ _ _ _) => s.atEvent k execQueueResultReturn
  | some (.engine e) =>
    if e.kind ≤ 2 then s.atEvent k execCopyComplete
    else if e.kind ≤ 4 then s.atEvent k execFabricCopyComplete
    else if e.kind = 5 then s.atEvent k execCollComplete
    else if e.kind = 6 then s.atEvent k execCmbputArrival
    else s.atEvent k execWloadComplete
  | none => s

/-- The operation completes with nothing from outside the device: a fabric operation to another node and a collective
wait for their event (R134, R330, R344, R347). -/
def State.completesHere (s : State) (x : Outstanding) : Bool :=
  match x with
  | .engine e =>
    if e.kind = 5 then e.status != 0
    else if e.kind = 3 ∨ e.kind = 4 ∨ e.kind = 6 then e.status != 0 || e.node == s.dev.node || !s.dev.reaches e.node || (e.kind == 6 && e.handle == 0)
    else true
  | _ => true

/-- A copy that stops at a cursor at a checkpoint (R329). -/
def Outstanding.isCopy : Outstanding → Bool
  | .engine e => 1 ≤ e.kind && e.kind ≤ 4
  | _ => false

/-- Complete the operations that run to completion at a checkpoint, oldest first (R329, R382). `fuel` bounds them. -/
def State.settleOps (s : State) : Nat → State
  | 0 => s
  | fuel + 1 =>
    match s.core.outst.findIdx? fun x => !x.isCopy && s.completesHere x with
    | none => s
    | some k => (s.completeOp k).settleOps fuel

/-- A context save area is usable (R379, R382): aligned, mapped, writable and pinned. -/
def Device.areaUsable (v : Device) (ctx : BitVec 12) (va : Addr) : Bool := va.toNat % 65536 == 0 && v.usable ctx va 37

/-- Eight little-endian bytes. -/
def le8 (w : Word) : List Byte := bytesOfNat 8 w.toNat

/-- The taint mask of s and a (R379). -/
def Core.taintMask (c : Core) : Nat :=
  let bit (b : Bool) (k : Nat) : Nat := if b then 2 ^ k else 0
  (List.range 32).foldl (fun n k => n + bit (if h : k < 32 then c.staint[k].isSome else false) k) 0
    + (List.range 16).foldl (fun n k => n + bit (if h : k < 16 then c.ataint[k].isSome else false) (32 + k)) 0

/-- An engine record (R381). `tok` is the token value of an operation that has run to completion. -/
def engineRecord (e : EngineOp) (tok : Word) : List Byte :=
  [BitVec.ofNat 8 e.kind, e.tok.setWidth 8, (match e.ctr with | some k => k.setWidth 8 ||| 8 | none => 0)]
    ++ List.replicate 5 0 ++ bytesOfNat 8 e.cursor ++ le8 tok ++ List.replicate 232 0 ++ sliceOf e.desc 0 256

/-- The bytes of a save area that are marked *device* outside its matrix images (R379): offsets and lengths. -/
def ctxSpans : List (Nat × Nat) := [(0x1A, 0xE6), (0x368, 0x98), (0x1660, 0x9A0), (0x24000, 0x8000)]

/-- A bound register in a save area (R379): LO, HI, FMT and ACT (log 22). -/
def boundBytes (t : Bound) : List Byte :=
  bytesOfNat 4 t.lo.toNat ++ bytesOfNat 4 t.hi.toNat ++ [t.fmt.setWidth 8, t.act.setWidth 8] ++ List.replicate 6 0

/-- The pieces of a context save area (R379): `c` is the task's state, `es` the engine operations at the stop. What the
manual marks as device state has the form of this revision (log 22). -/
def ctxPieces (c : Core) (es : List EngineOp) : List (Nat × List Byte) :=
  let b (x : Bool) (k : Nat) : Nat := if x then 2 ^ k else 0
  let flags := b c.hnd 0 + b c.mcopy.isSome 1 + b (c.hnd && !c.msaved) 2 + b c.frozenReplay 3
  let clip (t : BitVec 2) : List Byte := le8 (c.mat.clip t)
  [(0, [0x46, 0x4B, 0x43, 0x53] ++ bytesOfNat 2 2 ++ bytesOfNat 2 flags ++ bytesOfNat 8 c.tau ++ bytesOfNat 4 c.pos
      ++ bytesOfNat 4 c.rdvseq.toNat ++ bytesOfNat 2 c.pstack.length),
   (0x100, c.s.toList.flatMap le8),
   (0x200, c.a.toList.flatMap fun a => bytesOfNat 16 a.toNat),
   (0x300, bytesOfNat 8 c.taintMask ++ bytesOfNat 8 c.sticky.toNat ++ le8 c.tflags ++ le8 c.tcause ++ bytesOfNat 8 c.tpc.toNat ++ le8 c.tinfo
      ++ bytesOfNat 8 c.thandler.toNat ++ clip 0 ++ clip 1 ++ clip 2 ++ clip 3 ++ le8 c.cycle ++ bytesOfNat 8 c.burstcnt.toNat),
   (0x400, c.pstack.reverse.flatMap fun e => bytesOfNat 128 e.m.toNat ++ [if e.b then 1 else 0] ++ List.replicate 7 0),
   (0x1010, (c.bounds.toList.drop 1).flatMap boundBytes),
   (0x1100, c.shapes.toList.flatMap fun h => bytesOfNat 4 h.dims ++ h.sizes.toList.flatMap (fun n => bytesOfNat 4 n.toNat) ++ List.replicate 24 0),
   (0x1400, c.tol.toList.flatMap le8),
   (0x15C0, c.mon.bpc.toList.flatMap le8 ++ c.mon.wpa.toList.flatMap (fun a => bytesOfNat 16 a.toNat) ++ c.mon.wpc.toList.flatMap le8),
   (0x2000, (es.take 16).flatMap fun e => engineRecord e (if e.kind ≤ 4 then 0 else c.sreg e.tok)),
   (0x4000, c.v.toList.flatMap fun v => laneBytes v.toList),
   (0x2C000, (List.range 4).flatMap fun g => sliceOf (laneBytes (if h : g < 4 then c.streams[g] else [])) 0 2048),
   (0x30000, memRun c.lanes 0 262144)]
  ++ devicePieces c 0 ctxSpans
  ++ (matImage c 0x70000).map (fun p => (0x70000 + p.1, p.2))
  ++ (match c.mcopy with | some m => (matImage { c with mat := m } 0x160000).map (fun p => (0x160000 + p.1, p.2)) | none => [])

/-- Write a context save area (R379): zeros, then its pieces. -/
def Device.writeCtx (v : Device) (ctx : BitVec 12) (base : Addr) (c : Core) (es : List EngineOp) : Device :=
  v.writePieces ctx base ((0, List.replicate 0x250000 0) :: ctxPieces c es)

/-- The copies outstanding as engine records give them (R381): the operations are those of the device state. -/
def readEngines (rs : List (List Byte)) (xs : List Outstanding) : List Outstanding :=
  let rs := rs.filter fun r => 1 ≤ fieldAt r 0 1 && fieldAt r 0 1 ≤ 4
  let one (x : Outstanding × Nat) : Outstanding :=
    match x.1, rs[x.2]? with
    | .engine e, some r =>
      let ctr := fieldAt r 2 1
      .engine { e with kind := fieldAt r 0 1, tok := BitVec.ofNat 5 (fieldAt r 1 1), desc := sliceOf r 0x100 256, cursor := fieldAt r 8 8
                       ctr := if bitOf ctr 3 then some (BitVec.ofNat 3 ctr) else none }
    | y, _ => y
  (xs.zip (List.range xs.length)).map one

/-- The task state that a context save area holds (R373, R379): `cands` are the states that the device keeps for its saves, one of
which the device bytes name (log 22). -/
def Device.readCtx (v : Device) (ctx : BitVec 12) (base : Addr) (cands : List Core) : Core :=
  let kept := deviceOf (v.spanBytes ctx base 0 ctxSpans) 0 ctxSpans cands
  let bytes (off n : Nat) : List Byte := v.areaBytes ctx base off n
  let w (off : Nat) : Word := BitVec.ofNat 64 (leNat (bytes off 8))
  let flags := leNat (bytes 0x06 2)
  let taint := leNat (bytes 0x300 8)
  let tnt (k : Nat) (old : Option Taint) : Option Taint := if bitOf taint k then some (old.getD { scope := 5, rels := [] }) else none
  let depth := leNat (bytes 0x18 2)
  let entry (i : Nat) : PredEntry :=
    { m := BitVec.ofNat 1024 (leNat (bytes (0x400 + 136 * i) 128)), b := bitOf (leNat (bytes (0x480 + 136 * i) 1)) 0,
      due := ((kept.pstack.reverse[i]?).map PredEntry.due).getD 0 }
  let lane := lanesOfBytes (bytes 0x4000 131072)
  let word := lanesOfBytes (bytes 0x2C000 8192)
  let bank (k : Nat) (old : Bank) : Bank :=
    let va := leNat (bytes (0x70008 + 16 * k) 10)
    { old with va := if va = 2 ^ 80 - 1 then none else some (BitVec.ofNat 80 va) }
  let mat := v.matFrom ctx base 0x70000 (cands.map Core.mat)
  { kept with
    tau := leNat (bytes 0x08 8), pos := leNat (bytes 0x10 4)
    s := Vector.ofFn fun i => w (0x100 + 8 * i.val)
    a := Vector.ofFn fun i => BitVec.ofNat 80 (leNat (bytes (0x200 + 16 * i.val) 10))
    staint := Vector.ofFn fun i => tnt i.val kept.staint[i.val]
    ataint := Vector.ofFn fun i => tnt (32 + i.val) kept.ataint[i.val]
    sticky := (w 0x308).setWidth 11, tflags := w 0x310, tcause := w 0x318, tpc := (w 0x320).setWidth 32, tinfo := w 0x328
    thandler := (w 0x330).setWidth 32, cycle := w 0x358, burstcnt := (w 0x360).setWidth 32
    rdvseq := BitVec.ofNat 32 (leNat (bytes 0x14 4))
    pstack := ((List.range depth).map entry).reverse
    bounds := Vector.ofFn fun i =>
      if i.val = 0 then kept.bounds[0]
      else
        { lo := BitVec.ofNat 32 (leNat (bytes (0x1000 + 16 * i.val) 4)), hi := BitVec.ofNat 32 (leNat (bytes (0x1004 + 16 * i.val) 4)),
          fmt := BitVec.ofNat 5 (leNat (bytes (0x1008 + 16 * i.val) 1)), act := BitVec.ofNat 2 (leNat (bytes (0x1009 + 16 * i.val) 1)) }
    shapes := Vector.ofFn fun i =>
      { dims := leNat (bytes (0x1100 + 48 * i.val) 4), sizes := Vector.ofFn fun k => BitVec.ofNat 32 (leNat (bytes (0x1104 + 48 * i.val + 4 * k.val) 4)) }
    tol := Vector.ofFn fun i => w (0x1400 + 8 * i.val)
    v := Vector.ofFn fun i => Vector.ofFn fun l => lane (1024 * i.val + l.val)
    streams := Vector.ofFn fun g => (List.range kept.streams[g].length).map fun k => word (512 * g.val + k)
    lanes := cellsOf 0 (bytes 0x30000 262144)
    outst := readEngines ((List.range 16).map fun j => bytes (0x2000 + 512 * j) 512) kept.outst
    mat := (List.range 4).foldl (fun m t => m.setClip (BitVec.ofNat 2 t) (w (0x338 + 8 * t))) mat
    live := bitOf (leNat (bytes 0x70000 1)) 0
    banks := Vector.ofFn fun k => bank k.val kept.banks[k]
    msaved := bitOf flags 0 && !bitOf flags 2
    mdue := kept.mdue
    mcopy := if bitOf flags 1 then some (v.matFrom ctx base 0x160000 (cands.filterMap Core.mcopy)) else none
    mon := { kept.mon with
      bpc := Vector.ofFn fun i => w (0x15C0 + 8 * i.val)
      wpa := Vector.ofFn fun i => BitVec.ofNat 80 (leNat (bytes (0x1600 + 16 * i.val) 10))
      wpc := Vector.ofFn fun i => w (0x1640 + 8 * i.val) } }

/-- The engine operations outstanding on a core. -/
def Core.engines (c : Core) : List EngineOp := c.outst.filterMap fun x => match x with | .engine e => some e | _ => none

/-- The focused core's task may be checkpointed (R36, R369, R382, R405): it is not under the monitor, the pool holds a
free area, and the resident area and the spill area are usable. -/
def State.canCheckpoint (s : State) : Bool :=
  match s.core.task with
  | none => false
  | some t =>
    !s.core.mon.mode && !(s.dev.part t.part).freeAreas.isEmpty && s.dev.areaUsable (s.dev.part t.part).ctx s.core.mon.csave && s.spillOk

/-- The state of a task as a checkpoint keeps it (R27, R107, R382): whole, its scratchpad within the footprint. A
pending TILECK outside the handler is raised again. -/
def Core.saved (c : Core) (foot : Nat) : Core :=
  { c with spad := memBelow c.spad foot, reraise := c.mat.pend && !c.hnd, served := false, preempt := none }

/-- A task that is to be saved takes a free area from the pool, which its core will have in the place of the one it leaves (R405). -/
def Device.takeArea (v : Device) (p slot : Nat) : Device :=
  match (v.part p).freeAreas with
  | [] => v
  | a :: rest => (v.updSlot p slot fun x => { x with area := some a }).updPart p fun q => { q with freeAreas := rest }

/-- The area that a task had taken goes back to the pool (R405). -/
def Device.giveArea (v : Device) (p slot : Nat) : Device :=
  match (v.slotOf p slot).bind TaskSlot.area with
  | none => v
  | some a => (v.updSlot p slot fun x => { x with area := none }).updPart p fun q => { q with freeAreas := q.freeAreas ++ [a] }

/-- The core gives its resident area to a saved task and has the area that was taken for it from then on (R405). -/
def State.handArea (s : State) (p slot : Nat) : State :=
  let old := s.core.mon.csave
  let new := ((s.dev.slotOf p slot).bind TaskSlot.area).getD old
  let s := s.updDev fun v => v.updSlot p slot fun x => { x with area := some old }
  s.upd fun c => { c with mon := { c.mon with csave := new } }

/-- The focused core can stop its task now, its open segment committed and the operations that complete first complete (R329, R382);
none where one of them cannot complete yet. -/
def State.stopped (s : State) : Option State :=
  let s := (s.commitSeg).settleOps s.core.outst.length
  if s.core.outst.any (fun x => !x.isCopy) then none else some s

/-- Checkpoint pre-emption of the focused core's task (R382): `why` is 5, or 6 for gang-wait pre-emption. Where an operation
that must complete first cannot yet, the pre-emption waits for it, and the task issues nothing more. -/
def State.checkpoint (s : State) (why : Nat) : State :=
  match s.core.task with
  | none => s
  | some t =>
    if !s.canCheckpoint then s
    else
      let s0 := s.stopCopies
      let es := s0.core.engines
      match s0.stopped with
      | none => s.upd fun c => { c with preempt := some (2, 0, why) }
      | some s =>
        if s.core.mon.mode || s.core.task.isNone then s
        else
        let s := (s.updDev fun v => v.takeArea t.part t.slot).landAll.upd Core.chargeNow
        let kept := s.core.saved t.foot
        let ctx := (s.dev.part t.part).ctx
        let base := s.core.mon.csave
        let last := match s.focus with | .core p => some p | .qp _ _ => none
        let s := s.updDev fun v =>
          (v.writeCtx ctx base kept es).updSlot t.part t.slot fun x =>
            { x with st := 5, why := why, cpos := kept.pos, ckpt := true, foot := false, evt := kept.evt, kept := some kept, lastCore := last }
        ((s.updDev fun v => (v.readied t.part t.slot).writeRecord t.part t.slot).handArea t.part t.slot).vacate

/-- Reload the banks of a task on the focused core (R28): none when an image no longer passes. -/
def State.reloadBanks (s : State) : Option State :=
  let one (k : Nat) (s : State) : Option State :=
    match (s.core.bank k).va with
    | none => some (s.upd fun c => { c with banks := c.banks.set (k % 2) Bank.reset (Nat.mod_lt _ (by decide)) })
    | some a =>
      match s.wloadCheck [] a with
      | .error _ => none
      | .ok img => some ((s.saw [] 4096 img.2).upd fun c => { c with banks := c.banks.set (k % 2) (bankOf a img.1) (Nat.mod_lt _ (by decide)) })
  (one 0 s).bind (one 1)

/-- CTXSV (R373, R405): the frozen task's state goes to the area at CSAVE, its copies stop, and an area is taken from the pool for
the core. -/
def execCtxsv (o : SR) (s : State) : Host.Outcome State Fault Refusal :=
  s.ifAllowed (.ctxsv o) fun s =>
    let m := s.core.mon
    match s.core.task with
    | none => s.trapOp ILLOP (.ctxsv o)
    | some t =>
      if !m.tvalid || m.saved then s.trapOp ILLOP (.ctxsv o)
      else if s.core.outst.any (fun x => !x.isCopy) then s.wait
      else if (s.dev.part t.part).freeAreas.isEmpty || !s.dev.areaUsable (s.dev.part t.part).ctx m.csave then s.wS 1 o.d 1
      else
        let s := s.stopCopies
        let kept := s.core.mret.saved t.foot
        let s := s.updDev fun v =>
          ((v.takeArea t.part t.slot).writeCtx (v.part t.part).ctx m.csave kept kept.engines).updSlot t.part t.slot fun x => { x with kept := some kept }
        (s.upd fun c => { c with outst := [], mon := { c.mon with saved := true } }).wS 1 o.d 0

/-- A task's state comes back under the monitor (R373): its registers, and its frozen entry state; the monitor's own
position, results and mode stay, and what belongs to the unit and to its view of memory. -/
def Core.underMonitor (c t : Core) : Core :=
  { t with
    task := c.task, code := c.code
    mon := { c.mon with saved := false, bpc := t.mon.bpc, wpa := t.mon.wpa, wpc := t.mon.wpc }, monSave := some t.saveEntry
    wall := c.wall, tau := c.tau, pos := c.pos, sig := c.sig, pstack := c.pstack, results := c.results, replay := none,
    fmt := { t.fmt with pend := [] }, arrays := c.arrays, window := c.window, burstBeats := c.burstBeats, burstPaid := c.burstPaid, digital := c.digital, burstHeld := c.burstHeld, waitFrom := none, barFrom := none, busyA := c.busyA, busyV0 := c.busyV0,
    busyV1 := c.busyV1, seqPos := c.seqPos, curPop := c.curPop, curPushes := c.curPushes, flagsNow := c.flagsNow, spad := c.spad, boundDue := c.boundDue,
    dirty := c.dirty, view := c.view, part := c.part, raced := c.raced, phase := c.phase, bufs := c.bufs, l1 := c.l1, tlb := c.tlb, imem := c.imem,
    landing := c.landing, draining := c.draining, preempt := c.preempt, evt := c.evt }

/-- CTXLD (R28, R373): the copies are issued again (R381), and the area that was taken goes back to the pool. -/
def execCtxld (o : SR) (s : State) : Host.Outcome State Fault Refusal :=
  s.ifAllowed (.ctxld o) fun s =>
    let m := s.core.mon
    match s.core.task with
    | none => s.trapOp ILLOP (.ctxld o)
    | some t =>
      if !m.tvalid || !m.saved then s.trapOp ILLOP (.ctxld o)
      else if !s.dev.areaUsable (s.dev.part t.part).ctx m.csave then s.wS 1 o.d 1
      else
        let own := s.core.outst
        let loaded := s.dev.readCtx (s.dev.part t.part).ctx m.csave ((s.dev.slotOf t.part t.slot).bind TaskSlot.kept).toList
        match (s.upd fun c => c.underMonitor loaded).reloadBanks with
        | none => s.wS 1 o.d 2
        | some s =>
          let s := s.reissue.upd fun c => { c with outst := c.outst ++ own }
          (s.updDev fun v => (v.giveArea t.part t.slot).updSlot t.part t.slot fun x => { x with kept := none }).wS 1 o.d 0

/-- Stop the task of a unit as a kill does, without restart (R382, R407): its copies stop, the other operations complete, an open
segment commits, its stores are published, its tokens are dropped, and the core is idle. An operation that cannot complete without
another party goes with its task (DESIGN CHOICE, log 109). -/
def State.stopTask (s : State) : State :=
  match s.core.task with
  | none => s
  | some t =>
    let s := (s.stopCopies).commitSeg
    let s := s.settleOps s.core.outst.length
    let s := s.upd Core.endCharge
    ((s.publishAll).updDev fun v => v.chargeBurst t s.core.burstcnt.toNat).upd fun c => { c.vacate with stopped := c.stopped }

/-- A partition is fenced (R407, R446): every task stops, every live launch ends with status 0x07. -/
def State.fence (s : State) (p grade cause : Nat) : State :=
  if (s.dev.part p).state = 0 then s
  else
    let s := (s.unitsOf p).foldl (fun s u => s.onUnit u State.stopTask) s
    let v := s.dev.updPart p fun q => { q with fenceGrade := grade, ready := [], spawnedLive := 0, worst := Nat.max q.worst grade }
    let v := v.log (v.homeDome p) 0x0022 grade 4 0 (BitVec.ofNat 64 p) (BitVec.ofNat 64 cause) 0xFFFF p
    let v := v.setPartState p 4
    let v := v.slots.foldl (fun (v : Device) t => match t.kept with
      | some c => if t.part == p then v.chargeBurst t.info c.burstcnt.toNat else v
      | none => v) v
    let areas := v.slots.filterMap fun t => if t.part == p then t.area else none
    let v := { v with slots := v.slots.filter fun t => !(t.part == p), gangs := v.gangs.filter fun g => !(g.part == p) }
    let v := { v with queues := v.queues.map fun (q : HwQueue) => if q.part == p then ({ q with waiters := [] } : HwQueue) else q }
    let v := v.updPart p fun q => { q with freeAreas := q.freeAreas ++ areas }
    let v := v.updDome (v.homeDome p) fun d =>
      { d with held := d.held.filter fun h => match h with | .completion q _ _ => q != p | .trigger q _ => q != p }
    let v := { v.leaveColl p (fun _ => true) with combines := v.combines.map fun (b : Combine) => b.disown p fun _ => true, reserved := v.reserved.filter fun r => r.part != p }
    { s with dev := v.endFenced p }

/-- The fence that a takeover makes due (R408), with grade C. -/
def State.fenceDomes (s : State) : State :=
  (List.range 4).foldl (fun s d =>
    if (s.dev.dome d).fenceDue then
      (s.dev.servedBy d).foldl (fun s p => s.fence p 3 0x0020) (s.updDev fun v => v.updDome d fun x => { x with fenceDue := false })
    else s) s

end Sys2Proof.Machine
end

