-- ==== Sys2Proof/Machine/Privileged.lean ====
section
/-! DEFINITION. Privileged instructions of the S slot (R371 to R373): return from the monitor, invalidation of
translations, stopping a core; the journal, the kick bitmaps and the completion hold of a queue processor (R386, R408
to R410). -/

namespace Sys2Proof.Machine

/-- MRET (R373): the task goes on at MTPC. -/
def execMret (o : SR) (s : State) : Host.Outcome State Fault Refusal :=
  s.ifAllowed (.mret o) fun s =>
    let m := s.core.mon
    if !m.tvalid || m.saved then s.trapOp ILLOP (.mret o)
    else (s.slotState 1).upd Core.mret

/-- MRET.requeue (R373, R405): the saved task becomes ready with its area, at MTPC; the core becomes idle. -/
def execMretRequeue (o : SR) (s : State) : Host.Outcome State Fault Refusal :=
  s.ifAllowed (.mretRequeue o) fun s =>
    let m := s.core.mon
    match s.core.task with
    | none => s.trapOp ILLOP (.mretRequeue o)
    | some t =>
      if !m.tvalid || !m.saved then s.trapOp ILLOP (.mretRequeue o)
      else if !s.core.outst.isEmpty then s.wait
      else
        let s := s.commitSeg.landAll
        let c := s.core
        let last := match s.focus with | .core p => some p | .qp _ _ => none
        let f (k : Core) : Core := { k with pos := m.mtpc.toNat, spad := memBelow c.spad t.foot, dirty := c.dirty, view := c.view, part := c.part, raced := c.raced, phase := c.phase, bufs := c.bufs, evt := c.evt }
        let s := s.updDev fun v =>
          ((v.updSlot t.part t.slot fun x =>
            { x with st := 5, why := 5, cpos := m.mtpc.toNat, ckpt := true, foot := false, evt := c.evt, kept := x.kept.map f, lastCore := last }).readied t.part t.slot).writeRecord t.part t.slot
        (s.handArea t.part t.slot).vacate

/-- MRET.end (R373): the frozen task ends, and its launch fails with MCAUSE; or monitor duty ends, its stores published as at the
end of a task (log 29). -/
def execMretEnd (o : SR) (s : State) : Host.Outcome State Fault Refusal :=
  s.ifAllowed (.mretEnd o) fun s =>
    match s.core.task, s.core.mon.tvalid with
    | some t, true =>
      if !s.core.outst.isEmpty then s.wait
      else
        let s := (s.commitSeg.upd Core.settle).release 5
        let kept := s.core.mret
        let s := s.updDev fun v =>
          ((v.updSlot t.part t.slot fun x => { x with st := 6, why := 0, cpos := kept.pos, kept := some kept }).writeRecord t.part t.slot).failLaunch
            t.part t.lid (s.core.mon.mcause.toNat % 256)
        s.endTask
    | _, _ => if !s.core.outst.isEmpty then s.wait else ((s.commitSeg.upd Core.settle).release 5).vacate

/-- XLINV over a scope (R373, R422), once no access in flight uses a translation that it drops. -/
def State.xlinvOver (s : State) (x : XlScope) : State := if s.xlinvWaits x then s.wait else s.xlinv x

/-- XLINV.page (R373, R422). -/
def execXlinvPage (o : SR) (s : State) : Host.Outcome State Fault Refusal :=
  s.ifAllowed (.xlinvPage o) fun s => s.xlinvOver (s.dev.xlPage s.ctx (s.core.areg5 o.a))

/-- XLINV.ctx (R373, R422). -/
def execXlinvCtx (o : SR) (s : State) : Host.Outcome State Fault Refusal :=
  s.ifAllowed (.xlinvCtx o) fun s => s.xlinvOver (.context s.ctx)

/-- XLINV.part (R373, R422). -/
def execXlinvPart (o : SR) (s : State) : Host.Outcome State Fault Refusal :=
  s.ifAllowed (.xlinvPart o) fun s => s.xlinvOver (.part s.partition)

/-- CORESTOP (R373): the core leaves dispatch. -/
def execCorestop (o : SR) (s : State) : Host.Outcome State Fault Refusal :=
  s.ifAllowed (.corestop o) fun s =>
    if s.core.mon.tvalid then s.trapOp ILLOP (.corestop o)
    else
      let p := match s.focus with | .core p => p | .qp _ k => k
      (s.commitSeg.logEvent 0x0013 2 (BitVec.ofNat 64 p) 0).coreStop

/-- JRNL (R373, R410): the record joins the dome's journal ring, durable and published at SYSTEM scope. -/
def execJrnl (o : SR) (s : State) : Host.Outcome State Fault Refusal :=
  s.ifAllowed (.jrnl o) fun s =>
    let d := s.focus.dome
    let n := (s.dev.dome d).qjseq
    let va := (s.dev.dome d).qjbase + BitVec.ofNat 80 (16 * (n % 262144))
    let ctx := s.ctx
    let bs := bytesOfNat 8 (s.core.sreg o.a).toNat ++ bytesOfNat 8 (s.core.sreg o.b).toNat
    (s.updDev fun v => (v.writeVa ctx va bs).updDome d fun x => { x with qjseq := n + 1 }).wS 1 o.d (BitVec.ofNat 64 n)

/-- The lowest set bit at or above `b`, wrapping to 0 (R373). -/
def kickFrom (w : BitVec 256) (b : Nat) : Option Nat := ((List.range 256).map fun k => (b + k) % 256).find? fun k => w.getLsbD k

/-- KICKSCAN (R373, R386): the lowest kick at or above a position is returned and cleared; 256 when there is none.
The bits between b and 255 come before those below b. -/
def execKickscan (o : SR) (s : State) : Host.Outcome State Fault Refusal :=
  s.ifAllowed (.kickscan o) fun s =>
    let x := (s.core.sreg o.a).toNat
    let p := x % 8
    match kickFrom (s.dev.part p).kicks (x / 2 ^ 8 % 2 ^ 8) with
    | none => s.wS 1 o.d 256
    | some k => (s.updDev fun v => v.updPart p fun q => { q with kicks := q.kicks &&& ~~~BitVec.ofNat 256 (2 ^ k) }).wS 1 o.d (BitVec.ofNat 64 k)

/-- CMPLHOLD.hold (R373, R409). -/
def execCmplholdHold (o : SR) (s : State) : Host.Outcome State Fault Refusal :=
  s.ifAllowed (.cmplholdHold o) fun s => s.updDev fun v => v.updDome s.focus.dome fun x => { x with hold := true }

/-- End a dome's hold (R409): the held signals fire in arrival order. -/
def Device.releaseHold (v : Device) (d : Nat) : Device :=
  let held := (v.dome d).held
  held.foldl Device.fire (v.updDome d fun x => { x with hold := false, held := [] })

/-- CMPLHOLD.release (R373, R409): with no hold in force it has no effect. -/
def execCmplholdRelease (o : SR) (s : State) : Host.Outcome State Fault Refusal :=
  s.ifAllowed (.cmplholdRelease o) fun s => if (s.dev.dome s.focus.dome).hold then s.updDev fun v => v.releaseHold s.focus.dome else s

end Sys2Proof.Machine
end

