-- ==== Sys2Proof/Machine/Placement.lean ====
section
/-! DEFINITION. What the dispatcher chooses and where (R20, R37, R38, R43, R44, R47, R53, R56, R404 to R406); kernel
objects (R181 to R185). -/

namespace Sys2Proof.Machine

/-- What a launch takes from its kernel object (R181 to R184): code, entry, handler position, META. -/
structure KernelObj where
  code    : CodeSrc
  entry   : Nat
  handlerPos : BitVec 32
  metas   : List Byte

/-- The sections of an FKO object: tag, revision, offset and size (R181). Of more entries than R181 allows the first 16 are read (DESIGN
CHOICE, log 110). -/
def Device.fkoSections (v : Device) (ctx : BitVec 12) (va : Addr) : List (Nat × Nat × Nat × Nat) :=
  let h := v.readVa ctx va 32
  if fieldAt h 0 4 ≠ 0x424F4B46 then []
  else
    (List.range (Nat.min (fieldAt h 6 2) 16)).map fun k =>
      let e := v.readVa ctx (va + BitVec.ofNat 80 (0x20 + 32 * k)) 32
      (fieldAt e 0 4, fieldAt e 4 2, fieldAt e 8 8, fieldAt e 0x10 8)

/-- The object at a VA, when it has a NATV section of revision 2 (R185): the revision that counts is the section entry's, and the
NATV header's own is not read (DEDUCED, log 56). Of two NATV sections of revision 2, and of two META sections, the first in the section
table counts (DESIGN CHOICE, log 110). -/
def Device.kernelOf (v : Device) (ctx : BitVec 12) (va : Addr) : Option KernelObj :=
  let ss := v.fkoSections ctx va
  match ss.find? fun x => x.1 == 0x5654414E && x.2.1 == 2 with
  | none => none
  | some (_, _, off, _) =>
    let nat := va + BitVec.ofNat 80 off
    let h := v.readVa ctx nat 64
    let metas := match ss.find? fun x => x.1 == 0x4154454D with
      | some (_, _, o, n) => v.readVa ctx (va + BitVec.ofNat 80 o) n
      | none => []
    some { code := codeOf nat h, entry := fieldAt h 0x1C 4, handlerPos := BitVec.ofNat 32 (fieldAt h 0x2C 4), metas := metas }

/-- The initial FMT of META, and its SHCHK flag (R184); of two entries of one of these types the first counts (DESIGN CHOICE,
log 57). An initial FMT that FMTW would refuse is loaded as it stands (DESIGN CHOICE, log 27). -/
def metaFmt (m : List Byte) : Word :=
  match (metaEntries m).find? fun e => e.1 == 6 with
  | some e => BitVec.ofNat 64 (fieldAt e.2 0 8)
  | none => fmtReset
def metaShchk (m : List Byte) : Bool :=
  match (metaEntries m).find? fun e => e.1 == 8 with
  | some e => bitOf (fieldAt e.2 0 4) 1
  | none => false

/-- The gangs that a launch creates (R43, R47). -/
def Device.gangsOf (v : Device) (p : Nat) (r : List Byte) : Nat :=
  if recPers r then (v.clustersOf p).length else recGx r * recGy r * recGz r

/-- What a launch gives task `c` of its gang `lin` (R43, R47, R184, R388): `base` is the dome-scratchpad base. SHCHK starts set
where the record or META sets it (DESIGN CHOICE, log 57). -/
def Device.taskInfo (v : Device) (p : Nat) (r : List Byte) (k : KernelObj) (lin c slot gang base : Nat) : TaskInfo :=
  let pers := recPers r
  let gx := recGx r
  let gy := recGy r
  let b (n : Nat) : BitVec 32 := BitVec.ofNat 32 n
  { part := p, slot := slot, lid := recLid r, gang := gang, index := BitVec.ofNat 64 (recGang r * lin + c)
    gx := if pers then b lin else b (lin % gx), gy := if pers then 0 else b (lin / gx % gy), gz := if pers then 0 else b (lin / (gx * gy))
    cidx := BitVec.ofNat 7 c, gsize := BitVec.ofNat 8 (recGang r)
    cx := if pers then b (v.clustersOf p).length else b gx, cy := if pers then 1 else b gy, cz := if pers then 1 else b (recGz r)
    param := recParam r, seed := recSeed r, mer := recMer r, pers := pers, spawned := false, trapRej := recTrapRej r, code := k.code
    spill := (v.part p).spillPool + BitVec.ofNat 80 (slot * (v.part p).spillStride), foot := recFoot r, domeBytes := recDomeBytes r
    domeBase := base, barriers := recBarriers r, metas := k.metas, entryFmt := metaFmt k.metas, shchk := recShchk r || metaShchk k.metas
    entry := k.entry, args := [], handlerPos := k.handlerPos, route := recRoute r, htab := recHtab r }

/-- A core is free to take a task (R44, R370, R373, R382, R461). -/
def State.coreIdle (s : State) (p : Nat) : Bool :=
  let c := s.getCore (.core p)
  let k := s.dev.cluster (p / 128)
  c.task.isNone && !c.stopped && !c.draining && !c.mon.mode && !k.offline.getLsbD (p % 128) && k.rate != 2

/-- The idle cores of a cluster, ascending. -/
def State.idleIn (s : State) (k : Nat) : List Nat := ((List.range 128).map fun i => 128 * k + i).filter s.coreIdle

/-- The barrier objects of a cluster that are free (R44). -/
def Device.freeBarriers (v : Device) (k : Nat) : Nat :=
  64 - v.gangs.foldl (fun n g => if g.cluster = k then n + g.bars.length else n) 0

/-- The free slots of a partition's task table, ascending (R404). -/
def Device.freeSlots (v : Device) (p : Nat) : List Nat :=
  (List.range (v.part p).tableSize).filter fun i => (v.slotOf p i).isNone

/-- Room for `n` bytes in a partition's share of a dome (R20, R21): the lowest base that overlaps nothing. -/
def Device.domeRoom (v : Device) (p d n : Nat) : Option Nat :=
  let lo := v.shareBase p d
  let hi := lo + (v.part p).shares.getD d 0
  let taken := v.takenIn d
  let fits (b : Nat) : Bool := lo ≤ b && b + n ≤ hi && !(taken.any fun r => overlaps b n r.1 r.2)
  ((lo :: taken.map fun r => r.1 + r.2).filter fits).foldl (fun o b => match o with | none => some b | some x => some (Nat.min x b)) none

/-- The domes of a partition. -/
def Device.domesOf (v : Device) (p : Nat) : List Nat := (List.range 4).filter fun d => (v.clustersOf p).any fun k => k / 2 == d

/-- The clusters that a launch may use, each with the dome-scratchpad allocation that a start there takes (R20). -/
def Device.launchClusters (v : Device) (p : Nat) (e : SchedEntry) : List (Nat × Option (Nat × Nat)) :=
  let ks := v.clustersOf p
  let n := recDomeBytes e.record
  if n = 0 then ks.map fun k => (k, none)
  else
    match e.dome with
    | some a => (ks.filter fun k => k / 2 == a.1).map fun k => (k, some a)
    | none => ks.filterMap fun k => (v.domeRoom p (k / 2) n).map fun b => (k, some (k / 2, b))

/-- The cluster with the most idle cores among those listed, ties to the lowest number (R406). -/
def State.mostIdle {α : Type} (s : State) : List (Nat × α) → Option (Nat × α)
  | [] => none
  | x :: xs =>
    match s.mostIdle xs with
    | none => some x
    | some y => if (s.idleIn x.1).length ≥ (s.idleIn y.1).length then some x else some y

/-- The Meridian draw of a gang (R56): cluster and the cores of its tasks by CIDX. A launch with dome scratchpad keeps to
one dome, the lowest where it fits. -/
def State.meridianGang (s : State) (p : Nat) (e : SchedEntry) : Option (Nat × List Nat × Option (Nat × Nat)) :=
  let r := e.record
  let h := mhash (recSeed r).toNat e.started 0
  let all := s.dev.launchClusters p e
  let ks : List (Nat × Option (Nat × Nat)) := match all with
    | (k, some _) :: _ => all.filter fun x => x.1 / 2 == k / 2
    | _ => all
  let drawn : Option (Nat × Option (Nat × Nat)) :=
    if recPers r then ((s.dev.clustersOf p)[e.started]?).bind fun k => all.find? fun x => x.1 == k
    else ks[h % (Nat.max 1 ks.length)]?
  drawn.map fun k => (k.1, (List.range (recGang r)).map fun c => 128 * k.1 + (h / 2 ^ 32 % 128 + c) % 128, k.2)

/-- Work became ready before other work (R406): the age, then the order in which work of equal age became ready. -/
def olderThan (a b : Nat × Nat) : Bool := a.1 < b.1 || (a.1 == b.1 && a.2 < b.2)

/-- The class and the age of reserved work; none where it is no longer there. -/
def Device.reserver (v : Device) (x : Reserve) : Option (Nat × Nat × Nat) :=
  match v.entryOf x.part x.lid with
  | none => none
  | some e =>
    match x.slot with
    | none => some (recClass e.record, e.age, e.turn)
    | some i => (v.slotOf x.part i).map fun t => (recClass e.record, t.age, t.turn)

/-- A cluster is reserved against work of a class and an age (R53, R406): older work of its class has passed the aging limit and
chosen it. -/
def Device.reservedFrom (v : Device) (p cls : Nat) (age : Nat × Nat) (k : Nat) : Bool :=
  v.reserved.any fun x => x.part == p && x.cluster == k &&
    (match v.reserver x with | some (c, a) => c == cls && olderThan a age | none => false)

/-- The clusters that a new gang may take, and those that a task may, are not reserved from it. -/
def Device.gangBarred (v : Device) (p : Nat) (e : SchedEntry) (k : Nat) : Bool := v.reservedFrom p (recClass e.record) (e.age, e.turn) k
def Device.taskBarred (v : Device) (t : TaskSlot) (k : Nat) : Bool :=
  match v.entryOf t.part t.info.lid with
  | some e => v.reservedFrom t.part (recClass e.record) (t.age, t.turn) k
  | none => false

/-- A cluster can take a gang of G tasks (R44). -/
def State.takesGang (s : State) (p : Nat) (e : SchedEntry) (k : Nat) : Bool :=
  recGang e.record ≤ (s.idleIn k).length && recBarriers e.record ≤ s.dev.freeBarriers k && !s.dev.gangBarred p e k

/-- Where the next gang of a submitted launch starts (R44, R47, R56, R406): cluster, cores by CIDX, dome allocation;
none without room. A persistent launch with dome scratchpad on a partition of several domes counts a gang for each cluster, and those
of the clusters outside its dome get no place (DESIGN CHOICE, log 111). -/
def State.gangPlace (s : State) (p : Nat) (e : SchedEntry) : Option (Nat × List Nat × Option (Nat × Nat)) :=
  let r := e.record
  let g := recGang r
  if e.started ≥ e.gangs ∨ (s.dev.freeSlots p).length < g then none
  else if recMer r then
    (s.meridianGang p e).filter fun x =>
      x.2.1.all s.coreIdle && recBarriers r ≤ s.dev.freeBarriers x.1 && !s.dev.gangBarred p e x.1
  else
    let all := (s.dev.launchClusters p e).filter fun x =>
      s.takesGang p e x.1 && (!recPers r || (s.dev.clustersOf p)[e.started]? == some x.1)
    (s.mostIdle all).map fun x => (x.1, (s.idleIn x.1).take g, x.2)

/-- Ready work (R406): the next gang of a submitted launch, or a task that is READY, SUSPENDED or SAVED. -/
inductive Work where
  | gang (e : SchedEntry)
  | task (t : TaskSlot)

/-- A task is ready and not resident. -/
def TaskSlot.ready (t : TaskSlot) : Bool := (t.st == 0 || t.st == 4 || t.st == 5) && t.kept.isSome

/-- The ready work of a partition. -/
def Device.workOf (v : Device) (p : Nat) : List Work :=
  (v.entries.filter fun e => e.part == p && e.state == 2 && e.started < e.gangs).map Work.gang
    ++ (v.slots.filter fun t => t.part == p && t.ready).map Work.task

/-- The class of work: its launch's (R388). -/
def Device.classOf (v : Device) (p : Nat) : Work → Nat
  | .gang e => recClass e.record
  | .task t => match v.entryOf p t.info.lid with | some e => recClass e.record | none => 0

/-- Another task of the gang is RUNNING (R53). -/
def Device.matesRun (v : Device) : Work → Bool
  | .gang _ => false
  | .task t => !t.info.spawned && v.slots.any fun x => x.part == t.part && x.info.gang == t.info.gang && !x.info.spawned && x.st == 1

/-- When work became ready (R406). -/
def Work.since : Work → Nat × Nat
  | .gang e => (e.age, e.turn)
  | .task t => (t.age, t.turn)

/-- Work `a` goes before work `b` (R53, R406). -/
def Device.goesBefore (v : Device) (p : Nat) (a b : Work) : Bool :=
  let ca := v.classOf p a
  let cb := v.classOf p b
  if ca ≠ cb then ca > cb
  else if v.matesRun a != v.matesRun b then v.matesRun a
  else olderThan a.since b.since

/-- The cluster of a task that is not resident: its gang's; a spawned task's by its last core. -/
def Device.homeCluster (v : Device) (t : TaskSlot) : Option Nat :=
  if t.info.spawned then t.lastCore.map fun p => p / 128
  else (v.gangOf t.info.gang).map Gang.cluster

/-- The cores that other tasks of a gang hold. -/
def State.gangCores (s : State) (t : TaskSlot) : List Nat :=
  s.dev.slots.filterMap fun x =>
    if x.part == t.part && x.info.gang == t.info.gang && !x.info.spawned && x.slot != t.slot then
      (match s.residentOf x.part x.slot with | some (.core p) => some p | _ => none)
    else none

/-- The Meridian core of a task that resumes, or that starts as a spawned one (R56). A task that a kill makes start again is drawn as
for its next resumption, and a spawned one from its first draw (DESIGN CHOICE, log 58). -/
def State.meridianCore (s : State) (t : TaskSlot) : Option Nat :=
  let hash (n : Nat) : Nat := mhash t.info.seed.toNat t.info.index.toNat n
  let allowed := match s.dev.entryOf t.part t.info.lid with
    | some e => (match e.dome with | some a => (s.dev.clustersOf t.part).filter fun k => k / 2 == a.1 | none => s.dev.clustersOf t.part)
    | none => s.dev.clustersOf t.part
  match s.dev.homeCluster t with
  | none => (let h := hash 0; (allowed[h % (Nat.max 1 allowed.length)]?).map fun k => 128 * k + h % 128)
  | some k =>
    let held := if t.info.spawned then [] else s.gangCores t
    ((List.range 128).map fun j => 128 * k + (hash (t.resumes + 1) + j) % 128).find? fun p => !held.contains p

/-- A task may use a cluster (R20). -/
def Device.mayUse (v : Device) (t : TaskSlot) (k : Nat) : Bool :=
  (v.clustersOf t.part).contains k &&
    (t.info.domeBytes == 0 || (match v.entryOf t.part t.info.lid with
      | some e => (match e.dome with | some a => k / 2 == a.1 | none => true)
      | none => true))

/-- A task of a gang may leave its gang's cluster (R38): alone in its gang, or with the whole gang when none of its tasks
is RUNNING. -/
def Device.mayLeave (v : Device) (t : TaskSlot) : Bool :=
  t.info.spawned || t.info.gsize == 1 ||
    !(v.slots.any fun x => x.part == t.part && x.info.gang == t.info.gang && !x.info.spawned && (x.st == 1 || x.st == 7))

/-- The core on which a task that is not resident resumes (R37, R38, R56); none while no choice is available. A cluster that older
work of its class has reserved is none (R53). -/
def State.taskPlace (s : State) (t : TaskSlot) : Option Nat :=
  let open_ (k : Nat) : Bool := !s.dev.taskBarred t k
  if t.info.mer then (s.meridianCore t).filter fun p => s.coreIdle p && open_ (p / 128)
  else
    let same := match t.lastCore with
      | some p => if !t.foot && s.coreIdle p && s.dev.mayUse t (p / 128) && open_ (p / 128) then some p else none
      | none => none
    match same with
    | some p => some p
    | none =>
      let near := match s.dev.homeCluster t with
        | some k => if s.dev.mayUse t k && open_ k then (s.idleIn k).head? else none
        | none => none
      match near with
      | some p => some p
      | none =>
        if !s.dev.mayLeave t then none
        else
          let ks := (s.dev.clustersOf t.part).filter fun k =>
            s.dev.mayUse t k && open_ k && (t.info.spawned || t.info.barriers ≤ s.dev.freeBarriers k)
          ((s.mostIdle (ks.map fun k => (k, ()))).bind fun k => (s.idleIn k.1).head?)

/-- Where work goes. -/
inductive Placed where
  | gang (e : SchedEntry) (cluster : Nat) (cores : List Nat) (dome : Option (Nat × Nat))
  | task (t : TaskSlot) (core : Nat)

/-- Work with the place that it has now, if it has one. -/
def State.placeOf (s : State) (p : Nat) : Work → Option Placed
  | .gang e => (s.gangPlace p e).map fun x => .gang e x.1 x.2.1 x.2.2
  | .task t => (s.taskPlace t).map fun c => .task t c

/-- The first work of a list in the dispatcher's order. -/
def Device.firstWork (v : Device) (p : Nat) : List Work → Option Work
  | [] => none
  | w :: ws =>
    match v.firstWork p ws with
    | none => some w
    | some x => if v.goesBefore p x w then some x else some w

/-- What the dispatcher of a partition starts next (R53, R406): the first of its ready work that has a place. -/
def State.nextStart (s : State) (p : Nat) : Option Placed :=
  (s.dev.firstWork p ((s.dev.workOf p).filter fun w => (s.placeOf p w).isSome)).bind (s.placeOf p)

end Sys2Proof.Machine
end

