-- ==== Sys2Proof/Machine/Dispatcher.lean ====
section
/-! DEFINITION. Starting gangs and tasks (R40 to R47, R407), resumption (R27 to R30, R35, R37, R107), SPAWN (R49, R338),
footprints (R36, R39, R40), pre-emption (R42, R45, R382, R401, R406). -/

namespace Sys2Proof.Machine

/-- A footprint leaves its core (R36, R40): its image goes to the spill area, and the core keeps a forwarding entry. -/
def Device.footOut (v : Device) (t : TaskSlot) : Device :=
  match t.kept with
  | none => v
  | some c =>
    if t.foot then v
    else
      let v := v.writeVa (v.part t.part).ctx (t.info.spill + 0x1000) (memRun c.spad 0 t.info.foot)
      let v := v.updSlot t.part t.slot fun x => { x with foot := true, kept := x.kept.map fun k => { k with spad := [] } }
      let v := v.writeRecord t.part t.slot
      match t.lastCore with
      | some p => v.forward (.core p) t.part t.slot
      | none => v

/-- The footprints that stay on an idle core leave it before it takes another task (R37, R39). -/
def State.clearCore (s : State) (p part slot : Nat) : State :=
  let there := s.dev.slots.filter fun t =>
    t.lastCore == some p && !t.foot && t.kept.isSome && !(t.part == part && t.slot == slot) && (s.residentOf t.part t.slot).isNone
  s.updDev fun v => there.foldl Device.footOut v

/-- A task takes a core (R27, R363, R365). -/
def State.putTask (s : State) (p : Nat) (t : TaskInfo) (c : Core) : State :=
  let s := s.clearCore p t.part t.slot
  let u : Agent := .core p
  let k := (s.getCore u).takeOver c
  s.setCore u { k with mon := { k.mon with mhtab := t.htab } }

/-- The wall time at which the first bundles of a gang start issue (R407), and whether the start is cold. -/
def Device.startTime (v : Device) (p k : Nat) : Nat × Bool :=
  match (v.cluster k).coldPending with
  | x :: _ => (x.2, false)
  | [] =>
    let cold := match (v.cluster k).lastStart with | some t => v.time ≥ t + 9600 | none => true
    if !cold then (v.time, false)
    else
      match v.lastCold.find? fun x => x.1 == p with
      | some (_, t) => (Nat.max v.time (t + 1200), true)
      | none => (v.time, true)

/-- Note a gang start on a cluster (R407): one whose first bundles wait is pending there. -/
def Device.noteStart (v : Device) (p k gang : Nat) : Device :=
  let (t, cold) := v.startTime p k
  let v := v.updCluster k fun x =>
    { x with lastStart := some t, coldPending := if t > v.time then x.coldPending ++ [(gang, t)] else x.coldPending }
  if cold then { v with lastCold := (p, t) :: v.lastCold.filter fun x => x.1 != p } else v

/-- A drawn core is busy (R56). -/
def State.coreBusy (s : State) (p : Nat) : Bool := (s.getCore (.core p)).task.isSome

/-- What Meridian work would wait for (R56), with the cores that it has drawn; none for other work. -/
def State.meridianWait (s : State) (p : Nat) : Work → Option (MerWait × List Nat)
  | .gang e =>
    if recMer e.record then
      (s.meridianGang p e).map fun x =>
        ({ part := p, lid := e.lid, slot := none, index := BitVec.ofNat 64 (e.started * recGang e.record), since := s.dev.time }, x.2.1)
    else none
  | .task t =>
    if t.info.mer then
      (s.meridianCore t).map fun c => ({ part := p, lid := t.info.lid, slot := some t.slot, index := t.info.index, since := s.dev.time }, [c])
    else none

/-- The Meridian work that waits for a busy drawn core now (R56). -/
def State.merNow (s : State) : List MerWait :=
  (List.range 8).flatMap fun p => (s.dev.workOf p).filterMap fun w =>
    match s.meridianWait p w with
    | some (x, cores) => if cores.any s.coreBusy then some x else none
    | none => none

/-- Two notes are of one wait. -/
def MerWait.same (x y : MerWait) : Bool := x.part == y.part && x.lid == y.lid && x.slot == y.slot && x.index == y.index

/-- A wait for a busy drawn core is over: one of more than 2^20 cycles is logged, in the dome that serves the partition, which the
manual leaves open (DESIGN CHOICE, log 58). -/
def Device.merEnd (v : Device) (x : MerWait) : Device :=
  let n := v.time - x.since
  if n > 2 ^ 20 then v.log (v.homeDome x.part) 0x0040 0 1 0 x.index (BitVec.ofNat 64 n) (v.part x.part).ctx.toNat x.part else v

/-- The waits for busy drawn cores are noted from their start, and end (R56). -/
def State.merNote (s : State) : State :=
  let now := s.merNow
  let old := s.dev.merWaits
  if now.isEmpty && old.isEmpty then s
  else
    let keep := old.filter fun x => now.any x.same
    let v := (old.filter fun x => !now.any x.same).foldl Device.merEnd s.dev
    { s with dev := { v with merWaits := keep ++ now.filter fun y => !old.any y.same } }

/-- What follows every step: the fence that a takeover has made due (R408), and the notes of Meridian waits (R56). -/
def State.tidy (s : State) : State := s.fenceDomes.merNote

/-- Work of a launch, or of a slot of it, no longer waits: what it had reserved is forgotten (R53). -/
def Device.started (v : Device) (p lid : Nat) (slot : Option Nat) : Device :=
  { v with reserved := v.reserved.filter fun x => !(x.part == p && x.lid == lid && x.slot == slot) }

/-- A task slot is taken (R404). -/
def Device.addSlot (v : Device) (x : TaskSlot) : Device :=
  { (v.started x.part x.info.lid (some x.slot)) with slots := v.slots ++ [x] }

/-- The slot of a task that has not run yet (R404). -/
def TaskSlot.new (t : TaskInfo) (st : Nat) (kept : Option Core) (last : Option Nat) : TaskSlot :=
  { part := t.part, slot := t.slot, info := t, st := st, why := 0, qnum := 0, dreg := 0, cpos := t.entry, ckpt := false, foot := false, evt := false,
    kept := kept, area := none, deqtQ := none, deqtGot := none, lastCore := last, resumes := 0, age := 0 }

/-- A gang starts (R41, R43, R44): its slots, records and barriers, and each task on its core, where it acquires (R118). The kernel
object is read when each gang starts; without a NATV section of revision 2 by then, no gang starts (DESIGN CHOICE, log 56). -/
def State.startGang (s : State) (p : Nat) (e : SchedEntry) (k : Nat) (cores : List Nat) (dome : Option (Nat × Nat)) : State :=
  match s.dev.kernelOf (s.dev.part p).ctx (recKernel e.record) with
  | none => s
  | some o =>
    let r := e.record
    let gid := s.dev.nextGang
    let slots := (s.dev.freeSlots p).take (recGang r)
    let base := match dome with | some a => a.2 | none => 0
    let g : Gang :=
      { id := gid, part := p, lid := e.lid, index := e.started, cluster := k, slots := slots, ended := [], bars := List.replicate (recBarriers r) (0, []) }
    let s := s.updDev fun v =>
      ({ v.started p e.lid none with nextGang := gid + 1, gangs := v.gangs ++ [g] }.updEntry p e.lid
        fun y => { y with started := y.started + 1, dome := dome }).noteStart p k gid
    ((slots.zip cores).zip (List.range slots.length)).foldl (fun s x =>
      let ((slot, core), c) := x
      let t := s.dev.taskInfo p r o e.started c slot gid base
      let s := s.updDev fun v => ((v.addSlot (TaskSlot.new t 1 none (some core))).readied p slot).writeRecord p slot
      (s.putTask core t (startCore t)).onUnit (.core core) fun s => s.acquire 5) s

/-- GANG_START: the dispatcher of the event's partition starts a gang, when that is what comes next (R44, R406). -/
def execGangStart (s : State) : Host.Outcome State Fault Refusal :=
  .next (match s.nextStart s.ev.part with
    | some (.gang e k cores dome) => s.startGang s.ev.part e k cores dome
    | _ => s)

/-- COLD_START_RELEASE (R407): the starts pending on the event's cluster whose time has come are released. -/
def execColdStartRelease (s : State) : Host.Outcome State Fault Refusal :=
  .next (s.updDev fun v => v.updCluster s.ev.index fun x => { x with coldPending := x.coldPending.filter fun y => y.2 > v.time })

/-- The focused core waits for the stagger of its gang's start (R407). -/
def State.coldHeld (s : State) : Bool :=
  match s.core.task with
  | some t => !t.spawned && (s.dev.cluster s.focus.cluster).coldPending.any fun x => x.1 == t.gang
  | none => false

/-- A task that resumes moves its gang when it leaves its cluster (R38): the members' footprints go to their spill
areas, and the barriers go along. -/
def State.moveGang (s : State) (t : TaskSlot) (k : Nat) : State :=
  if t.info.spawned then s
  else
    match s.dev.gangOf t.info.gang with
    | none => s
    | some g =>
      if g.cluster = k then s
      else
        let mates := s.dev.slots.filter fun x => x.part == t.part && x.info.gang == t.info.gang && !x.info.spawned && x.slot != t.slot && x.kept.isSome
        s.updDev fun v => { mates.foldl Device.footOut v with gangs := v.gangs.map fun y => if y.id == g.id then { y with cluster := k } else y }

/-- The record in memory is the one that the device wrote (R30). -/
def Device.recordIntact (v : Device) (t : TaskSlot) : Bool :=
  v.readVa (v.part t.part).ctx (v.recordVa t.part t.slot) 64 == contRecord t (t.kept.getD Core.reset)

/-- CTXLOST at a resumption (R28 to R30, R368): the task is on the core, under the monitor, at `cpos`. -/
def State.resumeLost (s : State) (t : TaskSlot) : State := (s.upd fun c => { c with pos := t.cpos }).takeTrap CTXLOST 6 0 false

/-- The state with which a task comes back to a core (R27, R35, R36, R373, R382): a saved one from its area, a suspended one with what
its spill area keeps; the event that woke a WFE is consumed. -/
def Device.returning (v : Device) (t : TaskSlot) (kept : Core) : Core :=
  let ctx := (v.part t.part).ctx
  let c := match t.area, t.ckpt with
    | some a, true => v.readCtx ctx a [kept]
    | _, _ => if t.lastCore.isSome then kept.unspill (v.readVa ctx t.info.spill spillKept) else kept
  { c with
    spad := if t.foot then v.footImage t.info else kept.spad, evt := t.evt && (t.ckpt || t.why != 3), pos := t.cpos, task := some t.info
    sig := if t.lastCore.isNone then SigState.target else SigState.start }

/-- The save area of a task is still usable (R379). -/
def Device.areaThere (v : Device) (t : TaskSlot) : Bool :=
  match t.area, t.ckpt with
  | some a, true => v.areaUsable (v.part t.part).ctx a
  | _, _ => true

/-- A task resumes on a core (R35, R37, R41, R107, R382, R405): its saved area becomes the core's, its state and
footprint come back, its banks are loaded again, and its record shows RUNNING. It acquires at SYSTEM scope. -/
def State.resumeTask (s : State) (t : TaskSlot) (p : Nat) : State :=
  match t.kept with
  | none => s
  | some kept =>
    let intact := s.dev.recordIntact t && s.dev.areaThere t
    let s := s.moveGang t (p / 128)
    let s := s.putTask p t.info (s.dev.returning t kept)
    let u : Agent := .core p
    let s := match t.area with
      | none => s
      | some a =>
        let old := (s.getCore u).mon.csave
        let k := s.getCore u
        (s.setCore u { k with mon := { k.mon with csave := a } }).updDev fun v => v.updPart t.part fun q => { q with freeAreas := q.freeAreas ++ [old] }
    let s := s.updDev fun v =>
      let v := match t.lastCore with
        | some l => if l != p && !t.foot then v.forward (.core l) t.part t.slot else v
        | none => v
      (v.started t.part t.info.lid (some t.slot)).updSlot t.part t.slot fun x =>
        { x with st := 1, why := 0, qnum := 0, dreg := 0, ckpt := false, foot := false, evt := false, kept := none, area := none, lastCore := some p,
                 resumes := x.resumes + 1, age := v.time }
    s.onUnit u fun s =>
      let s := (match t.lastCore with | some l => s.acquireAt (.core l) 5 | none => s).acquire 5
      if !intact then s.resumeLost t
      else
        match (if t.ckpt then s.reloadBanks else some s) with
        | none => s.resumeLost t
        | some s => s.reissue.updDev fun v => v.writeRecord t.part t.slot

/-- A spawned task that has not started. -/
def TaskSlot.fresh (t : TaskSlot) : Bool := t.info.spawned && t.lastCore.isNone

/-- TASK_RESUME: the dispatcher of the event's partition resumes a task, when that is what comes next (R37). -/
def execTaskResume (s : State) : Host.Outcome State Fault Refusal :=
  .next (match s.nextStart s.ev.part with
    | some (.task t p) => if t.fresh then s else s.resumeTask t p
    | _ => s)

/-- SPAWNED_TASK_START: the dispatcher of the event's partition starts a spawned task, when that is what comes next
(R41, R49). -/
def execSpawnedTaskStart (s : State) : Host.Outcome State Fault Refusal :=
  .next (match s.nextStart s.ev.part with
    | some (.task t p) => if t.fresh then (s.resumeTask t p).updDev fun v => v.updSlot t.part t.slot fun x => { x with resumes := 0 } else s
    | _ => s)

/-- FOOTPRINT_MOVE: the footprint of the event's task slot, kept on an idle core, has been copied to its spill area, and
the gang map follows (R36, R39, R40). -/
def execFootprintMove (s : State) : Host.Outcome State Fault Refusal :=
  .next (match s.dev.slotOf s.ev.part s.ev.slot with
    | some t => if (s.residentOf t.part t.slot).isNone then s.updDev fun v => v.footOut t else s
    | none => s)

/-- FORWARD_EXPIRE: the forwarding entry that the event names ends once its 65,536 cycles have passed (R40). -/
def execForwardExpire (s : State) : Host.Outcome State Fault Refusal :=
  .next (match s.dev.forwards[s.ev.index]? with
    | some f => if s.dev.time ≥ f.till then s.updDev fun v => { v with forwards := v.forwards.eraseIdx s.ev.index } else s
    | none => s)

/-- SPAWN (R49, R338): a new task of the launch, or 0 when 4,096 spawned tasks live or no slot is free; latency 8. -/
def execSpawn (o : XForm) (s : State) : Host.Outcome State Fault Refusal :=
  s.ifAllowedG (.spawn o) o.g fun s =>
    let pos := (s.core.sreg o.a).toNat
    match s.core.task with
    | none => s.trapOp ILLOP (.spawn o)
    | some t =>
      if pos ≥ 2 ^ 30 then s.trapOp ILLOP (.spawn o)
      else
        let arg (k : Nat) : Word := if o.b = 0 then 0 else s.core.sreg (o.b + BitVec.ofNat 5 k)
        let args := (List.range 4).map arg
        let n := s.core.spawns
        let s := s.commitSeg.upd fun c => { c with spawns := n + 1 }
        if (s.dev.part t.part).spawnedLive ≥ 4096 then s.wS 8 o.d 0
        else
          match s.dev.freeSlots t.part with
          | [] => s.wS 8 o.d 0
          | slot :: _ =>
            let info : TaskInfo :=
              { t with slot := slot, index := BitVec.ofNat 64 (t.index.toNat * 2 ^ 16 + n), cidx := 0, gsize := 1, spawned := true, barriers := 0
                       spill := (s.dev.part t.part).spillPool + BitVec.ofNat 80 (slot * (s.dev.part t.part).spillStride), entry := pos, args := args }
            let s := s.updDev fun v =>
              ((((v.addSlot (TaskSlot.new info 0 (some (startCore info)) none)).updPart t.part fun q => { q with spawnedLive := q.spawnedLive + 1 }).updEntry
                t.part t.lid fun e => { e with tasksLeft := e.tasksLeft + 1 }).readied t.part slot).writeRecord t.part slot
            s.wS 8 o.d 1

/-- The launch record of the focused task. -/
def State.taskRecord (s : State) : List Byte :=
  match s.core.task with
  | some t => (match s.dev.entryOf t.part t.lid with | some e => e.record | none => [])
  | none => []

/-- Kill pre-emption of the focused core's task (R42, R382): its stores are published, its tokens dropped, and it is
ready to start again, owing its trigger obligation as before. Where an operation that must complete first cannot yet, the
pre-emption waits for it, and the task issues nothing more. -/
def State.killTask (s : State) : State :=
  match s.core.task with
  | none => s
  | some t =>
    match s.stopped with
    | none => s.upd fun c => { c with preempt := some (3, 0, 0) }
    | some s =>
      if s.core.mon.mode || s.core.task.isNone then s
      else
        let s := s.publishAll.upd Core.endCharge
        let owes := s.core.owesTrig
        let s := s.updDev fun v =>
          (((v.unwait t.part t.slot).updSlot t.part t.slot fun x =>
            { x with st := 0, why := 0, qnum := 0, dreg := 0, cpos := t.entry, ckpt := false, foot := false, evt := false, deqtQ := none, deqtGot := none,
                     kept := some { startCore t with owesTrig := owes }, lastCore := none }).readied t.part t.slot).writeRecord t.part t.slot
        s.vacate

/-- The task of the focused core is drained (R382): the core takes no new work. The slot notes when. -/
def State.drainTask (s : State) : State :=
  match s.core.task with
  | none => s
  | some t =>
    let now := s.dev.time
    (s.upd fun c => { c with draining := true }).updDev fun v => v.updSlot t.part t.slot fun x => { x with age := now }

/-- The policy that R382 chooses for the focused core's task: 1 drain, 2 checkpoint, 3 kill. -/
def State.preemptPolicy (s : State) (tokens : Nat) : Nat :=
  let r := s.taskRecord
  let p := s.dev.part s.partition
  let est := recEstimate r
  if est ≠ 0 ∧ est - s.core.cycle.toNat ≤ p.drainWindow then 1
  else if tokens ≥ p.killAt ∧ recIdem r then 3
  else 2

/-- Pre-empt the focused core's task under a policy (R382, R401): 0 is the choice of R382. A kill of a launch that is not
idempotent acts as checkpoint; a checkpoint with no usable area acts as drain. -/
def State.preemptFocus (s : State) (pol tokens : Nat) : State :=
  if s.core.task.isNone || s.core.mon.mode then s
  else
    let pol := if pol = 0 then s.preemptPolicy tokens else pol
    let pol := if pol = 3 ∧ !recIdem s.taskRecord then 2 else pol
    if pol = 1 then s.drainTask
    else if pol = 3 then s.killTask
    else if s.canCheckpoint then s.checkpoint 5
    else s.drainTask

/-- The first ready member of a task's gang that is not resident (R45). -/
def State.lacksCore (s : State) (t : TaskInfo) : Option TaskSlot :=
  let ready := s.dev.slots.filter fun x => x.part == t.part && x.info.gang == t.gang && !x.info.spawned && x.ready && x.slot != t.slot
  match s.dev.firstWork t.part (ready.map Work.task) with
  | some (.task m) => some m
  | _ => none

/-- A core that a task has left by gang-wait pre-emption goes to the first ready member of its gang (R45). -/
def State.handOver (s : State) (t : TaskInfo) (p : Nat) : State :=
  match s.lacksCore t with
  | some m => if s.coreIdle p then s.resumeTask m p else s
  | none => s

/-- Gang-wait pre-emption of the focused core's task (R45), while a member of its gang lacks a core. -/
def State.gangPreempt (s : State) (t : TaskInfo) (p : Nat) : State :=
  if (s.lacksCore t).isNone then s else ((s.onUnit (.core p) fun s => s.checkpoint 6)).handOver t p

/-- A pre-emption that has waited for the operations that complete first goes on (R329, R382): a checkpoint whose area is no longer
usable drains the task; gang-wait pre-emption hands the core over (R45). -/
def State.preemptAgain (s : State) (pol why : Nat) : State :=
  let s := s.upd fun c => { c with preempt := none }
  if pol = 3 then s.killTask
  else if why = 6 then
    match s.core.task, s.focus with
    | some t, .core p => s.gangPreempt t p
    | _, _ => s
  else if s.canCheckpoint then s.checkpoint why
  else s.drainTask

/-- Pre-empt the task of a core. -/
def State.preemptCore (s : State) (p pol tokens : Nat) : State := s.onUnit (.core p) fun s => s.preemptFocus pol tokens

/-- What R382 does with the focused core's task for a newcomer with these tokens: a checkpoint with no usable area is a drain. -/
def State.chosen (s : State) (tokens : Nat) : Nat :=
  let k := s.preemptPolicy tokens
  if k = 2 ∧ !s.canCheckpoint then 1 else k

/-- The dispatcher pre-empts the task of the event's core under policy `k`, where that is the one that R382 chooses; `count` holds the
newcomer's tokens. -/
def State.preemptChosen (s : State) (k : Nat) : State :=
  s.onUnit (.core s.ev.core) fun s => if s.chosen s.ev.count = k then s.preemptFocus k s.ev.count else s

/-- CHECKPOINT_PREEMPT: the dispatcher checkpoints the task of the event's core (R382). -/
def execCheckpointPreempt (s : State) : Host.Outcome State Fault Refusal := .next (s.preemptChosen 2)

/-- KILL_PREEMPT: the dispatcher kills the task of the event's core, for a newcomer whose tokens reach the threshold
(R382); it restarts under R42. -/
def execKillPreempt (s : State) : Host.Outcome State Fault Refusal := .next (s.preemptChosen 3)

/-- DRAIN_PREEMPT: the dispatcher drains the task of the event's core (R382). -/
def execDrainPreempt (s : State) : Host.Outcome State Fault Refusal := .next (s.preemptChosen 1)

/-- DRAIN_WINDOW_EXPIRE: a drained task of the event's core that has not ended within the window is checkpointed, or drained
on (R382). -/
def execDrainWindowExpire (s : State) : Host.Outcome State Fault Refusal :=
  .next (s.onUnit (.core s.ev.core) fun s =>
    match s.core.task with
    | none => s
    | some t =>
      match s.dev.slotOf t.part t.slot with
      | none => s
      | some x => if s.core.draining && s.dev.time ≥ x.age + (s.dev.part t.part).drainWindow then s.checkpoint 5 else s)

/-- The task of a core has waited at a barrier for 65,536 cycles (R45, R341). -/
def Core.barrierLate (c : Core) : Bool := match c.barFrom with | some t => decide (c.wall ≥ t + 65536) | none => false

/-- GANG_WAIT_PREEMPT (R45): the task of the event's core, which has waited at a barrier for 65,536 cycles, makes room for
the first ready member of its gang that lacks a core. Not in Meridian mode, and not for a task that is drained (R382). -/
def execGangWaitPreempt (s : State) : Host.Outcome State Fault Refusal :=
  let c := s.getCore (.core s.ev.core)
  .next (match c.task with
    | none => s
    | some t =>
      if t.mer || t.spawned || c.draining || !c.barrierLate || !(s.idleIn (s.ev.core / 128)).isEmpty then s
      else s.gangPreempt t s.ev.core)

/-- The tasks that may make room on a list of cores for work of class `c`, in the order in which they are taken: lowest class
first, then the most recently started (R406). -/
def State.victims (s : State) (c : Nat) (cores : List Nat) : List (Nat × Nat × Nat) :=
  let found := cores.filterMap fun p =>
    let k := s.getCore (.core p)
    match k.task with
    | none => none
    | some t =>
      let cl := match s.dev.entryOf t.part t.lid with | some e => recClass e.record | none => 0
      let at_ := match s.dev.slotOf t.part t.slot with | some x => x.age | none => 0
      if cl < c && !k.mon.mode && !k.draining && k.preempt.isNone then some (p, cl, at_) else none
  found.foldl (fun out x =>
    out.takeWhile (fun y => y.2.1 < x.2.1 || (y.2.1 == x.2.1 && y.2.2 ≥ x.2.2)) ++ x :: out.dropWhile fun y => y.2.1 < x.2.1 || (y.2.1 == x.2.1 && y.2.2 ≥ x.2.2)) []

/-- The cores of a cluster. -/
def clusterCores (k : Nat) : List Nat := (List.range 128).map fun i => 128 * k + i

/-- A cluster would take a gang but for its cores (R44, R53). -/
def State.lacksRoom (s : State) (p : Nat) (e : SchedEntry) (k : Nat) : Bool :=
  recBarriers e.record ≤ s.dev.freeBarriers k && !s.dev.gangBarred p e k

/-- The victims that give a gang room (R406): on the cluster that needs the fewest, or on the cores that it has drawn. -/
def State.roomFor (s : State) (p : Nat) (e : SchedEntry) : List Nat :=
  let c := recClass e.record
  if (s.dev.freeSlots p).length < recGang e.record then []
  else if recMer e.record then
    match (s.meridianGang p e).filter fun x => s.lacksRoom p e x.1 with
    | none => []
    | some x =>
      let busy := x.2.1.filter fun p => !s.coreIdle p
      let vs := s.victims c busy
      if vs.length = busy.length then vs.map Prod.fst else []
  else
    let opts := (s.dev.launchClusters p e).filterMap fun x =>
      let need := recGang e.record - (s.idleIn x.1).length
      let vs := s.victims c (clusterCores x.1)
      if need = 0 ∨ vs.length < need ∨ !s.lacksRoom p e x.1 ∨ (recPers e.record ∧ (s.dev.clustersOf p)[e.started]? ≠ some x.1) then none else some ((vs.take need).map Prod.fst)
    match opts with
    | [] => []
    | o :: os => os.foldl (fun b x => if x.length < b.length then x else b) o

/-- The cores on which a task whose gang runs may go (R53): its gang's cluster, or the core that it has drawn. -/
def State.roomCores (s : State) (t : TaskSlot) : List Nat :=
  if t.info.mer then (s.meridianCore t).toList
  else match s.dev.homeCluster t with | some k => clusterCores k | none => []

/-- Work of a partition that has no place and is due for room (R53, R406): a gang that has waited for the pre-emption wait, or a task
whose gang runs, with no core idle for it. -/
def State.wantsRoom (s : State) (p : Nat) (w : Work) : Bool :=
  (s.placeOf p w).isNone &&
    match w with
    | .gang e => decide (s.dev.time ≥ e.age + (s.dev.part p).waitMax)
    | .task t => s.dev.matesRun w && !(s.roomCores t).any s.coreIdle

/-- The victims that give work room, and its tokens. -/
def State.roomOf (s : State) (p : Nat) (w : Work) : List Nat × Nat :=
  match w with
  | .gang e => (s.roomFor p e, recTokens e.record)
  | .task t =>
    (((s.victims (s.dev.classOf p w) (s.roomCores t)).take 1).map Prod.fst,
      match s.dev.entryOf p t.info.lid with | some e => recTokens e.record | none => 0)

/-- PREEMPTION_WAIT_EXPIRE (R53, R406): the first ready gang of the event's partition that has waited without room for the
pre-emption wait gets it, and so, at once, does a ready task whose gang runs. Work for which there are no victims stands behind. -/
def execPreemptionWaitExpire (s : State) : Host.Outcome State Fault Refusal :=
  let p := s.ev.part
  let due := (s.dev.workOf p).filter fun w => s.wantsRoom p w && !(s.roomOf p w).1.isEmpty
  .next (match s.dev.firstWork p due with
    | some w => (let r := s.roomOf p w; r.1.foldl (fun s c => s.preemptCore c 0 r.2) s)
    | none => s)

/-- What aged work reserves (R53, R406): for a gang the cluster that it has drawn, or that has the most idle cores; for a task its
gang's cluster, the one that it has drawn, or else the one with the most idle cores that it may use. -/
def State.reservation (s : State) (p : Nat) : Work → Option Reserve
  | .gang e =>
    (if recMer e.record then (s.meridianGang p e).map (fun x => x.1) else (s.mostIdle (s.dev.launchClusters p e)).map Prod.fst).map fun k =>
      { part := p, lid := e.lid, slot := none, cluster := k }
  | .task t =>
    let open_ := ((s.dev.clustersOf p).filter (s.dev.mayUse t)).map fun k => (k, ())
    let k? := if t.info.mer then (s.meridianCore t).map fun c => c / 128
      else match s.dev.homeCluster t with | some k => some k | none => (s.mostIdle open_).map Prod.fst
    k?.map fun k => { part := p, lid := t.info.lid, slot := some t.slot, cluster := k }

/-- AGING_LIMIT_EXPIRE (R53, R406): the first ready work of the event's partition whose age has passed the aging limit
reserves a cluster. -/
def execAgingLimitExpire (s : State) : Host.Outcome State Fault Refusal :=
  let p := s.ev.part
  let has (lid : Nat) (slot : Option Nat) : Bool := s.dev.reserved.any fun x => x.part == p && x.lid == lid && x.slot == slot
  let aged := (s.dev.workOf p).filter fun w => decide (s.dev.time ≥ w.since.1 + (s.dev.part p).aging) &&
    match w with
    | .gang e => !has e.lid none
    | .task t => !has t.info.lid (some t.slot)
  .next (match (s.dev.firstWork p aged).bind (s.reservation p) with
    | some r => s.updDev fun v => { v with reserved := v.reserved ++ [r] }
    | none => s)

end Sys2Proof.Machine
end

