-- ==== Sys2Proof/Machine/Firmware.lean ====
section
/-! DEFINITION. Privileged instructions of the X slot (R398 to R403): launch records (R388 to R393), submission (R46,
R400), pre-emption, hardware queues, migration, scrubbing, events and items. -/

namespace Sys2Proof.Machine

/-- A launch record keeps within the limits of R388 and R43, and its dome scratchpad fits a share (check 0x01 of R389). -/
def Device.recordValid (v : Device) (p : Nat) (r : List Byte) : Bool :=
  let g := recGang r
  let fits (d : Nat) : Bool :=
    let cmb := v.combines.foldl (fun n c => if c.dome = d ∧ c.part = p then n + cmbBytes c.word else n) 0
    recDomeBytes r + cmb ≤ (v.part p).shares.getD d 0
  1 ≤ recLid r && recLid r < 2 ^ 31 && 1 ≤ g && g ≤ 128 && recBarriers r ≤ 64 && recClass r ≤ 7 && !recFlag r 5 && !recFlag r 6
    && (recPers r || recGx r * recGy r * recGz r < 2 ^ 32) && recFoot r % 64 == 0 && recFoot r ≤ 524288 && recSuccs r ≤ 5
    && zeroAt r 0x37 1 && (recCompl r).toNat % 16 == 0
    && (List.range 5).all (fun k => k < recSuccs r || zeroAt r (0x6C + 4 * k) 4)
    && (v.domesOf p).any fits

/-- The completion status with which R389 rejects a record at `va`, if any. -/
def Device.recordRejects (v : Device) (p : Nat) (va : Addr) (r : List Byte) : Option Nat :=
  if !v.recordValid p r then some 1
  else if fieldAt r 0xA 2 ≠ 2 ∨ (v.kernelOf (v.part p).ctx (recKernel r)).isNone then some 2
  else if (match v.entryOf p (recLid r) with | some e => e.set && e.va != va | none => false) then some 3
  else if (v.part p).state = 4 then some 7
  else if (v.part p).state ≠ 1 then some 4
  else if (match v.entryOf p (recLid r) with | some e => e.failed | none => false) then some 6
  else none

/-- A record is rejected (R391 to R393): its completion record, then its successors fail. An entry with no claimed record is freed
with its launch, before that; under status 0x03 the entry is the other record's, and stays. -/
def Device.rejectRecord (v : Device) (p : Nat) (r : List Byte) (c : Nat) : Device :=
  let lid := recLid r
  let v := v.writeCompletion p r c (v.gradeOf p c none) 0
  let v := if (match v.entryOf p lid with | some e => !e.set | none => false) then v.freeEntry p lid else v
  (v.failSuccessors p r).drainCheck p

/-- A record is accepted (R390, R393): the entry has its copy and SET, and its counter rises by the predecessor count. -/
def Device.acceptRecord (v : Device) (p : Nat) (va : Addr) (r : List Byte) : Device :=
  let lid := recLid r
  ((v.needEntry p lid).updEntry p lid fun e =>
      { e with set := true, record := r, va := va, counter := e.counter + recPreds r }).updPart p (fun q => { q with claimed := q.claimed + 1 })
    |>.ripen p lid

/-- The result word of PCSET and PCDEC (R399). -/
def Device.resultWord (v : Device) (p lid status : Nat) : Word :=
  let (cnt, rdy) : Int × Bool := match v.entryOf p lid with | some e => (e.counter, e.set && e.counter == 0) | none => (0, false)
  let c16 : Int := max (-32768) (min 32767 cnt)
  BitVec.ofNat 64 (lid % 2 ^ 31 + (if rdy then 2 ^ 31 else 0) + (c16 % 65536).toNat * 2 ^ 32 + status % 256 * 2 ^ 48)

/-- A partition operand that the unit may name (R398): one that the queue processor serves, or the monitor's own. -/
def State.mayName (s : State) (p : Nat) : Bool :=
  if s.isQp then (s.dev.servedBy s.focus.dome).contains p else s.partition == p

/-- A privileged X instruction with a partition operand (R398). -/
def State.withPart (s : State) (i : Instr) (p : Nat) (f : State → State) : Host.Outcome State Fault Refusal :=
  s.ifAllowed i fun s => if s.mayName p then f s else s.trapOp ILLOP i

/-- All scheduler entries of a partition are in use, and none is that of a launch (R399). -/
def Device.noEntry (v : Device) (p lid : Nat) : Bool := (v.entryOf p lid).isNone && v.entriesFull p

/-- The record at `va` as it stands at its home (R390), with its first byte's state after the read: none where it cannot be read
or written, or is poisoned. -/
def State.recordAt (s : State) (va : Addr) : Except (Nat × Int) (State × List Byte × Place × Nat) :=
  let x : Int := (va.toNat : Int)
  match s.chunks 0 .load 1 x 128, s.place 0 (addrIn 0 (x + 0x13)) 1 .store with
  | .ok ps, .ok (pl, a) =>
    if (s.poisoned 1 ps).isSome then .error (POISON, x)
    else .ok ((s.touch 0 x 128 .load).touch 0 (addrIn 0 (x + 0x13)) 1 .store, s.dev.readVa s.ctx va 128, pl, a)
  | .error e, _ => .error e
  | _, .error c => .error (c, addrIn 0 (x + 0x13))

/-- PCSET of the record at `va` (R389, R390, R399): the result word, and the state. -/
def State.pcset (s : State) (p : Nat) (va : Addr) : State × Word :=
  match s.recordAt va with
  | .error (c, x) => (s.failWalk 0 x c, BitVec.ofNat 64 (0x81 * 2 ^ 48))
  | .ok (s, r, pl, a) =>
    let lid := recLid r
    if recFlag r 7 then (s, s.dev.resultWord p lid 1)
    else if s.dev.noEntry p lid then (s, s.dev.resultWord p lid 2)
    else
      let s := s.atomicWrite pl a [BitVec.ofNat 8 (fieldAt r 0x13 1 + 0x80)] 5
      match s.dev.recordRejects p va r with
      | some c => (let v := s.dev.rejectRecord p r c; ({ s with dev := v }, v.resultWord p lid (0x80 + c)))
      | none => (let v := s.dev.acceptRecord p va r; ({ s with dev := v }, v.resultWord p lid 0))

/-- PCSET (R399). -/
def execPcset (o : XForm) (s : State) : Host.Outcome State Fault Refusal :=
  let p := o.imm.toNat % 8
  s.withPart (.pcset o) p fun s =>
    let (s', w) := s.pcset p (s.core.areg o.base)
    s'.wS 1 o.d w

/-- PCDEC (R393, R399). -/
def execPcdec (o : XForm) (s : State) : Host.Outcome State Fault Refusal :=
  let p := o.imm.toNat % 8
  s.withPart (.pcdec o) p fun s =>
    let lid := (s.core.sreg o.a).toNat % 2 ^ 31
    if s.dev.noEntry p lid then s.wS 1 o.d (s.dev.resultWord p lid 2)
    else (let v := s.dev.decrement p lid; ({ s with dev := v } : State).wS 1 o.d (v.resultWord p lid 0))

/-- PCDEC.fail (R392, R393, R399). -/
def execPcdecFail (o : XForm) (s : State) : Host.Outcome State Fault Refusal :=
  let p := o.imm.toNat % 8
  s.withPart (.pcdecFail o) p fun s =>
    let lid := (s.core.sreg o.a).toNat % 2 ^ 31
    if s.dev.noEntry p lid then s.wS 1 o.d (s.dev.resultWord p lid 2)
    else (let v := (s.dev.failAll p (6 * s.dev.entries.length + 16) [lid]).drainCheck p; ({ s with dev := v } : State).wS 1 o.d (v.resultWord p lid 0))

/-- A launch is submitted (R400); one with no gang completes at once, with its trigger event (R46). -/
def Device.submit (v : Device) (p lid : Nat) : Device :=
  match v.entryOf p lid with
  | none => v
  | some e =>
    let n := v.gangsOf p e.record
    let t := n * recGang e.record
    let v := v.updEntry p lid fun e => { e with state := 2, gangs := n, tasksLeft := t, owed := t, age := v.time, turn := v.turns }
    let v := { v with turns := v.turns + 1 }
    if n = 0 then
      let v := (v.updEntry p lid fun e => { e with triggered := true }).signal (.trigger p lid)
      (v.updEntry p lid fun e => { e with state := 3 }).signal (.completion p lid 0)
    else v

/-- DISP (R400): the head of the ready queue. -/
def execDisp (o : XForm) (s : State) : Host.Outcome State Fault Refusal :=
  let p := o.imm.toNat % 8
  s.withPart (.disp o) p fun s =>
    match (s.dev.part p).ready with
    | [] => s.wS 1 o.d 0
    | lid :: rest =>
      (s.updDev fun v => (v.updPart p fun q => { q with ready := rest }).submit p lid).wS 1 o.d (BitVec.ofNat 64 lid)

/-- The cores whose resident task is of a launch, and not under the monitor (R369, R401). -/
def State.coresOf (s : State) (p lid : Nat) : List Nat :=
  (s.unitsOf p).filterMap fun u =>
    match u, (s.getCore u).task with
    | .core k, some t => if t.lid == lid && !(s.getCore u).mon.mode then some k else none
    | _, _ => none

/-- PREEMPT (R401): every resident task of a launch, under a policy (0 the choice of R382, 1 drain, 2 checkpoint, 3
kill); the number of tasks. A core in monitor mode is not pre-empted (R369). -/
def execPreempt (o : XForm) (s : State) : Host.Outcome State Fault Refusal :=
  let p := o.imm.toNat % 8
  s.withPart (.preempt o) p fun s =>
    let lid := (s.core.sreg o.a).toNat % 2 ^ 31
    let ks := s.coresOf p lid
    (ks.foldl (fun s k => s.preemptCore k (o.fn.toNat % 4) 0) s).wS 1 o.d (BitVec.ofNat 64 ks.length)

/-- QCFGP (R402): capacity and storage of a hardware queue; 1 while it holds items or waiters, 2 beyond a limit. -/
def execQcfgp (o : XForm) (s : State) : Host.Outcome State Fault Refusal :=
  let p := o.imm.toNat / 2 ^ 8 % 8
  let q := o.imm.toNat % 2 ^ 8
  s.withPart (.qcfgp o) p fun s =>
    let c := (s.core.sreg o.a).toNat % 2 ^ 17
    let base := s.core.areg o.base
    let pages := (base.toNat % 65536 + 8 * c + 65535) / 65536
    if c < 1 ∨ c > 65536 ∨ base.toNat % 64 ≠ 0 ∨ !s.dev.usable s.ctx (BitVec.ofNat 80 (base.toNat / 65536 * 65536)) pages then s.wS 1 o.d 2
    else if (match s.dev.hwq p q with | some h => !h.items.isEmpty || !h.waiters.isEmpty | none => false) then s.wS 1 o.d 1
    else
      let h : HwQueue := { part := p, q := q, cap := c, store := base, items := [], waiters := [] }
      (s.updDev fun v => ({ v with queues := v.queues.filter (fun x => !(x.part == p && x.q == q)) ++ [h] } : Device).cmbRelease p q).wS 1 o.d 0

/-- QCFGP.off (R402). -/
def execQcfgpOff (o : XForm) (s : State) : Host.Outcome State Fault Refusal :=
  let p := o.imm.toNat / 2 ^ 8 % 8
  let q := o.imm.toNat % 2 ^ 8
  s.withPart (.qcfgpOff o) p fun s =>
    if (match s.dev.hwq p q with | some h => !h.items.isEmpty || !h.waiters.isEmpty | none => false) then s.wS 1 o.d 1
    else (s.updDev fun v => ({ v with queues := v.queues.filter fun x => !(x.part == p && x.q == q) } : Device).cmbRelease p q).wS 1 o.d 0

/-- MIGRATE (R403): the page is queued for the engine, deferred when it is pinned, or not mapped;
a malformed entry that its walk meets is logged (R416). -/
def execMigrate (o : XForm) (s : State) : Host.Outcome State Fault Refusal :=
  s.ifAllowed (.migrate o) fun s =>
    let c : BitVec 12 := (s.core.sreg o.a).setWidth 12
    let va : Addr := BitVec.ofNat 80 ((s.core.areg o.base).toNat / 65536 * 65536)
    match s.dev.walk c va with
    | .error _ => (s.logWalk c va).wS 1 o.d 2
    | .ok (_, e) =>
      if s.dev.pinned c va e then (s.updDev fun v => v.deferMove c va).wS 1 o.d 1
      else (s.updDev fun v => v.updDome (v.ctxDome c) fun y => { y with migq := y.migq ++ [(c, va, o.fn.toNat % 4)] }).wS 1 o.d 0

/-- SCRUBCFG (R403): the scrub period of a tier of the dome; the previous one returns. -/
def execScrubcfg (o : XForm) (s : State) : Host.Outcome State Fault Refusal :=
  s.ifAllowed (.scrubcfg o) fun s =>
    let k := o.fn.toNat % 4
    let d := s.focus.dome
    let old := (s.dev.dome d).scrub.toArray.getD k 0
    let n : BitVec 32 := (s.core.sreg o.a).setWidth 32
    (s.updDev fun v => v.updDome d fun x => { x with scrub := x.scrub.setIfInBounds k n }).wS 1 o.d (old.setWidth 64)

/-- OBSLOG (R403): an event of firmware's own code. -/
def execObslog (o : XForm) (s : State) : Host.Outcome State Fault Refusal :=
  s.ifAllowed (.obslog o) fun s =>
    let code := o.imm.toNat % 2 ^ 16
    if code < 0x8000 then s.trapOp ILLOP (.obslog o)
    else
      let n := (s.dev.dome s.focus.dome).logSeq
      (s.logEvent code 0 (s.core.sreg o.a) (s.core.sreg o.b)).wS 1 o.d (BitVec.ofNat 64 n)

/-- The unit may write an Almanac item (R445). -/
def State.mayPost (s : State) (item : Nat) : Bool :=
  if s.isQp then 0x800 ≤ item && item ≤ 0xBFF
  else 0xC00 + 128 * s.partition ≤ item && item ≤ 0xC7F + 128 * s.partition

/-- HEALTHW (R403, R445): the value is posted for the next snapshot. -/
def execHealthw (o : XForm) (s : State) : Host.Outcome State Fault Refusal :=
  s.ifAllowed (.healthw o) fun s =>
    let item := o.imm.toNat % 2 ^ 12
    let g := (s.core.sreg o.b).toNat % 8
    if g ≥ 5 ∨ !s.mayPost item then s.wS 1 o.d 1
    else
      let x := s.core.sreg o.a
      (s.updDev fun v => { v with almPosts := v.almPosts.filter (fun y => y.1 != item) ++ [(item, x, g)] }).wS 1 o.d 0

end Sys2Proof.Machine
end

