-- ==== Sys2Proof/Machine/Custodian.lean ====
section
/-! DEFINITION. The custodian's mailbox (R453, R454): partitions, contexts, dispatch parameters, combine buffers, keys,
groups, the node, monitors, memory units, the log, attestation, the power limit. -/

namespace Sys2Proof.Machine

/-- A host port. -/
def Device.port (v : Device) (k : Nat) : Port := v.ports[k % 2]'(Nat.mod_lt _ (by decide))

/-- Update a host port. -/
def Device.updPort (v : Device) (k : Nat) (f : Port → Port) : Device :=
  { v with ports := v.ports.set (k % 2) (f (v.port k)) (Nat.mod_lt _ (by decide)) }

/-- What a command does: a nonzero status of R453, or the new state with the results. -/
abbrev Reply := Except Nat (State × List Byte)

/-- The opcode of a mailbox command (R454). -/
def mbxOp (i : Instr) : Nat :=
  match i with
  | .partCreate => 1
  | .partStateOnline | .partStateDrain | .partStateFence | .partStateReset => 2
  | .partDestroy => 3
  | .ctxSet => 4
  | .partCtx => 5
  | .dispParam => 6
  | .cmbCfg => 7
  | .keyLoad => 8
  | .collGroup => 9
  | .nodeSet => 10
  | .monitorLoad => 11
  | .memAssign => 12
  | .logRead => 13
  | .attest => 14
  | .powerLimit => 15
  | .gradeClear => 16
  | _ => 0

/-- Bytes as fields of one byte each. -/
def byteFields (bs : List Byte) : List (Nat × Nat) := bs.map fun b => (1, b.toNat)

/-- The operands of a mailbox command in the order in which R454 names them, each with its width in bytes: the manual gives the order,
and the model the widths (DESIGN CHOICE, log 104). -/
def mbxFields (i : Instr) (e : EventData) : List (Nat × Nat) :=
  let c := e.create
  match i with
  | .partCreate =>
    [(1, c.p), (1, c.clusters.toNat), (10, c.taskArea.toNat), (10, c.spillPool.toNat), (8, c.spillStride), (10, c.savePool.toNat),
     (4, c.saveCount), (10, c.streamTable.toNat)] ++ ((List.range 4).map fun d => (8, c.shares.getD d 0)) ++ [(4, c.tableSize)]
  | .partStateOnline => [(1, e.part), (1, 0)]
  | .partStateDrain => [(1, e.part), (1, 1)]
  | .partStateFence => [(1, e.part), (1, 2)]
  | .partStateReset => [(1, e.part), (1, 3)]
  | .partDestroy | .gradeClear => [(1, e.part)]
  | .ctxSet => (2, e.ctx.toNat) :: byteFields e.data
  | .partCtx => [(1, e.part), (2, e.ctx.toNat)]
  | .dispParam => (1, e.part) :: e.params.map fun x => (4, x)
  | .cmbCfg => [(2, e.ctx.toNat), (1, e.dome), (8, e.value), (8, e.addr)]
  | .keyLoad => [(2, e.ctx.toNat), (2, e.value)] ++ byteFields e.data
  | .collGroup => [(1, e.part), (4, e.group), (4, e.members.length)] ++ e.members.flatMap fun m => [(2, m.node.toNat), (4, m.lid), (4, m.task)]
  | .nodeSet => [(2, e.node.toNat), (2, e.routes.length)] ++ e.routes.flatMap fun r => [(2, r.node.toNat), (1, r.vport)]
  | .monitorLoad => [(1, e.part), (10, e.va.toNat)]
  | .memAssign => [(8, e.addr), (4, e.count), (1, e.value)]
  | .logRead => [(1, e.dome), (8, e.addr), (4, e.count), (8, e.value)]
  | .attest => [(32, e.nonce.toNat)]
  | .powerLimit => [(4, e.value)]
  | _ => []

/-- The operands of a request have the length that its command takes, and PART_STATE names one of its four targets (R453, R454). -/
def mbxFormOk (op : Nat) (bs : List Byte) : Bool :=
  let n := bs.length
  match op with
  | 1 => n == 90
  | 2 => n == 2 && fieldAt bs 1 1 ≤ 3
  | 3 | 16 => n == 1
  | 4 => n == 66
  | 5 => n == 3
  | 6 => n == 17
  | 7 => n == 19
  | 8 => 4 ≤ n
  | 9 => n == 9 + 10 * fieldAt bs 5 4
  | 10 => n == 4 + 3 * fieldAt bs 2 2
  | 11 => n == 11
  | 12 => n == 13
  | 13 => n == 21
  | 14 => n == 32
  | 15 => n == 4
  | _ => false

/-- The opcode and the operands of the request in MBXREQ (R453). -/
def Port.reqOp (p : Port) : Nat := leNat (memRun p.req 0 2)
def Port.reqBytes (p : Port) : List Byte := memRun p.req 8 (leNat (memRun p.req 2 2))

/-- The request of a port is the command `i` with the operands of an event (R453, R454). -/
def Port.asks (p : Port) (i : Instr) (e : EventData) : Bool :=
  p.reqOp == mbxOp i && (mbxFields i e).all (fun f => decide (f.2 < 256 ^ f.1))
    && p.reqBytes == (mbxFields i e).flatMap fun f => bytesOfNat f.1 f.2

/-- It is the turn of a port's request (R453): the custodian takes the requests of the two ports in the order of their arrival. -/
def Device.mbxTurn (v : Device) (k : Nat) : Bool := (v.port k).busy && v.mbx.head? == some (k % 2)

/-- The request whose turn it is keeps the form of a command of R454, and is the one of an event. -/
def State.mbxDue (s : State) (i : Instr) : Bool :=
  let p := s.dev.port s.ev.port
  s.dev.mbxTurn s.ev.port && mbxFormOk p.reqOp p.reqBytes && p.asks i s.ev

/-- The custodian answers the request of a port (R453): the response has the status, the tag of the request and the results; DONE is set
and signalled. -/
def State.mbxAnswer (s : State) (k st : Nat) (rs : List Byte) : State := s.updDev fun v =>
  ({ v with mbx := v.mbx.tail }.updPort k fun p =>
    { p with busy := false, done := true, rsp := bytesOfNat 2 st ++ [0, 0] ++ memRun p.req 4 4 ++ rs }).msix k 0

/-- The custodian processes the request of port `ev.port` (R453), whose turn it is. A request of no command of R454, or with a length
that its command does not have, has invalid operands. A nonzero status changes nothing. -/
def State.mailbox (s : State) (i : Instr) (f : State → Reply) : Host.Outcome State Fault Refusal :=
  let k := s.ev.port
  let p := s.dev.port k
  .next (if !s.dev.mbxTurn k then s
    else if !mbxFormOk p.reqOp p.reqBytes then s.mbxAnswer k 2 []
    else if !p.asks i s.ev then s
    else match f s with
      | .ok (s', rs) => s'.mbxAnswer k 0 rs
      | .error st => s.mbxAnswer k st [])

/-- A command on a partition that only its owner port may give (R452, R454). -/
def State.ifOwner (s : State) (p : Nat) (f : Reply) : Reply :=
  if p ≥ 8 then .error 2
  else if (s.dev.part p).state = 0 ∨ (s.dev.part p).port ≠ s.ev.port % 2 then .error 1
  else f

/-- The physical cores of a partition, ascending (R21). -/
def Device.coresOfPart (v : Device) (p : Nat) : List Nat :=
  (v.clustersOf p).flatMap fun k => (List.range 128).map fun i => 128 * k + i

/-- Update the privileged registers of a unit. -/
def State.updMon (s : State) (u : Agent) (f : Mon → Mon) : State :=
  let c := s.getCore u
  s.setCore u { c with mon := f c.mon }

/-- The 48 MiB of a dome scratchpad (R19). -/
def domeSpadBytes : Nat := 50331648

/-- The operands of PART_CREATE that do not depend on other partitions (R404, R405, R379). A dome without a cluster of the partition
has no share to give (log 75). -/
def partCreateOk (c : PartCreate) : Bool :=
  let n := ((List.range 8).filter fun k => c.clusters.getLsbD k).length
  c.clusters != 0 && 128 * n ≤ c.saveCount && c.savePool.toNat % 65536 == 0 && c.spillPool.toNat % 65536 == 0
    && c.spillStride % 65536 == 0 && 1 ≤ c.tableSize && c.tableSize ≤ 65536
    && (List.range 4).all fun d => c.clusters.getLsbD (2 * d) || c.clusters.getLsbD (2 * d + 1) || c.shares.getD d 0 == 0

/-- The shares of a new partition: one for each dome that holds one of its clusters (R21). -/
def partShares (c : PartCreate) : List Nat :=
  (List.range 4).map fun d => if c.clusters.getLsbD (2 * d) || c.clusters.getLsbD (2 * d + 1) then c.shares.getD d 0 else 0

/-- The shares fit beside those of the other partitions (R21). -/
def Device.sharesFit (v : Device) (c : PartCreate) : Bool :=
  (List.range 4).all fun d =>
    (List.range 8).foldl (fun n q => if (v.part q).state = 0 then n else n + (v.part q).shares.getD d 0) ((partShares c).getD d 0) ≤ domeSpadBytes

/-- A save area is 2,368 KiB (R379). -/
def saveAreaBytes : Nat := 0x250000

/-- Create a partition (R405, R446, R454): DRAINED, with its resident areas, its stream table in PSTBLp and its bit in
PARTS of the queue processor that serves it. The journal of its home dome counts from 0 again, unless the dome serves another
partition, whose records would be lost (R373; DESIGN CHOICE, log 105). -/
def State.createPart (s : State) (c : PartCreate) : State :=
  let p := c.p
  let area (i : Nat) : Addr := c.savePool + BitVec.ofNat 80 (saveAreaBytes * i)
  let s := s.updDev fun v => v.updPart p fun _ =>
    { Partition.absent with
      port := s.ev.port % 2, clusters := c.clusters, taskArea := c.taskArea, spillPool := c.spillPool, spillStride := c.spillStride,
      shares := partShares c, tableSize := c.tableSize, created := s.dev.time }
  let ks := s.dev.coresOfPart p
  let s := s.updDev fun v => v.updPart p fun q =>
    { q with freeAreas := (List.range (c.saveCount - ks.length)).map fun i => area (ks.length + i) }
  let s := (ks.zip (List.range ks.length)).foldl (fun s x => s.updMon (.core x.1) fun m => { m with csave := area x.2 }) s
  let d := s.dev.homeDome p
  let alone := (List.range 8).all fun q => q == p || (s.dev.part q).state == 0 || s.dev.homeDome q != d
  let s := if alone then s.updDev fun v => v.updDome d fun x => { x with qjseq := 0 } else s
  let s := [0, 1].foldl (fun (s : State) k => s.updMon (.qp d k) fun m =>
    { m with pstbl := m.pstbl.set (p % 8) c.streamTable (Nat.mod_lt _ (by decide)),
             parts := if m.active then m.parts ||| BitVec.ofNat 8 (2 ^ p) else m.parts }) s
  s.updDev fun v => v.setPartState p 3

/-- PART_CREATE (R454). -/
def execPartCreate (s : State) : Host.Outcome State Fault Refusal :=
  s.mailbox .partCreate fun s =>
    let c := s.ev.create
    let v := s.dev
    let free := (List.range 8).all fun k => !c.clusters.getLsbD k || (v.partOfCluster k).isNone
    if c.p ≥ 8 then .error 2
    else if (v.part c.p).state ≠ 0 then .error 3
    else if !partCreateOk c then .error 2
    else if !free || !v.sharesFit c then .error 4
    else .ok (s.createPart c, [])

/-- PART_STATE with ONLINE (R446). -/
def execPartStateOnline (s : State) : Host.Outcome State Fault Refusal :=
  s.mailbox .partStateOnline fun s =>
    let p := s.ev.part
    s.ifOwner p (if (s.dev.part p).state = 2 ∨ (s.dev.part p).state = 3 then .ok (s.updDev fun v => v.setPartState p 1, []) else .error 3)

/-- PART_STATE with DRAIN (R407, R446): with nothing left to finish, the partition is DRAINED at once. -/
def execPartStateDrain (s : State) : Host.Outcome State Fault Refusal :=
  s.mailbox .partStateDrain fun s =>
    let p := s.ev.part
    s.ifOwner p (if (s.dev.part p).state = 1 then .ok (s.updDev fun v => (v.setPartState p 2).drainCheck p, []) else .error 3)

/-- PART_STATE with FENCE (R407, R436, R446): grade A, no fault of the device. -/
def execPartStateFence (s : State) : Host.Outcome State Fault Refusal :=
  s.mailbox .partStateFence fun s =>
    let p := s.ev.part
    s.ifOwner p (.ok (s.fence p 1 0, []))

/-- Reset a fenced partition (R373, R446): its entries are freed, and its stopped cores are back in dispatch. -/
def State.resetPart (s : State) (p : Nat) : State :=
  let ks := s.dev.clustersOf p
  let s := (s.dev.coresOfPart p).foldl (fun (s : State) k =>
    let c := s.getCore (.core k)
    if c.stopped then s.setCore (.core k) { c with stopped := false } else s) s
  let s := s.updDev fun v => ks.foldl (fun v k => v.updCluster k fun x => { x with offline := 0 }) v
  s.updDev fun v => { v with entries := v.entries.filter fun e => !(e.part == p) }.setPartState p 3

/-- PART_STATE with RESET (R446): once every task has stopped and every claimed entry is freed. -/
def execPartStateReset (s : State) : Host.Outcome State Fault Refusal :=
  s.mailbox .partStateReset fun s =>
    let p := s.ev.part
    s.ifOwner p (
      if (s.dev.part p).state ≠ 4 ∨ (s.dev.slots.any fun t => t.part == p) ∨ (s.dev.entries.any fun e => e.part == p && e.set) then .error 3
      else .ok (s.resetPart p, []))

/-- The pin counts and the line pins of contexts end with them (R312). -/
def Device.endPins (v : Device) (p : BitVec 12 → Bool) : Device :=
  { v with pins := v.pins.filter (fun x => !p x.1), domes := v.domes.map fun d => { d with linePins := d.linePins.filter fun x => !p x.1 } }

/-- PART_DESTROY (R446, R454): what belongs to the partition goes with it. -/
def execPartDestroy (s : State) : Host.Outcome State Fault Refusal :=
  s.mailbox .partDestroy fun s =>
    let p := s.ev.part
    s.ifOwner p (
      if (s.dev.part p).state ≠ 3 then .error 3
      else
        let d := s.dev.homeDome p
        let s := [0, 1].foldl (fun (s : State) k => s.updMon (.qp d k) fun m => { m with parts := m.parts &&& ~~~(BitVec.ofNat 8 (2 ^ p)) }) s
        let s := (s.dev.coresOfPart p).foldl (fun (s : State) k => s.updMon (.core k) fun m => { m with csave := 0, mvec := 0, mcode := 0 }) s
        .ok (s.updDev fun v =>
          let v := (v.setPartState p 0).endPins fun x => v.ctxOwner x == some p
          { v.updPart p (fun _ => Partition.absent) with
            queues := v.queues.filter fun q => !(q.part == p), combines := v.combines.filter fun c => !(c.part == p) }, []))

/-- A context table entry is well formed (R412). -/
def contextEntryOk (e : List Byte) : Bool :=
  e.length == 64 && fieldAt e 0 8 % 256 == 0 && fieldAt e 0 8 < 2 ^ 52 && fieldAt e 8 1 ≤ 1 && fieldAt e 9 1 ≤ 8 && zeroAt e 0xA 54

/-- A context entry names an owner that the port speaks for. A firmware context, owner 8, belongs to no partition, and either port's
driver writes it (log 74). -/
def State.mayOwn (s : State) (e : List Byte) : Bool :=
  let o := fieldAt e 9 1
  o == 8 || (s.dev.part o).state != 0 && (s.dev.part o).port == s.ev.port % 2

/-- CTX_SET (R412, R454). The context that the id named ends with its VALID bit, or with another root or owner (R312; log 106). -/
def execCtxSet (s : State) : Host.Outcome State Fault Refusal :=
  s.mailbox .ctxSet fun s =>
    let e := s.ev.data
    let old := (s.dev.contexts.find? fun x => x.1 == s.ev.ctx).map Prod.snd
    let oldOk := match old with | none => true | some x => fieldAt x 8 1 % 2 == 0 || s.mayOwn x
    if !contextEntryOk e then .error 2
    else if !s.mayOwn e || !oldOk then .error 1
    else
      let same := match old with | some x => x.take 10 == e.take 10 && fieldAt x 8 1 % 2 == 1 | none => false
      .ok (s.updDev fun v =>
        let v := if same then v else v.endPins fun x => x == s.ev.ctx
        { v with contexts := v.contexts.filter (fun x => x.1 != s.ev.ctx) ++ [(s.ev.ctx, e)] }, [])

/-- PART_CTX (R412, R454): the partition's current context, while no task of it runs. -/
def execPartCtx (s : State) : Host.Outcome State Fault Refusal :=
  s.mailbox .partCtx fun s =>
    let p := s.ev.part
    s.ifOwner p (
      if !(s.unitsOf p).isEmpty then .error 3
      else if s.dev.ctxOwner s.ev.ctx ≠ some p then .error 2
      else .ok (s.updDev fun v => v.updPart p fun q => { q with ctx := s.ev.ctx }, []))

/-- DISP_PARAM (R406, R454): drain window, kill threshold, aging limit, pre-emption wait. -/
def execDispParam (s : State) : Host.Outcome State Fault Refusal :=
  s.mailbox .dispParam fun s =>
    let p := s.ev.part
    s.ifOwner p (
      match s.ev.params with
      | [a, b, c, d] => .ok (s.updDev fun v => v.updPart p fun q => { q with drainWindow := a, killAt := b, aging := c, waitMax := d }, [])
      | _ => .error 2)

/-- A combine configuration word keeps its limits (R345). -/
def cmbWordOk (w : Word) : Bool :=
  w.toNat < 2 ^ 43 && cmbPol w ≤ 2 && 64 ≤ cmbRow w && cmbRow w ≤ 32768 && 1 ≤ cmbKmax w && cmbKmax w ≤ 16

/-- CMB_CFG (R345, R454): the buffer of a context in a dome, within its partition's share; SLOTS 0 means no
buffer, and the word stays as it is read (R350). -/
def execCmbCfg (s : State) : Host.Outcome State Fault Refusal :=
  s.mailbox .cmbCfg fun s =>
    let x := s.ev.ctx
    let d := s.ev.dome
    let w : Word := BitVec.ofNat 64 s.ev.value
    match s.dev.ctxOwner x with
    | none => .error 1
    | some p => s.ifOwner p (
      let v := s.dev
      let others : Device := { v with combines := v.combines.filter fun c => !(c.ctx == x && c.dome == d) }
      let base := v.shareBase p d + s.ev.addr
      if d ≥ 4 ∨ s.ev.value ≥ 2 ^ 43 then .error 2
      else if (match v.combineOf x d with | some c => c.slots.any fun y => y.state != 0 | none => false) then .error 3
      else if cmbSlots w ≠ 0 ∧ (!cmbWordOk w ∨ s.ev.addr + cmbBytes w > (v.part p).shares.getD d 0
          ∨ ((others.takenIn d).any fun r => overlaps base (cmbBytes w) r.1 r.2)) then .error 2
      else
        let c : Combine := { ctx := x, dome := d, part := p, word := w, off := base, slots := List.replicate (cmbSlots w) CmbSlot.reset,
                             discards := 0, seq := 0, opens := 0, stalled := false }
        .ok ({ s with dev := { others with combines := others.combines ++ [c] } }, []))

/-- KEY_LOAD (R417, R441, R454): the key id is loaded from now on, with the data key and the MAC key that the operands carry encrypted to
the device key. -/
def execKeyLoad (s : State) : Host.Outcome State Fault Refusal :=
  s.mailbox .keyLoad fun s =>
    if s.ev.value < 1 ∨ s.ev.value > 255 then .error 2
    else
      match s.dev.ctxOwner s.ev.ctx with
      | none => .error 1
      | some p => s.ifOwner p (
        let k := BitVec.ofNat 8 s.ev.value
        .ok (s.updDev fun v => { v with keys := if v.keys.contains k then v.keys else v.keys ++ [k]
                                        keyData := v.keyData.filter (fun x => x.1 != k) ++ [(k, Config.sm2Open s.ev.data)] }, []))

/-- COLL_GROUP (R342, R454): the participants of a group in rank order. -/
def execCollGroup (s : State) : Host.Outcome State Fault Refusal :=
  s.mailbox .collGroup fun s => s.ifOwner s.ev.part (
    if s.ev.members.isEmpty ∨ s.ev.group ≥ 65536 then .error 2
    else if s.dev.groups.any fun g => g.group == s.ev.group && !g.joined.isEmpty then .error 3
    else .ok (s.updDev fun v => { v with groups := v.groups.filter (fun g => g.group != s.ev.group)
                                                     ++ [{ group := s.ev.group, members := s.ev.members, joined := [] }] }, []))

/-- NODE_SET (R454, R455): while no task runs in a partition of either port. -/
def execNodeSet (s : State) : Host.Outcome State Fault Refusal :=
  s.mailbox .nodeSet fun s =>
    if (List.range 8).any fun p => !(s.unitsOf p).isEmpty then .error 3
    else if s.ev.routes.any fun r => r.vport ≥ 16 then .error 2
    else .ok (s.updDev fun v => { v with node := s.ev.node, routes := s.ev.routes }, [])

/-- MONITOR_LOAD (R182, R185, R363, R454, R463): the NATV section at a VA is measured, then MCODE and MVEC of the
partition's cores name it and its entry position. -/
def execMonitorLoad (s : State) : Host.Outcome State Fault Refusal :=
  s.mailbox .monitorLoad fun s =>
    let p := s.ev.part
    s.ifOwner p (
      if (s.dev.part p).state ≠ 3 then .error 3
      else
        let c := (s.dev.part p).ctx
        let h := s.dev.readVa c s.ev.va 64
        let n := fieldAt h 0x10 8 + 2 * fieldAt h 0x18 4
        if fieldAt h 0 2 ≠ 2 then .error 2
        else
          let m := Config.sm3 (s.dev.readVa c s.ev.va n)
          let s := (s.dev.coresOfPart p).foldl (fun (s : State) k => s.updMon (.core k) fun r =>
            { r with mcode := s.ev.va, mvec := BitVec.ofNat 32 (fieldAt h 0x1C 4) }) s
          .ok (s.updDev fun v => { v.updPart p (fun q => { q with monitor := m }) with monLoads := v.monLoads + 1 }, []))

/-- MEM_ASSIGN (R451, R454): units of 256 MiB that no other port has. -/
def execMemAssign (s : State) : Host.Outcome State Fault Refusal :=
  s.mailbox .memAssign fun s =>
    let us := (List.range s.ev.count).map fun k => s.ev.addr + k
    let k := s.ev.value
    let other := (s.dev.port (k + 1)).units
    if k ≥ 2 then .error 2
    else if us.any other.contains then .error 4
    else .ok (s.updDev fun v => v.updPort k fun p => { p with units := p.units ++ us.filter fun u => !p.units.contains u }, [])

/-- The 48 bytes of a log entry (R437). -/
def LogEntry.bytes (e : LogEntry) : List Byte :=
  bytesOfNat 8 e.seq ++ bytesOfNat 8 e.time ++ bytesOfNat 2 e.code.toNat ++ bytesOfNat 1 e.grade ++ bytesOfNat 1 e.unit
    ++ bytesOfNat 2 e.index ++ bytesOfNat 2 e.resets ++ bytesOfNat 8 e.p0.toNat ++ bytesOfNat 8 e.p1.toNat
    ++ bytesOfNat 2 e.ctx ++ bytesOfNat 1 e.part ++ bytesOfNat 5 0

/-- LOG_READ (R439, R454): whole entries in sequence order to host memory behind the port (R413); the results are the oldest
sequence number held and the count written. -/
def execLogRead (s : State) : Host.Outcome State Fault Refusal :=
  s.mailbox .logRead fun s =>
    let d := s.ev.dome
    let pa := s.ev.value
    let lo := (s.ev.port % 2 + 1) * 2 ^ 48
    if d ≥ 4 ∨ pa < lo ∨ pa + 48 * s.ev.count > lo + 2 ^ 48 then .error 2
    else
      let log := (s.dev.dome d).log
      let es := (log.filter fun e => s.ev.addr ≤ e.seq).take s.ev.count
      let oldest := match log with | [] => (s.dev.dome d).logSeq | e :: _ => e.seq
      .ok (s.updDev fun v => v.publish pa (es.flatMap LogEntry.bytes), bytesOfNat 8 oldest ++ bytesOfNat 8 es.length)

/-- The report of ATTEST before its signature (R464). Bit 7 of nonce byte 0 selects partitions 4 to 7. -/
def Device.report (v : Device) (nonce : BitVec 256) : List Byte :=
  let p0 := if nonce.getLsbD 7 then 4 else 0
  [0x46, 0x4B, 0x41, 0x54] ++ bytesOfNat 2 1 ++ bytesOfNat 2 2 ++ bytesOfNat 32 nonce.toNat ++ bytesOfNat 16 Config.serial.toNat
    ++ bytesOfNat 64 Config.deviceKey.toNat ++ bytesOfNat 32 Config.custodianMeasurement.toNat
    ++ bytesOfNat 32 Config.qpMeasurement.toNat ++ bytesOfNat 4 v.resets ++ bytesOfNat 4 v.monLoads
    ++ ((List.range 4).flatMap fun k => bytesOfNat 32 (v.part (p0 + k)).monitor.toNat) ++ bytesOfNat 16 0

/-- ATTEST (R464). -/
def execAttest (s : State) : Host.Outcome State Fault Refusal :=
  s.mailbox .attest fun s =>
    let r := s.dev.report s.ev.nonce
    .ok (s, r ++ bytesOfNat 64 (Config.sm2Sign (Config.sm3 r)).toNat)

/-- The power controller decides whether windows that start from now on have headroom (R462): f is 16, and the last completed 1 ms
average is at most 90 % of the limit. -/
def Device.decideHeadroom (v : Device) : Device :=
  { v with headroom := (v.time, v.powerF == 16 && decide (100 * v.powerAvg ≤ 90 * v.powerLimit)) :: v.headroom }

/-- POWER_LIMIT (R454, R462). -/
def execPowerLimit (s : State) : Host.Outcome State Fault Refusal :=
  s.mailbox .powerLimit fun s =>
    if s.ev.value < 600 ∨ s.ev.value > 1900 then .error 2
    else .ok (s.updDev fun v => { v with powerLimit := s.ev.value }.decideHeadroom, [])

/-- GRADE_CLEAR (R444, R454). -/
def execGradeClear (s : State) : Host.Outcome State Fault Refusal :=
  s.mailbox .gradeClear fun s =>
    let p := s.ev.part
    s.ifOwner p (.ok (s.updDev fun v => v.updPart p fun q => { q with worst := 0 }, []))

end Sys2Proof.Machine
end

