-- ==== Sys2Proof/Machine/Interlock.lean ====
section
/-! DEFINITION. Which registers an operation reads and writes, with which latency, and what it waits for before its
bundle issues (R144, R152 to R157, R262, R375, R377). -/

namespace Sys2Proof.Machine

/-- A register of one of the three files; vector registers by physical number (R226). -/
inductive RegRef where
  | s (r : Reg)
  | a (r : BitVec 4)
  | v (r : Reg)
  deriving DecidableEq, Repr

/-- The file and number of a register as STALLCHK reports them (R189). -/
def RegRef.info : RegRef → Nat
  | .s r => r.toNat
  | .a r => r.toNat + 2 ^ 5
  | .v r => r.toNat + 2 * 2 ^ 5

/-- What an operation asks of the registers. `writes` pairs a destination with its fixed latency, or with none when
its result is interlocked (R153, R154); `mask` says that it uses the top mask (R144); `pushes` counts its
entries. -/
structure Uses where
  reads  : List RegRef := []
  writes : List (RegRef × Option Nat) := []
  mask   : Bool := false
  pushes : Nat := 0
  deriving DecidableEq, Repr

/-- A fixed-latency scalar operation. -/
def useS (lat : Nat) (d : Reg) (rs : List Reg) : Uses := { reads := rs.map .s, writes := [(.s d, some lat)] }

/-- Scalar registers that are only read. -/
def useR (rs : List Reg) : Uses := { reads := rs.map .s }

/-- The registers of a memory operand (R162). -/
def eaReads (o : AForm) : List RegRef := (if o.as != 0 && o.base == 0 then [] else [.a o.base]) ++ [.s o.idx]

/-- The register of the b operand of an element operation (R229). -/
def Core.bRead (c : Core) (o : VForm) : List RegRef :=
  match o.mode with
  | 0 => [.v (c.vnum o.b)]
  | 1 => [.s o.b]
  | _ => []

/-- A vector operation of one result. -/
def Core.useV (c : Core) (o : VForm) (lat : Nat) (rs : List RegRef) : Uses :=
  { reads := rs, writes := [(.v (c.vnum o.d), some lat)], mask := o.p }

/-- An element operation with a and b (R229). -/
def Core.useE (c : Core) (o : VForm) (lat : Nat) : Uses := c.useV o lat (.v (c.vnum o.a) :: c.bRead o)

/-- A vector operation of one vector operand. -/
def Core.useU (c : Core) (o : VForm) (lat : Nat) : Uses := c.useV o lat [.v (c.vnum o.a)]

/-- VADD and its like: latency 6 as f32, 3 as integers (R262). -/
def arithLat (o : VForm) : Nat := if o.isInt then 3 else 6

/-- The axis operations of R241, whose amount may stand in s_b. -/
def Core.useAxis (c : Core) (o : VForm) (lat : Nat) : Uses :=
  c.useV o lat (.v (c.vnum o.a) :: (if o.fn.getLsbD 0 then [.s o.b] else []))

/-- The queue number read from s_b (R334). -/
def queueReads (o : XForm) : List RegRef := if o.fn.getLsbD 0 then [.s o.b] else []

/-- An X-slot operation of one fixed-latency scalar result. -/
def useX (lat : Nat) (d : Reg) (rs : List RegRef) : Uses := { reads := rs, writes := [(.s d, some lat)] }

/-- An engine operation: its token is interlocked (R154). -/
def useToken (o : XForm) (rs : List RegRef) : Uses := { reads := rs, writes := [(.s o.d, none)] }

/-- The special-register operand of a read or a write (R218). -/
def sprRef (o : SS) : RegRef := if o.isA then .a (o.d.setWidth 4) else .s o.d

/-- The registers of an S-slot operation. PRD waits for a mask in flight, as a guard does, which R203 does not say (DESIGN CHOICE,
log 114). -/
def usesS (i : Instr) : Uses :=
  match i with
  | .add o | .sub o | .and o | .or o | .xor o | .shl o | .shr o | .sra o | .min o | .max o | .minu o | .maxu o | .slt o
  | .sltu o => useS 1 o.d [o.a, o.b]
  | .mul o | .mulh o | .mulhu o => useS 3 o.d [o.a, o.b]
  | .div o | .divu o | .rem o | .remu o => { reads := [.s o.a, .s o.b], writes := [(.s o.d, none)] }
  | .sel o => useS 1 o.d [o.a, o.b, o.fn.setWidth 5]
  | .addi o | .andi o | .ori o | .xori o | .shli o | .shri o | .srai o | .lih o | .exts o | .extz o => useS 1 o.d [o.a]
  | .li o => useS 1 o.d []
  | .ins o => useS 1 o.d [o.a, o.d]
  | .clz o | .ctz o | .popc o | .bswap o => useS 1 o.d [o.a]
  | .cmp o => { useR [o.a, o.b] with pushes := 1 }
  | .cmpi o => { useR [o.a] with pushes := 1 }
  | .pelse _ => { mask := true }
  | .prd o => { useS 1 o.d [] with mask := true }
  | .pwr o => useR [o.a]
  | .br o => useR [o.a, o.b]
  | .bri o => useR [o.a]
  | .call _ => useS 1 31 []
  | .ret o | .jr o | .sev o => useR [o.a]
  | .callr o => useS 1 o.d [o.a]
  | .dbnz o => useS 1 o.a [o.a]
  | .tidx o => useS 3 o.d [o.a]
  | .rdsr o | .prdsr o => { writes := [(sprRef o, some 1)] }
  | .wrsr o | .pwrsr o => { reads := [sprRef o] }
  | .xlinvPage o => { reads := [.a (o.a.setWidth 4)] }
  | .ctxsv o | .ctxld o => useS 1 o.d []
  | .jrnl o => useS 1 o.d [o.a, o.b]
  | .kickscan o => useS 1 o.d [o.a]
  | _ => {}

/-- The registers of an A-slot operation; `c` names vector registers. -/
def Core.usesA (c : Core) (i : Instr) : Uses :=
  let t4 (o : AForm) : RegRef := .a (o.t.setWidth 4)
  match i with
  | .aadd o | .ascl o => { reads := [.a o.base, .s o.idx], writes := [(t4 o, some 1)] }
  | .aaddi o | .amov o => { reads := [.a o.base], writes := [(t4 o, some 1)] }
  | .aset o => { reads := [.s o.idx], writes := [(t4 o, some 1)] }
  | .aget o => { reads := [.a o.base], writes := [(.s o.t, some 1)] }
  | .acmp o => { reads := [.a o.base, t4 o], pushes := 1 }
  | .ld o | .ldc o => { reads := eaReads o, writes := [(.s o.t, none)] }
  | .st o => { reads := eaReads o ++ [.s o.t] }
  | .vld o | .vlds o => { reads := eaReads o, writes := [(.v (c.vnum o.t), none)], mask := o.g }
  | .vst o => { reads := eaReads o ++ [.v (c.vnum o.t)], mask := o.g }
  | .vstQueue o => { reads := eaReads o, mask := o.g }
  | .vgath o =>
    { reads := (eaReads o).dropLast ++ [.v (c.vnum o.idx)], writes := [(.v (c.vnum o.t), none)], mask := o.g }
  | .vscat o => { reads := (eaReads o).dropLast ++ [.v (c.vnum o.idx), .v (c.vnum o.t)], mask := o.g }
  | .lsld o => { reads := [.s o.idx], writes := [(.v (c.vnum o.t), none)], mask := o.g }
  | .lsst o => { reads := [.s o.idx, .v (c.vnum o.t)], mask := o.g }
  | .pref o | .wbl o | .invl o | .lpin o | .lpinLine o | .lunpin o | .lunpinLine o => { reads := eaReads o }
  | .amo o => { reads := eaReads o, writes := [(.s o.t, none)] }
  | .amos o => { reads := eaReads o }
  | .cas o => { reads := eaReads o ++ [.s o.t], writes := [(.s o.t, none)] }
  | _ => {}

/-- The registers of a V-slot operation (R262). -/
def Core.usesV (c : Core) (i : Instr) : Uses :=
  let a (o : VForm) : RegRef := .v (c.vnum o.a)
  let b (o : VForm) : RegRef := .v (c.vnum o.b)
  let cc (o : VForm) : RegRef := .v (c.vnum o.c)
  let d (o : VForm) : RegRef := .v (c.vnum o.d)
  match i with
  | .vadd o | .vsub o | .vmul o => c.useE o (arithLat o)
  | .vfma o | .vfms o | .vfnma o => c.useV o (arithLat o) (a o :: cc o :: c.bRead o)
  | .vabs o | .vneg o | .vnot o => c.useU o 3
  | .vmin o | .vmax o | .vand o | .vor o | .vxor o | .vshl o | .vshr o | .vsra o | .vmulh o
  | .vadds o | .vsubs o => c.useE o 3
  | .vdiv o => c.useE o 12
  | .vrcp o | .vrsq o | .vsqrt o | .vexp2 o | .vlog2 o | .vtanh o | .vsigm o | .vsinp o | .verf o => c.useU o 12
  | .vcmp o => { reads := a o :: c.bRead o, mask := o.p, pushes := 1 }
  | .vcls o | .vvtom o => { reads := [a o], mask := o.p, pushes := 1 }
  | .vsel o => { c.useE o 3 with mask := true }
  | .vmtov o => { c.useV o 3 [] with mask := true }
  | .vmcnt o => { writes := [(.s o.d, some 3)], mask := true }
  | .vmov o | .vbchk o => c.useU o 3
  | .vclmp o => c.useV o 3 [a o, b o, cc o]
  | .vsplat o => c.useV o 3 (if o.fn.getLsbD 0 then [] else [.s o.a])
  | .viota o => c.useV o 3 [.s o.a]
  | .vbcr o | .vrotr o => c.useAxis o 4
  | .vbcc o | .vrotc o => c.useAxis o 8
  | .vpermr o => c.useV o 4 [a o, b o]
  | .vpack o => c.useV o 4 [a o, d o]
  | .vunpk o => c.useU o 4
  | .vext o => { reads := [a o, .s o.b], writes := [(.s o.d, some 4)], mask := o.p }
  | .vins o => c.useV o 4 [.s o.a, .s o.b, d o]
  | .vredr o | .vscanr o => c.useU o 10
  | .vredc o => c.useU o 14
  | .vtrn o => c.useU o 12
  | .vcvt o | .vtidx o => c.useU o 6
  | .vscl o => c.useE o 6
  | .vqnt o => { reads := [a o, d o, cc o], writes := [(d o, some 16), (cc o, some 16)], mask := o.p }
  | .vdqt o => c.useV o 16 [a o, cc o]
  | .vspush o => { reads := if o.fn.getLsbD 0 then [a o, b o] else [a o], mask := o.p }
  | .vspop o => { writes := (d o, some 6) :: (if o.fn.getLsbD 0 then [(cc o, some 6)] else []), pushes := 1 }
  | .vqpop o | .vqpopSide o | .vqpopInfo o => c.useV o 4 []
  | _ => {}

/-- The registers of an X-slot operation. -/
def Core.usesX (i : Instr) : Uses :=
  match i with
  | .fmtw o | .shpw o | .feedcfg o | .lnest o => { reads := [.s o.a] }
  | .pcdec o | .pcdecFail o | .preempt o | .scrubcfg o => useX 1 o.d [.s o.a]
  | .fmtr o | .fmtrPend o | .bndr o | .bndrFa o | .cktolRd o | .rbpop o | .lstat o | .scrd o | .disp o | .qcfgpOff o => useX 1 o.d []
  | .bndw o | .cktol o | .rbcfg o | .lbody o | .phint o => { reads := [.s o.a, .s o.b] }
  | .cpy o | .cpyx o | .coll o | .fput o | .fget o => useToken o [.s o.a]
  | .wload o => useToken o [.a o.base]
  | .enq o => { reads := .s o.a :: queueReads o, writes := [(.s o.d, none)] }
  | .deq o => { reads := queueReads o, writes := [(.s o.d, none)] }
  | .deqt o => { reads := queueReads o, writes := [(.s o.d, none), (.s o.a, none)] }
  | .qstat o => useX 4 o.d (queueReads o)
  | .spawn o => useX 8 o.d (.s o.a :: (if o.b = 0 then [] else [.s o.b, .s (o.b + 1), .s (o.b + 2), .s (o.b + 3)]))
  | .barq o => useX 2 o.d []
  | .cmbopen o | .cmbopenTry o => { reads := [.s o.a], writes := [(.s o.d, none)] }
  | .cmbput o => useToken o [.s o.a, .s o.b, .a o.base]
  | .cmbpoll o | .cmbclose o => useX 8 o.d [.s o.a]
  | .pcset o => useX 1 o.d [.a o.base]
  | .qcfgp o => useX 1 o.d [.a o.base, .s o.a]
  | .migrate o => useX 1 o.d [.a o.base, .s o.a]
  | .obslog o | .healthw o => useX 1 o.d [.s o.a, .s o.b]
  | _ => {}

/-- The guard of an operation whose whole effect the scalar bit governs (R144); none for the others. -/
def scalarGuard (i : Instr) : Option Bool :=
  match slotOfOp i with
  | .s => some ((slotBits i).testBit 63)
  | .x => some ((slotBits i).testBit 63)
  | .a =>
    match i with
    | .vld _ | .vst _ | .vstQueue _ | .vlds _ | .vgath _ | .vscat _ | .lsld _ | .lsst _ => none
    | _ => some ((slotBits i).testBit 63)
  | _ => none

/-- An operation takes effect under its scalar guard (R144). -/
def Core.takes (c : Core) (i : Instr) : Bool := match scalarGuard i with | some g => c.active g | none => true

/-- The registers that an operation uses in the present state: none when its guard stops it; s0 is no register
that a result can reach (R171). -/
def Core.uses (c : Core) (i : Instr) : Uses :=
  if !c.takes i then {}
  else
    let u := match slotOfOp i with
      | .s => usesS i
      | .a => c.usesA i
      | .v0 => c.usesV i
      | .v1 => c.usesV i
      | .x => Core.usesX i
      | _ => {}
    { u with reads := u.reads.filter fun r => r != .s 0, writes := u.writes.filter fun w => w.1 != .s 0 }

/-- The register that a write reaches. -/
def Write.ref : Write → Option RegRef
  | .s r _ _ => some (.s r)
  | .a r _ _ => some (.a r)
  | .v r _ _ => some (.v r)
  | _ => Option.none

/-- The registers that an outstanding operation will write (R154). -/
def Outstanding.refs : Outstanding → List RegRef
  | .load w _ => w.ref.toList
  | .division _ _ _ d _ => [.s d]
  | .atomic _ _ _ _ _ _ d _ _ _ => (d.map RegRef.s).toList
  | .queue d _ a _ => .s d :: (a.map RegRef.s).toList
  | .engine e => [.s e.tok]

/-- τ cycles until every fixed-latency result in flight to a register has been written. -/
def Core.resultTime (c : Core) (r : RegRef) : Nat :=
  c.results.foldl (fun n x => if x.w.ref = some r then Nat.max n (x.due - c.tau) else n) 0

/-- A register waits for an outstanding operation (R154). -/
def Core.waitsFor (c : Core) (r : RegRef) : Bool := c.outst.any fun x => x.refs.contains r

/-- The τ at which the pipe of a slot is free (R157, R315). -/
def Core.busyUntil (c : Core) : Slot → Nat
  | .a => c.busyA
  | .v0 => c.busyV0
  | .v1 => c.busyV1
  | _ => 0

/-- The τ before which a bundle waits in a structural stall (R144, R154, R157, R158). -/
def Core.structural (c : Core) (h : Header) (ops : List Instr) : Nat :=
  ops.foldl (fun n i =>
    let u := c.uses i
    let n := Nat.max n (c.busyUntil (slotOfOp i))
    let n := if u.mask then Nat.max n (dueOf c.pstack) else n
    u.writes.foldl (fun n w => if w.2.isNone then Nat.max n (c.tau + c.resultTime w.1) else n) n)
    (if h.seg then c.tau + c.settleTime else 0)

/-- A bundle waits on the scoreboard (R154). -/
def Core.scoreboard (c : Core) (ops : List Instr) : Bool :=
  ops.any fun i => (c.uses i).reads.any c.waitsFor || (c.uses i).writes.any fun w => c.waitsFor w.1

/-- The detail of STALLCHK (R156, R189), when an operation reads in an exposed shadow or would be written before
an earlier result. -/
def Core.shadow (c : Core) (i : Instr) : Option Nat :=
  let u := c.uses i
  match u.reads.find? fun r => c.resultTime r > 0 with
  | some r => some (r.info + c.resultTime r % 256 * 2 ^ 8)
  | none =>
    match u.writes.find? fun w => match w.2 with | some l => decide (l < c.resultTime w.1) | none => false with
    | some w => some (w.1.info + c.resultTime w.1 % 256 * 2 ^ 8)
    | none => none

/-- The vector registers that a bundle would journal anew (R375). -/
def Core.newJournal (c : Core) (ops : List Instr) : Nat :=
  match c.seg with
  | none => 0
  | some g =>
    let ws := ops.flatMap fun i => (c.uses i).writes.filterMap fun w => match w.1 with | .v r => some r | _ => none
    (g.journal.map Prod.fst ++ ws).eraseDups.length

/-- A gang-mate holds its partners at rendezvous slot `n` (R377). -/
def Core.holdsAt (c : Core) (gang slot n : Nat) : Bool :=
  match c.task with
  | some t => t.gang == gang && !t.spawned && t.slot != slot && c.hold.isSome && decide (c.rdvseq.toNat ≤ n)
  | none => false

/-- The rendezvous slot of the focused task waits for a partner (R377). -/
def State.rendezvous (s : State) : Bool :=
  match s.core.task with
  | some t => !t.spawned && s.parked.any fun x => x.2.holdsAt t.gang t.slot s.core.rdvseq.toNat
  | none => false

end Sys2Proof.Machine
end

