-- ==== Sys2Proof/Machine/Finish.lean ====
section
/-! DEFINITION. What follows the issue of a bundle (R145, R147, R149 to R152, R319, R375, R377), and the all-zero bundle (R146). -/

namespace Sys2Proof.Machine

/-- The bundle that is next: its bits, what it feeds to the signature (nothing when the loop buffer gives it), the
position after it, and whether a loop body captures it, holds it, and runs it in this iteration (R149, R319). -/
structure Ready where
  bits    : Nat
  feed    : List Nat
  next    : Nat
  capture : Bool := false
  body    : Bool := false
  runs    : Bool := true
  deriving DecidableEq, Repr

/-- The signature once a bundle is counted (R149 to R151). -/
def SigState.feed (g : SigState) (h : Header) (hs : List Nat) : SigState :=
  if hs.isEmpty then g
  else if h.blk then { crc := crcFeed 0xFFFF hs, expect := h.sig, checked := true, needBlk := false, entry := false }
  else { g with crc := crcFeed g.crc hs, needBlk := false, entry := false, cut := none }

/-- The fields of a bundle that issues, for the operations in its slots (R189, R201, R208). -/
def Core.prepare (c : Core) (h : Header) (next pushes : Nat) : Core :=
  { c with curPop := h.pop, curPushes := pushes, seqPos := next, pnext := none, pwr := none, target := none, late := false, word := none,
           popped := Vector.replicate 4 0 }

/-- The signature after a bundle has issued (R150, R151). -/
def SigState.after (g : SigState) (h : Header) (hs : List Nat) (transfer ends : Bool) : SigState :=
  let g := g.feed h hs
  if transfer then { g with expect := if g.checked then g.expect else g.crc, checked := false, needBlk := true }
  else if ends then SigState.start
  else g

/-- Where a unit goes after a bundle (R147, R208, R319). -/
def Core.advance (c : Core) (f : Ready) : Core :=
  match c.replay with
  | none => { c with pos := c.target.getD c.seqPos }
  | some r =>
    if f.body then c.replayNext (if f.capture then { r with body := r.body ++ [f.bits], poss := r.poss ++ [(c.pos, f.next)] } else r)
    else ({ c with pos := c.seqPos } : Core).iterStart

/-- A rendezvous slot has issued (R377): its number counts, and a hold that it reaches ends. -/
def Core.rdvStep (c : Core) : Core :=
  let n := c.rdvseq + 1
  { c with rdvseq := n, hold := match c.hold with | some h => if n.toNat ≥ h.toNat then none else c.hold | none => none }

/-- A bundle has issued: the stack, the signature, FMT, the tokens read, τ, then the position (R145, R151, R152, R84, R131,
R377). -/
def Core.finishBundle (c : Core) (f : Ready) (h : Header) (used : List RegRef) (transfer ends : Bool) : Core :=
  let c := { c with
    pstack := (c.pwr.getD c.stackNow).drop h.pop.toNat, pwr := none, pnext := none, sig := c.sig.after h f.feed transfer ends, fmt := c.fmt.count,
    tokens := c.tokens.filter fun t => !(used.contains (.s t.reg)), noBreak := false, served := false, deqtAt := none, barFrom := none, word := none,
    popped := Vector.replicate 4 0 }
  let c := if h.rdv then c.rdvStep else c
  let c := (c.ticks (1 + h.st.toNat)).advance f
  { c with target := none }

/-- An S-slot operation that closes an open segment before it issues (R215). -/
def closesSeg (i : Instr) : Bool :=
  match i with
  | .sev _ | .sevAll _ | .wfe _ | .yield _ | .susp _ | .exit _ | .trap _ => true
  | _ => false

/-- An open segment closes before a bundle that opens one, that would write a ninth register, or that holds an operation of R215
(R375); a bundle with `seg` opens its segment. -/
def State.segmentFor (s : State) (h : Header) (ops : List Instr) : State :=
  if h.seg then
    (if (match s.core.seg with | some g => g.redo | none => false) then s else s.commitSeg).upd Core.openSeg
  else if s.core.newJournal ops > 8 || ops.any (fun i => closesSeg i && s.core.takes i) then s.commitSeg else s

/-- A step of a rendezvous wait (R377), whose beginning is noted for the log. -/
def State.rdvWait (s : State) : State :=
  { (s.upd fun c => { c with waitFrom := some (c.waitFrom.getD c.wall) }).tickWall with last := .waits }

/-- ALL_ZERO_BUNDLE (R146, R142): every slot is empty; the header acts: `seg` opens a segment once no result is in flight, a
rendezvous slot waits for the holds of its gang, `pop` beyond the depth raises PSTACK, and the bundle counts for FMT and
`RDVSEQ` and lasts 1 + `st` cycles of τ. Its index has been fed to the signature when it was fetched. -/
def execAllZeroBundle (h : Header) (s : State) : Host.Outcome State Fault Refusal :=
  .next (
    if h.seg && s.core.settleTime != 0 then s.waitTau (s.core.tau + s.core.settleTime)
    else if h.rdv && s.rendezvous then s.wait
    else
      let s := s.upd fun c => c.prepare h c.seqPos 0
      if h.pop.toNat > s.core.pstack.length then s.trap PSTACK .header s.core.pstackInfo
      else
        ((s.segmentFor h []).upd fun c =>
          c.finishBundle { bits := h.toNat, feed := [], next := c.seqPos } h [] false false).clock)

end Sys2Proof.Machine
end

