-- ==== Sys2Proof/Machine/Ports.lean ====
section
/-! DEFINITION. Host ports (R386, R449 to R452), the Verby fabric (R134, R455), completed page walks (R414 to R420). -/

namespace Sys2Proof.Machine

/-- A host access is refused (R449, R451): dropped and logged. -/
def Device.refuseHost (v : Device) (k off : Nat) : Device :=
  v.log 0 0x0071 0 5 k (BitVec.ofNat 64 off) (BitVec.ofNat 64 k) 0xFFFF 0xFF

/-- A doorbell write (R386, R465): the stream's kick bit is set when the port owns the partition, else the write is dropped
and logged; before bring-up it is dropped. -/
def Device.doorbell (v : Device) (k x : Nat) : Device :=
  let p := x / 2 ^ 8 % 8
  if !(v.port k).ready then v
  else if x / 2 ^ 11 % 2 ^ 21 ≠ 0 ∨ (v.part p).state = 0 ∨ (v.part p).port ≠ k % 2 then
    v.log 0 0x0023 0 5 k (BitVec.ofNat 64 (x % 2 ^ 32)) (BitVec.ofNat 64 k) 0xFFFF 0xFF
  else (v.updPart p fun q => { q with kicks := q.kicks ||| BitVec.ofNat 256 (2 ^ (x % 2 ^ 8)) }).wakeQp p

/-- DOORBELL (R386, R397, R450). -/
def execDoorbell (s : State) : Host.Outcome State Fault Refusal := .next (s.updDev fun v => v.doorbell s.ev.port s.ev.value)

/-- The PA that a BAR4 offset reaches (R451). -/
def Port.barPa (p : Port) (off : Nat) : Nat := p.winbase.toNat / 2 ^ 36 % 2 ^ 16 * 2 ^ 36 + off

/-- `n` bytes from a PA lie in device memory (R413, R451). -/
def inDevice (pa n : Nat) : Bool :=
  match physRange pa with
  | some (_, hi) => decide (pa + n ≤ hi) && decide (pa < 2 ^ 48)
  | none => false

/-- The home of a physical location: a bound window's, where a page is bound to one (R428), else the memory. -/
def Device.homeOf (v : Device) (pa : Nat) : Place × Nat :=
  let hit (d : Nat) : Option (Place × Nat) := (v.dome d).windows.findSome? fun w =>
    ((w.frames d).find? fun f => f.1 == pa / 65536 * 65536).map fun f => (.phys, f.2 + pa % 65536)
  match (List.range 4).findSome? hit with
  | some x => x
  | none => (.phys, pa)

/-- The byte of a location at its home as SYSTEM scope has it (R451). -/
def Device.homeByte (v : Device) (pa : Nat) : Byte := memGet v.mem (v.homeOf pa).2

/-- Write bytes at their home, published at SYSTEM scope (R128, R450), with new check values (R442). -/
def Device.homeWrite (v : Device) (pa : Nat) (bs : List Byte) : Device :=
  let cells := ((List.range bs.length).zip bs).map fun x => (let h := v.homeOf (pa + x.1); (h.1, h.2, x.2))
  (joinBytes cells).foldl (fun v x => v.put .host 5 x) v

/-- A completion leaves for a host read (R443, R451): the bytes, and whether it is a poisoned TLP; none for Unsupported Request. -/
def Device.answerRead (v : Device) (k pa : Nat) (a : Option (List Byte × Bool)) : Device :=
  v.updPort k fun p => { p with reads := p.reads ++ [(pa, a)] }

/-- HOST_BAR4_READ (R443, R451): the completion carries the latest bytes published at SYSTEM scope. The check values of its lines are
verified: it is poisoned when one fails, logged E2E (`ok` is false for an error of the line's own), or when a line is. An access outside device
memory is answered with Unsupported Request. -/
def execHostBar4Read (s : State) : Host.Outcome State Fault Refusal :=
  let k := s.ev.port
  let pa := (s.dev.port k).barPa s.ev.addr
  let n := s.ev.count
  .next (s.updDev fun v =>
    if s.ev.addr ≥ 2 ^ 36 ∨ !inDevice pa n then (v.refuseHost k s.ev.addr).answerRead k pa none
    else
      let bad := v.poisonedAt .phys pa n
      let fails := if s.ev.ok then v.failing pa n else [pa]
      let v := v.logFails 5 k 0xFF fails
      v.answerRead k pa (some ((List.range n).map fun i => v.homeByte (pa + i), bad || !fails.isEmpty)))

/-- HOST_BAR4_WRITE (R450, R451): only into units assigned to the port. -/
def execHostBar4Write (s : State) : Host.Outcome State Fault Refusal :=
  let k := s.ev.port
  let pa := (s.dev.port k).barPa s.ev.addr
  let n := s.ev.data.length
  let mine := (s.dev.port k).units.contains (pa / 2 ^ 28) && (s.dev.port k).units.contains ((pa + n - 1) / 2 ^ 28)
  .next (s.updDev fun v =>
    if s.ev.addr ≥ 2 ^ 36 ∨ !inDevice pa n ∨ !mine then v.refuseHost k s.ev.addr else v.homeWrite pa s.ev.data)

/-- A submission of the request in MBXREQ (R449, R453, R465): it waits for its turn at the custodian; one that arrives while BUSY is
set, or before the end of bring-up, is dropped. -/
def Device.mbxSubmit (v : Device) (k : Nat) : Device :=
  if !(v.port k).ready || (v.port k).busy then v.updPort k fun p => { p with ovr := true }
  else { v with mbx := v.mbx ++ [k % 2] }.updPort k fun p => { p with busy := true, done := false }

/-- The partitions that a port owns, bit p for partition p (R449, R452). -/
def Device.owned (v : Device) (k : Nat) : Nat :=
  (List.range 8).foldl (fun n p => if (v.part p).state ≠ 0 ∧ (v.part p).port = k % 2 then n + 2 ^ p else n) 0

/-- PORTSTAT and MBXSTAT of a port (R449). -/
def Device.portstat (v : Device) (k : Nat) : Nat := k % 2 + (if (v.port k).ready then 2 else 0) + 4 * v.owned k
def Port.mbxstat (p : Port) : Nat := (if p.busy then 1 else 0) + (if p.done then 2 else 0) + (if p.ovr then 4 else 0)

/-- A byte of the value `x` of a register at offset `o` of width `n`, where `a` lies in it. -/
def regByte (o n x a : Nat) : Option Byte := if o ≤ a ∧ a < o + n then some (BitVec.ofNat 8 (x / 256 ^ (a - o))) else none

/-- A host's read of a byte of BAR0 (R6, R449): the registers, the MSI-X table and its pending bits; a write-only register and an
unlisted offset read as zero. -/
def Device.bar0Byte (v : Device) (k a : Nat) : Byte :=
  let p := v.port k
  ((((regByte 0x0000 4 (v.portstat k) a).orElse fun _ =>
    (if 0x2000 ≤ a ∧ a < 0x3000 then some (memGet p.req (a - 0x2000)) else none)).orElse fun _ =>
    (if 0x3000 ≤ a ∧ a < 0x4000 then some (p.rsp.getD (a - 0x3000) 0) else none)).orElse fun _ =>
    ((regByte 0x4008 4 p.mbxstat a).orElse fun _ => (regByte 0x4010 8 p.winbase.toNat a).orElse fun _ =>
      ((if 0x8000 ≤ a ∧ a < 0x8400 then some (memGet p.msixTable (a - 0x8000)) else none).orElse fun _ => regByte 0x9000 8 p.msix.toNat a))).getD 0

/-- A host's read of `n` bytes of BAR0, and of BAR2, where each port maps the Almanac (R444, R449). It has no effect. -/
def Device.bar0Read (v : Device) (k a n : Nat) : List Byte := (List.range n).map fun i => v.bar0Byte k (a + i)
def Device.bar2Read (v : Device) (a n : Nat) : List Byte := (List.range n).map fun i => memGet v.almanac (a + i)

/-- WINBASE after a write of bytes at offset `o` of it (R449). -/
def winbaseWrite (w : Word) (o : Nat) (bs : List Byte) : Word :=
  BitVec.ofNat 64 (leNat (patch (bytesOfNat 8 w.toNat) o bs) / 2 ^ 36 % 2 ^ 16 * 2 ^ 36)

/-- HOST_REGISTER_WRITE (R449): `count` bytes of a value at a BAR0 offset. A read-only register ignores a write (log 79). -/
def execHostRegisterWrite (s : State) : Host.Outcome State Fault Refusal :=
  let k := s.ev.port
  let o := s.ev.addr
  let bs := bytesOfNat s.ev.count s.ev.value
  .next (s.updDev fun v =>
    if o = 0x1000 then v.doorbell k s.ev.value
    else if 0x2000 ≤ o ∧ o + s.ev.count ≤ 0x3000 then v.updPort k fun p => { p with req := memWrite p.req (o - 0x2000) bs }
    else if o = 0x4000 then (if s.ev.value % 2 = 1 then v.mbxSubmit k else v)
    else if 0x4010 ≤ o ∧ o + s.ev.count ≤ 0x4018 then v.updPort k fun p => { p with winbase := winbaseWrite p.winbase (o - 0x4010) bs }
    else if 0x8000 ≤ o ∧ o + s.ev.count ≤ 0x8400 then v.updPort k fun p => { p with msixTable := memWrite p.msixTable (o - 0x8000) bs }
    else if o = 0x0000 ∨ (0x3000 ≤ o ∧ o < 0x4000) ∨ o = 0x4008 ∨ (0x9000 ≤ o ∧ o < 0x9008) then v
    else v.refuseHost k o)

/-- PORT_LINK_LOSS (R446, R452): every partition that the port owns becomes FENCED with the grade of LINK-DOWN. -/
def execPortLinkLoss (s : State) : Host.Outcome State Fault Refusal :=
  let k := s.ev.port % 2
  let ps := (List.range 8).filter fun p => (s.dev.part p).state != 0 && (s.dev.part p).port == k
  let s := s.updDev fun v =>
    { v.log 0 0x0070 2 5 k (BitVec.ofNat 64 k) 0 0xFFFF 0xFF with mbx := v.mbx.filter fun x => x != k }.updPort k fun p =>
      { p with up := false, busy := false }
  .next (ps.foldl (fun s p => s.fence p 2 0x0070) s)

/-- VERBY_LINK_DOWN (R455). -/
def execVerbyLinkDown (s : State) : Host.Outcome State Fault Refusal :=
  let k := s.ev.port % 16
  .next (s.updDev fun v =>
    { v.log 0 0x0070 2 6 k (BitVec.ofNat 64 k) 0 0xFFFF 0xFF with vports := v.vports &&& ~~~(BitVec.ofNat 16 (2 ^ k)) })

/-- The places of `n` bytes of a context from a VA up, as far as they may be accessed (R417). -/
def Device.places (v : Device) (ctx : BitVec 12) (k : Kind) : Addr → Nat → List (Place × Nat)
  | _, 0 => []
  | va, n + 1 => match v.locate ctx va k with | .ok p => p :: v.places ctx k (va + 1) n | .error _ => []

/-- The device's accesses to the first `n` bytes at a VA set A, and D where they write, in each page (R418). -/
def Device.markPages (v : Device) (ctx : BitVec 12) (va : Addr) (n : Nat) (store : Bool) : Device :=
  if n = 0 then v
  else (List.range ((va.toNat % 65536 + n + 65535) / 65536)).foldl (fun v i => v.markEntry ctx (BitVec.ofNat 80 ((va.toNat / 65536 + i) * 65536)) store) v

/-- The status of a remote access of `n` bytes of which `m` translate (R324, R330). -/
def Device.remoteStatus (v : Device) (ctx : BitVec 12) (va : Addr) (k : Kind) (n m : Nat) : Nat :=
  if m = n then 0
  else match v.locate ctx (va + BitVec.ofNat 80 m) k with | .error c => faultStatus c (!k.writes) | .ok _ => 0

/-- The walk of the first byte that does not translate is logged where it meets a malformed entry (R416): the engines' unit kind is 2. -/
def Device.logRemote (v : Device) (ctx : BitVec 12) (va : Addr) (n m : Nat) : Device :=
  if m = n then v else v.logWalk 0 2 0 ((v.ctxOwner ctx).getD 0xFF) ctx (va + BitVec.ofNat 80 m)

/-- An FPUT arrives (R134, R328, R330): the bytes before the first that fails are written and published at FABRIC scope. -/
def Device.remotePut (v : Device) (g : Ingress) : Device :=
  let ps := v.places g.ctx .store g.va g.data.length
  let v := v.logRemote g.ctx g.va g.data.length ps.length
  let v := { v with egress := v.egress ++ [Frame.reply g.src [BitVec.ofNat 8 (v.remoteStatus g.ctx g.va .store g.data.length ps.length)]] }
  ((v.markPages g.ctx g.va ps.length true).writeAs .peer 4 g.ctx g.va (g.data.take ps.length)).carryLines ((v.ctxOwner g.ctx).getD 0xFF) ps g.checks

/-- An FGET arrives (R134, R330, R443): its source is read at FABRIC scope and leaves with its status: a poisoned source gives 0x06, and
one that fails its check value leaves with 0x08, logged E2E. -/
def Device.remoteGet (v : Device) (g : Ingress) : Device :=
  let ps := v.places g.ctx .load g.va g.len
  let st := v.remoteStatus g.ctx g.va .load g.len ps.length
  let fails := (v.checks.filter fun c => ps.any fun p => p.1 == .phys && overlaps p.2 1 c.1 64).map Prod.fst
  let bad := ps.any fun p => v.poisonedAt p.1 p.2 1
  let st := if st ≠ 0 then st else if bad then 6 else if fails.isEmpty then 0 else 8
  let bs := if st = 0 ∨ st = 8 then ps.map fun p => v.fabricByte p.1 p.2 else []
  let v := v.logRemote g.ctx g.va g.len ps.length
  let v := if bs.isEmpty then v else v.logFails 2 0 ((v.ctxOwner g.ctx).getD 0xFF) fails
  { v.markPages g.ctx g.va ps.length false with egress := v.egress ++ [Frame.reply g.src (BitVec.ofNat 8 st :: bs)] }

/-- FABRIC_INGRESS (R134, R330, R347): a request of another device: an FPUT, an FGET, or the row of a CMBPUT. The answer leaves for the
node that asked, its status first (log 68). -/
def execFabricIngress (s : State) : Host.Outcome State Fault Refusal :=
  let g := s.ev.ingress
  .next (s.updDev fun v =>
    match g.row with
    | some (h, p) =>
      let (st, v) := v.cmbReceive g.ctx h 0 p g.data
      { v with egress := v.egress ++ [Frame.reply g.src [BitVec.ofNat 8 st]] }
    | none => if g.put then v.remotePut g else v.remoteGet g)

/-- TRANSLATION_WALK (R414 to R420): a walk completes for the caches of the unit in focus, which sets A; a malformed entry is logged.
D waits for the store itself (R418). -/
def execTranslationWalk (s : State) : Host.Outcome State Fault Refusal :=
  let w := s.ev.walk
  .next (match s.dev.walk w.ctx w.va with
    | .ok _ => s.fill w.ctx w.va .any
    | .error _ => s.logWalk w.ctx w.va)

end Sys2Proof.Machine
end

