-- ==== Sys2Proof/Machine/Reliability.lean ====
section
/-! DEFINITION. Takeover's recovery (R408), scrubbing (R440, R441), lane repair (R432), thermal sensors (R459 to R461), power
(R462), the Almanac (R444), device reset (R465). -/

namespace Sys2Proof.Machine

/-- HEARTBEAT_EXPIRE (R408): the active queue processor has written no heartbeat for 3 × 2^20 cycles. -/
def execHeartbeatExpire (s : State) : Host.Outcome State Fault Refusal :=
  let d := s.ev.dome
  let late (k : Nat) : Bool :=
    let c := s.getCore (.qp d k)
    c.mon.active && !c.stopped && decide (c.wall - c.mon.qhbAt ≥ 3 * 2 ^ 20)
  .next (if late 0 then s.takeover d 0 1 else if late 1 then s.takeover d 1 1 else s)

/-- STANDBY_RECOVERY (R408): the queue processor that failed reloads its instruction memory and becomes the standby, or the dome's
standby is recorded as failed. -/
def execStandbyRecovery (s : State) : Host.Outcome State Fault Refusal :=
  let d := s.ev.dome
  let k := if (s.getCore (.qp d 0)).mon.active then 1 else 0
  let c := s.getCore (.qp d k)
  .next (
    if (s.dev.dome d).standby then s
    else if s.ev.ok then
      (s.setCore (.qp d k) { qpLoaded with wall := c.wall, window := c.window, stopped := true, mon := { Mon.reset with pstbl := c.mon.pstbl } }).updDev
        fun v => v.updDome d fun x => { x with standby := true }
    else
      (s.setCore (.qp d k) { c with mon := { c.mon with failed := true } }).updDev
        fun v => v.log d 0x0021 2 1 k (BitVec.ofNat 64 k) 0 0xFFFF 0xFF)

/-- Add 1 to an element of a vector of counts. -/
def bump (x : Vector Nat 3) (k : Nat) : Vector Nat 3 := x.setIfInBounds k (x.toArray.getD k 0 + 1)

/-- The frame of the encrypted page that a leaf of the event's context and address gives (R441). -/
def Device.encrypted (v : Device) (ctx : BitVec 12) (va : Addr) (page : Nat) : Bool :=
  match v.walk ctx va with
  | .ok (lvl, e) => pteKey e != 0 && leafPa lvl e va / 65536 * 65536 == page
  | .error _ => false

/-- A store to a page has reached memory since a stamp (R441). -/
def Device.writtenSince (v : Device) (page t : Nat) : Bool :=
  v.hist.any fun x => x.meets page 65536 && x.pubs.any fun p => decide (3 ≤ p.1) && decide (t < p.2.2)

/-- The scrubber of a dome starts to recompute the integrity tag of a page (R441). -/
def Device.tagStart (v : Device) (d page k : Nat) : Device := v.updDome d fun x => { x with tagScan := some (page, v.stamp, k) }

/-- The scrubber has read the last line of an encrypted page (R441): a write to the page since the attempt began makes it repeat the page,
up to four times; else the recomputed tag is compared with the held one, and a mismatch is logged, graded D, and poisons the page. -/
def Device.tagEnd (v : Device) (d tier page p : Nat) : Device :=
  match (v.dome d).tagScan with
  | none => v
  | some (q, t, k) =>
    if q ≠ page then v
    else if v.writtenSince page t then (if k < 4 then v.tagStart d page (k + 1) else v.updDome d fun x => { x with tagScan := none })
    else
      let v := v.updDome d fun x => { x with tagScan := none }
      if v.tagDiff page = 0 then v
      else (v.log d 0x0009 4 3 0 (BitVec.ofNat 64 page) (v.mark d tier p) 0xFFFF p).markPoison .phys page 65536

/-- Stored bytes of an encrypted page have changed, and no code word shows it: the held integrity tag no longer is the XOR of the
lines' MACs (R441; log 99). -/
def Device.tagBreak (v : Device) (page : Nat) : Device :=
  if v.tagDiff page = 0 then { v with tags := v.tags.filter (fun t => t.1 != page) ++ [(page, 1)] } else v

/-- The errors of the word that holds `x` (R431, R440): a single bit is corrected and counted, more are poisoned and logged. -/
def Device.scrubWord (v : Device) (d tier : Nat) (pl : Place) (x bits : Nat) : Device :=
  let w := x / 8 * 8
  if bits = 0 then v
  else if bits = 1 then
    (v.updDome d fun y => { y with corrected := bump y.corrected tier }).log d 0x0001 0 3 0 (BitVec.ofNat 64 w) 1 0xFFFF 0xFF
  else (v.markPoison pl w 8).log d 0x0008 2 3 0 (BitVec.ofNat 64 w) (BitVec.ofNat 64 tier) 0xFFFF 0xFF

/-- PATROL_SCRUB (R403, R431, R438, R440, R441): while the period of tier `index` is not 0, the scrubber of a dome reads the line at
`addr`, an offset of the dome scratchpad on tier 2 unless `space` is 5, else a PA. `value` is the number of bits in error of the
word at `addr`; `bus` tells of bus errors; `ok` false says that stored bytes of the page have changed unseen. `ctx` and `va` name
the leaf of an encrypted page, whose tag is recomputed from its first line to its last. `count` 1 says that the line ends a pass. -/
def execPatrolScrub (s : State) : Host.Outcome State Fault Refusal :=
  let e := s.ev
  let d := e.dome
  let tier := e.index
  let page := e.addr / 65536 * 65536
  let pl : Place := if tier = 2 ∧ e.space ≠ 5 then .dome (d % 4) else .phys
  .next (if (s.dev.dome d).scrub.toArray.getD tier 0 = 0 then s else s.updDev fun v =>
    let v := (v.busError d e.addr e.bus).scrubWord d tier pl e.addr e.value
    let v := if e.ok then v else v.tagBreak page
    let v := if pl = .phys ∧ e.addr / 64 % 1024 = 0 ∧ v.encrypted e.ctx e.va page then v.tagStart d page 1 else v
    let v := if pl = .phys ∧ e.addr / 64 % 1024 = 1023 then v.tagEnd d tier page e.part else v
    if e.count = 1 then
      v.updDome d fun x => { x with passes := bump x.passes tier, passAt := x.passAt.setIfInBounds tier (some v.time) }
    else v)

/-- The spare lanes that a dome's bus has used (R432). -/
def Dome.sparesUsed (x : Dome) (bus : Nat) : Nat := match x.spares.find? fun y => y.1 == bus with | some y => y.2 | none => 0

/-- LANE_REPAIR (R432): lane `value` of bus `addr` is mapped to a spare; with both spares in use the stacked tier is
graded B. -/
def execLaneRepair (s : State) : Host.Outcome State Fault Refusal :=
  let d := s.ev.dome
  let bus := s.ev.addr
  let lane : Word := BitVec.ofNat 64 (bus + s.ev.value * 2 ^ 32)
  .next (s.updDev fun v =>
    let n := (v.dome d).sparesUsed bus
    if n < 2 then
      (v.updDome d fun x => { x with spares := x.spares.filter (fun y => y.1 != bus) ++ [(bus, n + 1)] }).log d 0x0006 0 3 0 lane
        (BitVec.ofNat 64 (1 - n)) 0xFFFF 0xFF
    else
      (v.updDome d fun x => { x with tierGrade := Nat.max x.tierGrade 2 }).log d 0x0007 2 3 0 (BitVec.ofNat 64 bus) 0 0xFFFF 0xFF)

/-- Sensor `c` of a cluster, when there is one. -/
def Cluster.sensor (k : Cluster) (c : Nat) : Option Sensor := k.sensors[c]?

/-- The largest reading of the sensors listed that have not failed (R460). -/
def Cluster.best (k : Cluster) (cs : List Nat) : Option Int :=
  cs.foldl (fun m c => match k.sensor c with
    | some x => if x.state ≠ 0 then m else match m with | some y => some (max x.reading y) | none => some x.reading
    | none => m) none

/-- The value of a column in use (R460), in sixteenths of a degree: its reading, or the substitute of a failed sensor; none
when no sensor of the cluster is valid. -/
def Cluster.value (k : Cluster) (c : Nat) : Option Int :=
  match k.sensor c with
  | none => none
  | some x =>
    if x.state = 0 then some x.reading
    else
      match k.best ((if c = 0 then [] else [c - 1]) ++ [c + 1]) with
      | some y => some (y + 80)
      | none => (k.best (List.range 16)).map fun y => y + 80

/-- The temperature of a cluster (R460). -/
def Cluster.temp (k : Cluster) : Option Int :=
  (List.range 16).foldl (fun m c => match k.value c with
    | some x => (match m with | some y => some (max x y) | none => some x)
    | none => m) none

/-- Two adjacent sensors have failed (R461). -/
def Cluster.twoFailed (k : Cluster) : Bool :=
  let bad (c : Nat) : Bool := match k.sensor c with | some x => x.state != 0 | none => false
  (List.range 15).any fun c => bad c && bad (c + 1)

/-- The rate of a cluster from its temperature (R461): stopped from 115 °C, half from 105 °C until it is below 100 °C; two
adjacent failed sensors keep half. -/
def Cluster.nextRate (k : Cluster) : Nat :=
  match k.temp with
  | none => if k.lockHalf then 1 else k.rate
  | some t =>
    if t ≥ 1840 then 2
    else if k.lockHalf ∨ t ≥ 1680 then 1
    else if t < 1600 then 0
    else (if k.rate = 0 then 0 else 1)

/-- The interval of 12,000,000 cycles of a sensor after a reading `r` at time `t`, with the cluster's power `w` (R459). -/
def Sensor.spanWith (x : Sensor) (t : Nat) (r : Int) (w : Nat) : Nat × Int × Int × Nat :=
  match x.span with
  | none => (t, r, r, w)
  | some (t0, lo, hi, w0) => (t0, min lo r, max hi r, w0)

/-- The interval of a sensor has ended with its reading nearly still, while the cluster's power changed by more than 10% (R459). The
intervals follow one another (DEDUCED, log 77). -/
def stillOver (sp : Nat × Int × Int × Nat) (t w : Nat) : Bool :=
  decide (t ≥ sp.1 + 12000000) && decide (sp.2.2.1 - sp.2.1 < 4) && decide (10 * ((w : Int) - (sp.2.2.2 : Int)).natAbs > sp.2.2.2)

/-- A sensor after a reading (R459): state 1 failed outside −40 … 150 °C, 2 stuck; both last until device reset. -/
def Sensor.after (x : Sensor) (t : Nat) (r : Int) (w : Nat) : Sensor :=
  let sp := x.spanWith t r w
  { reading := r, state := if x.state ≠ 0 then x.state else if r < -640 ∨ r > 2400 then 1 else if stillOver sp t w then 2 else 0
    span := if t ≥ sp.1 + 12000000 then some (t, r, r, w) else some sp }

/-- SENSOR_READ (R459 to R461): `sensor` names the cluster, the column, the reading in sixteenths of a degree and the cluster's power
in watts. -/
def execSensorRead (s : State) : Host.Outcome State Fault Refusal :=
  let g := s.ev.sensor
  let k := g.cluster % 8
  let d := k / 2
  let col := g.column % 16
  let old := s.dev.cluster k
  let x := (old.sensor col).getD { reading := 0, state := 0 }
  let y := x.after s.dev.time g.reading g.power
  let moved := ((g.power : Int) - ((x.spanWith s.dev.time g.reading g.power).2.2.2 : Int)).natAbs
  let c1 : Cluster := { old with sensors := old.sensors.setIfInBounds col y }
  let lock := old.lockHalf || c1.twoFailed
  let c2 : Cluster := { c1 with lockHalf := lock, grade := if lock then 2 else c1.grade }
  let c3 : Cluster := { c2 with rate := c2.nextRate }
  let p := (s.dev.partOfCluster k).getD 0xFF
  let unit := k % 2 * 16 + col
  let c16 : Word := BitVec.ofNat 64 col
  let cw : Word := BitVec.ofNat 64 k
  let s := s.updDev fun v =>
    let v := v.updCluster k fun _ => c3
    let v := if x.state = 0 ∧ y.state = 1 then v.log d 0x0050 0 7 unit c16 (BitVec.ofInt 64 g.reading) 0xFFFF p
      else if x.state = 0 ∧ y.state = 2 then v.log d 0x0051 0 7 unit c16 (BitVec.ofNat 64 moved) 0xFFFF p
      else v
    let v := if c3.rate ≠ old.rate ∧ c3.rate ≠ 2 then
        v.log d 0x0052 (if lock && !old.lockHalf then 2 else 0) 7 unit cw (BitVec.ofNat 64 c3.rate) 0xFFFF p
      else v
    if c3.rate = 2 ∧ old.rate ≠ 2 then v.log d 0x0053 2 7 unit cw (BitVec.ofInt 64 (c3.temp.getD 0)) 0xFFFF p else v
  .next (if c3.rate = 2 ∧ old.rate ≠ 2 ∧ p < 8 then s.fence p 2 0x0053 else s)

/-- POWER_WINDOW_END (R462): `value` is the average of the 1 ms window, `count` that of the last second, in watts. -/
def execPowerWindowEnd (s : State) : Host.Outcome State Fault Refusal :=
  let w := s.ev.value
  .next (s.updDev fun v =>
    let f := if w > v.powerLimit then Nat.max 4 (v.powerF - 1)
      else if 100 * w < 95 * v.powerLimit then Nat.min 16 (v.powerF + 1)
      else v.powerF
    let v' := { v with powerAvg := w, powerSec := s.ev.count, powerF := f }.decideHeadroom
    if f = v.powerF then v' else v'.log 0 0x0061 0 4 0 (BitVec.ofNat 64 f) (BitVec.ofNat 64 w) 0xFFFF 0xFF)

/-- QPSTAT of a queue processor as the Almanac shows it (R396, R444), with bit 63 set for one that is marked failed (R397). -/
def Mon.qpWord (m : Mon) (d : Nat) (tk : BitVec 4) : Nat :=
  (if m.active then 1 else 0) + (if m.take then 2 else 0) + d * 4 + m.parts.toNat * 2 ^ 4 + tk.toNat * 2 ^ 12
    + (if m.failed then 2 ^ 63 else 0)

/-- The regions of a snapshot, with their offsets (R444). -/
def State.almanacRegions (s : State) : List (Nat × List Byte) :=
  let v := s.dev
  let name : List Byte := [0x46, 0x4B, 0x39, 0x2D, 0x31, 0x30, 0x32, 0x34]
  let device : List Byte := name ++ bytesOfNat 2 2 ++ bytesOfNat 16 Config.serial.toNat ++ bytesOfNat 32 Config.custodianMeasurement.toNat
    ++ bytesOfNat 32 Config.qpMeasurement.toNat ++ bytesOfNat 2 v.powerAvg ++ bytesOfNat 2 v.powerSec ++ bytesOfNat 2 v.powerLimit
  let part (p : Nat) : List Byte :=
    let q := v.part p
    bytesOfNat 1 q.state ++ bytesOfNat 1 q.port ++ bytesOfNat 1 q.clusters.toNat ++ bytesOfNat 2 q.ctx.toNat ++ bytesOfNat 8 q.claimed
      ++ bytesOfNat 8 q.completed ++ bytesOfNat 1 q.worst ++ bytesOfNat 8 q.burst ++ bytesOfNat 32 q.monitor.toNat
  let cluster (k : Nat) : List Byte :=
    let c := v.cluster k
    bytesOfNat 16 c.offline.toNat ++ ((List.range 16).flatMap fun i => bytesOfNat 2 (((c.value i).getD 0) % 65536).toNat)
      ++ ((List.range 16).flatMap fun i => bytesOfNat 1 (match c.sensor i with | some x => x.state | none => 0))
      ++ bytesOfNat 1 c.rate ++ bytesOfNat 1 c.grade
  let dome (d : Nat) : List Byte :=
    let x := v.dome d
    bytesOfNat 8 ((s.getCore (.qp d 0)).mon.qpWord d (s.dev.dome d).tkcnt) ++ bytesOfNat 8 ((s.getCore (.qp d 1)).mon.qpWord d (s.dev.dome d).tkcnt)
      ++ ((List.range 6).flatMap fun b => bytesOfNat 1 (2 - x.sparesUsed b))
      ++ ((List.range 3).flatMap fun t => bytesOfNat 8 (x.passes.toArray.getD t 0) ++ bytesOfNat 8 (x.corrected.toArray.getD t 0))
      ++ bytesOfNat 8 (x.logSeq - 1) ++ bytesOfNat 1 x.tierGrade
  [(0x0000, [0x46, 0x4B, 0x41, 0x4C] ++ bytesOfNat 4 1 ++ bytesOfNat 8 (v.almGen + 2) ++ bytesOfNat 8 v.time),
   (0x0100, device)]
  ++ ((List.range 8).map fun p => (0x0400 + 128 * p, part p))
  ++ ((List.range 8).map fun k => (0x0800 + 256 * k, cluster k))
  ++ ((List.range 4).map fun d => (0x1000 + 512 * d, dome d))
  ++ [(0x2000, bytesOfNat 1 (v.graded.length - 1)), (0x4000, v.graded.flatMap LogEntry.bytes)]
  ++ v.almPosts.map fun x => (0x8000 + 16 * (x.1 - 0x800), bytesOfNat 8 x.2.1.toNat ++ bytesOfNat 1 x.2.2 ++ bytesOfNat 1 1)

/-- The lower-numbered queue processor of each dome starts its measured image (R463, R465). -/
def State.startFirmware (s : State) : State :=
  (List.range 4).foldl (fun s d =>
    let c := s.getCore (.qp d 0)
    s.setCore (.qp d 0) { c with stopped := false, mon := { c.mon with qhbAt := c.wall } }) s

/-- ALMANAC_SNAPSHOT (R444, R445, R463, R465): the custodian rebuilds the region; the generation stays even. The first one after a reset
is step 5 of bring-up: in step 4 the active queue processors have started, and step 6 follows, READY on both ports. `ok` false says
that an image failed its signature: it is not started, and READY stays clear until the next device reset. -/
def execAlmanacSnapshot (s : State) : Host.Outcome State Fault Refusal :=
  let bringUp := !s.dev.ready && !s.dev.bootFailed
  let good := bringUp && s.ev.ok
  let s := if good then s.startFirmware else s
  .next (s.updDev fun v =>
    let v := { v with almanac := s.almanacRegions.foldl (fun m x => memWrite m x.1 x.2) [], almGen := v.almGen + 2 }
    if good then { v with ready := true, ports := v.ports.map fun p => { p with ready := true } }
    else if bringUp then { v with bootFailed := true }
    else v)

/-- DEVICE_RESET (R437, R463, R465): every task and partition ends with no completion record; the logs stay, and so do the
bytes of memory with their integrity tags (log 30). -/
def execDeviceReset (s : State) : Host.Outcome State Fault Refusal :=
  let r := State.reset
  .next { r with
    agenda := s.agenda, ev := s.ev, free := s.free,
    dev := { r.dev with
      mem := s.dev.mem, checks := s.dev.checks, poison := s.dev.poison.filter fun q => q.1 == .phys, resets := s.dev.resets + 1,
      tags := s.dev.tags, graded := s.dev.graded,
      domes := Vector.ofFn fun (d : Fin 4) => { r.dev.domes[d] with log := s.dev.domes[d].log, logSeq := s.dev.domes[d].logSeq } } }

end Sys2Proof.Machine
end

