-- ==== Sys2Proof/Machine/Dispatch.lean ====
section
/-! DEFINITION. The dispatch: one arm for each constructor of `Instr`, each a direct call of its meaning. -/

namespace Sys2Proof.Machine

/-- What an operation or an event does. -/
def exec (i : Instr) (s : State) : Host.Outcome State Fault Refusal :=
  match i with
  | .add o => Sys2Proof.Machine.execAdd o s
  | .sub o => Sys2Proof.Machine.execSub o s
  | .mul o => Sys2Proof.Machine.execMul o s
  | .mulh o => Sys2Proof.Machine.execMulh o s
  | .mulhu o => Sys2Proof.Machine.execMulhu o s
  | .div o => Sys2Proof.Machine.execDiv o s
  | .divu o => Sys2Proof.Machine.execDivu o s
  | .rem o => Sys2Proof.Machine.execRem o s
  | .remu o => Sys2Proof.Machine.execRemu o s
  | .divisionComplete => Sys2Proof.Machine.execDivisionComplete s
  | .and o => Sys2Proof.Machine.execAnd o s
  | .or o => Sys2Proof.Machine.execOr o s
  | .xor o => Sys2Proof.Machine.execXor o s
  | .shl o => Sys2Proof.Machine.execShl o s
  | .shr o => Sys2Proof.Machine.execShr o s
  | .sra o => Sys2Proof.Machine.execSra o s
  | .min o => Sys2Proof.Machine.execMin o s
  | .max o => Sys2Proof.Machine.execMax o s
  | .minu o => Sys2Proof.Machine.execMinu o s
  | .maxu o => Sys2Proof.Machine.execMaxu o s
  | .slt o => Sys2Proof.Machine.execSlt o s
  | .sltu o => Sys2Proof.Machine.execSltu o s
  | .sel o => Sys2Proof.Machine.execSel o s
  | .addi o => Sys2Proof.Machine.execAddi o s
  | .andi o => Sys2Proof.Machine.execAndi o s
  | .ori o => Sys2Proof.Machine.execOri o s
  | .xori o => Sys2Proof.Machine.execXori o s
  | .shli o => Sys2Proof.Machine.execShli o s
  | .shri o => Sys2Proof.Machine.execShri o s
  | .srai o => Sys2Proof.Machine.execSrai o s
  | .li o => Sys2Proof.Machine.execLi o s
  | .lih o => Sys2Proof.Machine.execLih o s
  | .clz o => Sys2Proof.Machine.execClz o s
  | .ctz o => Sys2Proof.Machine.execCtz o s
  | .popc o => Sys2Proof.Machine.execPopc o s
  | .bswap o => Sys2Proof.Machine.execBswap o s
  | .exts o => Sys2Proof.Machine.execExts o s
  | .extz o => Sys2Proof.Machine.execExtz o s
  | .ins o => Sys2Proof.Machine.execIns o s
  | .cmp o => Sys2Proof.Machine.execCmp o s
  | .cmpi o => Sys2Proof.Machine.execCmpi o s
  | .pelse o => Sys2Proof.Machine.execPelse o s
  | .prd o => Sys2Proof.Machine.execPrd o s
  | .pwr o => Sys2Proof.Machine.execPwr o s
  | .br o => Sys2Proof.Machine.execBr o s
  | .bri o => Sys2Proof.Machine.execBri o s
  | .jmp o => Sys2Proof.Machine.execJmp o s
  | .call o => Sys2Proof.Machine.execCall o s
  | .ret o => Sys2Proof.Machine.execRet o s
  | .jr o => Sys2Proof.Machine.execJr o s
  | .callr o => Sys2Proof.Machine.execCallr o s
  | .dbnz o => Sys2Proof.Machine.execDbnz o s
  | .wfe o => Sys2Proof.Machine.execWfe o s
  | .sev o => Sys2Proof.Machine.execSev o s
  | .sevAll o => Sys2Proof.Machine.execSevAll o s
  | .yield o => Sys2Proof.Machine.execYield o s
  | .susp o => Sys2Proof.Machine.execSusp o s
  | .exit o => Sys2Proof.Machine.execExit o s
  | .trap o => Sys2Proof.Machine.execTrap o s
  | .trapf o => Sys2Proof.Machine.execTrapf o s
  | .tret o => Sys2Proof.Machine.execTret o s
  | .rdsr o => Sys2Proof.Machine.execRdsr o s
  | .wrsr o => Sys2Proof.Machine.execWrsr o s
  | .tidx o => Sys2Proof.Machine.execTidx o s
  | .mret o => Sys2Proof.Machine.execMret o s
  | .mretRequeue o => Sys2Proof.Machine.execMretRequeue o s
  | .mretEnd o => Sys2Proof.Machine.execMretEnd o s
  | .prdsr o => Sys2Proof.Machine.execPrdsr o s
  | .pwrsr o => Sys2Proof.Machine.execPwrsr o s
  | .qhbWrite => Sys2Proof.Machine.execQhbWrite s
  | .xlinvPage o => Sys2Proof.Machine.execXlinvPage o s
  | .xlinvCtx o => Sys2Proof.Machine.execXlinvCtx o s
  | .xlinvPart o => Sys2Proof.Machine.execXlinvPart o s
  | .ctxsv o => Sys2Proof.Machine.execCtxsv o s
  | .ctxld o => Sys2Proof.Machine.execCtxld o s
  | .corestop o => Sys2Proof.Machine.execCorestop o s
  | .jrnl o => Sys2Proof.Machine.execJrnl o s
  | .kickscan o => Sys2Proof.Machine.execKickscan o s
  | .cmplholdHold o => Sys2Proof.Machine.execCmplholdHold o s
  | .cmplholdRelease o => Sys2Proof.Machine.execCmplholdRelease o s
  | .aadd o => Sys2Proof.Machine.execAadd o s
  | .aaddi o => Sys2Proof.Machine.execAaddi o s
  | .amov o => Sys2Proof.Machine.execAmov o s
  | .aset o => Sys2Proof.Machine.execAset o s
  | .aget o => Sys2Proof.Machine.execAget o s
  | .acmp o => Sys2Proof.Machine.execAcmp o s
  | .ascl o => Sys2Proof.Machine.execAscl o s
  | .ld o => Sys2Proof.Machine.execLd o s
  | .ldc o => Sys2Proof.Machine.execLdc o s
  | .loadReturn => Sys2Proof.Machine.execLoadReturn s
  | .st o => Sys2Proof.Machine.execSt o s
  | .kStoreLand => Sys2Proof.Machine.execKStoreLand s
  | .forwardExpire => Sys2Proof.Machine.execForwardExpire s
  | .vld o => Sys2Proof.Machine.execVld o s
  | .vst o => Sys2Proof.Machine.execVst o s
  | .vstQueue o => Sys2Proof.Machine.execVstQueue o s
  | .vlds o => Sys2Proof.Machine.execVlds o s
  | .vgath o => Sys2Proof.Machine.execVgath o s
  | .vscat o => Sys2Proof.Machine.execVscat o s
  | .lsld o => Sys2Proof.Machine.execLsld o s
  | .lsst o => Sys2Proof.Machine.execLsst o s
  | .pref o => Sys2Proof.Machine.execPref o s
  | .wbl o => Sys2Proof.Machine.execWbl o s
  | .invl o => Sys2Proof.Machine.execInvl o s
  | .lpin o => Sys2Proof.Machine.execLpin o s
  | .lpinLine o => Sys2Proof.Machine.execLpinLine o s
  | .lunpin o => Sys2Proof.Machine.execLunpin o s
  | .lunpinLine o => Sys2Proof.Machine.execLunpinLine o s
  | .amo o => Sys2Proof.Machine.execAmo o s
  | .amos o => Sys2Proof.Machine.execAmos o s
  | .cas o => Sys2Proof.Machine.execCas o s
  | .atomicPerformed => Sys2Proof.Machine.execAtomicPerformed s
  | .translationWalk => Sys2Proof.Machine.execTranslationWalk s
  | .vadd o => Sys2Proof.Machine.execVadd o s
  | .vsub o => Sys2Proof.Machine.execVsub o s
  | .vmul o => Sys2Proof.Machine.execVmul o s
  | .vfma o => Sys2Proof.Machine.execVfma o s
  | .vfms o => Sys2Proof.Machine.execVfms o s
  | .vfnma o => Sys2Proof.Machine.execVfnma o s
  | .vmin o => Sys2Proof.Machine.execVmin o s
  | .vmax o => Sys2Proof.Machine.execVmax o s
  | .vabs o => Sys2Proof.Machine.execVabs o s
  | .vneg o => Sys2Proof.Machine.execVneg o s
  | .vand o => Sys2Proof.Machine.execVand o s
  | .vor o => Sys2Proof.Machine.execVor o s
  | .vxor o => Sys2Proof.Machine.execVxor o s
  | .vnot o => Sys2Proof.Machine.execVnot o s
  | .vshl o => Sys2Proof.Machine.execVshl o s
  | .vshr o => Sys2Proof.Machine.execVshr o s
  | .vsra o => Sys2Proof.Machine.execVsra o s
  | .vmulh o => Sys2Proof.Machine.execVmulh o s
  | .vadds o => Sys2Proof.Machine.execVadds o s
  | .vsubs o => Sys2Proof.Machine.execVsubs o s
  | .vrcp o => Sys2Proof.Machine.execVrcp o s
  | .vrsq o => Sys2Proof.Machine.execVrsq o s
  | .vsqrt o => Sys2Proof.Machine.execVsqrt o s
  | .vdiv o => Sys2Proof.Machine.execVdiv o s
  | .vexp2 o => Sys2Proof.Machine.execVexp2 o s
  | .vlog2 o => Sys2Proof.Machine.execVlog2 o s
  | .vtanh o => Sys2Proof.Machine.execVtanh o s
  | .vsigm o => Sys2Proof.Machine.execVsigm o s
  | .vsinp o => Sys2Proof.Machine.execVsinp o s
  | .verf o => Sys2Proof.Machine.execVerf o s
  | .vcmp o => Sys2Proof.Machine.execVcmp o s
  | .vcls o => Sys2Proof.Machine.execVcls o s
  | .vsel o => Sys2Proof.Machine.execVsel o s
  | .vmtov o => Sys2Proof.Machine.execVmtov o s
  | .vvtom o => Sys2Proof.Machine.execVvtom o s
  | .vmcnt o => Sys2Proof.Machine.execVmcnt o s
  | .vmov o => Sys2Proof.Machine.execVmov o s
  | .vsplat o => Sys2Proof.Machine.execVsplat o s
  | .viota o => Sys2Proof.Machine.execViota o s
  | .vbcr o => Sys2Proof.Machine.execVbcr o s
  | .vbcc o => Sys2Proof.Machine.execVbcc o s
  | .vrotr o => Sys2Proof.Machine.execVrotr o s
  | .vrotc o => Sys2Proof.Machine.execVrotc o s
  | .vpermr o => Sys2Proof.Machine.execVpermr o s
  | .vext o => Sys2Proof.Machine.execVext o s
  | .vins o => Sys2Proof.Machine.execVins o s
  | .vtrn o => Sys2Proof.Machine.execVtrn o s
  | .vredr o => Sys2Proof.Machine.execVredr o s
  | .vredc o => Sys2Proof.Machine.execVredc o s
  | .vscanr o => Sys2Proof.Machine.execVscanr o s
  | .vcvt o => Sys2Proof.Machine.execVcvt o s
  | .vqnt o => Sys2Proof.Machine.execVqnt o s
  | .vdqt o => Sys2Proof.Machine.execVdqt o s
  | .vscl o => Sys2Proof.Machine.execVscl o s
  | .vpack o => Sys2Proof.Machine.execVpack o s
  | .vunpk o => Sys2Proof.Machine.execVunpk o s
  | .vspush o => Sys2Proof.Machine.execVspush o s
  | .vspop o => Sys2Proof.Machine.execVspop o s
  | .vsbal o => Sys2Proof.Machine.execVsbal o s
  | .vtidx o => Sys2Proof.Machine.execVtidx o s
  | .vbchk o => Sys2Proof.Machine.execVbchk o s
  | .vclmp o => Sys2Proof.Machine.execVclmp o s
  | .vqpop o => Sys2Proof.Machine.execVqpop o s
  | .vqpopSide o => Sys2Proof.Machine.execVqpopSide o s
  | .vqpopInfo o => Sys2Proof.Machine.execVqpopInfo o s
  | .fixedResultWriteback => Sys2Proof.Machine.execFixedResultWriteback s
  | .mpush o => Sys2Proof.Machine.execMpush o s
  | .mbeat o => Sys2Proof.Machine.execMbeat o s
  | .beatLand => Sys2Proof.Machine.execBeatLand s
  | .mshift o => Sys2Proof.Machine.execMshift o s
  | .mdrain o => Sys2Proof.Machine.execMdrain o s
  | .drainEnterQueue => Sys2Proof.Machine.execDrainEnterQueue s
  | .mzero o => Sys2Proof.Machine.execMzero o s
  | .mswap o => Sys2Proof.Machine.execMswap o s
  | .mepoch o => Sys2Proof.Machine.execMepoch o s
  | .mretry o => Sys2Proof.Machine.execMretry o s
  | .mckloc o => Sys2Proof.Machine.execMckloc o s
  | .mckfix o => Sys2Proof.Machine.execMckfix o s
  | .mcal o => Sys2Proof.Machine.execMcal o s
  | .mcalComplete => Sys2Proof.Machine.execMcalComplete s
  | .monitorCalibration => Sys2Proof.Machine.execMonitorCalibration s
  | .mfbk o => Sys2Proof.Machine.execMfbk o s
  | .mctxSave o => Sys2Proof.Machine.execMctxSave o s
  | .mctxRestore o => Sys2Proof.Machine.execMctxRestore o s
  | .mctxKeep o => Sys2Proof.Machine.execMctxKeep o s
  | .minjAcc o => Sys2Proof.Machine.execMinjAcc o s
  | .minjCks o => Sys2Proof.Machine.execMinjCks o s
  | .minjPar o => Sys2Proof.Machine.execMinjPar o s
  | .fmtw o => Sys2Proof.Machine.execFmtw o s
  | .fmtTakeEffect => Sys2Proof.Machine.execFmtTakeEffect s
  | .fmtr o => Sys2Proof.Machine.execFmtr o s
  | .fmtrPend o => Sys2Proof.Machine.execFmtrPend o s
  | .bndw o => Sys2Proof.Machine.execBndw o s
  | .bndr o => Sys2Proof.Machine.execBndr o s
  | .bndrFa o => Sys2Proof.Machine.execBndrFa o s
  | .shpw o => Sys2Proof.Machine.execShpw o s
  | .feedcfg o => Sys2Proof.Machine.execFeedcfg o s
  | .feederRowArrive => Sys2Proof.Machine.execFeederRowArrive s
  | .rbcfg o => Sys2Proof.Machine.execRbcfg o s
  | .rbpop o => Sys2Proof.Machine.execRbpop o s
  | .rbGenerate => Sys2Proof.Machine.execRbGenerate s
  | .cktol o => Sys2Proof.Machine.execCktol o s
  | .cktolRd o => Sys2Proof.Machine.execCktolRd o s
  | .lnest o => Sys2Proof.Machine.execLnest o s
  | .lbody o => Sys2Proof.Machine.execLbody o s
  | .lbrk o => Sys2Proof.Machine.execLbrk o s
  | .lbrkDrain o => Sys2Proof.Machine.execLbrkDrain o s
  | .lstat o => Sys2Proof.Machine.execLstat o s
  | .cpy o => Sys2Proof.Machine.execCpy o s
  | .cpyx o => Sys2Proof.Machine.execCpyx o s
  | .copyComplete => Sys2Proof.Machine.execCopyComplete s
  | .wload o => Sys2Proof.Machine.execWload o s
  | .wloadComplete => Sys2Proof.Machine.execWloadComplete s
  | .scwait o => Sys2Proof.Machine.execScwait o s
  | .scrd o => Sys2Proof.Machine.execScrd o s
  | .enq o => Sys2Proof.Machine.execEnq o s
  | .deq o => Sys2Proof.Machine.execDeq o s
  | .deqt o => Sys2Proof.Machine.execDeqt o s
  | .deqtTimeout => Sys2Proof.Machine.execDeqtTimeout s
  | .qstat o => Sys2Proof.Machine.execQstat o s
  | .spawn o => Sys2Proof.Machine.execSpawn o s
  | .phase o => Sys2Proof.Machine.execPhase o s
  | .barr o => Sys2Proof.Machine.execBarr o s
  | .barw o => Sys2Proof.Machine.execBarw o s
  | .barq o => Sys2Proof.Machine.execBarq o s
  | .trig o => Sys2Proof.Machine.execTrig o s
  | .coll o => Sys2Proof.Machine.execColl o s
  | .collComplete => Sys2Proof.Machine.execCollComplete s
  | .fput o => Sys2Proof.Machine.execFput o s
  | .fget o => Sys2Proof.Machine.execFget o s
  | .fabricCopyComplete => Sys2Proof.Machine.execFabricCopyComplete s
  | .cmbopen o => Sys2Proof.Machine.execCmbopen o s
  | .cmbopenTry o => Sys2Proof.Machine.execCmbopenTry o s
  | .cmbput o => Sys2Proof.Machine.execCmbput o s
  | .cmbputArrival => Sys2Proof.Machine.execCmbputArrival s
  | .cmbDeadline => Sys2Proof.Machine.execCmbDeadline s
  | .cmbReleaseEnqueue => Sys2Proof.Machine.execCmbReleaseEnqueue s
  | .cmbpoll o => Sys2Proof.Machine.execCmbpoll o s
  | .cmbclose o => Sys2Proof.Machine.execCmbclose o s
  | .phint o => Sys2Proof.Machine.execPhint o s
  | .phclr o => Sys2Proof.Machine.execPhclr o s
  | .burstWindowEnd => Sys2Proof.Machine.execBurstWindowEnd s
  | .powerWindowEnd => Sys2Proof.Machine.execPowerWindowEnd s
  | .pcset o => Sys2Proof.Machine.execPcset o s
  | .pcdec o => Sys2Proof.Machine.execPcdec o s
  | .pcdecFail o => Sys2Proof.Machine.execPcdecFail o s
  | .disp o => Sys2Proof.Machine.execDisp o s
  | .preempt o => Sys2Proof.Machine.execPreempt o s
  | .qcfgp o => Sys2Proof.Machine.execQcfgp o s
  | .qcfgpOff o => Sys2Proof.Machine.execQcfgpOff o s
  | .migrate o => Sys2Proof.Machine.execMigrate o s
  | .scrubcfg o => Sys2Proof.Machine.execScrubcfg o s
  | .obslog o => Sys2Proof.Machine.execObslog o s
  | .healthw o => Sys2Proof.Machine.execHealthw o s
  | .gangStart => Sys2Proof.Machine.execGangStart s
  | .spawnedTaskStart => Sys2Proof.Machine.execSpawnedTaskStart s
  | .coldStartRelease => Sys2Proof.Machine.execColdStartRelease s
  | .taskResume => Sys2Proof.Machine.execTaskResume s
  | .footprintMove => Sys2Proof.Machine.execFootprintMove s
  | .gangWaitPreempt => Sys2Proof.Machine.execGangWaitPreempt s
  | .checkpointPreempt => Sys2Proof.Machine.execCheckpointPreempt s
  | .killPreempt => Sys2Proof.Machine.execKillPreempt s
  | .drainPreempt => Sys2Proof.Machine.execDrainPreempt s
  | .drainWindowExpire => Sys2Proof.Machine.execDrainWindowExpire s
  | .preemptionWaitExpire => Sys2Proof.Machine.execPreemptionWaitExpire s
  | .agingLimitExpire => Sys2Proof.Machine.execAgingLimitExpire s
  | .doorbell => Sys2Proof.Machine.execDoorbell s
  | .heartbeatExpire => Sys2Proof.Machine.execHeartbeatExpire s
  | .standbyRecovery => Sys2Proof.Machine.execStandbyRecovery s
  | .migratePage => Sys2Proof.Machine.execMigratePage s
  | .dwinBind => Sys2Proof.Machine.execDwinBind s
  | .dwinRevoke => Sys2Proof.Machine.execDwinRevoke s
  | .patrolScrub => Sys2Proof.Machine.execPatrolScrub s
  | .laneRepair => Sys2Proof.Machine.execLaneRepair s
  | .sensorRead => Sys2Proof.Machine.execSensorRead s
  | .almanacSnapshot => Sys2Proof.Machine.execAlmanacSnapshot s
  | .hostBar4Read => Sys2Proof.Machine.execHostBar4Read s
  | .hostBar4Write => Sys2Proof.Machine.execHostBar4Write s
  | .hostRegisterWrite => Sys2Proof.Machine.execHostRegisterWrite s
  | .partCreate => Sys2Proof.Machine.execPartCreate s
  | .partStateOnline => Sys2Proof.Machine.execPartStateOnline s
  | .partStateDrain => Sys2Proof.Machine.execPartStateDrain s
  | .partStateFence => Sys2Proof.Machine.execPartStateFence s
  | .partStateReset => Sys2Proof.Machine.execPartStateReset s
  | .partDestroy => Sys2Proof.Machine.execPartDestroy s
  | .ctxSet => Sys2Proof.Machine.execCtxSet s
  | .partCtx => Sys2Proof.Machine.execPartCtx s
  | .dispParam => Sys2Proof.Machine.execDispParam s
  | .cmbCfg => Sys2Proof.Machine.execCmbCfg s
  | .keyLoad => Sys2Proof.Machine.execKeyLoad s
  | .collGroup => Sys2Proof.Machine.execCollGroup s
  | .nodeSet => Sys2Proof.Machine.execNodeSet s
  | .monitorLoad => Sys2Proof.Machine.execMonitorLoad s
  | .memAssign => Sys2Proof.Machine.execMemAssign s
  | .logRead => Sys2Proof.Machine.execLogRead s
  | .attest => Sys2Proof.Machine.execAttest s
  | .powerLimit => Sys2Proof.Machine.execPowerLimit s
  | .gradeClear => Sys2Proof.Machine.execGradeClear s
  | .portLinkLoss => Sys2Proof.Machine.execPortLinkLoss s
  | .verbyLinkDown => Sys2Proof.Machine.execVerbyLinkDown s
  | .deviceReset => Sys2Proof.Machine.execDeviceReset s
  | .queueResultReturn => Sys2Proof.Machine.execQueueResultReturn s
  | .fabricIngress => Sys2Proof.Machine.execFabricIngress s
  | .allZeroBundle o => Sys2Proof.Machine.execAllZeroBundle o s

end Sys2Proof.Machine
end

