-- ==== Sys2Proof/Machine/Issue.lean ====
section
/-! DEFINITION. Issuing a bundle (R140 to R159, R200 to R208, R318 to R321, R366 to R368, R375 to R377, R383): its fetch, the
traps found before it issues in the ranks of R367, its waits, its slots, and what follows its issue. -/

namespace Sys2Proof.Machine

/-- The state that an outcome leaves. -/
def stateOf (o : Host.Outcome State Fault Refusal) (s : State) : State :=
  match o with
  | .next t => t
  | _ => s

/-- The next bundle: from the loop buffer, or fetched (R146, R319). -/
def State.nextBundle (s : State) : Except (Nat × Nat) Ready :=
  let fetched (capture body runs : Bool) : Except (Nat × Nat) Ready :=
    match s.fetch with
    | .error e => .error e
    | .ok f => .ok { bits := f.bits, feed := f.feed, next := f.next, capture := capture, body := body, runs := runs }
  match s.core.replay with
  | none => fetched false false true
  | some r =>
    match r.body[r.b]? with
    | some bits => .ok { bits := bits, feed := [], next := r.posOf (r.b + 1), body := true, runs := r.runs }
    | none => fetched true true r.runs

/-- The operation that an opcode names in a slot of a bundle, whatever its other fields hold. -/
def heldOp (bits : Nat) (sl : Slot) : Option Instr := if slotWord bits sl = 0 then none else buildSlot sl (slotWord bits sl)

/-- The operations that a bundle holds (R150, R209), undecoded. -/
def heldOps (bits : Nat) : List Instr := slotOrder.filterMap (heldOp bits)

/-- A control transfer (R150). -/
def isTransfer (i : Instr) : Bool :=
  match i with
  | .br _ | .bri _ | .jmp _ | .call _ | .ret _ | .jr _ | .callr _ | .dbnz _ => true
  | _ => false

/-- An operation whose bundle ends its block and is compared before it issues (R150, R151). -/
def endsBlock (i : Instr) : Bool :=
  match i with
  | .exit _ | .susp _ | .yield _ | .tret _ => true
  | _ => false

/-- A WFE, DEQ or Meridian DEQT that would suspend its task (R151, R211, R336). -/
def State.suspends (s : State) (i : Instr) : Bool :=
  s.core.takes i &&
  match i with
  | .wfe _ => !s.isQp && !s.core.evt
  | .deq o => s.deqSuspends o
  | .deqt o => s.core.mer && s.deqSuspends o
  | _ => false

/-- An operation that acts once its bundle has issued (R214, R221, R223, R373). -/
def State.actsLate (s : State) (i : Instr) : Bool :=
  match i with
  | .exit _ | .susp _ | .yield _ | .trap _ | .tret _ | .mret _ | .mretRequeue _ | .mretEnd _ | .corestop _ => true
  | i => s.suspends i

/-- The computed signature is not the expected one (R151). -/
def SigState.bad (g : SigState) : Bool := g.checked && g.crc != g.expect

/-- The detail of CFSIG (R151). -/
def SigState.info (g : SigState) (missing : Bool) : Nat := g.expect.toNat + g.crc.toNat * 2 ^ 16 + (if missing then 2 ^ 32 else 0)

/-- CFSIG due before a bundle (R150, R151): its detail. A block that a trap cut short ends at a bundle with `blk` to which its return
comes (log 24). -/
def State.sigTrap (s : State) (f : Ready) : Option Nat :=
  let g := s.core.sig
  let h := Header.ofNat f.bits
  if f.feed.isEmpty then none
  else if g.needBlk && !h.blk then some (g.info true)
  else if h.blk && !g.needBlk && g.bad then some (g.info false)
  else if h.blk && (match g.cut with | some x => x.1 != x.2 | none => false) then
    g.cut.map fun x => x.2.toNat + x.1.toNat * 2 ^ 16
  else if (heldOps f.bits).any (fun i => endsBlock i || s.suspends i) && (g.feed h f.feed).bad then some ((g.feed h f.feed).info false)
  else none

/-- CFSIG is taken before a bundle (R150, R151). At an entry no block has ended, so the two signatures, which agree, are
one free value (log 89). -/
def State.takeCfsig (s : State) (x : Nat) : State :=
  if s.core.sig.entry then
    let (v, s) := s.freeVal
    s.takeTrap CFSIG 6 (BitVec.ofNat 64 (v % 2 ^ 16 * 0x10001 + 2 ^ 32)) false
  else s.takeTrap CFSIG 6 (BitVec.ofNat 64 x) false

/-- The slot that SLOT of BPCn names (R383). -/
def slotNo (n : Nat) : Slot := slotOrder.getD n .none

/-- A slot of a bundle takes effect under its guard, as kind 3 of R383 asks; the M slot always does. -/
def Core.slotTakes (c : Core) (bits : Nat) (sl : Slot) : Bool :=
  match sl, heldOp bits sl with
  | .m, _ => true
  | _, none => false
  | _, some i =>
    match scalarGuard i with
    | some g => c.active g
    | none => !(slotBits i).testBit (if slotOfOp i == .a then 63 else 43) || c.topM != 0

/-- The dictionary index of a bundle at the position; none for a literal (R383). -/
def State.indexHere (s : State) : Option Nat :=
  match s.fetch with
  | .ok f => (match f.feed with | [x] => if x = 0xFFFF then none else some x | _ => none)
  | .error _ => none

/-- Comparator `w` of BPC matches the next bundle (R383). -/
def State.bpcHit (s : State) (w : Nat) (f : Option Ready) : Bool :=
  let val := w % 2 ^ 30
  let idx := s.indexHere == some (val % 2 ^ 16)
  let kind := match w / 2 ^ 30 % 4 with
    | 0 => false
    | 1 => s.core.pos == val
    | 2 => f.isSome && idx
    | _ => idx && (match f with | some f => s.core.slotTakes f.bits (slotNo (w / 2 ^ 32 % 8)) | none => false)
  kind && (!bitOf w 35 || (match s.core.replay with | some r => r.it % 2 ^ 24 == w / 2 ^ 40 % 2 ^ 24 | none => false))

/-- The comparator of lowest number that matches a task bundle about to issue (R383). -/
def State.breakHit (s : State) (f : Option Ready) : Option Nat :=
  if s.isQp || s.core.mon.mode || s.core.noBreak || (match f with | some f => !f.runs | none => false) then none
  else (List.range 8).find? fun k => s.bpcHit (s.core.mon.bpc[k % 8]'(Nat.mod_lt _ (by decide))).toNat f

/-- The M-slot operations that MHND stops in a handler without a saved matrix context (R266). -/
def mhndStops (i : Instr) : Bool :=
  match i with
  | .mctxSave _ => false
  | i => slotOfOp i == .m

/-- The decode of one slot by the unit in its mode (R143, R266, R318): the operation, or the trap and its detail. -/
def State.decodeHere (s : State) (capture : Bool) (bits : Nat) (sl : Slot) : Except (Nat × Nat) (Option Instr) :=
  let w := slotWord bits sl
  if w = 0 then .ok none
  else if opcodeField sl w = 0 then .error (RESV, w)
  else
    match buildSlot sl w with
    | none => .error (ILLOP, w)
    | some i =>
      match s.refuses i with
      | some code => .error (code, w)
      | none =>
        if encodeSlot i ≠ some (sl, w) ∨ zerosOk i = false then .error (RESV, w)
        else if legalOk i = false then .error (ILLOP, w)
        else
          match s.sprRefuses i with
          | some code => .error (code, w)
          | none =>
            if capture && bodyRefuses i then .error (ILLOP, w)
            else if mhndStops i && s.core.hnd && !s.core.msaved then .error (MHND, 0)
            else .ok (some i)

/-- The operations of a bundle in slot order, or the first decode trap with its slot and detail (R367). -/
def State.decodeAll (s : State) (capture : Bool) (bits : Nat) : List Slot → Except (Nat × Slot × Nat) (List Instr)
  | [] => .ok []
  | sl :: rest =>
    match s.decodeHere capture bits sl with
    | .error e => .error (e.1, sl, e.2)
    | .ok oi =>
      match s.decodeAll capture bits rest with
      | .error e => .error e
      | .ok is => .ok (match oi with | none => is | some i => i :: is)

/-- Rank 6 of R367: the header, then the slots. -/
def State.decodeBits (s : State) (capture : Bool) (bits : Nat) : Except (Nat × Slot × Nat) (List Instr) :=
  if bits / 2 ^ 10 % 2 ^ 6 ≠ 0 then .error (RESV, .header, bits % 2 ^ 32) else s.decodeAll capture bits slotOrder

/-- The collective that an outstanding operation has joined completes, once every participant has joined and none is on
another device (R344). -/
def State.collectiveDone (s : State) (k : Nat) : Option State :=
  match s.core.outst[k]? with
  | some (.engine e) =>
    if e.kind = 5 && (match s.dev.group e.group with | some g => !s.dev.hasRemote g | none => true) then
      (let t := stateOf (execCollComplete { s with ev := { index := k, group := e.group } }) s
       if t.core.outst.length < s.core.outst.length then some t else none)
    else none
  | _ => none

/-- Outstanding operation `k` completes, when nothing from outside the device decides it (R154, R322). -/
def State.doneHere (s : State) (k : Nat) : Option State :=
  match s.core.outst[k]? with
  | some x => if s.completesHere x then some (s.completeOp k) else s.collectiveDone k
  | none => none

/-- A step of a dynamic stall (R152): what the wait may be for goes on. The oldest outstanding operation that can complete
does; else a row that is on its way to the feeder comes; else a wall cycle passes, in which τ stands still. -/
def State.progress (s : State) : State :=
  let c := s.core
  let s := { s with last := .waits }
  if (match c.deqtAt with | some (t, false) => decide (t ≤ c.wall) | _ => false) then stateOf (exec .deqtTimeout s) s
  else
    match (List.range c.outst.length).findSome? s.doneHere with
    | some t => t
    | none =>
      match c.mat.feeder.pre.find? fun r => r.due.isNone with
      | some r => stateOf (exec .feederRowArrive { s with ev := { index := r.n } }) s
      | none => s.tickWall

/-- A rendezvous wait is over: it is logged when it was longer than 2^20 cycles (R377, R438). -/
def State.rdvDone (s : State) : State :=
  match s.core.waitFrom with
  | none => s
  | some t =>
    let n := s.core.wall - t
    let s := if n > 2 ^ 20 then s.logEvent 0x0043 0 (s.core.rdvseq.setWidth 64) (BitVec.ofNat 64 n) else s
    s.upd fun c => { c with waitFrom := none }

/-- The depth that a PWR of a bundle sets (R203). -/
def Core.pwrDepth (c : Core) (i : Instr) : Option Nat :=
  match i with
  | .pwr o => if c.active o.g then some ((c.sreg o.a).toNat / 2 ^ 16 % 32) else none
  | _ => none

/-- The operations of a bundle at which its task would suspend (R213). -/
def State.suspendsAt (s : State) (i : Instr) : Bool :=
  match i with
  | .yield o | .susp o => s.core.active o.g
  | i => s.suspends i

/-- Rank 7 of R367: PSTACK, SUSPV, STALLCHK, with the detail; `r` is the state that the slots leave (R213; log 80). -/
def State.bundleTrap (s r : State) (ops : List Instr) : Option (Nat × Nat) :=
  let c := s.core
  let depth := c.pstack.length + c.curPushes
  let after := (ops.findSome? c.pwrDepth).getD depth
  let susp := if ops.any s.suspendsAt then r.suspendCheck .header else none
  if depth > 16 || c.curPop.toNat > after then some (PSTACK, c.pstackInfo)
  else
    match susp.filter fun x => x.1 == PSTACK || x.1 == SUSPV with
    | some (code, _, info) => some (code, info)
    | none => if c.shchk then (ops.findSome? c.shadow).map fun x => (STALLCHK, x) else none

/-- What the slots of a bundle have done so far: the state, the traps met, the first wait. -/
structure Slots where
  st    : State
  traps : List (Instr × Trap) := []
  wait  : Option State := none
  deriving DecidableEq, Repr

/-- One slot operation acts on what the earlier ones left. An operation that acts late only shows the traps that it meets
before its bundle issues. -/
def Slots.run (r : Slots) (i : Instr) : Slots :=
  let t := stateOf (exec i { r.st with last := .issued }) r.st
  if r.st.actsLate i then
    match t.last with
    | .trapped x => if x.after then r else { r with traps := r.traps ++ [(i, x)] }
    | _ => r
  else
    match t.last with
    | .issued => { r with st := t }
    | .trapped x => { r with traps := r.traps ++ [(i, x)] }
    | _ => { r with wait := some (r.wait.getD t) }

/-- The stores of the A slot, whose bytes move after every slot has read memory (R18, R115). -/
def isStore (i : Instr) : Bool :=
  match i with
  | .st _ | .vst _ | .vstQueue _ | .vscat _ | .lsst _ => true
  | _ => false

/-- The result queues of a core with the drains in flight to them, and the pops of the bundle that issues, as another core has them. -/
def Core.queuesOf (c d : Core) : Core := { c with mat := { c.mat with queues := d.mat.queues, drains := d.mat.drains }, popped := d.popped }

/-- The drains in flight as another core has them. -/
def Core.drainsOf (c d : Core) : Core := { c with mat := { c.mat with drains := d.mat.drains } }

/-- The CLIPMASK words as another core has them. -/
def Core.clipsOf (c d : Core) : Core :=
  { c with mat := { c.mat with tiles := Vector.ofFn fun t =>
      let x := c.mat.tiles[t]
      { x with data := { x.data with clip := d.mat.tiles[t].data.clip } } } }

/-- The operation takes epochs of tiles as they stand at issue (R18, R285). -/
def takesEpoch (i : Instr) : Bool :=
  match i with
  | .mepoch _ => true
  | .mbeat o | .mshift o | .mpush o => MForm.fEp o
  | _ => false

/-- A slot operation that stores nothing acts. An epoch has the CLIPMASK words as they stood at issue, where the S slot writes one (R18),
and an X-slot pop does not see the same bundle's drain in flight (R290). -/
def Slots.act (s : State) (r : Slots) (i : Instr) : Slots :=
  let kept := r.st.core
  if takesEpoch i then
    let r := Slots.run { r with st := r.st.upd fun c => c.clipsOf s.core } i
    { r with st := r.st.upd fun c => c.clipsOf kept }
  else if slotOfOp i == .x then
    let r := Slots.run { r with st := r.st.upd fun c => c.drainsOf s.core } i
    { r with st := r.st.upd fun c => c.drainsOf kept }
  else Slots.run r i

/-- A VST of a queue entry takes its quarter in the A slot's place among the pops of its bundle (R290). -/
def Slots.popFirst (r : Slots) (i : Instr) : Slots :=
  match i with
  | .vstQueue _ =>
    let t := stateOf (exec i { r.st with last := .issued }) r.st
    (match t.last with
     | .issued => { r with st := r.st.commitSeg.upd fun c => c.queuesOf t.core }
     | _ => r)
  | _ => r

/-- A store acts on the memory that the other slots have read, with the bound registers and the result queues as they stood at
issue. -/
def Slots.store (s : State) (r : Slots) (i : Instr) : Slots :=
  let kept := r.st.core
  let r := Slots.run { r with st := r.st.upd fun c => { c.queuesOf s.core with bounds := s.core.bounds } } i
  { r with st := r.st.upd fun c => { c.queuesOf kept with bounds := kept.bounds } }

/-- Every slot of a bundle acts (R18), the stores after the slots that read memory; the operations that act late show last the traps
that they meet, in the state that the bundle leaves, but with the result queues as they stood before it (R214, R291). Where the bundle holds an MSWAP and a WLOAD, the M slot acts first, and
the WLOAD fills the bank that is the shadow bank after the exchange (DESIGN CHOICE, log 18). -/
def State.runSlots (s : State) (ops : List Instr) : Slots :=
  let (late, now) := ops.partition s.actsLate
  let r := (ops.filter isStore).foldl Slots.popFirst { st := s }
  let r := (now.filter fun i => !isStore i).foldl (Slots.act s) r
  let r := (now.filter isStore).foldl (Slots.store s) r
  { late.foldl Slots.run { r with st := r.st.upd fun c => c.queuesOf s.core } with st := r.st }

/-- The tokens that a bundle reads for the first time (R131). -/
def Core.firstReads (c : Core) (ops : List Instr) : List Token :=
  c.tokens.filter fun t => ops.any fun i => (c.uses i).reads.contains (.s t.reg)

/-- The trap of the first read of a failed token (R328, R331): slot, token and code, for the lowest slot. -/
def Core.tokenTrap (c : Core) (ops : List Instr) : Option (Slot × Token × Nat) :=
  ops.findSome? fun i =>
    (c.tokens.filter fun t => (c.uses i).reads.contains (.s t.reg)).findSome? fun t => t.trap.map fun code => (slotOfOp i, t, code)

/-- COPY or WIMG (R131, R328, R331): the trap sets RPT, and the next read does not trap. -/
def State.takeTokenTrap (s : State) (sl : Slot) (t : Token) (code : Nat) : State :=
  (s.upd fun c =>
    { c.setS t.reg (c.sreg t.reg ||| 0x100000000000000) (c.sTaint t.reg) with
      tokens := c.tokens.map fun x => if x == t then { x with trap := none } else x }).takeTrap code sl.code (BitVec.ofNat 64 t.reg.toNat) false

/-- The trap of rank 8 that comes first in slot order is taken (R367); it is the meaning of its operation on the state
before the bundle. A rewind in a trap's place (code 0) has put the segment's entry back (R376). -/
def State.slotTrap (s : State) (i : Instr) (t : Trap) : State :=
  let u := stateOf (exec i { s with last := .issued }) s
  match u.last with
  | .trapped _ => u
  | _ => if t.code = 0 then { s with last := .waits } else s.takeTrap t.code t.slot t.info t.after

/-- The trap in the lowest slot. -/
def firstTrap : List (Instr × Trap) → Option (Instr × Trap)
  | [] => none
  | x :: rest =>
    match firstTrap rest with
    | none => some x
    | some y => if (slotOfOp y.1).code < (slotOfOp x.1).code then some y else some x

/-- The form in which an operation acts once its bundle has issued: its guard has been judged, and the queue of a DEQ
read (R144, R18). -/
def State.resolve (s : State) (i : Instr) : Instr :=
  let q (o : XForm) : XForm :=
    { o with g := false, fn := o.fn &&& 0xFE, imm := BitVec.ofNat 24 (o.imm.toNat / 256 * 256 + s.core.queueNo o) }
  match i with
  | .exit o => .exit { o with g := false }
  | .susp o => .susp { o with g := false }
  | .yield o => .yield { o with g := false }
  | .wfe o => .wfe { o with g := false }
  | .trap o => .trap { o with g := false }
  | .tret o => .tret { o with g := false }
  | .deq o => .deq (q o)
  | .deqt o => .deqt (q o)
  | i => i

/-- An operation acts once its bundle has issued; while it waits it is owed. -/
def State.actLate (s : State) (i : Instr) : State :=
  let t := stateOf (exec i { s with core := { s.core with late := true, owed := none }, last := .issued }) s
  match t.last with
  | .waits => t.progress.upd fun c => { c with late := false, owed := some i }
  | .waitTau n => { t.upd fun c => { c.ticks (n - c.tau) with late := false, owed := some i } with last := .waitTau n }
  | _ => { t with core := { t.core with late := false } }

/-- The late operations of a bundle in slot order; one that ends the task's stay, or waits, is the last. -/
def State.actAll (s : State) : List Instr → State
  | [] => s
  | i :: rest =>
    let t := s.actLate i
    match t.last with
    | .issued => if t.core.task == s.core.task then t.actAll rest else t
    | _ => t

/-- What a slot that waits leaves for the bundle's next try: a structural wait that it has served with the hidden beats of a checked
drain (R288), the end of a DEQT's wait and its place among the waiters (R48, R336), and since when it waits at a barrier (R45). -/
def State.carryWait (s w : State) : State :=
  let s := s.upd fun c =>
    { c with served := w.core.served, deqtAt := w.core.deqtAt, barFrom := w.core.barFrom,
             mat := if w.core.served && !c.served then { c.mat with beats := w.core.mat.beats } else c.mat }
  match s.core.task with
  | none => s
  | some t =>
    match (w.dev.slotOf t.part t.slot).bind TaskSlot.deqtQ, (s.dev.slotOf t.part t.slot).bind TaskSlot.deqtQ with
    | some q, none => s.updDev fun v => v.joinWait t.part q t.slot
    | _, _ => s

/-- The bundle would issue: its slots act together, or it waits, or the trap of the lowest rank and slot is taken (R16, R367). A
token that it reads first acquires the bytes it names, an open segment closed before (R118, R131). -/
def State.issueNow (s : State) (f : Ready) (h : Header) (ops : List Instr) : State :=
  let s0 := s.segmentFor h ops
  let reads := s0.core.firstReads ops
  let s1 := if reads.isEmpty then s0 else reads.foldl (fun s t => s.acquireBytes t.scope.toNat t.ranges) s0.commitSeg
  let r := s1.runSlots ops
  match r.wait with
  | some w =>
    let s := s.carryWait w
    (match w.last with
     | .waitTau n => { (s.upd fun c => c.ticks (n - c.tau)) with last := .waitTau n }
     | _ => s.progress)
  | none =>
    match s.bundleTrap r.st ops with
    | some (code, info) => s.takeTrap code 6 (BitVec.ofNat 64 info) false
    | none =>
    match s0.core.tokenTrap ops, firstTrap r.traps with
    | some (sl, t, code), some (i, x) => if sl.code ≤ (slotOfOp i).code then s0.takeTokenTrap sl t code else s0.slotTrap i x
    | some (sl, t, code), none => s0.takeTokenTrap sl t code
    | none, some (i, x) => s0.slotTrap i x
    | none, none =>
      let late := ops.filter fun i => s0.core.takes i && s0.actsLate i
      let used := ops.flatMap fun i => (s0.core.uses i).reads ++ (s0.core.uses i).writes.map Prod.fst
      let transfer := ops.any isTransfer
      let sig := r.st.core.sig.feed h f.feed
      let t := { (r.st.upd fun c => c.finishBundle f h used transfer (ops.any fun i => endsBlock i || s0.suspends i)).clock with last := .issued }
      if transfer && sig.bad then t.takeTrap CFSIG 6 (BitVec.ofNat 64 (sig.info false)) true
      else t.actAll (late.map s0.resolve)

/-- The bytes of memory that an operation reads or writes as it issues, as places with lengths: none for an operation
whose bytes a descriptor names. -/
def State.reach (s : State) (i : Instr) : Option (List (Place × Nat × Nat)) :=
  let one (o : AForm) (x : Int) : List (Place × Nat × Nat) :=
    let n := sizeBytes o.size.toNat
    match s.place o.as.toNat x n .any with | .ok p => [(p.1, p.2, n)] | .error _ => []
  let rows (o : AForm) (xs : List Int) : List (Place × Nat × Nat) :=
    match s.rowPlaces o.as.toNat .any xs with | .ok ps => ps.map fun p => (p.1, p.2, 64) | .error _ => []
  let lanes (o : AForm) : List (Place × Nat × Nat) :=
    match s.lanePlaces o .any with | .ok ps => ps.map fun p => (p.2.1, p.2.2, sizeBytes o.size.toNat) | .error _ => []
  match i with
  | .ld o | .ldc o | .st o => some (one o (s.ea o (sxOf o)))
  | .amo o | .amos o | .cas o => some (one o (s.eaBase o))
  | .vld o | .vst o => some (rows o (s.rowAddrs o (rowsOf o)))
  | .vstQueue o => some (rows o (s.rowAddrs o 16))
  | .vlds o => some (rows o (s.stridedAddrs o (rowsOf o)))
  | .vgath o | .vscat o => some (lanes o)
  | .lnest _ | .cmbopen _ | .cmbopenTry _ | .cpy _ | .cpyx _ | .wload _ | .coll _ | .fput _ | .fget _ | .cmbput _ | .feedcfg _ | .mpush _ | .disp _ | .pcset _ | .qcfgp _ => none
  | _ => some []

/-- A bundle waits for an outstanding atomic of its task whose bytes it would read or write (R115, R152; log 91). -/
def State.atomicAhead (s : State) (ops : List Instr) : Bool :=
  s.core.outst.any fun x =>
    match x with
    | .atomic pl a n _ _ _ _ _ _ _ =>
      ops.any fun i => s.core.takes i &&
        match s.reach i with
        | none => true
        | some rs => rs.any fun r => decide (r.1 = pl) && decide (r.2.1 < a + n) && decide (a < r.2.1 + r.2.2)
    | _ => false

/-- A decoded bundle that runs: its waits, structural ones first, then its issue (R152, R154, R157, R367, R377). -/
def State.issueRun (s : State) (f : Ready) (ops : List Instr) : State :=
  let h := Header.ofNat f.bits
  let c := s.core
  let n := c.structural h ops
  if c.tau < n then { (s.upd fun c => c.ticks (n - c.tau)) with last := .waitTau n }
  else if c.scoreboard ops || s.atomicAhead ops then s.progress
  else if h.rdv && s.rendezvous then s.rdvWait
  else
    (s.rdvDone.upd fun c => c.prepare h f.next ((ops.map fun i => (c.uses i).pushes).foldl (fun a b => a + b) 0)).issueNow f h ops

/-- A body bundle that does not run in this iteration gives only its `st` (R319). -/
def State.issueIdle (s : State) (f : Ready) : State :=
  let h := Header.ofNat f.bits
  { (s.upd fun c => (c.prepare { h with pop := 0 } f.next 0).finishBundle f { h with pop := 0, seg := false, rdv := false } [] false false).clock with
    last := .issued }

/-- A fetched bundle (R367): ranks 2 to 4 and 6, then its issue. -/
def State.issueBundle (s : State) (f : Ready) : State :=
  match s.sigTrap f with
  | some x => s.takeCfsig x
  | none =>
    match s.core.firstBound with
    | some t => (s.upd fun c => { c with boundDue := [] }).takeTrap BOUND 6 (t.setWidth 64) false
    | none =>
      match s.breakHit (some f) with
      | some k => s.takeTrap BREAK 6 (BitVec.ofNat 64 k) false
      | none =>
        if !f.runs then
          (match (heldOps f.bits).find? fun i => f.capture && bodyRefuses i with
           | some i => s.trapOp ILLOP i
           | none => s.issueIdle f)
        else
          match s.decodeBits f.capture f.bits with
          | .error e => s.takeTrap e.1 e.2.1.code (BitVec.ofNat 64 e.2.2) false
          | .ok ops => s.issueRun f ops

/-- A bundle whose fetch faults (R367): ranks 3 and 4 come before. -/
def State.issueFault (s : State) (e : Nat × Nat) : State :=
  match s.core.firstBound with
  | some t => (s.upd fun c => { c with boundDue := [] }).takeTrap BOUND 6 (t.setWidth 64) false
  | none =>
    match s.breakHit none with
    | some k => s.takeTrap BREAK 6 (BitVec.ofNat 64 k) false
    | none => s.takeTrap e.1 6 (BitVec.ofNat 64 e.2) false

/-- The focused unit cannot issue in this cycle: it is idle or stopped, its cluster runs at half rate or not at all (R461), or
its gang's start is staggered (R407). -/
def State.held (s : State) : Bool :=
  s.core.stopped || (!s.isQp && (s.core.task.isNone && !s.core.mon.mode || (s.dev.cluster s.focus.cluster).rate == 2
    || (s.dev.cluster s.focus.cluster).rate == 1 && s.core.wall % 2 == 1 || s.coldHeld))

/-- The late operation that the focused unit owes in its mode. -/
def State.owedNow (s : State) : Option Instr :=
  match s.core.owed with
  | some i => if s.isQp || isPrivileged i == s.core.mon.mode then some i else none
  | none => none

/-- A pre-emption that waits for operations of the task that must complete first (R329, R382): it takes place, or one of them goes
on. The monitor is not pre-empted (R369). -/
def State.preemptDue (s : State) : Option State :=
  match s.core.preempt with
  | none => none
  | some (pol, _, why) =>
    if s.core.mon.mode then none
    else
      let t := s.preemptAgain pol why
      some (if t.core.preempt.isSome then t.progress else t)

/-- The focused unit goes on by one bundle, or by one step of a wait. -/
def State.issue (s : State) : State :=
  let s := { s with last := .issued }
  if s.held then s.tickWall
  else
    match s.preemptDue with
    | some t => t
    | none =>
    match s.owedNow with
    | some i => s.actLate i
    | none =>
      match s.core.badDue with
      | some b => (s.upd fun c => { c with badDue := none }).consume b 0
      | none =>
        if s.core.reraise && !s.core.mon.mode then
          (s.upd fun c => { c with reraise := false }).takeTrap TILECK 4 (BitVec.ofNat 64 s.core.mat.ckTile.toNat) false
        else
          match s.nextBundle with
          | .error e => s.fetchTouch.issueFault e
          | .ok f => (if f.feed.isEmpty then s else s.fetchTouch).issueBundle f

end Sys2Proof.Machine
end

