-- ==== Sys2Proof/Machine/Load.lean ====
section
/-! DEFINITION. A program of one bundle, as a load from outside the machine puts it there (log 55): a translation context, its
page tables and a code stream in the stacked tier, and a resident task that runs it. -/

namespace Sys2Proof.Machine

/-- A page-table entry that names the next table (R415). -/
def tableEntry (pa : Nat) : List Byte := bytesOfNat 8 (1 + pa / 65536 * 2 ^ 28)

/-- The leaf of the loaded program: 256 MiB from address 0, readable and executable, in the stacked tier, with A set (R414, R415). -/
def leafEntry : List Byte := bytesOfNat 8 0x817

/-- Where the loaded program's root table, NATV header and code lie. -/
def loadRoot : Nat := 0x10000
def loadHeader : Nat := 0x58000
def loadCode : Nat := 0x60000

/-- The header of the loaded code (R182): a dictionary of one entry, a stream of one literal. -/
def loadNatv : List Byte :=
  bytesOfNat 4 0 ++ bytesOfNat 4 1 ++ bytesOfNat 8 0x10000 ++ bytesOfNat 8 (loadCode - loadHeader) ++ bytesOfNat 4 25 ++ bytesOfNat 36 0

/-- The bytes of the loaded program in memory: the tables of five levels, the header, the escape and the literal (R146). -/
def loadMem (m : Mem) (bits : Nat) : Mem :=
  let m := memWrite m loadRoot (tableEntry 0x20000)
  let m := memWrite m 0x20000 (tableEntry 0x30000)
  let m := memWrite m 0x30000 (tableEntry 0x40000)
  let m := memWrite m 0x40000 (tableEntry 0x50000)
  let m := memWrite m 0x50000 leafEntry
  let m := memWrite m loadHeader loadNatv
  memWrite m loadCode (bytesOfNat 2 0xFFFF ++ bytesOfNat 48 bits)

/-- The ranges of memory that `loadMem` writes. -/
def loadRanges : List (Nat × Nat) :=
  [(loadRoot, 8), (0x20000, 8), (0x30000, 8), (0x40000, 8), (0x50000, 8), (loadHeader, 64), (loadCode, 50)]

/-- Stores without their bytes in the loaded ranges. -/
def beforeLoad (xs : List GStore) : List GStore := loadRanges.foldl (fun xs r => xs.flatMap fun x => x.outside r.1 r.2) xs

/-- The instruction memory of a queue processor with the loaded code (R395). -/
def loadImem (m : Mem) (bits : Nat) : Mem := memWrite m loadCode (bytesOfNat 2 0xFFFF ++ bytesOfNat 48 bits)

/-- The context entry of the loaded program (R412). -/
def loadContext (owner : Nat) : List Byte := bytesOfNat 8 loadRoot ++ bytesOfNat 1 1 ++ bytesOfNat 1 owner ++ bytesOfNat 54 0

/-- Where the loaded code lies. -/
def loadSrc : CodeSrc := { valid := true, dict := 0x68000, dlen := 1, code := BitVec.ofNat 80 loadCode, clen := 25 }

/-- The task of a loaded program: the only one of its launch (R43). -/
def loadTask : TaskInfo :=
  { part := 0, slot := 0, lid := 1, gang := 0, index := 0, gx := 0, gy := 0, gz := 0, cidx := 0, gsize := 1, cx := 1, cy := 1, cz := 1, param := 0,
    seed := 0, mer := false, pers := false, spawned := false, trapRej := false, code := loadSrc, spill := 0, foot := 0, domeBytes := 0, domeBase := 0,
    barriers := 0, metas := [], entryFmt := fmtReset, shchk := false, entry := 0, args := [], handlerPos := 0xFFFFFFFF, route := 0, htab := 0 }

/-- The unit in focus at the first position of the loaded code, with no wait and nothing due before it. -/
def Core.atLoaded (c : Core) (qp : Bool) (bits : Nat) : Core :=
  { c with
    task := if qp then c.task else some (c.task.getD loadTask), stopped := false, code := loadSrc, pos := 0, sig := SigState.start, replay := none,
    owed := none, badDue := none, reraise := false, boundDue := [], preempt := none, dirty := beforeLoad c.dirty,
    imem := if qp then loadImem c.imem bits else c.imem, mon := { c.mon with mcode := BitVec.ofNat 80 loadHeader } }

/-- The device with the loaded program in a context: its entry, its bytes, and no cached translation of that context. -/
def Device.withProgram (v : Device) (ctx : BitVec 12) (owner bits : Nat) : Device :=
  { v with
    contexts := (ctx, loadContext owner) :: v.contexts, mem := loadMem v.mem bits
    base := if v.hist.isEmpty then v.base else loadMem v.base bits, hist := beforeLoad v.hist
    clusters := v.clusters.map fun x => { x with leaves := x.leaves.filter fun y => y.ctx != ctx, nodes := x.nodes.filter fun y => y.ctx != ctx } }

/-- A bundle stored where the focused unit fetches its next one, with all that the fetch needs: a queue processor has it in its
instruction memory (R395). -/
def State.loadBundle (s : State) (bits : Nat) : State :=
  let qp := s.isQp
  let s1 := s.upd fun c => c.atLoaded qp bits
  if qp then { s1 with agenda := [] }
  else
    let p := s1.partition
    let ctx := (s1.dev.part p).ctx
    let v := s1.dev.updCluster s.focus.cluster fun x => { x with rate := 0, coldPending := [] }
    { s1 with
      core := { s1.core with tlb := s1.core.tlb.filter fun y => y.ctx != ctx }
      agenda := [], dev := v.withProgram ctx p bits }

end Sys2Proof.Machine
end

