-- ==== Sys2Proof/Machine/Step.lean ====
section
/-! DEFINITION. One step of the device (log 6): what is due on the agenda, else one bundle or one step of a wait of the unit in
focus; and a bundle placed where the next step fetches it. -/

namespace Sys2Proof.Machine

/-- An event of the table: a row that no slot encodes. -/
def isEvent (i : Instr) : Bool :=
  match i with
  | .allZeroBundle _ => false
  | i => slotOfOp i == .none

/-- What follows every step (R56, R408). -/
def tidied (o : Host.Outcome State Fault Refusal) : Host.Outcome State Fault Refusal :=
  match o with
  | .next t => .next t.tidy
  | .fault f => .fault f
  | .refused r => .refused r

/-- One step. -/
def step (s : State) : Host.Outcome State Fault Refusal :=
  tidied (match s.agenda with
    | .focus u :: rest => .next (({ s with agenda := rest } : State).refocus u)
    | .event i d :: rest =>
      if isEvent i then exec i { s with agenda := rest, ev := d, last := .issued } else .next { s with agenda := rest }
    | [] => .next s.issue)

/-- The state with the bundle whose bits are `w`, below bit `nbits`, where `step` fetches its next bundle (log 55). -/
def State.withFetchWord (s : State) (nbits w : Nat) : State := s.loadBundle (w % 2 ^ nbits)

end Sys2Proof.Machine
end

