-- ==== Sys2Proof/Laws/PerInstr.lean ====
section
/-! SUPPORT. The family `Fits`: what every instruction's encoding keeps to, one lemma for each constructor. -/

namespace Sys2Proof.Laws

/-- A Bool as a number is at most 1. -/
theorem bool_toNat_lt (b : Bool) : b.toNat < 2 := by cases b <;> decide

/-- Eight fields of the S, A and X forms stay below bit 64, and those of the V and M forms below their slots' widths
(R160 to R165). -/
theorem sr_toNat_lt (o : SR) {op : Nat} (h : op < 256) : o.toNat op < 2 ^ 64 := by
  have := o.d.isLt; have := o.a.isLt; have := o.b.isLt; have := o.fn.isLt; have := bool_toNat_lt o.g
  simp only [SR.toNat]; omega

theorem si_toNat_lt (o : SI) {op : Nat} (h : op < 256) : o.toNat op < 2 ^ 64 := by
  have := o.d.isLt; have := o.a.isLt; have := o.imm.isLt; have := o.fn.isLt; have := bool_toNat_lt o.g
  simp only [SI.toNat]; omega

theorem sb_toNat_lt (o : SB) {op : Nat} (h : op < 256) : o.toNat op < 2 ^ 64 := by
  have := o.cc.isLt; have := o.a.isLt; have := o.b.isLt; have := o.off.isLt; have := o.imm8.isLt; have := bool_toNat_lt o.g
  simp only [SB.toNat]; omega

theorem ss_toNat_lt (o : SS) {op : Nat} (h : op < 256) : o.toNat op < 2 ^ 64 := by
  have := o.d.isLt; have := o.spr.isLt; have := o.sel.isLt; have := bool_toNat_lt o.g; have := bool_toNat_lt o.isA
  simp only [SS.toNat]; omega

theorem a_toNat_lt (o : AForm) {op : Nat} (h : op < 256) : o.toNat op < 2 ^ 64 := by
  have := o.t.isLt; have := o.base.isLt; have := o.idx.isLt; have := o.as.isLt; have := o.size.isLt
  have := o.scope.isLt; have := o.tid.isLt; have := o.off.isLt; have := o.mod.isLt; have := bool_toNat_lt o.g
  simp only [AForm.toNat]; omega

theorem v_toNat_lt (o : VForm) {op : Nat} (h : op < 256) : o.toNat op < 2 ^ 56 := by
  have := o.d.isLt; have := o.a.isLt; have := o.b.isLt; have := o.c.isLt; have := o.ty.isLt; have := o.fn.isLt
  have := o.rm.isLt; have := o.tid.isLt; have := o.imm8.isLt; have := bool_toNat_lt o.p; have := bool_toNat_lt o.sat
  simp only [VForm.toNat]; omega

theorem m_toNat_lt (o : MForm) {op : Nat} (h : op < 64) : o.toNat op < 2 ^ 48 := by
  have := o.acc.isLt; have := o.mac.isLt; have := o.plane.isLt; have := o.split.isLt; have := o.q.isLt
  have := o.flags.isLt; have := o.row.isLt; have := o.imm.isLt; have := bool_toNat_lt o.bnk
  simp only [MForm.toNat]; omega

theorem x_toNat_lt (o : XForm) {op : Nat} (h : op < 256) : o.toNat op < 2 ^ 64 := by
  have := o.d.isLt; have := o.a.isLt; have := o.b.isLt; have := o.base.isLt; have := o.scope.isLt
  have := o.fn.isLt; have := o.imm.isLt; have := bool_toNat_lt o.g
  simp only [XForm.toNat]; omega

namespace Fits

/-- The slot word of an operation fits its slot (R140). -/
def Statement (i : Instr) : Prop := ∀ (sl : Slot) (w : Nat), encodeSlot i = some (sl, w) → w < 2 ^ sl.place.2

/-- A slot and a word that fits it. -/
theorem of_eq {sl s0 : Slot} {w n : Nat} (h : some (s0, n) = some (sl, w)) (hn : n < 2 ^ s0.place.2) : w < 2 ^ sl.place.2 := by
  cases h; exact hn

/-- The two V slots have one width. -/
theorem v_of_eq {sl : Slot} {v1 : Bool} {w n : Nat} (h : some (if v1 then Slot.v1 else Slot.v0, n) = some (sl, w)) (hn : n < 2 ^ 56) :
    w < 2 ^ sl.place.2 := by
  cases v1 <;> (cases h; exact hn)

/-- A row that no slot encodes. -/
theorem of_none {sl : Slot} {w : Nat} (h : none = some (sl, w)) : w < 2 ^ sl.place.2 := nomatch h

theorem add (o : SR) : Statement (.add o) := fun _ _ h => of_eq h (sr_toNat_lt o (by decide))
theorem sub (o : SR) : Statement (.sub o) := fun _ _ h => of_eq h (sr_toNat_lt o (by decide))
theorem mul (o : SR) : Statement (.mul o) := fun _ _ h => of_eq h (sr_toNat_lt o (by decide))
theorem mulh (o : SR) : Statement (.mulh o) := fun _ _ h => of_eq h (sr_toNat_lt o (by decide))
theorem mulhu (o : SR) : Statement (.mulhu o) := fun _ _ h => of_eq h (sr_toNat_lt o (by decide))
theorem div (o : SR) : Statement (.div o) := fun _ _ h => of_eq h (sr_toNat_lt o (by decide))
theorem divu (o : SR) : Statement (.divu o) := fun _ _ h => of_eq h (sr_toNat_lt o (by decide))
theorem rem (o : SR) : Statement (.rem o) := fun _ _ h => of_eq h (sr_toNat_lt o (by decide))
theorem remu (o : SR) : Statement (.remu o) := fun _ _ h => of_eq h (sr_toNat_lt o (by decide))
theorem divisionComplete : Statement .divisionComplete := fun _ _ h => of_none h
theorem and (o : SR) : Statement (.and o) := fun _ _ h => of_eq h (sr_toNat_lt o (by decide))
theorem or (o : SR) : Statement (.or o) := fun _ _ h => of_eq h (sr_toNat_lt o (by decide))
theorem xor (o : SR) : Statement (.xor o) := fun _ _ h => of_eq h (sr_toNat_lt o (by decide))
theorem shl (o : SR) : Statement (.shl o) := fun _ _ h => of_eq h (sr_toNat_lt o (by decide))
theorem shr (o : SR) : Statement (.shr o) := fun _ _ h => of_eq h (sr_toNat_lt o (by decide))
theorem sra (o : SR) : Statement (.sra o) := fun _ _ h => of_eq h (sr_toNat_lt o (by decide))
theorem min (o : SR) : Statement (.min o) := fun _ _ h => of_eq h (sr_toNat_lt o (by decide))
theorem max (o : SR) : Statement (.max o) := fun _ _ h => of_eq h (sr_toNat_lt o (by decide))
theorem minu (o : SR) : Statement (.minu o) := fun _ _ h => of_eq h (sr_toNat_lt o (by decide))
theorem maxu (o : SR) : Statement (.maxu o) := fun _ _ h => of_eq h (sr_toNat_lt o (by decide))
theorem slt (o : SR) : Statement (.slt o) := fun _ _ h => of_eq h (sr_toNat_lt o (by decide))
theorem sltu (o : SR) : Statement (.sltu o) := fun _ _ h => of_eq h (sr_toNat_lt o (by decide))
theorem sel (o : SR) : Statement (.sel o) := fun _ _ h => of_eq h (sr_toNat_lt o (by decide))
theorem addi (o : SI) : Statement (.addi o) := fun _ _ h => of_eq h (si_toNat_lt o (by decide))
theorem andi (o : SI) : Statement (.andi o) := fun _ _ h => of_eq h (si_toNat_lt o (by decide))
theorem ori (o : SI) : Statement (.ori o) := fun _ _ h => of_eq h (si_toNat_lt o (by decide))
theorem xori (o : SI) : Statement (.xori o) := fun _ _ h => of_eq h (si_toNat_lt o (by decide))
theorem shli (o : SI) : Statement (.shli o) := fun _ _ h => of_eq h (si_toNat_lt o (by decide))
theorem shri (o : SI) : Statement (.shri o) := fun _ _ h => of_eq h (si_toNat_lt o (by decide))
theorem srai (o : SI) : Statement (.srai o) := fun _ _ h => of_eq h (si_toNat_lt o (by decide))
theorem li (o : SI) : Statement (.li o) := fun _ _ h => of_eq h (si_toNat_lt o (by decide))
theorem lih (o : SI) : Statement (.lih o) := fun _ _ h => of_eq h (si_toNat_lt o (by decide))
theorem clz (o : SR) : Statement (.clz o) := fun _ _ h => of_eq h (sr_toNat_lt o (by decide))
theorem ctz (o : SR) : Statement (.ctz o) := fun _ _ h => of_eq h (sr_toNat_lt o (by decide))
theorem popc (o : SR) : Statement (.popc o) := fun _ _ h => of_eq h (sr_toNat_lt o (by decide))
theorem bswap (o : SR) : Statement (.bswap o) := fun _ _ h => of_eq h (sr_toNat_lt o (by decide))
theorem exts (o : SI) : Statement (.exts o) := fun _ _ h => of_eq h (si_toNat_lt o (by decide))
theorem extz (o : SI) : Statement (.extz o) := fun _ _ h => of_eq h (si_toNat_lt o (by decide))
theorem ins (o : SI) : Statement (.ins o) := fun _ _ h => of_eq h (si_toNat_lt o (by decide))
theorem cmp (o : SB) : Statement (.cmp o) := fun _ _ h => of_eq h (sb_toNat_lt o (by decide))
theorem cmpi (o : SI) : Statement (.cmpi o) := fun _ _ h => of_eq h (si_toNat_lt o (by decide))
theorem pelse (o : SR) : Statement (.pelse o) := fun _ _ h => of_eq h (sr_toNat_lt o (by decide))
theorem prd (o : SR) : Statement (.prd o) := fun _ _ h => of_eq h (sr_toNat_lt o (by decide))
theorem pwr (o : SR) : Statement (.pwr o) := fun _ _ h => of_eq h (sr_toNat_lt o (by decide))
theorem br (o : SB) : Statement (.br o) := fun _ _ h => of_eq h (sb_toNat_lt o (by decide))
theorem bri (o : SB) : Statement (.bri o) := fun _ _ h => of_eq h (sb_toNat_lt o (by decide))
theorem jmp (o : SB) : Statement (.jmp o) := fun _ _ h => of_eq h (sb_toNat_lt o (by decide))
theorem call (o : SB) : Statement (.call o) := fun _ _ h => of_eq h (sb_toNat_lt o (by decide))
theorem ret (o : SR) : Statement (.ret o) := fun _ _ h => of_eq h (sr_toNat_lt o (by decide))
theorem jr (o : SR) : Statement (.jr o) := fun _ _ h => of_eq h (sr_toNat_lt o (by decide))
theorem callr (o : SR) : Statement (.callr o) := fun _ _ h => of_eq h (sr_toNat_lt o (by decide))
theorem dbnz (o : SB) : Statement (.dbnz o) := fun _ _ h => of_eq h (sb_toNat_lt o (by decide))
theorem wfe (o : SR) : Statement (.wfe o) := fun _ _ h => of_eq h (sr_toNat_lt o (by decide))
theorem sev (o : SR) : Statement (.sev o) := fun _ _ h => of_eq h (sr_toNat_lt o (by decide))
theorem sevAll (o : SR) : Statement (.sevAll o) := fun _ _ h => of_eq h (sr_toNat_lt o (by decide))
theorem yield (o : SR) : Statement (.yield o) := fun _ _ h => of_eq h (sr_toNat_lt o (by decide))
theorem susp (o : SR) : Statement (.susp o) := fun _ _ h => of_eq h (sr_toNat_lt o (by decide))
theorem exit (o : SR) : Statement (.exit o) := fun _ _ h => of_eq h (sr_toNat_lt o (by decide))
theorem trap (o : SI) : Statement (.trap o) := fun _ _ h => of_eq h (si_toNat_lt o (by decide))
theorem trapf (o : SR) : Statement (.trapf o) := fun _ _ h => of_eq h (sr_toNat_lt o (by decide))
theorem tret (o : SR) : Statement (.tret o) := fun _ _ h => of_eq h (sr_toNat_lt o (by decide))
theorem rdsr (o : SS) : Statement (.rdsr o) := fun _ _ h => of_eq h (ss_toNat_lt o (by decide))
theorem wrsr (o : SS) : Statement (.wrsr o) := fun _ _ h => of_eq h (ss_toNat_lt o (by decide))
theorem tidx (o : SR) : Statement (.tidx o) := fun _ _ h => of_eq h (sr_toNat_lt o (by decide))
theorem mret (o : SR) : Statement (.mret o) := fun _ _ h => of_eq h (sr_toNat_lt o (by decide))
theorem mretRequeue (o : SR) : Statement (.mretRequeue o) := fun _ _ h => of_eq h (sr_toNat_lt o (by decide))
theorem mretEnd (o : SR) : Statement (.mretEnd o) := fun _ _ h => of_eq h (sr_toNat_lt o (by decide))
theorem prdsr (o : SS) : Statement (.prdsr o) := fun _ _ h => of_eq h (ss_toNat_lt o (by decide))
theorem pwrsr (o : SS) : Statement (.pwrsr o) := fun _ _ h => of_eq h (ss_toNat_lt o (by decide))
theorem qhbWrite : Statement .qhbWrite := fun _ _ h => of_none h
theorem xlinvPage (o : SR) : Statement (.xlinvPage o) := fun _ _ h => of_eq h (sr_toNat_lt o (by decide))
theorem xlinvCtx (o : SR) : Statement (.xlinvCtx o) := fun _ _ h => of_eq h (sr_toNat_lt o (by decide))
theorem xlinvPart (o : SR) : Statement (.xlinvPart o) := fun _ _ h => of_eq h (sr_toNat_lt o (by decide))
theorem ctxsv (o : SR) : Statement (.ctxsv o) := fun _ _ h => of_eq h (sr_toNat_lt o (by decide))
theorem ctxld (o : SR) : Statement (.ctxld o) := fun _ _ h => of_eq h (sr_toNat_lt o (by decide))
theorem corestop (o : SR) : Statement (.corestop o) := fun _ _ h => of_eq h (sr_toNat_lt o (by decide))
theorem jrnl (o : SR) : Statement (.jrnl o) := fun _ _ h => of_eq h (sr_toNat_lt o (by decide))
theorem kickscan (o : SR) : Statement (.kickscan o) := fun _ _ h => of_eq h (sr_toNat_lt o (by decide))
theorem cmplholdHold (o : SR) : Statement (.cmplholdHold o) := fun _ _ h => of_eq h (sr_toNat_lt o (by decide))
theorem cmplholdRelease (o : SR) : Statement (.cmplholdRelease o) := fun _ _ h => of_eq h (sr_toNat_lt o (by decide))
theorem aadd (o : AForm) : Statement (.aadd o) := fun _ _ h => of_eq h (a_toNat_lt o (by decide))
theorem aaddi (o : AForm) : Statement (.aaddi o) := fun _ _ h => of_eq h (a_toNat_lt o (by decide))
theorem amov (o : AForm) : Statement (.amov o) := fun _ _ h => of_eq h (a_toNat_lt o (by decide))
theorem aset (o : AForm) : Statement (.aset o) := fun _ _ h => of_eq h (a_toNat_lt o (by decide))
theorem aget (o : AForm) : Statement (.aget o) := fun _ _ h => of_eq h (a_toNat_lt o (by decide))
theorem acmp (o : AForm) : Statement (.acmp o) := fun _ _ h => of_eq h (a_toNat_lt o (by decide))
theorem ascl (o : AForm) : Statement (.ascl o) := fun _ _ h => of_eq h (a_toNat_lt o (by decide))
theorem ld (o : AForm) : Statement (.ld o) := fun _ _ h => of_eq h (a_toNat_lt o (by decide))
theorem ldc (o : AForm) : Statement (.ldc o) := fun _ _ h => of_eq h (a_toNat_lt o (by decide))
theorem loadReturn : Statement .loadReturn := fun _ _ h => of_none h
theorem st (o : AForm) : Statement (.st o) := fun _ _ h => of_eq h (a_toNat_lt o (by decide))
theorem kStoreLand : Statement .kStoreLand := fun _ _ h => of_none h
theorem forwardExpire : Statement .forwardExpire := fun _ _ h => of_none h
theorem vld (o : AForm) : Statement (.vld o) := fun _ _ h => of_eq h (a_toNat_lt o (by decide))
theorem vst (o : AForm) : Statement (.vst o) := fun _ _ h => of_eq h (a_toNat_lt o (by decide))
theorem vstQueue (o : AForm) : Statement (.vstQueue o) := fun _ _ h => of_eq h (a_toNat_lt o (by decide))
theorem vlds (o : AForm) : Statement (.vlds o) := fun _ _ h => of_eq h (a_toNat_lt o (by decide))
theorem vgath (o : AForm) : Statement (.vgath o) := fun _ _ h => of_eq h (a_toNat_lt o (by decide))
theorem vscat (o : AForm) : Statement (.vscat o) := fun _ _ h => of_eq h (a_toNat_lt o (by decide))
theorem lsld (o : AForm) : Statement (.lsld o) := fun _ _ h => of_eq h (a_toNat_lt o (by decide))
theorem lsst (o : AForm) : Statement (.lsst o) := fun _ _ h => of_eq h (a_toNat_lt o (by decide))
theorem pref (o : AForm) : Statement (.pref o) := fun _ _ h => of_eq h (a_toNat_lt o (by decide))
theorem wbl (o : AForm) : Statement (.wbl o) := fun _ _ h => of_eq h (a_toNat_lt o (by decide))
theorem invl (o : AForm) : Statement (.invl o) := fun _ _ h => of_eq h (a_toNat_lt o (by decide))
theorem lpin (o : AForm) : Statement (.lpin o) := fun _ _ h => of_eq h (a_toNat_lt o (by decide))
theorem lpinLine (o : AForm) : Statement (.lpinLine o) := fun _ _ h => of_eq h (a_toNat_lt o (by decide))
theorem lunpin (o : AForm) : Statement (.lunpin o) := fun _ _ h => of_eq h (a_toNat_lt o (by decide))
theorem lunpinLine (o : AForm) : Statement (.lunpinLine o) := fun _ _ h => of_eq h (a_toNat_lt o (by decide))
theorem amo (o : AForm) : Statement (.amo o) := fun _ _ h => of_eq h (a_toNat_lt o (by decide))
theorem amos (o : AForm) : Statement (.amos o) := fun _ _ h => of_eq h (a_toNat_lt o (by decide))
theorem cas (o : AForm) : Statement (.cas o) := fun _ _ h => of_eq h (a_toNat_lt o (by decide))
theorem atomicPerformed : Statement .atomicPerformed := fun _ _ h => of_none h
theorem translationWalk : Statement .translationWalk := fun _ _ h => of_none h
theorem vadd (o : VForm) : Statement (.vadd o) := fun _ _ h => v_of_eq h (v_toNat_lt o (by decide))
theorem vsub (o : VForm) : Statement (.vsub o) := fun _ _ h => v_of_eq h (v_toNat_lt o (by decide))
theorem vmul (o : VForm) : Statement (.vmul o) := fun _ _ h => v_of_eq h (v_toNat_lt o (by decide))
theorem vfma (o : VForm) : Statement (.vfma o) := fun _ _ h => v_of_eq h (v_toNat_lt o (by decide))
theorem vfms (o : VForm) : Statement (.vfms o) := fun _ _ h => v_of_eq h (v_toNat_lt o (by decide))
theorem vfnma (o : VForm) : Statement (.vfnma o) := fun _ _ h => v_of_eq h (v_toNat_lt o (by decide))
theorem vmin (o : VForm) : Statement (.vmin o) := fun _ _ h => v_of_eq h (v_toNat_lt o (by decide))
theorem vmax (o : VForm) : Statement (.vmax o) := fun _ _ h => v_of_eq h (v_toNat_lt o (by decide))
theorem vabs (o : VForm) : Statement (.vabs o) := fun _ _ h => v_of_eq h (v_toNat_lt o (by decide))
theorem vneg (o : VForm) : Statement (.vneg o) := fun _ _ h => v_of_eq h (v_toNat_lt o (by decide))
theorem vand (o : VForm) : Statement (.vand o) := fun _ _ h => v_of_eq h (v_toNat_lt o (by decide))
theorem vor (o : VForm) : Statement (.vor o) := fun _ _ h => v_of_eq h (v_toNat_lt o (by decide))
theorem vxor (o : VForm) : Statement (.vxor o) := fun _ _ h => v_of_eq h (v_toNat_lt o (by decide))
theorem vnot (o : VForm) : Statement (.vnot o) := fun _ _ h => v_of_eq h (v_toNat_lt o (by decide))
theorem vshl (o : VForm) : Statement (.vshl o) := fun _ _ h => v_of_eq h (v_toNat_lt o (by decide))
theorem vshr (o : VForm) : Statement (.vshr o) := fun _ _ h => v_of_eq h (v_toNat_lt o (by decide))
theorem vsra (o : VForm) : Statement (.vsra o) := fun _ _ h => v_of_eq h (v_toNat_lt o (by decide))
theorem vmulh (o : VForm) : Statement (.vmulh o) := fun _ _ h => v_of_eq h (v_toNat_lt o (by decide))
theorem vadds (o : VForm) : Statement (.vadds o) := fun _ _ h => v_of_eq h (v_toNat_lt o (by decide))
theorem vsubs (o : VForm) : Statement (.vsubs o) := fun _ _ h => v_of_eq h (v_toNat_lt o (by decide))
theorem vrcp (o : VForm) : Statement (.vrcp o) := fun _ _ h => v_of_eq h (v_toNat_lt o (by decide))
theorem vrsq (o : VForm) : Statement (.vrsq o) := fun _ _ h => v_of_eq h (v_toNat_lt o (by decide))
theorem vsqrt (o : VForm) : Statement (.vsqrt o) := fun _ _ h => v_of_eq h (v_toNat_lt o (by decide))
theorem vdiv (o : VForm) : Statement (.vdiv o) := fun _ _ h => v_of_eq h (v_toNat_lt o (by decide))
theorem vexp2 (o : VForm) : Statement (.vexp2 o) := fun _ _ h => v_of_eq h (v_toNat_lt o (by decide))
theorem vlog2 (o : VForm) : Statement (.vlog2 o) := fun _ _ h => v_of_eq h (v_toNat_lt o (by decide))
theorem vtanh (o : VForm) : Statement (.vtanh o) := fun _ _ h => v_of_eq h (v_toNat_lt o (by decide))
theorem vsigm (o : VForm) : Statement (.vsigm o) := fun _ _ h => v_of_eq h (v_toNat_lt o (by decide))
theorem vsinp (o : VForm) : Statement (.vsinp o) := fun _ _ h => v_of_eq h (v_toNat_lt o (by decide))
theorem verf (o : VForm) : Statement (.verf o) := fun _ _ h => v_of_eq h (v_toNat_lt o (by decide))
theorem vcmp (o : VForm) : Statement (.vcmp o) := fun _ _ h => v_of_eq h (v_toNat_lt o (by decide))
theorem vcls (o : VForm) : Statement (.vcls o) := fun _ _ h => v_of_eq h (v_toNat_lt o (by decide))
theorem vsel (o : VForm) : Statement (.vsel o) := fun _ _ h => v_of_eq h (v_toNat_lt o (by decide))
theorem vmtov (o : VForm) : Statement (.vmtov o) := fun _ _ h => v_of_eq h (v_toNat_lt o (by decide))
theorem vvtom (o : VForm) : Statement (.vvtom o) := fun _ _ h => v_of_eq h (v_toNat_lt o (by decide))
theorem vmcnt (o : VForm) : Statement (.vmcnt o) := fun _ _ h => v_of_eq h (v_toNat_lt o (by decide))
theorem vmov (o : VForm) : Statement (.vmov o) := fun _ _ h => v_of_eq h (v_toNat_lt o (by decide))
theorem vsplat (o : VForm) : Statement (.vsplat o) := fun _ _ h => v_of_eq h (v_toNat_lt o (by decide))
theorem viota (o : VForm) : Statement (.viota o) := fun _ _ h => v_of_eq h (v_toNat_lt o (by decide))
theorem vbcr (o : VForm) : Statement (.vbcr o) := fun _ _ h => v_of_eq h (v_toNat_lt o (by decide))
theorem vbcc (o : VForm) : Statement (.vbcc o) := fun _ _ h => v_of_eq h (v_toNat_lt o (by decide))
theorem vrotr (o : VForm) : Statement (.vrotr o) := fun _ _ h => v_of_eq h (v_toNat_lt o (by decide))
theorem vrotc (o : VForm) : Statement (.vrotc o) := fun _ _ h => v_of_eq h (v_toNat_lt o (by decide))
theorem vpermr (o : VForm) : Statement (.vpermr o) := fun _ _ h => v_of_eq h (v_toNat_lt o (by decide))
theorem vext (o : VForm) : Statement (.vext o) := fun _ _ h => v_of_eq h (v_toNat_lt o (by decide))
theorem vins (o : VForm) : Statement (.vins o) := fun _ _ h => v_of_eq h (v_toNat_lt o (by decide))
theorem vtrn (o : VForm) : Statement (.vtrn o) := fun _ _ h => v_of_eq h (v_toNat_lt o (by decide))
theorem vredr (o : VForm) : Statement (.vredr o) := fun _ _ h => v_of_eq h (v_toNat_lt o (by decide))
theorem vredc (o : VForm) : Statement (.vredc o) := fun _ _ h => v_of_eq h (v_toNat_lt o (by decide))
theorem vscanr (o : VForm) : Statement (.vscanr o) := fun _ _ h => v_of_eq h (v_toNat_lt o (by decide))
theorem vcvt (o : VForm) : Statement (.vcvt o) := fun _ _ h => v_of_eq h (v_toNat_lt o (by decide))
theorem vqnt (o : VForm) : Statement (.vqnt o) := fun _ _ h => v_of_eq h (v_toNat_lt o (by decide))
theorem vdqt (o : VForm) : Statement (.vdqt o) := fun _ _ h => v_of_eq h (v_toNat_lt o (by decide))
theorem vscl (o : VForm) : Statement (.vscl o) := fun _ _ h => v_of_eq h (v_toNat_lt o (by decide))
theorem vpack (o : VForm) : Statement (.vpack o) := fun _ _ h => v_of_eq h (v_toNat_lt o (by decide))
theorem vunpk (o : VForm) : Statement (.vunpk o) := fun _ _ h => v_of_eq h (v_toNat_lt o (by decide))
theorem vspush (o : VForm) : Statement (.vspush o) := fun _ _ h => v_of_eq h (v_toNat_lt o (by decide))
theorem vspop (o : VForm) : Statement (.vspop o) := fun _ _ h => v_of_eq h (v_toNat_lt o (by decide))
theorem vsbal (o : VForm) : Statement (.vsbal o) := fun _ _ h => v_of_eq h (v_toNat_lt o (by decide))
theorem vtidx (o : VForm) : Statement (.vtidx o) := fun _ _ h => v_of_eq h (v_toNat_lt o (by decide))
theorem vbchk (o : VForm) : Statement (.vbchk o) := fun _ _ h => v_of_eq h (v_toNat_lt o (by decide))
theorem vclmp (o : VForm) : Statement (.vclmp o) := fun _ _ h => v_of_eq h (v_toNat_lt o (by decide))
theorem vqpop (o : VForm) : Statement (.vqpop o) := fun _ _ h => v_of_eq h (v_toNat_lt o (by decide))
theorem vqpopSide (o : VForm) : Statement (.vqpopSide o) := fun _ _ h => v_of_eq h (v_toNat_lt o (by decide))
theorem vqpopInfo (o : VForm) : Statement (.vqpopInfo o) := fun _ _ h => v_of_eq h (v_toNat_lt o (by decide))
theorem fixedResultWriteback : Statement .fixedResultWriteback := fun _ _ h => of_none h
theorem mpush (o : MForm) : Statement (.mpush o) := fun _ _ h => of_eq h (m_toNat_lt o (by decide))
theorem mbeat (o : MForm) : Statement (.mbeat o) := fun _ _ h => of_eq h (m_toNat_lt o (by decide))
theorem beatLand : Statement .beatLand := fun _ _ h => of_none h
theorem mshift (o : MForm) : Statement (.mshift o) := fun _ _ h => of_eq h (m_toNat_lt o (by decide))
theorem mdrain (o : MForm) : Statement (.mdrain o) := fun _ _ h => of_eq h (m_toNat_lt o (by decide))
theorem drainEnterQueue : Statement .drainEnterQueue := fun _ _ h => of_none h
theorem mzero (o : MForm) : Statement (.mzero o) := fun _ _ h => of_eq h (m_toNat_lt o (by decide))
theorem mswap (o : MForm) : Statement (.mswap o) := fun _ _ h => of_eq h (m_toNat_lt o (by decide))
theorem mepoch (o : MForm) : Statement (.mepoch o) := fun _ _ h => of_eq h (m_toNat_lt o (by decide))
theorem mretry (o : MForm) : Statement (.mretry o) := fun _ _ h => of_eq h (m_toNat_lt o (by decide))
theorem mckloc (o : MForm) : Statement (.mckloc o) := fun _ _ h => of_eq h (m_toNat_lt o (by decide))
theorem mckfix (o : MForm) : Statement (.mckfix o) := fun _ _ h => of_eq h (m_toNat_lt o (by decide))
theorem mcal (o : MForm) : Statement (.mcal o) := fun _ _ h => of_eq h (m_toNat_lt o (by decide))
theorem mcalComplete : Statement .mcalComplete := fun _ _ h => of_none h
theorem monitorCalibration : Statement .monitorCalibration := fun _ _ h => of_none h
theorem mfbk (o : MForm) : Statement (.mfbk o) := fun _ _ h => of_eq h (m_toNat_lt o (by decide))
theorem mctxSave (o : MForm) : Statement (.mctxSave o) := fun _ _ h => of_eq h (m_toNat_lt o (by decide))
theorem mctxRestore (o : MForm) : Statement (.mctxRestore o) := fun _ _ h => of_eq h (m_toNat_lt o (by decide))
theorem mctxKeep (o : MForm) : Statement (.mctxKeep o) := fun _ _ h => of_eq h (m_toNat_lt o (by decide))
theorem minjAcc (o : MForm) : Statement (.minjAcc o) := fun _ _ h => of_eq h (m_toNat_lt o (by decide))
theorem minjCks (o : MForm) : Statement (.minjCks o) := fun _ _ h => of_eq h (m_toNat_lt o (by decide))
theorem minjPar (o : MForm) : Statement (.minjPar o) := fun _ _ h => of_eq h (m_toNat_lt o (by decide))
theorem fmtw (o : XForm) : Statement (.fmtw o) := fun _ _ h => of_eq h (x_toNat_lt o (by decide))
theorem fmtTakeEffect : Statement .fmtTakeEffect := fun _ _ h => of_none h
theorem fmtr (o : XForm) : Statement (.fmtr o) := fun _ _ h => of_eq h (x_toNat_lt o (by decide))
theorem fmtrPend (o : XForm) : Statement (.fmtrPend o) := fun _ _ h => of_eq h (x_toNat_lt o (by decide))
theorem bndw (o : XForm) : Statement (.bndw o) := fun _ _ h => of_eq h (x_toNat_lt o (by decide))
theorem bndr (o : XForm) : Statement (.bndr o) := fun _ _ h => of_eq h (x_toNat_lt o (by decide))
theorem bndrFa (o : XForm) : Statement (.bndrFa o) := fun _ _ h => of_eq h (x_toNat_lt o (by decide))
theorem shpw (o : XForm) : Statement (.shpw o) := fun _ _ h => of_eq h (x_toNat_lt o (by decide))
theorem feedcfg (o : XForm) : Statement (.feedcfg o) := fun _ _ h => of_eq h (x_toNat_lt o (by decide))
theorem feederRowArrive : Statement .feederRowArrive := fun _ _ h => of_none h
theorem rbcfg (o : XForm) : Statement (.rbcfg o) := fun _ _ h => of_eq h (x_toNat_lt o (by decide))
theorem rbpop (o : XForm) : Statement (.rbpop o) := fun _ _ h => of_eq h (x_toNat_lt o (by decide))
theorem rbGenerate : Statement .rbGenerate := fun _ _ h => of_none h
theorem cktol (o : XForm) : Statement (.cktol o) := fun _ _ h => of_eq h (x_toNat_lt o (by decide))
theorem cktolRd (o : XForm) : Statement (.cktolRd o) := fun _ _ h => of_eq h (x_toNat_lt o (by decide))
theorem lnest (o : XForm) : Statement (.lnest o) := fun _ _ h => of_eq h (x_toNat_lt o (by decide))
theorem lbody (o : XForm) : Statement (.lbody o) := fun _ _ h => of_eq h (x_toNat_lt o (by decide))
theorem lbrk (o : XForm) : Statement (.lbrk o) := fun _ _ h => of_eq h (x_toNat_lt o (by decide))
theorem lbrkDrain (o : XForm) : Statement (.lbrkDrain o) := fun _ _ h => of_eq h (x_toNat_lt o (by decide))
theorem lstat (o : XForm) : Statement (.lstat o) := fun _ _ h => of_eq h (x_toNat_lt o (by decide))
theorem cpy (o : XForm) : Statement (.cpy o) := fun _ _ h => of_eq h (x_toNat_lt o (by decide))
theorem cpyx (o : XForm) : Statement (.cpyx o) := fun _ _ h => of_eq h (x_toNat_lt o (by decide))
theorem copyComplete : Statement .copyComplete := fun _ _ h => of_none h
theorem wload (o : XForm) : Statement (.wload o) := fun _ _ h => of_eq h (x_toNat_lt o (by decide))
theorem wloadComplete : Statement .wloadComplete := fun _ _ h => of_none h
theorem scwait (o : XForm) : Statement (.scwait o) := fun _ _ h => of_eq h (x_toNat_lt o (by decide))
theorem scrd (o : XForm) : Statement (.scrd o) := fun _ _ h => of_eq h (x_toNat_lt o (by decide))
theorem enq (o : XForm) : Statement (.enq o) := fun _ _ h => of_eq h (x_toNat_lt o (by decide))
theorem deq (o : XForm) : Statement (.deq o) := fun _ _ h => of_eq h (x_toNat_lt o (by decide))
theorem deqt (o : XForm) : Statement (.deqt o) := fun _ _ h => of_eq h (x_toNat_lt o (by decide))
theorem deqtTimeout : Statement .deqtTimeout := fun _ _ h => of_none h
theorem qstat (o : XForm) : Statement (.qstat o) := fun _ _ h => of_eq h (x_toNat_lt o (by decide))
theorem spawn (o : XForm) : Statement (.spawn o) := fun _ _ h => of_eq h (x_toNat_lt o (by decide))
theorem phase (o : XForm) : Statement (.phase o) := fun _ _ h => of_eq h (x_toNat_lt o (by decide))
theorem barr (o : XForm) : Statement (.barr o) := fun _ _ h => of_eq h (x_toNat_lt o (by decide))
theorem barw (o : XForm) : Statement (.barw o) := fun _ _ h => of_eq h (x_toNat_lt o (by decide))
theorem barq (o : XForm) : Statement (.barq o) := fun _ _ h => of_eq h (x_toNat_lt o (by decide))
theorem trig (o : XForm) : Statement (.trig o) := fun _ _ h => of_eq h (x_toNat_lt o (by decide))
theorem coll (o : XForm) : Statement (.coll o) := fun _ _ h => of_eq h (x_toNat_lt o (by decide))
theorem collComplete : Statement .collComplete := fun _ _ h => of_none h
theorem fput (o : XForm) : Statement (.fput o) := fun _ _ h => of_eq h (x_toNat_lt o (by decide))
theorem fget (o : XForm) : Statement (.fget o) := fun _ _ h => of_eq h (x_toNat_lt o (by decide))
theorem fabricCopyComplete : Statement .fabricCopyComplete := fun _ _ h => of_none h
theorem cmbopen (o : XForm) : Statement (.cmbopen o) := fun _ _ h => of_eq h (x_toNat_lt o (by decide))
theorem cmbopenTry (o : XForm) : Statement (.cmbopenTry o) := fun _ _ h => of_eq h (x_toNat_lt o (by decide))
theorem cmbput (o : XForm) : Statement (.cmbput o) := fun _ _ h => of_eq h (x_toNat_lt o (by decide))
theorem cmbputArrival : Statement .cmbputArrival := fun _ _ h => of_none h
theorem cmbDeadline : Statement .cmbDeadline := fun _ _ h => of_none h
theorem cmbReleaseEnqueue : Statement .cmbReleaseEnqueue := fun _ _ h => of_none h
theorem cmbpoll (o : XForm) : Statement (.cmbpoll o) := fun _ _ h => of_eq h (x_toNat_lt o (by decide))
theorem cmbclose (o : XForm) : Statement (.cmbclose o) := fun _ _ h => of_eq h (x_toNat_lt o (by decide))
theorem phint (o : XForm) : Statement (.phint o) := fun _ _ h => of_eq h (x_toNat_lt o (by decide))
theorem phclr (o : XForm) : Statement (.phclr o) := fun _ _ h => of_eq h (x_toNat_lt o (by decide))
theorem burstWindowEnd : Statement .burstWindowEnd := fun _ _ h => of_none h
theorem powerWindowEnd : Statement .powerWindowEnd := fun _ _ h => of_none h
theorem pcset (o : XForm) : Statement (.pcset o) := fun _ _ h => of_eq h (x_toNat_lt o (by decide))
theorem pcdec (o : XForm) : Statement (.pcdec o) := fun _ _ h => of_eq h (x_toNat_lt o (by decide))
theorem pcdecFail (o : XForm) : Statement (.pcdecFail o) := fun _ _ h => of_eq h (x_toNat_lt o (by decide))
theorem disp (o : XForm) : Statement (.disp o) := fun _ _ h => of_eq h (x_toNat_lt o (by decide))
theorem preempt (o : XForm) : Statement (.preempt o) := fun _ _ h => of_eq h (x_toNat_lt o (by decide))
theorem qcfgp (o : XForm) : Statement (.qcfgp o) := fun _ _ h => of_eq h (x_toNat_lt o (by decide))
theorem qcfgpOff (o : XForm) : Statement (.qcfgpOff o) := fun _ _ h => of_eq h (x_toNat_lt o (by decide))
theorem migrate (o : XForm) : Statement (.migrate o) := fun _ _ h => of_eq h (x_toNat_lt o (by decide))
theorem scrubcfg (o : XForm) : Statement (.scrubcfg o) := fun _ _ h => of_eq h (x_toNat_lt o (by decide))
theorem obslog (o : XForm) : Statement (.obslog o) := fun _ _ h => of_eq h (x_toNat_lt o (by decide))
theorem healthw (o : XForm) : Statement (.healthw o) := fun _ _ h => of_eq h (x_toNat_lt o (by decide))
theorem gangStart : Statement .gangStart := fun _ _ h => of_none h
theorem spawnedTaskStart : Statement .spawnedTaskStart := fun _ _ h => of_none h
theorem coldStartRelease : Statement .coldStartRelease := fun _ _ h => of_none h
theorem taskResume : Statement .taskResume := fun _ _ h => of_none h
theorem footprintMove : Statement .footprintMove := fun _ _ h => of_none h
theorem gangWaitPreempt : Statement .gangWaitPreempt := fun _ _ h => of_none h
theorem checkpointPreempt : Statement .checkpointPreempt := fun _ _ h => of_none h
theorem killPreempt : Statement .killPreempt := fun _ _ h => of_none h
theorem drainPreempt : Statement .drainPreempt := fun _ _ h => of_none h
theorem drainWindowExpire : Statement .drainWindowExpire := fun _ _ h => of_none h
theorem preemptionWaitExpire : Statement .preemptionWaitExpire := fun _ _ h => of_none h
theorem agingLimitExpire : Statement .agingLimitExpire := fun _ _ h => of_none h
theorem doorbell : Statement .doorbell := fun _ _ h => of_none h
theorem heartbeatExpire : Statement .heartbeatExpire := fun _ _ h => of_none h
theorem standbyRecovery : Statement .standbyRecovery := fun _ _ h => of_none h
theorem migratePage : Statement .migratePage := fun _ _ h => of_none h
theorem dwinBind : Statement .dwinBind := fun _ _ h => of_none h
theorem dwinRevoke : Statement .dwinRevoke := fun _ _ h => of_none h
theorem patrolScrub : Statement .patrolScrub := fun _ _ h => of_none h
theorem laneRepair : Statement .laneRepair := fun _ _ h => of_none h
theorem sensorRead : Statement .sensorRead := fun _ _ h => of_none h
theorem almanacSnapshot : Statement .almanacSnapshot := fun _ _ h => of_none h
theorem hostBar4Read : Statement .hostBar4Read := fun _ _ h => of_none h
theorem hostBar4Write : Statement .hostBar4Write := fun _ _ h => of_none h
theorem hostRegisterWrite : Statement .hostRegisterWrite := fun _ _ h => of_none h
theorem partCreate : Statement .partCreate := fun _ _ h => of_none h
theorem partStateOnline : Statement .partStateOnline := fun _ _ h => of_none h
theorem partStateDrain : Statement .partStateDrain := fun _ _ h => of_none h
theorem partStateFence : Statement .partStateFence := fun _ _ h => of_none h
theorem partStateReset : Statement .partStateReset := fun _ _ h => of_none h
theorem partDestroy : Statement .partDestroy := fun _ _ h => of_none h
theorem ctxSet : Statement .ctxSet := fun _ _ h => of_none h
theorem partCtx : Statement .partCtx := fun _ _ h => of_none h
theorem dispParam : Statement .dispParam := fun _ _ h => of_none h
theorem cmbCfg : Statement .cmbCfg := fun _ _ h => of_none h
theorem keyLoad : Statement .keyLoad := fun _ _ h => of_none h
theorem collGroup : Statement .collGroup := fun _ _ h => of_none h
theorem nodeSet : Statement .nodeSet := fun _ _ h => of_none h
theorem monitorLoad : Statement .monitorLoad := fun _ _ h => of_none h
theorem memAssign : Statement .memAssign := fun _ _ h => of_none h
theorem logRead : Statement .logRead := fun _ _ h => of_none h
theorem attest : Statement .attest := fun _ _ h => of_none h
theorem powerLimit : Statement .powerLimit := fun _ _ h => of_none h
theorem gradeClear : Statement .gradeClear := fun _ _ h => of_none h
theorem portLinkLoss : Statement .portLinkLoss := fun _ _ h => of_none h
theorem verbyLinkDown : Statement .verbyLinkDown := fun _ _ h => of_none h
theorem deviceReset : Statement .deviceReset := fun _ _ h => of_none h
theorem queueResultReturn : Statement .queueResultReturn := fun _ _ h => of_none h
theorem fabricIngress : Statement .fabricIngress := fun _ _ h => of_none h
theorem allZeroBundle (x : Header) : Statement (.allZeroBundle x) := fun _ _ h => of_none h

end Fits

end Sys2Proof.Laws
end

