-- ==== Sys2Proof/Safety.lean ====
section
/-! DEFINITION. What counts as a safe run of the device, and the words in which statements speak of a step. -/

namespace Sys2Proof.Machine

/-- Memory keeps its canonical form (log 4): rising addresses, no listed zero byte, in what is published at SYSTEM scope and in the
contents below the history of stores. Every step keeps it. -/
def State.memOk (s : State) : Bool := memWf s.dev.mem && memWf s.dev.base

/-- The last meaning took effect: it met no trap and no wait. -/
def State.tookEffect (s : State) : Bool := s.last == .issued

/-- The state with one more fixed-latency result on its way (R153): it is written at τ + `lat`. Everything else is as
in `s`. -/
def State.sent (s : State) (lat : Nat) (w : Write) (flags : BitVec 11 := 0) (can : Bool := false) : State :=
  { s with core := { s.core with results := s.core.results ++ [{ w := w, flags := flags, can := can, due := s.core.tau + lat }] } }

/-- A run is safe when no step faults or is refused: each answers a next state. -/
def safeFor : Nat → State → Prop
  | 0, _ => True
  | n + 1, s => ∃ t, step s = .next t ∧ safeFor n t

end Sys2Proof.Machine
end

