-- ==== Sys2Proof/Certificates/Slice0/Obligations.lean ====
section
/-! DEFINITION. The statements about the model, each read off numbered rules of the manual; helpers give the words in
which they speak. -/

open Sys2Proof Sys2Proof.Machine

/-- Each SR-form integer operation sends the value of its table row to s_d after its latency and changes nothing else
(R192, R144, R153, R127). For every state and operands whose guard is active (R144): ADD, SUB, MUL, MULH, MULHU, AND,
OR, XOR, SHL, SHR, SRA, MIN, MAX, MINU, MAXU, SLT, SLTU and SEL answer the state with one more result in flight, due
at tau + 1 (the three multiplications at tau + 3), whose value is the one the table of R192 gives, computed in the
integers and reduced modulo 2^64, shift amounts modulo 64; nothing else changes, so no flag is set. The taint that
passes with the value is the model's reading of R127 (log 60). -/
def Obligations.ScalarRegisterOperations : Prop :=
  ∀ (s : State) (o : SR), s.core.active o.g = true →
    let a := s.core.sreg o.a
    let b := s.core.sreg o.b
    let t := joinTaint (s.core.sTaint o.a) (s.core.sTaint o.b)
    let res (lat : Nat) (v : Word) : Host.Outcome State Fault Refusal := .next (s.sent lat (.s o.d v t))
    exec (.add o) s = res 1 (BitVec.ofInt 64 (a.toInt + b.toInt)) ∧
    exec (.sub o) s = res 1 (BitVec.ofInt 64 (a.toInt - b.toInt)) ∧
    exec (.mul o) s = res 3 (BitVec.ofNat 64 (a.toNat * b.toNat)) ∧
    exec (.mulh o) s = res 3 (BitVec.ofInt 64 (Int.fdiv (a.toInt * b.toInt) (2 ^ 64))) ∧
    exec (.mulhu o) s = res 3 (BitVec.ofNat 64 (a.toNat * b.toNat / 2 ^ 64)) ∧
    (∃ v : Word, exec (.and o) s = res 1 v ∧ ∀ k, v.getLsbD k = (a.getLsbD k && b.getLsbD k)) ∧
    (∃ v : Word, exec (.or o) s = res 1 v ∧ ∀ k, v.getLsbD k = (a.getLsbD k || b.getLsbD k)) ∧
    (∃ v : Word, exec (.xor o) s = res 1 v ∧ ∀ k, v.getLsbD k = (a.getLsbD k != b.getLsbD k)) ∧
    exec (.shl o) s = res 1 (BitVec.ofNat 64 (a.toNat * 2 ^ (b.toNat % 64))) ∧
    exec (.shr o) s = res 1 (BitVec.ofNat 64 (a.toNat / 2 ^ (b.toNat % 64))) ∧
    exec (.sra o) s = res 1 (BitVec.ofInt 64 (Int.fdiv a.toInt (2 ^ (b.toNat % 64)))) ∧
    exec (.min o) s = res 1 (if a.toInt ≤ b.toInt then a else b) ∧
    exec (.max o) s = res 1 (if b.toInt ≤ a.toInt then a else b) ∧
    exec (.minu o) s = res 1 (if a.toNat ≤ b.toNat then a else b) ∧
    exec (.maxu o) s = res 1 (if b.toNat ≤ a.toNat then a else b) ∧
    exec (.slt o) s = res 1 (if a.toInt < b.toInt then 1 else 0) ∧
    exec (.sltu o) s = res 1 (if a.toNat < b.toNat then 1 else 0) ∧
    exec (.sel o) s = .next (s.sent 1 (.s o.d (if s.core.sreg (o.fn.extractLsb' 0 5) = 0 then b else a)
      (joinTaint t (s.core.sTaint (o.fn.extractLsb' 0 5)))))

/-- Each SI-form immediate and bit-field operation sends the value of its table row to s_d after one cycle and changes
nothing else (R194, R196, R144, R153). For every state and operands whose guard is active: ADDI, ANDI, ORI, XORI,
SHLI, SHRI, SRAI, LI, LIH, EXTS, EXTZ and INS answer the state with one more result in flight, due at tau + 1, whose
value is the one R194 and R196 give: the immediate is sign-extended from 32 bits, EXTS and EXTZ take w bits from bit
lo, and INS replaces bits lo + w - 1 to lo of s_d; the bit fields are stated where lo + w is at most 64, as R196
requires. That the result takes the taint of s_a, and that of INS the taints of both its operands joined, is the model's
reading of R127 (log 60). -/
def Obligations.ScalarImmediateOperations : Prop :=
  ∀ (s : State) (o : SI), s.core.active o.g = true →
    let a := s.core.sreg o.a
    let t := s.core.sTaint o.a
    let i := o.imm.toInt
    let res (v : Word) : Host.Outcome State Fault Refusal := .next (s.sent 1 (.s o.d v t))
    exec (.addi o) s = res (BitVec.ofInt 64 (a.toInt + i)) ∧
    exec (.andi o) s = res (a &&& BitVec.ofInt 64 i) ∧
    exec (.ori o) s = res (a ||| BitVec.ofInt 64 i) ∧
    exec (.xori o) s = res (a ^^^ BitVec.ofInt 64 i) ∧
    exec (.shli o) s = res (BitVec.ofNat 64 (a.toNat * 2 ^ (o.imm.toNat % 64))) ∧
    exec (.shri o) s = res (BitVec.ofNat 64 (a.toNat / 2 ^ (o.imm.toNat % 64))) ∧
    exec (.srai o) s = res (BitVec.ofInt 64 (Int.fdiv a.toInt (2 ^ (o.imm.toNat % 64)))) ∧
    exec (.li o) s = .next (s.sent 1 (.s o.d (BitVec.ofInt 64 i) none)) ∧
    exec (.lih o) s = res (BitVec.ofNat 64 (o.imm.toNat * 2 ^ 32 + a.toNat % 2 ^ 32)) ∧
    (∀ lo w : Nat, lo < 64 → 1 ≤ w → w ≤ 64 → o.imm.toNat = lo + (w - 1) * 64 → lo + w ≤ 64 →
      (∃ v : Word, exec (.extz o) s = res v ∧ ∀ k, v.getLsbD k = (decide (k < w) && a.getLsbD (lo + k))) ∧
      (∃ v : Word, exec (.exts o) s = res v ∧
        ∀ k, k < 64 → v.getLsbD k = (if k < w then a.getLsbD (lo + k) else a.getLsbD (lo + w - 1))) ∧
      (∃ v : Word, exec (.ins o) s = .next (s.sent 1 (.s o.d v (joinTaint t (s.core.sTaint o.d)))) ∧
        ∀ k, k < 64 → v.getLsbD k =
          (if lo ≤ k ∧ k < lo + w then a.getLsbD (k - lo) else (s.core.sreg o.d).getLsbD k)))

/-- CLZ, CTZ, POPC and BSWAP send the counts and the reversed bytes of s_a to s_d after one cycle (R195). For every state
and operands whose guard is active: CLZ sends n with the n top bits zero and, below 64, bit 63 - n set; CTZ sends n
with the n low bits zero and, below 64, bit n set, so both send 64 for zero; POPC sends the number of one bits; BSWAP
sends the word whose byte k is byte 7 - k of s_a. Each result is due at tau + 1 and nothing else changes. -/
def Obligations.ScalarBitCounts : Prop :=
  ∀ (s : State) (o : SR), s.core.active o.g = true →
    let a := s.core.sreg o.a
    let res (v : Word) : Host.Outcome State Fault Refusal := .next (s.sent 1 (.s o.d v (s.core.sTaint o.a)))
    (∃ n : Nat, exec (.clz o) s = res (BitVec.ofNat 64 n) ∧ n ≤ 64 ∧ (∀ k, 64 - n ≤ k → a.getLsbD k = false) ∧
      (n < 64 → a.getLsbD (63 - n) = true)) ∧
    (∃ n : Nat, exec (.ctz o) s = res (BitVec.ofNat 64 n) ∧ n ≤ 64 ∧ (∀ k, k < n → a.getLsbD k = false) ∧
      (n < 64 → a.getLsbD n = true)) ∧
    exec (.popc o) s = res (BitVec.ofNat 64 ((List.range 64).filter fun k => a.getLsbD k).length) ∧
    (∃ v : Word, exec (.bswap o) s = res v ∧
      ∀ k, k < 8 → v.extractLsb' (8 * k) 8 = a.extractLsb' (8 * (7 - k)) 8)

/-- A guarded scalar operation whose guard is inactive has no effect (R144). For every state in which the guard of the
operation is inactive, each guarded S-slot operation named here answers the state unchanged: the SR-form and SI-form
integer operations, PRD, PWR, TIDX, the transfers, SEV, WFE, YIELD, SUSP, EXIT, TRAP, TRAPF and TRET. -/
def Obligations.InactiveScalarOperationsDoNothing : Prop :=
  ∀ (s : State) (o : SR) (i : SI) (b : SB),
    (s.core.active o.g = false →
      ∀ f ∈ [Instr.add, .sub, .mul, .mulh, .mulhu, .div, .divu, .rem, .remu, .and, .or, .xor, .shl, .shr, .sra, .min, .max, .minu, .maxu, .slt, .sltu,
             .sel, .clz, .ctz, .popc, .bswap, .prd, .pwr, .tidx, .ret, .jr, .callr, .sev, .sevAll, .wfe, .yield, .susp, .exit, .trapf, .tret],
        exec (f o) s = .next s) ∧
    (s.core.active i.g = false →
      ∀ f ∈ [Instr.addi, .andi, .ori, .xori, .shli, .shri, .srai, .li, .lih, .exts, .extz, .ins, .trap], exec (f i) s = .next s) ∧
    (s.core.active b.g = false → ∀ f ∈ [Instr.br, .bri, .jmp, .call, .dbnz], exec (f b) s = .next s)

/-- DIV, DIVU, REM and REMU start a division, and its completion writes the quotient or remainder that R193 defines (R193,
R154, R173). For every state and operands whose guard is active, each of the four operations adds one outstanding
division of its operands and changes nothing else. When an outstanding division completes, s_d holds the quotient
rounded toward zero or the remainder with the sign of the dividend, -1 or 2^64 - 1 or the dividend for a divisor of 0
with DZ, -2^63 or 0 for -2^63 by -1 with OF, and STICKY has the flag ORed in; the rest of the scalar registers and
memory are as before. The one divider does its divisions in order: while an earlier one is outstanding none completes
before it. The completion is an event of the model (log 6), and the taint that the result takes, of both operands joined, is the
model's reading of R127 (log 60). -/
def Obligations.DivisionStartsAndCompletes : Prop :=
  ∀ (s : State) (o : SR), s.core.active o.g = true →
    let t := joinTaint (s.core.sTaint o.a) (s.core.sTaint o.b)
    let start (op : Nat) : Host.Outcome State Fault Refusal :=
      .next (s.upd fun c => { c with outst := c.outst ++ [.division op (c.sreg o.a) (c.sreg o.b) o.d t] })
    exec (.div o) s = start 0 ∧ exec (.divu o) s = start 1 ∧ exec (.rem o) s = start 2 ∧ exec (.remu o) s = start 3 ∧
    ∀ (op : Nat) (x y : Word) (d : Reg) (tt : Option Taint), op < 4 →
      ∀ q : State, q.core.outst[q.ev.index]? = some (.division op x y d tt) →
      (q.core.dividing q.ev.index = true → exec .divisionComplete q = .next q) ∧ (q.core.dividing q.ev.index = false →
      ∃ (v : Word) (fl : BitVec 11) (u : State), exec .divisionComplete q = .next u ∧
        u.core.outst = q.core.outst.eraseIdx q.ev.index ∧ (d ≠ 0 → u.core.sreg d = v) ∧ (∀ r, r ≠ d → u.core.sreg r = q.core.sreg r) ∧
        u.core.sticky = q.core.sticky ||| fl ∧ u.dev = q.dev ∧ u.core.a = q.core.a ∧ u.core.v = q.core.v ∧
        (y = 0 → fl = 0x002 ∧ v = (if op < 2 then 0xFFFFFFFFFFFFFFFF else x)) ∧
        (y ≠ 0 → op % 2 = 0 → x.toInt = -2 ^ 63 → y.toInt = -1 → fl = 0x004 ∧ v = (if op = 0 then x else 0)) ∧
        (y ≠ 0 → (op % 2 = 0 → ¬ (x.toInt = -2 ^ 63 ∧ y.toInt = -1)) → fl = 0 ∧
          (op = 0 → v.toInt = Int.tdiv x.toInt y.toInt) ∧ (op = 1 → v.toNat = x.toNat / y.toNat) ∧
          (op = 2 → v.toInt = Int.tmod x.toInt y.toInt) ∧ (op = 3 → v.toNat = x.toNat % y.toNat)))

/-- The integer conditions 0 to 9 of R14 on two words: EQ, NE, LT, GE, LTU, GEU, LE, GT, LEU, GTU. -/
def condOf (cc : Nat) (a b : Word) : Prop :=
  match cc with
  | 0 => a.toNat = b.toNat
  | 1 => a.toNat ≠ b.toNat
  | 2 => a.toInt < b.toInt
  | 3 => b.toInt ≤ a.toInt
  | 4 => a.toNat < b.toNat
  | 5 => b.toNat ≤ a.toNat
  | 6 => a.toInt ≤ b.toInt
  | 7 => b.toInt < a.toInt
  | 8 => a.toNat ≤ b.toNat
  | 9 => b.toNat < a.toNat
  | _ => False

/-- The mask and the bit of the entry at a depth of a predicate stack, counted from the top; all ones and 1 below the bottom (R200). -/
def entryAt (st : List PredEntry) (k : Nat) : LaneMask × Bool :=
  match st[k]? with
  | some e => (e.m, e.b)
  | none => (BitVec.allOnes 1024, true)

/-- CMP, CMPI and ACMP push the entry of R200; PELSE complements the top entry, PRD reads the stack, PWR rebuilds it
(R198, R199, R200, R201, R14, R202, R203). For every state, every legal condition code and every operands: CMP, CMPI
and (for its six codes, in a unit that accepts it) ACMP push one entry onto the stack as the pushes before it in the
bundle left it; when the condition holds the entry is its parent, otherwise its mask and its bit are zero. The stack
that guards read, and everything else, is unchanged. For every state: PELSE on a stack whose top mask is written
replaces the top by its complement within the entry below (all ones and 1 at depth 1); PRD sends the B bits from bit 0
upward from the bottom, the depth at bits 20 to 16 and the live-mask bits from bit 32, for every depth up to 16; PWR,
for a depth up to 16, sets a stack of that depth in which entry i has B equal to the AND of bits 0 to i of s_a and a
mask of B replicated. PELSE and PWR give the stack that the bundle leaves; nothing else changes. -/
def Obligations.PredicateStackOperationsAct : Prop :=
  (∀ (s : State), let st := s.core.pnext.getD s.core.pstack
    let pushed (e : PredEntry) : State := { s with core := { s.core with pnext := some (e :: st) } }
    let good (c : Prop) (e : PredEntry) : Prop :=
      (c → (e.m, e.b) = entryAt st 0) ∧ (¬ c → e.m = 0 ∧ e.b = false)
    (∀ o : SB, o.cc.toNat ≤ 9 →
      ∃ e, exec (.cmp o) s = .next (pushed e) ∧ good (condOf o.cc.toNat (s.core.sreg o.a) (s.core.sreg o.b)) e) ∧
    (∀ o : SI, o.fn.toNat ≤ 9 →
      ∃ e, exec (.cmpi o) s = .next (pushed e) ∧
        good (condOf o.fn.toNat (s.core.sreg o.a) (BitVec.ofInt 64 o.imm.toInt)) e) ∧
    (∀ o : AForm, s.refuses (.acmp o) = none → o.t.toNat < 16 → o.mod.toNat ∈ [0, 1, 4, 5, 8, 9] →
      let x := (s.core.areg o.base).toNat
      let y := (s.core.areg (o.t.setWidth 4)).toNat
      ∃ e, exec (.acmp o) s = .next (pushed e) ∧
        good (match o.mod.toNat with | 0 => x = y | 1 => x ≠ y | 4 => x < y | 5 => y ≤ x | 8 => x ≤ y | _ => y < x) e)) ∧
  (∀ (s : State) (o : SR),
    (∀ e rest, s.core.pstack = e :: rest → e.due ≤ s.core.tau →
      ∃ x : PredEntry, exec (.pelse o) s = .next { s with core := { s.core with pnext := some (x :: rest) } } ∧
        (∀ l, l < 1024 → x.m.getLsbD l = ((entryAt rest 0).1.getLsbD l && !e.m.getLsbD l)) ∧ x.b = ((entryAt rest 0).2 && !e.b)) ∧
    (s.core.active o.g = true → s.core.pstack.length ≤ 16 →
      ∃ v : Word, exec (.prd o) s = .next (s.sent 1 (.s o.d v none)) ∧
        ∀ k, k < 64 → v.getLsbD k =
          (let st := s.core.pstack
           let at_ (i : Nat) (f : PredEntry → Bool) : Bool := match st.reverse[i]? with | some e => f e | none => false
           if k < 16 then at_ k fun e => e.b
           else if k < 21 then st.length.testBit (k - 16)
           else if 32 ≤ k ∧ k < 48 then at_ (k - 32) fun e => e.m != (if e.b then BitVec.allOnes 1024 else 0)
           else false)) ∧
    (s.core.active o.g = true → (s.core.sreg o.a).toNat / 2 ^ 16 % 32 ≤ 16 →
      ∃ st : List PredEntry, exec (.pwr o) s = .next { s with core := { s.core with pwr := some st } } ∧
        st.length = (s.core.sreg o.a).toNat / 2 ^ 16 % 32 ∧
        ∀ i e, st.reverse[i]? = some e →
          e.b = decide (∀ j, j ≤ i → (s.core.sreg o.a).getLsbD j = true) ∧ e.m = (if e.b then BitVec.allOnes 1024 else 0)))

/-- A taken transfer sets the bundle that follows; RET, JR and CALLR beyond the stream, and TRAP, take their traps (R205,
R206, R207, R189, R221, R215). For every state and operands whose guard is active and whose target lies in the code-
stream positions: BR and BRI are taken exactly when their condition holds, JMP and CALL always, with target position +
sext(off32, 32); CALL sends the position of the next bundle to s31; DBNZ sends s_a - 1 to s_a and is taken unless that
is zero; RET, JR and CALLR go to s_a when it is below 2^30, CALLR sending the link to s_d. A transfer that is not
taken leaves the state as it is, DBNZ's count apart. For every state and operands whose guard is active and whose s_a
has a bit above 29 set, RET, JR and CALLR take the trap ILLOP from the S slot with the slot's bits as its detail, as
R207 and R189 say; a TRAP immediate takes TRAPI after its bundle with the immediate zero-extended, once an open
segment is committed. -/
def Obligations.TransfersSetTheirTargetOrTrap : Prop :=
  (∀ (s : State) (b : SB) (o : SR),
    let going (q : State) (p : Nat) : Host.Outcome State Fault Refusal := .next { q with core := { q.core with target := some p } }
    let link : Word := BitVec.ofNat 64 s.core.seqPos
    (s.core.active b.g = true → ∀ p : Nat, (s.core.pos : Int) + b.off.toInt = p → p < 2 ^ 32 → b.cc.toNat ≤ 9 →
      let x := s.core.sreg b.a
      (condOf b.cc.toNat x (s.core.sreg b.b) → exec (.br b) s = going s p) ∧
      (¬ condOf b.cc.toNat x (s.core.sreg b.b) → exec (.br b) s = .next s) ∧
      (condOf b.cc.toNat x (BitVec.ofInt 64 b.imm8.toInt) → exec (.bri b) s = going s p) ∧
      (¬ condOf b.cc.toNat x (BitVec.ofInt 64 b.imm8.toInt) → exec (.bri b) s = .next s) ∧
      exec (.jmp b) s = going s p ∧
      exec (.call b) s = going (s.sent 1 (.s 31 link none)) p ∧
      (let next : State := s.sent 1 (.s b.a (BitVec.ofInt 64 (x.toInt - 1)) (s.core.sTaint b.a))
       exec (.dbnz b) s = if x.toNat = 1 then .next next else going next p)) ∧
    (s.core.active o.g = true → (s.core.sreg o.a).toNat < 2 ^ 30 →
      let p := (s.core.sreg o.a).toNat
      exec (.ret o) s = going s p ∧ exec (.jr o) s = going s p ∧ exec (.callr o) s = going (s.sent 1 (.s o.d link none)) p)) ∧
  (∀ (s : State) (o : SR) (i : SI),
    (s.core.active o.g = true → 2 ^ 30 ≤ (s.core.sreg o.a).toNat →
      exec (.ret o) s = .next (s.takeTrap 0x01 0 (BitVec.ofNat 64 (slotBits (.ret o))) false) ∧
      exec (.jr o) s = .next (s.takeTrap 0x01 0 (BitVec.ofNat 64 (slotBits (.jr o))) false) ∧
      exec (.callr o) s = .next (s.takeTrap 0x01 0 (BitVec.ofNat 64 (slotBits (.callr o))) false)) ∧
    (s.core.active i.g = true → exec (.trap i) s = .next (s.commitSeg.takeTrap 0x18 0 (i.imm.setWidth 64) true)))

/-- SEV sets the latch of the task it names, SEV.all those of the others of the gang, and WFE with its latch set clears it
(R210, R211, R35). For a core whose resident task t executes them with an active guard: SEV with s_a equal to the
task's own CIDX sets its latch; with another CIDX below GSIZE it sets the latch of that task of the gang (none once it
has ended); SEV.all sets those of all others that have not ended; a CIDX at or above GSIZE raises XLATE; WFE with the
latch set clears it and goes on. Setting the latch of a task that is resident on another unit sets that unit's latch
and nothing else; of a task in WAITEV that is not resident it makes the task READY, with the event in EVT until its
resumption consumes it; otherwise it sets the EVT bit. -/
def Obligations.EventLatchesSetAndConsumed : Prop :=
  ∀ (s : State) (o : SR) (t : TaskInfo) (p : Nat), s.focus = .core p → s.core.active o.g = true → s.core.task = some t →
    let v := (s.core.sreg o.a).toNat
    let latch (q : State) (x : Bool) : State := { q with core := { q.core with evt := x } }
    (v < t.gsize.toNat → v = t.cidx.toNat → exec (.sev o) s = .next (latch s.commitSeg true)) ∧
    (t.gsize.toNat ≤ v → exec (.sev o) s = .next (s.takeTrap 0x05 0 (s.core.sreg o.a) false)) ∧
    (∀ g, s.commitSeg.dev.gangOf t.gang = some g →
      (v < t.gsize.toNat → v ≠ t.cidx.toNat →
        exec (.sev o) s = .next (if g.ended.contains (g.slots.getD v 0) then s.commitSeg else s.commitSeg.setEvent t.part (g.slots.getD v 0))) ∧
      (t.spawned = false → exec (.sevAll o) s =
        .next ((g.slots.filter fun i => i ≠ t.slot ∧ !g.ended.contains i).foldl (fun q i => q.setEvent t.part i) s.commitSeg))) ∧
    (t.spawned = true → exec (.sevAll o) s = .next s.commitSeg) ∧
    (s.core.evt = true → s.core.late = false → exec (.wfe o) s = .next (latch s.syncPoint false)) ∧
    (∀ (i : Nat) (u : Agent), s.residentOf t.part i = some u → u ≠ s.focus →
      let q := s.setEvent t.part i
      (q.getCore u).evt = true ∧ q.core = s.core ∧ q.dev = s.dev ∧ ∀ w, w ≠ u → q.getCore w = s.getCore w) ∧
    (∀ (i : Nat) (x : TaskSlot), s.residentOf t.part i = none → s.dev.slotOf t.part i = some x →
      ∃ y, (s.setEvent t.part i).dev.slotOf t.part i = some y ∧ (s.setEvent t.part i).core = s.core ∧
        (x.st = 3 → y.st = 0 ∧ y.evt = true) ∧ (x.st ≠ 3 → y.st = x.st ∧ y.evt = true))

/-- WFE, YIELD and SUSP suspend the task and free the core; EXIT ends the task and frees its slot, or raises QUEUE (R211,
R212, R34, R35, R27, R31, R214, R42, R404, R356). For a task in task mode with nothing outstanding and nothing in flight that meets
the checks of a suspension point (depth at most 12, no live vector mask, empty result queues, usable spill area) and an active guard:
WFE with a clear latch leaves the core idle with the slot in WAITEV (3), cause 3; YIELD in SUSPENDED (4), cause 4, the
footprint kept; SUSP in SUSPENDED (4), cause 1, FOOT set. The kept state has s1 to s4, the predicate bits, STICKY and
CYCLE; other scalar registers are zero, and of TFLAGS the mode and the handler bit alone are kept, which is the model's reading of
R27 and R35 (log 15). The cause codes are those of R31's record. For a task in task mode
with an active guard, no entry or drain of a result queue, no outstanding operation, no partner's store or atomic on
its way to its scratchpad and room among the held completions, EXIT answers a state in which the core has no task, its
task slot is gone from the slot table. With an outstanding operation, a partner's access on its way, or no room for its signals, EXIT closes an open
segment and waits.
With a result queue that holds an entry or has a drain in flight, EXIT raises QUEUE naming the lowest such queue. In monitor mode,
which MRET alone leaves, a suspending WFE, YIELD, SUSP and EXIT raise ILLOP with their slot words, which is the model's choice (log
108). -/
def Obligations.SuspensionAndExitLeaveTheCore : Prop :=
  (∀ (s : State) (o : SR) (t : TaskInfo) (p : Nat) (x : TaskSlot), s.focus = .core p → s.core.active o.g = true → s.core.task = some t →
    s.core.mon.mode = false → s.core.late = false → s.suspendCheck .s = none → s.core.outst = [] → s.core.seg = none → s.core.results = [] →
    s.core.mat.beats = [] → s.dev.slotOf t.part t.slot = some x →
    ∀ i st why foot, ((i = Instr.wfe o ∧ s.core.evt = false ∧ st = 3 ∧ why = 3 ∧ foot = false) ∨ (i = .yield o ∧ st = 4 ∧ why = 4 ∧ foot = false) ∨
        (i = .susp o ∧ st = 4 ∧ why = 1 ∧ foot = true)) →
      ∃ (u : State) (y : TaskSlot) (k : Core), exec i s = .next u ∧ u.core.task = none ∧ u.core.stopped = false ∧
        u.dev.slotOf t.part t.slot = some y ∧ y.st = st ∧ y.why = why ∧ y.foot = foot ∧ y.cpos = s.core.pos ∧ y.kept = some k ∧
        (∀ r : Reg, 1 ≤ r.toNat → r.toNat ≤ 4 → k.sreg r = s.core.sreg r) ∧ (∀ r : Reg, 4 < r.toNat → k.sreg r = 0) ∧
        k.sticky = s.core.sticky ∧ k.tflags = s.core.tflags &&& 0x3000000 ∧ k.cycle = s.core.cycle ∧ k.pstack.map (fun e => e.b) = s.core.pstack.map (fun e => e.b)) ∧
  (∀ (s : State) (o : SR) (t : TaskInfo) (p : Nat), s.focus = .core p → s.core.active o.g = true → s.core.mon.mode = false → s.core.late = false →
    s.core.task = some t →
    let full := s.dev.holdFull t.part (s.dev.endSignals t s.core.owesTrig)
    (s.core.mat.busyQueue = none → full = false → s.core.outst = [] → s.routedHere = false → s.core.seg = none →
      ∃ u, exec (.exit o) s = .next u ∧ u.core.task = none ∧ u.core.s = Vector.replicate 32 0 ∧ u.dev.slotOf t.part t.slot = none) ∧
    (s.core.mat.busyQueue = none → full = true ∨ s.core.outst ≠ [] ∨ s.routedHere = true → exec (.exit o) s = .next s.commitSeg.wait) ∧
    (∀ q, s.core.mat.busyQueue = some q →
      exec (.exit o) s = .next (s.takeTrap 0x0A 0 (BitVec.ofNat 64 q) false) ∧
      (∃ h : q < 4, s.core.mat.queues[q] ≠ [] ∨ ∃ d ∈ s.core.mat.drains, d.q.toNat = q) ∧
      ∀ k, (h : k < q) → ∀ hk : k < 4, s.core.mat.queues[k] = [] ∧ ∀ d ∈ s.core.mat.drains, d.q.toNat ≠ k)) ∧
  (∀ (s : State) (o : SR) (p : Nat), s.focus = .core p → s.core.active o.g = true → s.core.mon.mode = true →
    ∀ i, (i = Instr.wfe o ∧ s.core.evt = false ∨ i = .yield o ∨ i = .susp o ∨ i = .exit o) →
      exec i s = .next (s.takeTrap 0x01 0 (BitVec.ofNat 64 (slotBits i)) false))

/-- A trap goes to the task handler exactly when THANDLER.V is 1, HND is 0, its code is not one of the five fixed ones and
its TROUTE bit is 1 (R219). For every core and every code from 0x01 to 0x1A, the trap is delivered to the task handler
exactly when THANDLER.V is 1, TFLAGS.HND is 0, the code is none of PRIV, POISON, SEGRW, CTXLOST and MHND, and bit code
of TROUTE is 1; otherwise to the monitor. -/
def Obligations.TrapsRoutedToHandlerOrMonitor : Prop :=
  ∀ (c : Core) (code : Nat), 1 ≤ code → code ≤ 0x1A →
    (c.toMonitor code = false ↔
      c.thandler.getLsbD 31 = true ∧ c.tflags.getLsbD 25 = false ∧ code ∉ [0x03, 0x07, 0x19, 0x1A, 0x10] ∧ c.mon.troute.getLsbD code = true)

/-- Taking a trap saves what R220 and R369 say, in the handler's or the monitor's registers, and the handler's or
monitor's bundle is next (R220, R188, R369, R364). For every core in task mode whose trap code is routed to the task
handler and that has no open segment, taking the trap gives a state in which TCAUSE holds code and slot, TINFO the
detail, TPC the position of the first bundle not issued, HND is 1 and the rest of TFLAGS is as before; the predicate
stack is empty, the saved copy holds the old stack, signature, FMT counts and the frozen results and masks with their
remaining latency, no result is in flight, and the next bundle is the one at THANDLER.POS as a transfer target. The scalar,
address and vector registers, STICKY, the special registers of the monitor, the matrix context and the rest of the
device are unchanged, but for a wait in a DEQT, which ends. For every core in task mode with no open segment whose trap is routed to the monitor: MCAUSE
holds code and slot, MINFO the detail, MTPC the position, MSTATUS has MODE 1, TVALID 1, SAVED 0 and THND the old HND;
stack, signatures, FMT counts, results and replay are saved, none of the last two is active; the next bundle is the
one at MVEC. TCAUSE, TINFO, TPC, TFLAGS, the predicate stack, all registers, STICKY and memory keep their values. The
model also writes the trap into the Observing Log (log 11) and marks the slot HELD (R32). -/
def Obligations.TrapEntrySavesAndTransfers : Prop :=
  (∀ (s : State) (p code slot : Nat) (info : Word) (after : Bool), s.focus = .core p → s.core.mon.mode = false → code < 256 → slot < 8 →
    s.core.toMonitor code = false → s.core.seg = none →
    let u := s.takeTrap code slot info after
    let c := u.core
    c.tcause.toNat = code + slot * 256 ∧ c.tinfo = info ∧ c.tpc = BitVec.ofNat 32 s.core.pos ∧
    c.hnd = true ∧ (∀ k, k ≠ 25 → c.tflags.getLsbD k = s.core.tflags.getLsbD k) ∧
    c.pstack = [] ∧ c.results = [] ∧ c.replay = none ∧ c.pos = s.core.thandler.toNat % 2 ^ 30 ∧ c.sig.needBlk = true ∧ c.sig.checked = false ∧
    c.fmt.cur = s.core.fmt.cur ∧ c.fmt.pend = [] ∧
    c.handler = some { pstack := s.core.pstack.map fun e => { e with due := e.due - s.core.tau }, sig := s.core.sig, fmt := s.core.fmt,
                       replay := s.core.replay, bound := s.core.boundDue,
                       results := s.core.results.map fun r => { r with due := r.due - s.core.tau } } ∧ c.boundDue = [] ∧
    c.s = s.core.s ∧ c.a = s.core.a ∧ c.v = s.core.v ∧ c.sticky = s.core.sticky ∧ c.mat = s.core.mat ∧ c.bounds = s.core.bounds ∧
    c.shapes = s.core.shapes ∧ c.tau = s.core.tau ∧ c.mon = s.core.mon ∧ c.outst = s.core.outst ∧ c.tokens = s.core.tokens ∧
    ((∀ t x, s.core.task = some t → s.dev.slotOf t.part t.slot = some x → x.deqtQ = none) → u.dev = s.dev) ∧ u.parked = s.parked ∧
    u.focus = s.focus) ∧
  (∀ (s : State) (p code slot : Nat) (info : Word) (after : Bool), s.focus = .core p → s.core.mon.mode = false → code < 256 → slot < 8 →
    s.core.toMonitor code = true → s.core.seg = none →
    let u := s.takeTrap code slot info after
    let c := u.core
    c.mon.mcause.toNat = code + slot * 256 ∧ c.mon.minfo = info ∧ c.mon.mtpc = BitVec.ofNat 32 s.core.pos ∧ c.mon.mode = true ∧ c.mon.tvalid = true ∧
    c.mon.saved = false ∧ c.mon.thnd = s.core.tflags.getLsbD 25 ∧ c.pos = s.core.mon.mvec.toNat ∧ c.sig.needBlk = true ∧
    c.results = [] ∧ c.replay = none ∧ c.fmt.cur = s.core.fmt.cur ∧ c.fmt.pend = [] ∧
    c.monSave = some { pstack := s.core.pstack.map fun e => { e with due := e.due - s.core.tau }, sig := s.core.sig, fmt := s.core.fmt,
                       replay := s.core.replay, bound := s.core.boundDue,
                       results := s.core.results.map fun r => { r with due := r.due - s.core.tau } } ∧ c.boundDue = [] ∧
    c.tcause = s.core.tcause ∧ c.tinfo = s.core.tinfo ∧ c.tpc = s.core.tpc ∧ c.tflags = s.core.tflags ∧ c.pstack = s.core.pstack ∧
    c.s = s.core.s ∧ c.a = s.core.a ∧ c.v = s.core.v ∧ c.sticky = s.core.sticky ∧ c.mat = s.core.mat ∧ c.mon.troute = s.core.mon.troute ∧
    c.mon.csave = s.core.mon.csave ∧ c.mon.mscr = s.core.mon.mscr ∧ u.dev.mem = s.dev.mem ∧ u.parked = s.parked ∧ u.focus = s.focus)

/-- TRET and MRET restore what entry saved and resume the task; MRET.requeue and MRET.end free the core (R223, R373). For
every state with an active guard: TRET with HND 0 raises ILLOP with its slot word; with HND 1 and a matrix context saved and
neither restored nor kept it raises MHND; else, the handler having been entered with the saved state e, the stack and FMT state are
those of e, the frozen results and masks are in flight again with their remaining latency behind those of the handler, HND is 0,
the next bundle is the one at TPC and starts an unchecked block. Registers, STICKY, TCAUSE, TINFO, TPC and memory are
unchanged. For a core in monitor mode: MRET with TVALID 1 and SAVED 0, entered with saved state e, restores stack, FMT
state and frozen results, sets HND to THND, MODE and TVALID to 0, and the next bundle is the task's at MTPC; its
registers, TCAUSE and STICKY are unchanged. MRET.requeue with TVALID and SAVED 1 and nothing outstanding leaves
the core idle, its slot SAVED (5) with cause 5, CKPT set and position MTPC. MRET.end with no task and nothing outstanding
ends monitor duty: the core is idle in task mode, and the device is as before where no line of the caches is to be written back and there is
no store to publish; with the frozen task and nothing outstanding it ends the task. -/
def Obligations.ReturnsRestoreWhatEntrySaved : Prop :=
  (∀ (s : State) (o : SR), s.core.active o.g = true →
    (s.core.hnd = false → exec (.tret o) s = .next (s.takeTrap 0x01 0 (BitVec.ofNat 64 (slotBits (.tret o))) false)) ∧
    (s.core.hnd = true → s.core.mdue = true → exec (.tret o) s = .next (s.takeTrap 0x10 0 0 false)) ∧
    (∀ e, s.core.hnd = true → s.core.mdue = false → s.core.handler = some e →
      ∃ u, exec (.tret o) s = .next u ∧ u.dev = s.dev ∧ u.core.pos = s.core.tpc.toNat ∧ u.core.pstack = e.pstack.map (fun x => { x with due := if x.due = 0 then 0 else s.core.tau + x.due }) ∧ u.core.fmt = e.fmt ∧
        u.core.results = s.core.results ++ e.results.map (fun r => { r with due := s.core.tau + r.due }) ∧
        u.core.boundDue = e.bound ++ s.core.boundDue ∧ u.core.hnd = false ∧
        (∀ k, k ≠ 25 → u.core.tflags.getLsbD k = s.core.tflags.getLsbD k) ∧ u.core.handler = none ∧ u.core.sig.checked = false ∧ u.core.sig.needBlk = false ∧
        u.core.s = s.core.s ∧ u.core.a = s.core.a ∧ u.core.v = s.core.v ∧ u.core.sticky = s.core.sticky ∧ u.core.tcause = s.core.tcause ∧
        u.core.tinfo = s.core.tinfo ∧ u.core.tpc = s.core.tpc ∧ u.core.mon = s.core.mon)) ∧
  (∀ (s : State) (o : SR) (p : Nat), s.focus = .core p → s.core.mon.mode = true →
    (∀ e, s.core.mon.tvalid = true → s.core.mon.saved = false → s.core.monSave = some e →
      ∃ u, exec (.mret o) s = .next u ∧ u.core.pos = s.core.mon.mtpc.toNat ∧ u.core.pstack = e.pstack.map (fun x => { x with due := if x.due = 0 then 0 else s.core.tau + x.due }) ∧ u.core.fmt = e.fmt ∧
        u.core.results = s.core.results ++ e.results.map (fun r => { r with due := s.core.tau + r.due }) ∧
        u.core.hnd = s.core.mon.thnd ∧ u.core.mon.mode = false ∧ u.core.mon.tvalid = false ∧ u.core.s = s.core.s ∧ u.core.a = s.core.a ∧
        u.core.v = s.core.v ∧ u.core.sticky = s.core.sticky ∧ u.core.tcause = s.core.tcause ∧ u.core.task = s.core.task ∧ u.dev.mem = s.dev.mem) ∧
    (∀ t x, s.core.task = some t → s.core.mon.tvalid = true → s.core.mon.saved = true → s.core.outst = [] → s.core.seg = none → s.core.landing = [] →
        s.dev.slotOf t.part t.slot = some x →
      ∃ u y, exec (.mretRequeue o) s = .next u ∧ u.core.task = none ∧ u.core.mon.mode = false ∧ u.dev.slotOf t.part t.slot = some y ∧ y.st = 5 ∧ y.why = 5 ∧
        y.ckpt = true ∧ y.cpos = s.core.mon.mtpc.toNat) ∧
    (∀ t, s.core.task = some t → s.core.mon.tvalid = true → s.core.outst = [] → s.core.seg = none →
      ∃ u, exec (.mretEnd o) s = .next u ∧ u.core.task = none ∧ u.core.mon.mode = false ∧ u.dev.slotOf t.part t.slot = none) ∧
    (s.core.mon.tvalid = false → s.core.outst = [] → s.core.seg = none →
      ∃ u, exec (.mretEnd o) s = .next u ∧ u.core.task = none ∧ u.core.mon.mode = false ∧
        (s.core.landing = [] → s.core.dirty = [] → s.dev.hist = [] → s.dev.far = [] → s.core.l1 = [] →
          (∀ y ∈ (s.dev.dome s.focus.dome).l2, y.2.2 = false) → u.dev = s.dev)))

/-- TRAPF, with nothing in flight that can set a flag, raises CLIPT or ARITH for enabled flags and otherwise has no effect
(R222). For every state with an active guard in which no result, beat or drain that can set a flag is in flight and no
operation that can set one is outstanding: if CLIP is set and enabled TRAPF raises CLIPT; else if another flag is set
and enabled it raises ARITH with STICKY AND AEN, bit 6 clear; else it changes nothing. STICKY is not cleared. -/
def Obligations.TrapFenceRaisesEnabledFlags : Prop :=
  ∀ (s : State) (o : SR), s.core.active o.g = true → s.core.flagTime = 0 → s.core.outst.any Outstanding.canFlag = false →
    let on (k : Nat) : Prop := s.core.sticky.getLsbD k = true ∧ s.core.tflags.getLsbD (8 + k) = true
    (on 6 → ∃ info, exec (.trapf o) s = .next (s.takeTrap 0x0D 0 info false)) ∧
    (¬ on 6 → (∃ k, k < 11 ∧ k ≠ 6 ∧ on k) →
      ∃ info : Word, exec (.trapf o) s = .next (s.takeTrap 0x0C 0 info false) ∧
        ∀ k, info.getLsbD k = (decide (k ≠ 6) && s.core.sticky.getLsbD k && decide (k < 11) && s.core.tflags.getLsbD (8 + k))) ∧
    ((∀ k, k < 11 → ¬ on k) → exec (.trapf o) s = .next s)

/-- In task mode every privileged instruction of a core takes the trap PRIV with its slot word and has none of its effect
(R371). For every core in task mode and all operands: MRET in its three forms, PRDSR, PWRSR, XLINV in its three forms,
CTXSV, CTXLD, CORESTOP, JRNL, KICKSCAN and CMPLHOLD in both forms take the trap PRIV before their bundle issues, with
the slot's bits as the detail. -/
def Obligations.PrivilegedInstructionsTrapInTaskMode : Prop :=
  ∀ (s : State) (p : Nat) (o : SR) (q : SS), s.focus = .core p → s.core.mon.mode = false →
    let priv (i : Instr) : Prop := exec i s = .next (s.takeTrap 0x03 0 (BitVec.ofNat 64 (slotBits i)) false)
    priv (.mret o) ∧ priv (.mretRequeue o) ∧ priv (.mretEnd o) ∧ priv (.prdsr q) ∧ priv (.pwrsr q) ∧ priv (.xlinvPage o) ∧ priv (.xlinvCtx o) ∧
    priv (.xlinvPart o) ∧ priv (.ctxsv o) ∧ priv (.ctxld o) ∧ priv (.corestop o) ∧ priv (.jrnl o) ∧ priv (.kickscan o) ∧ priv (.cmplholdHold o) ∧
    priv (.cmplholdRelease o)

/-- RDSR and WRSR read and write the task registers by their numbers, and an access of a number from 0x800 up raises PRIV
in task mode (R172, R218, R191, R190, R187, R363). For a core in task mode with an active guard: RDSR of TFLAGS,
STICKY, CLIPMASK.n, CKSTAT, CKLOC, FMT, TCAUSE, TPC, TINFO, THANDLER, BURSTCNT, the grid registers of its task and
CYCLE (tau in Meridian mode) sends the value to s_d after one cycle without taint, or to a_d with isA; PARAM is read
with isA only. WRSR sets STICKY to its low 11 bits (with the flags of the present cycle), CLIPMASK.n, TPC and THANDLER
(bit 30 zero), and sends TFLAGS on its way for the next cycle. RDSR and WRSR of a number from 0x800 up raise PRIV.
Nothing else changes. -/
def Obligations.SpecialRegisterReadsAndWrites : Prop :=
  ∀ (s : State) (o : SS) (p : Nat) (t : TaskInfo), s.focus = .core p → s.core.mon.mode = false → s.core.active o.g = true → s.core.task = some t →
    let c := s.core
    let reads (n v : Nat) : Prop := o.spr.toNat = n →
      (o.isA = false → exec (.rdsr o) s = .next (s.sent 1 (.s o.d (BitVec.ofNat 64 v) none))) ∧
      (o.isA = true → exec (.rdsr o) s = .next (s.sent 1 (.a (o.d.setWidth 4) (BitVec.ofNat 80 v) none)))
    let v := c.sreg o.d
    let writes (n : Nat) (x : Core) : Prop := o.spr.toNat = n → o.isA = false → exec (.wrsr o) s = .next { s with core := x }
    reads 0x001 t.gx.toNat ∧ reads 0x002 t.gy.toNat ∧ reads 0x003 t.gz.toNat ∧ reads 0x004 t.cidx.toNat ∧ reads 0x005 t.gsize.toNat ∧
    reads 0x006 t.cx.toNat ∧ reads 0x007 t.cy.toNat ∧ reads 0x008 t.cz.toNat ∧ reads 0x011 t.seed.toNat ∧ reads 0x012 c.tflags.toNat ∧
    reads 0x020 c.sticky.toNat ∧ reads 0x021 (c.mat.tiles[o.sel.toNat]'o.sel.isLt).data.clip.toNat ∧ reads 0x022 c.mat.ckstat.toNat ∧
    reads 0x023 c.mat.ckloc.toNat ∧ reads 0x024 c.fmt.cur.toNat ∧ reads 0x030 c.tcause.toNat ∧ reads 0x031 c.tpc.toNat ∧ reads 0x032 c.tinfo.toNat ∧
    reads 0x033 c.thandler.toNat ∧ reads 0x040 (if c.tflags.getLsbD 24 then c.tau % 2 ^ 64 else c.cycle.toNat) ∧ reads 0x041 c.burstcnt.toNat ∧
    (o.spr.toNat = 0x010 → o.isA = true → exec (.rdsr o) s = .next (s.sent 1 (.a (o.d.setWidth 4) t.param none))) ∧
    writes 0x012 (s.sent 1 (.tflags v)).core ∧
    writes 0x020 { c with sticky := v.setWidth 11 ||| c.flagsNow } ∧
    writes 0x031 { c with tpc := v.setWidth 32 } ∧
    writes 0x033 { c with thandler := BitVec.ofNat 32 (v.toNat % 2 ^ 30 + (if v.getLsbD 31 then 2 ^ 31 else 0)) } ∧
    (o.spr.toNat = 0x021 → o.isA = false → ∃ u, exec (.wrsr o) s = .next u ∧ u.dev = s.dev ∧ u.core.sticky = c.sticky ∧ u.core.s = c.s ∧
      ∀ k, (h : k < 4) → u.core.mat.tiles[k].data.clip = if k = o.sel.toNat then v else c.mat.tiles[k].data.clip) ∧
    (0x800 ≤ o.spr.toNat → exec (.rdsr o) s = .next (s.takeTrap 0x03 0 (BitVec.ofNat 64 (slotBits (.rdsr o))) false) ∧
      exec (.wrsr o) s = .next (s.takeTrap 0x03 0 (BitVec.ofNat 64 (slotBits (.wrsr o))) false))

/-- In monitor mode PRDSR and PWRSR read and write the privileged registers by number; PWRSR of a read-only one raises
ILLOP (R363, R364, R365, R372, R395). For a core in monitor mode: PRDSR of MSTATUS, MCAUSE, MTPC, MINFO, MVEC, TROUTE,
MSCR0 to MSCR3, LCAL and CALPER sends the value to s_d after one cycle, and of MCODE, CSAVE and MHTAB (zero when
TVALID is 0) to a_d; PWRSR sets MTPC, MVEC, MCODE, CSAVE, TROUTE (its settable bits), MSCRn, LCAL, CALPER, TCAUSE and
TINFO; PWRSR to MSTATUS, MCAUSE, MINFO, MHTAB or SEGSTAT raises ILLOP. A queue processor's QHB write counts a
heartbeat at the wall cycle of the write. Nothing else changes. -/
def Obligations.PrivilegedRegisterReadsAndWrites : Prop :=
  ∀ (s : State) (o : SS) (p : Nat), s.focus = .core p → s.core.mon.mode = true →
    let c := s.core
    let m := c.mon
    let bit (b : Bool) (k : Nat) : Nat := if b then 2 ^ k else 0
    let reads (n v : Nat) : Prop := o.spr.toNat = n → o.isA = false → exec (.prdsr o) s = .next (s.sent 1 (.s o.d (BitVec.ofNat 64 v) none))
    let readsA (n : Nat) (v : Addr) : Prop := o.spr.toNat = n → o.isA = true → exec (.prdsr o) s = .next (s.sent 1 (.a (o.d.setWidth 4) v none))
    let v := c.sreg o.d
    let writes (n : Nat) (x : Mon) : Prop := o.spr.toNat = n → o.isA = false → exec (.pwrsr o) s = .next { s with core := { c with mon := x } }
    reads 0x800 (bit m.mode 0 + bit m.tvalid 1 + bit m.saved 2 + bit m.thnd 3) ∧ reads 0x801 m.mcause.toNat ∧ reads 0x802 m.mtpc.toNat ∧
    reads 0x803 m.minfo.toNat ∧ reads 0x804 m.mvec.toNat ∧ reads 0x807 m.troute.toNat ∧ reads 0x808 m.mscr[0].toNat ∧ reads 0x809 m.mscr[1].toNat ∧
    reads 0x80A m.mscr[2].toNat ∧ reads 0x80B m.mscr[3].toNat ∧ reads 0x810 m.lcal.toNat ∧ reads 0x811 m.calper.toNat ∧
    readsA 0x805 m.mcode ∧ readsA 0x806 m.csave ∧ readsA 0x80C (if m.tvalid then m.mhtab else 0) ∧
    writes 0x802 { m with mtpc := v.setWidth 32 } ∧ writes 0x804 { m with mvec := v.setWidth 32 } ∧ writes 0x807 { m with troute := v &&& 0x1FEFF76 } ∧
    writes 0x810 { m with lcal := v.setWidth 32 } ∧ writes 0x811 { m with calper := v.setWidth 32 } ∧
    (∀ k, (h : k < 4) → writes (0x808 + k) { m with mscr := m.mscr.set k v }) ∧
    (o.isA = true → (o.spr.toNat = 0x805 → exec (.pwrsr o) s = .next { s with core := { c with mon := { m with mcode := c.areg (o.d.setWidth 4) } } }) ∧
      (o.spr.toNat = 0x806 → exec (.pwrsr o) s = .next { s with core := { c with mon := { m with csave := c.areg (o.d.setWidth 4) } } })) ∧
    (o.spr.toNat = 0x030 → o.isA = false → exec (.pwrsr o) s = .next { s with core := { c with tcause := v &&& 0x7FF } }) ∧
    (o.spr.toNat = 0x032 → o.isA = false → exec (.pwrsr o) s = .next { s with core := { c with tinfo := v } }) ∧
    (o.spr.toNat ∈ [0x800, 0x801, 0x803, 0x80C, 0x812] →
      exec (.pwrsr o) s = .next (s.takeTrap 0x01 0 (BitVec.ofNat 64 (slotBits (.pwrsr o))) false)) ∧
    ∀ (d k : Nat) (q : State), q.focus = .qp d k →
      exec .qhbWrite q = .next { q with core := { q.core with mon := { q.core.mon with qhb := q.core.mon.qhb + 1, qhbAt := q.core.wall } } }

/-- No cache of the device, of a core or of a cluster, holds a leaf that `p` picks (R420). -/
def noneCached (u : State) (p : Cached → Prop) : Prop :=
  (∀ c ∈ u.core.tlb, ¬ p c) ∧ (∀ y ∈ u.parked, ∀ c ∈ y.2.tlb, ¬ p c) ∧ ∀ k : Nat, ∀ c ∈ (u.dev.cluster k).leaves, ¬ p c

/-- XLINV drops cached translations, CORESTOP stops the core; JRNL, KICKSCAN and CMPLHOLD act on a queue processor (R373,
R386, R409, R410, R422). For a core in monitor mode: XLINV.page, .ctx and .part wait while an access in flight uses a
translation that they drop, and otherwise leave no cached translation of the page of a_a in the context, of the context, or of a
context of the partition, in any core or cluster, and keep the registers; CORESTOP with no frozen task stops the core. For a queue processor: JRNL sends the ring's sequence number to s_d and advances it;
KICKSCAN sends the first pending kick of partition s_a[2:0] at or above s_a[15:8], wrapping, and clears it alone, or
256 when there is none; CMPLHOLD.hold sets the dome's hold and CMPLHOLD.release ends it. -/
def Obligations.PrivilegedOperationsAct : Prop :=
  (∀ (s : State) (o : SR) (p : Nat), s.focus = .core p → s.core.mon.mode = true →
    let keeps (i : Instr) (x : XlScope) (p : Cached → Prop) : Prop :=
      (s.xlinvWaits x = true → exec i s = .next { s with last := .waits }) ∧
      (s.xlinvWaits x = false → ∃ u, exec i s = .next u ∧ noneCached u p ∧
        u.core.s = s.core.s ∧ u.core.a = s.core.a ∧ u.core.v = s.core.v ∧ u.core.spad = s.core.spad ∧ u.core.results = s.core.results)
    keeps (.xlinvPage o) (s.dev.xlPage s.ctx (s.core.areg5 o.a)) (fun c => c.ctx = s.ctx ∧ c.page = (s.core.areg5 o.a).toNat / 2 ^ levelShift c.lvl) ∧
    keeps (.xlinvCtx o) (.context s.ctx) (fun c => c.ctx = s.ctx) ∧
    keeps (.xlinvPart o) (.part s.partition) (fun c => s.dev.ctxOwner c.ctx = some s.partition) ∧
    (s.core.mon.tvalid = false → s.core.seg = none →
      ∃ u, exec (.corestop o) s = .next u ∧ u.core.stopped = true ∧ u.core.s = s.core.s ∧ u.dev.mem = s.dev.mem)) ∧
  ∀ (s : State) (o : SR) (d k : Nat), s.focus = .qp d k →
    (∃ u, exec (.jrnl o) s = .next u ∧ u.core = (s.sent 1 (.s o.d (BitVec.ofNat 64 (s.dev.dome d).qjseq) none)).core ∧
      (u.dev.dome d).qjseq = (s.dev.dome d).qjseq + 1) ∧
    (let x := (s.core.sreg o.a).toNat
     let w := (s.dev.part (x % 8)).kicks
     (w = 0 → exec (.kickscan o) s = .next (s.sent 1 (.s o.d 256 none))) ∧
     (∀ j, j < 256 → w.getLsbD ((x / 256 + j) % 256) = true → (∀ i, i < j → w.getLsbD ((x / 256 + i) % 256) = false) →
       ∃ u, exec (.kickscan o) s = .next u ∧ u.core = (s.sent 1 (.s o.d (BitVec.ofNat 64 ((x / 256 + j) % 256)) none)).core ∧
         ∀ i, i < 256 → (u.dev.part (x % 8)).kicks.getLsbD i = (w.getLsbD i && decide (i ≠ (x / 256 + j) % 256)))) ∧
    (∃ u, exec (.cmplholdHold o) s = .next u ∧ (u.dev.dome d).hold = true ∧ (u.dev.dome d).held = (s.dev.dome d).held ∧ u.core = s.core) ∧
    (∃ u, exec (.cmplholdRelease o) s = .next u ∧ (u.dev.dome d).hold = false ∧ u.core = s.core)

/-- The address operations send the results of R197 after one cycle, and TIDX the coordinate of R217, and change nothing
else (R197, R217). For every state in which the unit accepts the operation, with an active guard and operands in
range: the address results are the integer sums of R197 modulo 2^80, with sext(s_i, 64) scaled by 2^k for ASCL; ASET
builds its 80 bits from off24[15:0] and s_i; AGET sends bits 63 to 0, or bits 79 to 64 zero-extended. Each result is
due at tau + 1. For every state with an active guard and a shape entry N whose sizes below D are at least 1: TIDX with
k below D sends, due at tau + 3, the coordinate in which the successive quotients floor(q / n_i) are taken for the
dimensions below k, and the remainder modulo n_k is taken unless k is the last dimension; with k at or above D it
raises ILLOP with its slot word. The multipliers are those of R216. That AADD and ASCL join the taints of both operands is the
model's reading of R127 (log 60). -/
def Obligations.AddressesAndTensorIndexes : Prop :=
  (∀ (s : State) (o : AForm), s.core.active o.g = true →
    let b := (s.core.areg o.base).toNat
    let i := (s.core.sreg o.idx).toInt
    let tb := s.core.aTaint o.base
    let ti := s.core.sTaint o.idx
    let res (v : Addr) (t : Option Taint) : Host.Outcome State Fault Refusal := .next (s.sent 1 (.a (o.t.setWidth 4) v t))
    (s.refuses (.aadd o) = none → exec (.aadd o) s = res (BitVec.ofInt 80 (b + i)) (joinTaint tb ti)) ∧
    (s.refuses (.aaddi o) = none → exec (.aaddi o) s = res (BitVec.ofInt 80 (b + o.off.toInt)) tb) ∧
    (s.refuses (.amov o) = none → exec (.amov o) s = res (BitVec.ofNat 80 b) tb) ∧
    (s.refuses (.aset o) = none →
      exec (.aset o) s = res (BitVec.ofNat 80 (o.off.toNat % 2 ^ 16 * 2 ^ 64 + (s.core.sreg o.idx).toNat)) ti) ∧
    (s.refuses (.ascl o) = none → exec (.ascl o) s = res (BitVec.ofInt 80 (b + i * 2 ^ o.mod.toNat)) (joinTaint tb ti)) ∧
    (s.refuses (.aget o) = none →
      (o.mod = 0 → exec (.aget o) s = .next (s.sent 1 (.s o.t (BitVec.ofNat 64 b) tb))) ∧
      (o.mod = 1 → exec (.aget o) s = .next (s.sent 1 (.s o.t (BitVec.ofNat 64 (b / 2 ^ 64)) tb))))) ∧
  (∀ (s : State) (o : SR), s.core.active o.g = true →
    let h := s.core.shapes[o.fn.toNat % 16]'(Nat.mod_lt _ (by decide))
    let k := o.fn.toNat / 16 % 8
    (h.dims ≤ k → exec (.tidx o) s = .next (s.takeTrap 0x01 0 (BitVec.ofNat 64 (slotBits (.tidx o))) false)) ∧
    (k < h.dims → h.dims ≤ 5 → (∀ i, (hi : i < 5) → i < h.dims → 1 ≤ h.sizes[i].toNat) →
      let q := (List.range k).foldl (fun q i => q / h.size i) ((s.core.sreg o.a).toNat % 2 ^ 32)
      exec (.tidx o) s = .next (s.sent 3 (.s o.d (BitVec.ofNat 64 (if k + 1 = h.dims then q else q % h.size k)) (s.core.sTaint o.a)))))

/-- An access of `n` bytes at address `x` is aligned, permitted and not watched, and `p` is where it goes (R307, R384). -/
def accessOk (s : State) (o : AForm) (x : Int) (n : Nat) (k : Kind) (ld st : Bool) (p : Place × Nat) : Prop :=
  x % n = 0 ∧ s.place o.as.toNat x n k = .ok p ∧ s.watchHit o.as.toNat ld st [(x, n)] = none

/-- The address of R162: base (none for number 0 outside G space), index (scaled when SX is set) and sext(off24, 24); modulo 2^80 in
G space. -/
def effectiveAddress (s : State) (o : AForm) (sx : Bool) : Int :=
  let base : Int := if o.as ≠ 0 ∧ o.base = 0 then 0 else (s.core.areg o.base).toNat
  let x := base + (s.core.sreg o.idx).toInt * (if sx then 2 ^ o.size.toNat else 1) + o.off.toInt
  if o.as = 0 then x % 2 ^ 80 else x

/-- Places other than a partner's scratchpad: physical memory, the own scratchpad, the four dome scratchpads, lane-private memory. -/
def homePlace : Place → Prop
  | .spad _ _ => False
  | .dome d => d < 4
  | _ => True

/-- The memories that a unit stores into keep their canonical form, none of its stores is held or in flight, and the phases of its
task began no later than now (R123). -/
def quietMemory (s : State) : Prop :=
  s.core.seg = none ∧ s.core.landing = [] ∧ (∀ a, s.core.phaseOf a ≤ s.dev.stamp) ∧ memWf s.core.spad = true ∧ memWf s.core.lanes = true ∧
  ∀ d, memWf (s.dev.dome d).spad = true

/-- LD and LDC go to memory with the zero-extended little-endian bytes at the effective address, and LOAD_RETURN writes
s_t (R307, R162, R154, R126, R127, R418). For every state in which the unit accepts the load, with an active guard and an access
of size 0 to 3 that is aligned, permitted and not watched: one more load is outstanding, whose value is the sum of
byte k times 2^(8k) of the bytes that the unit reads at the place of the address; where global memory holds no store that is not
published at SYSTEM scope, those are memory's bytes. LDC acts as LD at CORE scope and in P space; elsewhere its bytes are those of
R126's choice, and its value is tainted with at least its scope. Otherwise only the translation caches, the L1's lines, what the task
has read, and the accessed bit of the page change. When a load of good data returns, s_t has its value and other scalar
registers are unchanged, and so is the device, where no bus error and no lateness of a Meridian task is logged; an error that the
event reports is marked where it is and consumed: with no bus error, one of the L1 line, or of the memory of the space that the event
names. The reading of the taint of an LDC is the model's (log 60). -/
def Obligations.ScalarLoadsReadTheirBytes : Prop :=
  (∀ (s : State) (o : AForm) (p : Place × Nat), s.core.active o.g = true → o.size.toNat ≤ 3 →
    let n : Nat := 2 ^ o.size.toNat
    let x := effectiveAddress s o (o.mod.getLsbD 0)
    accessOk s o x n .load true false p →
    let fl := s.floors o true
    let sum (b : Nat → Byte) : Word := BitVec.ofNat 64 ((List.range n).foldr (fun k acc => (b k).toNat * 2 ^ (8 * k) + acc) 0)
    let gone (q : State) (v : Word) (t : Option Taint) : State :=
      { q with core := { q.core with outst := q.core.outst ++ [.load (.s o.t v t) (s.badAt n [x] [p])] } }
    let loaded : State := gone ((s.hasRead fl n [p]).touch o.as.toNat x n .load) (sum fun k => s.byteIn fl p.1 p.2 (p.2 + k)) none
    (s.refuses (.ld o) = none → exec (.ld o) s = .next loaded) ∧
    (s.refuses (.ldc o) = none → o.scope = 0 ∨ o.as = 1 → exec (.ldc o) s = .next loaded) ∧
    (s.refuses (.ldc o) = none → ¬ (o.scope = 0 ∨ o.as = 1) → ∃ u t, exec (.ldc o) s = .next u ∧ o.scope.toNat ≤ t.scope.toNat ∧
      u.core.outst = s.core.outst ++ [.load (.s o.t (sum fun k => ((s.consumed fl o.scope.toNat p n).getD k (0, none)).1) (some t)) (s.badAt n [x] [p])] ∧
      u.core = { s.core with outst := u.core.outst, tlb := u.core.tlb, l1 := u.core.l1, raced := u.core.raced }) ∧
    (s.dev.hist = [] → s.core.dirty = [] → s.core.landing = [] → s.core.seg = none → p.1 = .phys →
      ∀ k, s.byteIn fl .phys p.2 (p.2 + k) = memGet s.dev.mem (p.2 + k)) ∧
    loaded.core = { s.core with outst := loaded.core.outst, tlb := loaded.core.tlb, l1 := loaded.core.l1, raced := loaded.core.raced } ∧
    (o.as ≠ 0 → loaded.dev = s.dev)) ∧
  ∀ (s : State) (r : Reg) (v : Word) (t : Option Taint), s.core.outst[s.ev.index]? = some (.load (.s r v t) none) →
    (s.ev.ok = true → ∃ u, exec .loadReturn s = .next u ∧ (r ≠ 0 → u.core.sreg r = v) ∧ (∀ q, q ≠ r → u.core.sreg q = s.core.sreg q) ∧
      (s.ev.bus = none → s.core.mer = false ∨ s.ev.late = 0 → u.dev = s.dev) ∧
      u.core.outst = s.core.outst.eraseIdx s.ev.index ∧ u.core.sticky = s.core.sticky ∧ u.core.a = s.core.a ∧ u.core.v = s.core.v) ∧
    (s.ev.ok = false → let f := s.merLate.foundBad
      exec .loadReturn s = .next ({ f.1 with core := f.1.core.dropOutst s.ev.index }.consume f.2 (s.ev.va.toNat % 2 ^ 64)) ∧
      f.1.core = s.core ∧
      (s.ev.bus = none → f.2 = (match s.ev.space with
        | 0 => s.core.l1Error s.ev.addr
        | 1 => .memory .own s.ev.addr
        | 2 => .memory (.spad s.partition s.ev.slot) s.ev.addr
        | 3 => .memory (.dome s.focus.dome) s.ev.addr
        | 4 => .memory .lane s.ev.addr
        | _ => .memory .phys s.ev.addr)))

/-- ST stores the low bytes of s_t at the effective address and changes no other byte, directly or held in an open segment
(R307, R162, R314, R120). For every state in which the unit accepts ST, with an active guard and an access of size 0
to 3 that is aligned, permitted and not watched: the state after the page is touched takes one store of the low bytes
of s_t at the place of the address. With no segment open and nothing in flight, a store outside partner scratchpads
reads back byte for byte, and every other byte reads as before; a store to a partner's scratchpad joins the stores in
flight; in an open segment with room it is held and reads back the same way. No register and no flag changes. -/
def Obligations.ScalarStoreWritesItsBytes : Prop :=
  ∀ (s : State) (o : AForm) (p : Place × Nat), s.refuses (.st o) = none → s.core.active o.g = true → o.size.toNat ≤ 3 →
    let n : Nat := 2 ^ o.size.toNat
    let x := effectiveAddress s o (o.mod.getLsbD 0)
    accessOk s o x n .store false true p →
    let s1 := s.touch o.as.toNat x n .store
    let piece : Piece := { place := p.1, addr := p.2, bytes := (List.range n).map fun k => (s.core.sreg o.t).extractLsb' (8 * k) 8 }
    let stored (u : State) : Prop :=
      (∀ k, k < n → u.byteAt p.1 (p.2 + k) = (s.core.sreg o.t).extractLsb' (8 * k) 8) ∧
      (∀ pl y, homePlace pl → (pl ≠ p.1 ∨ y < p.2 ∨ p.2 + n ≤ y) → u.byteAt pl y = s1.byteAt pl y) ∧
      u.core.s = s.core.s ∧ u.core.a = s.core.a ∧ u.core.v = s.core.v ∧ u.core.sticky = s.core.sticky ∧ u.core.results = s.core.results
    exec (.st o) s = .next (s1.store o.as.toNat [piece] 1) ∧
    (quietMemory s → homePlace p.1 → stored (s1.store o.as.toNat [piece] 1)) ∧
    (∀ k i, s.core.seg = none → p.1 = .spad k i →
      s1.store o.as.toNat [piece] 1 = { s1 with core := { s1.core with landing := s1.core.landing ++ [{ pieces := [piece] }] } }) ∧
    (∀ g, s.core.seg = some g → o.as.toNat ≠ 2 → g.used + 1 ≤ 64 → homePlace p.1 → stored (s1.store o.as.toNat [piece] 1))

/-- VLD, VLDS, VGATH and LSLD go to memory with the bytes of their active lanes, and occupy the A slot for their time
(R308, R307, R309, R310, R315, R227). For every state that accepts the load and whose addresses are aligned, permitted
and not watched: VLD of n rows (row k at ea + 256k) and VLDS (row k at base + displacement + k times s_idx) start a
load of the active lanes of rows 0 to n - 1 whose lane 16c + j has the 4 bytes at 4j of chunk c, occupying the slot
for n cycles; VGATH reads at each active lane's own address, zero-extended, for 16 cycles; LSLD each lane's own slice
at one offset, for 4. The slot is free again at tau plus that time. The other registers of the core and the other
units are unchanged; the device is as the accesses leave it: the lines that are read join the caches, and a walk sets the accessed bit
of its page and fills the translation caches (touch). Outside G space nothing of it changes, and no task's scratchpad and no dome
scratchpad changes in any space. -/
def Obligations.VectorLoadsReadTheirRows : Prop :=
  ∀ (s : State) (o : AForm),
    let lane (fl : List Nat) (p : Place × Nat) (j n : Nat) : Nat :=
      (List.range n).foldr (fun k acc => (s.byteIn fl p.1 (p.2 + j) (p.2 + j + k)).toNat * 2 ^ (8 * k) + acc) 0
    let active : LaneMask := if o.g then s.core.topM else BitVec.allOnes 1024
    let started (u q : State) (m : LaneMask) (v : VReg) (occ : Nat) : Prop :=
      u.parked = s.parked ∧ u.focus = s.focus ∧ u.dev = q.dev ∧ (o.as ≠ 0 → u.dev = s.dev) ∧ u.dev.slots = s.dev.slots ∧
      (∀ d, (u.dev.dome d).spad = (s.dev.dome d).spad) ∧
      (∃ bad, u.core.outst = s.core.outst ++ [.load (.v (s.core.vnum o.t) m v) bad]) ∧ u.core.busyA = s.core.tau + occ ∧
      u.core.s = s.core.s ∧ u.core.a = s.core.a ∧ u.core.v = s.core.v ∧ u.core.spad = s.core.spad ∧ u.core.dirty = s.core.dirty ∧ u.core.lanes = s.core.lanes
    (∀ (i : Instr) (xs : List Int) (ps : List (Place × Nat)), s.refuses i = none →
      (i = .vld o ∧ xs = (List.range (o.mod.toNat + 1)).map (fun k => addrIn o.as.toNat (s.ea o false + 256 * k)) ∨
       i = .vlds o ∧ (s.core.sreg o.idx).toNat % 64 = 0 ∧
         xs = (List.range (o.mod.toNat + 1)).map (fun k => addrIn o.as.toNat (s.eaBase o + (s.core.sreg o.idx).toInt * k))) →
      (∀ x ∈ xs, x % 64 = 0) → s.rowPlaces o.as.toNat .load xs = .ok ps →
      (∀ m, s.watchHit o.as.toNat true false (laneRanges m xs) = none) →
      ∃ u m v, exec i s = .next u ∧
        started u (xs.foldl (fun q x => q.touch o.as.toNat x 256 .load) (s.hasRead (s.floors o true) 64 ps)) m v (o.mod.toNat + 1) ∧
        (∀ l, m.getLsbD l = (active.getLsbD l && decide (l < 64 * (o.mod.toNat + 1)))) ∧
        ∀ c p, ps[c]? = some p → ∀ j, (h : 16 * c + j < 1024) → j < 16 → v[16 * c + j].toNat = lane (s.floors o true) p (4 * j) 4) ∧
    (∀ ps, s.refuses (.vgath o) = none → o.size.toNat ≤ 2 → s.lanePlaces o .load = .ok ps →
      (∀ rs, s.watchHit o.as.toNat true false rs = none) →
      ∃ u v, exec (.vgath o) s = .next u ∧
        started u (ps.foldl (fun q p => q.touch o.as.toNat (s.laneEa o p.1) (2 ^ o.size.toNat) .load)
          (s.hasRead (s.floors o false) (2 ^ o.size.toNat) (ps.map Prod.snd))) active v 16 ∧
        ∀ l p, (l, p) ∈ ps → (h : l < 1024) → v[l].toNat = lane (s.floors o false) p 0 (2 ^ o.size.toNat)) ∧
    (s.refuses (.lsld o) = none → o.size.toNat ≤ 2 → ∀ x : Nat,
      ((s.core.sreg o.idx).toNat : Int) * (if o.mod.getLsbD 0 then 2 ^ o.size.toNat else 1) + o.off.toInt = x → x % 2 ^ o.size.toNat = 0 →
      x + 2 ^ o.size.toNat ≤ 256 →
      ∃ u v, exec (.lsld o) s = .next u ∧ u.dev = s.dev ∧ started u s active v 4 ∧
        ∀ l, (h : l < 1024) → v[l].toNat = lane [] (.lane, 256 * l) x (2 ^ o.size.toNat))

/-- VST, VSCAT and LSST store the bytes of their active lanes in lane order, VST of a queue stores and pops a value
quarter (R308, R309, R310, R260, R315). For every state that accepts the store and whose addresses are aligned,
permitted and not watched, without a bound register: the store is that of the packed bytes of the active lanes, VST
row by row at ea + 256k (occupying the slot n cycles), VSCAT lane by lane in ascending order at each lane's address
(16), LSST into each active lane's slice (4). VST of result queue q whose head is an entry stores its next value
quarter after an open segment closes and pops it; with an empty queue and no drain in flight it raises QUEUE with the
queue's number as an underflow. -/
def Obligations.VectorStoresWriteActiveLanes : Prop :=
  ∀ (s : State) (o : AForm), o.tid = 0 →
    let active : LaneMask := if o.g then s.core.topM else BitVec.allOnes 1024
    let touched (q : State) (xs : List Int) (n : Nat) : State := xs.foldl (fun q x => q.touch o.as.toNat x n .store) q
    let busy (q : State) (n : Nat) : State := { q with core := { q.core with busyA := q.core.tau + n } }
    (∀ n ps, n = o.mod.toNat + 1 →
      let m := active &&& rowMask n
      let xs := (List.range n).map fun k => addrIn o.as.toNat (s.ea o false + 256 * k)
      s.refuses (.vst o) = none → (∀ x ∈ xs, x % 64 = 0) → s.rowPlaces o.as.toNat .store xs = .ok ps →
      s.watchHit o.as.toNat false true (laneRanges m xs) = none →
      exec (.vst o) s = .next (busy ((touched s xs 256).store o.as.toNat (lanePieces m ps (s.core.vreg o.t)) n) n)) ∧
    (∀ ps e, let q : BitVec 2 := o.mod.setWidth 2
      let m := active &&& rowMask 16
      let xs := (List.range 16).map fun k => addrIn o.as.toNat (s.ea o false + 256 * k)
      s.refuses (.vstQueue o) = none → s.core.mat.head q = .entry e → (∀ x ∈ xs, x % 64 = 0) → s.rowPlaces o.as.toNat .store xs = .ok ps →
      s.watchHit o.as.toNat false true (laneRanges m xs) = none →
      ∃ v : VReg, (∀ row col, (h : 64 * row + col < 1024) → col < 64 → ∀ h' : 256 * row + (64 * e.popped + col) < 4096,
          v[64 * row + col] = e.elems[256 * row + (64 * e.popped + col)]) ∧
        exec (.vstQueue o) s =
          .next (busy ((((touched s xs 256).store o.as.toNat (lanePieces m ps v) 16).commitSeg).upd fun c => c.popQuarter q) 16)) ∧
    (∀ ps, let q : BitVec 2 := o.mod.setWidth 2
      let xs := (List.range 16).map fun k => addrIn o.as.toNat (s.ea o false + 256 * k)
      s.refuses (.vstQueue o) = none → s.core.mat.head q = .empty → (∀ x ∈ xs, x % 64 = 0) → s.rowPlaces o.as.toNat .store xs = .ok ps →
      (∀ m, s.watchHit o.as.toNat false true (laneRanges m xs) = none) →
      exec (.vstQueue o) s = .next (s.takeTrap 0x0A 1 (BitVec.ofNat 64 (q.toNat + 256)) false)) ∧
    (s.refuses (.vscat o) = none → o.size.toNat ≤ 2 → ∀ ps, s.lanePlaces o .store = .ok ps → (∀ rs, s.watchHit o.as.toNat false true rs = none) →
      exec (.vscat o) s = .next (busy ((ps.foldl (fun q p => q.touch o.as.toNat (s.laneEa o p.1) (2 ^ o.size.toNat) .store) s).store o.as.toNat
        (ps.map fun p => { place := p.2.1, addr := p.2.2, bytes := bytesOfNat (2 ^ o.size.toNat) (laneAt (s.core.vreg o.t) p.1).toNat }) 16) 16)) ∧
    (s.refuses (.lsst o) = none → o.size.toNat ≤ 2 → ∀ x : Nat,
      ((s.core.sreg o.idx).toNat : Int) * (if o.mod.getLsbD 0 then 2 ^ o.size.toNat else 1) + o.off.toInt = x → x % 2 ^ o.size.toNat = 0 →
      x + 2 ^ o.size.toNat ≤ 256 →
      exec (.lsst o) s = .next (busy (s.store 4 (((List.range 1024).filter fun l => active.getLsbD l).map fun l =>
        { place := .lane, addr := 256 * l + x, bytes := bytesOfNat (2 ^ o.size.toNat) (laneAt (s.core.vreg o.t) l).toNat }) 1) 4))

/-- A misaligned access raises ALIGN, an access without a place raises the code of its fault, with the address as the
detail (R307, R313, R189, R11, R39, R356). For every state with an active guard in a unit that accepts the access, of
size 0 to 3: LD, ST and the atomics at an address that is no multiple of the size take ALIGN from the A slot with bits
63 to 0 of the address; aligned ones for which the space has no place take that code (XLATE, PERM) with the same
detail (outside G space). In P space the place exists exactly when the bytes lie within 512 KiB on a core and within
256 KiB on a queue processor, and the code is XLATE otherwise. -/
def Obligations.MemoryAccessFaults : Prop :=
  ∀ (s : State) (o : AForm), s.core.active o.g = true → o.size.toNat ≤ 3 →
    let n : Nat := 2 ^ o.size.toNat
    (∀ (i : Instr) (x : Int) (k : Kind), s.refuses i = none →
      ((i = .ld o ∨ i = .ldc o) ∧ x = effectiveAddress s o (o.mod.getLsbD 0) ∧ k = .load ∨ i = .st o ∧ x = effectiveAddress s o (o.mod.getLsbD 0) ∧ k = .store ∨
       (i = .amo o ∨ i = .amos o ∨ i = .cas o) ∧ x = s.eaBase o ∧ k = .atomic) →
      (x % n ≠ 0 → exec i s = .next (s.takeTrap 0x04 1 (BitVec.ofInt 64 x) false)) ∧
      (∀ code, o.as ≠ 0 → x % n = 0 → s.place o.as.toNat x n k = .error code →
        exec i s = .next (s.takeTrap code 1 (BitVec.ofInt 64 x) false))) ∧
    ∀ (x : Int) (m : Nat) (k : Kind), let room : Int := if s.isQp then 0x40000 else 0x80000
      (0 ≤ x ∧ x + m ≤ room → s.place 1 x m k = .ok (.own, x.toNat)) ∧ (¬ (0 ≤ x ∧ x + m ≤ room) → s.place 1 x m k = .error 0x05) ∧
      ∀ (t : TaskInfo) (g : Gang), s.core.task = some t → t.spawned = false → s.dev.gangOf t.gang = some g →
        let c := x.toNat / 0x80000
        let off := x.toNat % 0x80000
        (0 ≤ x ∧ c < 128 ∧ c < t.gsize.toNat ∧ off + m ≤ t.foot ∧ c = t.cidx.toNat → s.place 2 x m k = .ok (.own, off)) ∧
        (0 ≤ x ∧ c < 128 ∧ c < t.gsize.toNat ∧ off + m ≤ t.foot ∧ c ≠ t.cidx.toNat ∧ g.slots.getD c 0 ∉ g.ended →
          s.place 2 x m k = .ok (.spad t.part (g.slots.getD c 0), off)) ∧
        (x < 0 ∨ c ≥ 128 ∨ c ≥ t.gsize.toNat ∨ off + m > t.foot ∨ c ≠ t.cidx.toNat ∧ g.slots.getD c 0 ∈ g.ended → s.place 2 x m k = .error 0x05)

/-- PREF, WBL and INVL touch the caches only; LPIN and LUNPIN count page pins up to 65535, and hold and release lines
(R116, R311, R312, R314). For every accepting state with an active guard: PREF, WBL and INVL on an address in global memory change
only the translation caches, the accessed bit and what L1s and L2s hold of lines: in the core's own L1 the line of ea alone, which
PREF holds (a window has none), WBL no longer holds as dirty beyond CORE scope, and INVL drops; elsewhere they change no register and
no line. The page forms, on a mapped address and after an open segment closes,
raise or lower the pin count of the page that holds ea by one, staying at 65535 and at zero; LPIN on an unmapped address raises
the code of the walk; the line forms hold the line of ea in its home dome while fewer than 4096 are held, and release it. -/
def Obligations.LineAndPinOperations : Prop :=
  ∀ (s : State) (o : AForm), s.core.active o.g = true → o.as = 0 →
    let count (u : State) (page : Nat × Nat) : Nat :=
      match u.dev.pins.find? fun e => e.1 == s.ctx && (e.2.1, e.2.2.1) == page with | some e => e.2.2.2 | none => 0
    let x := s.ea o false
    let y := s.ea o (o.mod.getLsbD 0)
    let line (i : Instr) (l : Nat → List (Nat × Nat) → Prop) : Prop := s.refuses i = none →
      (∀ pa, s.place 0 y 1 .any = .ok (.phys, pa) → ∃ u, exec i s = .next u ∧ l pa u.core.l1 ∧
        (∀ e, e.1 ≠ pa / 128 → (e ∈ u.core.l1 ↔ e ∈ s.core.l1)) ∧
        (let q := s.touch 0 y 1 .any
         u.core = { q.core with l1 := u.core.l1 } ∧ u.dev = { q.dev with domes := u.dev.domes } ∧
         (∀ d : Fin 4, u.dev.domes[d] = { q.dev.domes[d] with l2 := u.dev.domes[d].l2 }) ∧
         u.parked.map (fun x => (x.1, { x.2 with l1 := [] })) = q.parked.map (fun x => (x.1, { x.2 with l1 := [] })))) ∧
      ∀ code, s.place 0 y 1 .any = .error code → ∃ u, exec i s = .next u ∧ u.core.s = s.core.s ∧ u.core.a = s.core.a ∧ u.core.l1 = s.core.l1
    line (.pref o) (fun pa l1 => (inWindow pa = false → ∃ sc, (pa / 128, sc) ∈ l1) ∧
      (inWindow pa = true → ∀ sc, (pa / 128, sc) ∈ l1 ↔ (pa / 128, sc) ∈ s.core.l1)) ∧
    line (.wbl o) (fun pa l1 => 0 < o.scope.toNat → (pa / 128, 0) ∉ l1) ∧
    line (.invl o) (fun pa l1 => ∀ sc, (pa / 128, sc) ∉ l1) ∧
    (s.refuses (.lpin o) = none → ∀ p, s.place 0 x 1 .any = .ok p →
      let page := (s.commitSeg.touch 0 x 1 .any).dev.pageOf s.ctx (BitVec.ofInt 80 x)
      ∃ u, exec (.lpin o) s = .next u ∧ u.core.s = s.core.s ∧ u.core.a = s.core.a ∧ count u page = min 65535 (count s page + 1) ∧
        ∀ k, k ≠ page → count u k = count s k) ∧
    (s.refuses (.lpin o) = none → ∀ code, s.place 0 x 1 .any = .error code → exec (.lpin o) s = .next (s.memTrap code 0 x .a)) ∧
    (s.refuses (.lunpin o) = none → (∀ e ∈ s.dev.pins, 1 ≤ e.2.2.2 ∧ e.2.2.2 ≤ 65535) →
      s.dev.pins.Pairwise (fun e f => ¬ (e.1 = f.1 ∧ e.2.1 = f.2.1 ∧ e.2.2.1 = f.2.2.1)) →
      let page := s.commitSeg.dev.pageOf s.ctx (BitVec.ofInt 80 x)
      ∃ u, exec (.lunpin o) s = .next u ∧ u.core.s = s.core.s ∧ u.core.a = s.core.a ∧ count u page = count s page - 1 ∧
        ∀ k, k ≠ page → count u k = count s k) ∧
    (s.refuses (.lpinLine o) = none → ∀ p, s.place 0 x 1 .any = .ok p →
      ∃ u, exec (.lpinLine o) s = .next u ∧ u.core.s = s.core.s ∧
        (((s.dev.dome (l2Home p.2)).linePins.filter fun q => q.1 == s.ctx).length < 4096 → (s.ctx, x.toNat / 128) ∈ (u.dev.dome (l2Home p.2)).linePins) ∧
        (((s.dev.dome (l2Home p.2)).linePins.filter fun q => q.1 == s.ctx).length ≥ 4096 → s.core.seg = none →
          (u.dev.dome (l2Home p.2)).linePins = (s.dev.dome (l2Home p.2)).linePins)) ∧
    (s.refuses (.lunpinLine o) = none →
      ∃ u, exec (.lunpinLine o) s = .next u ∧ u.core.s = s.core.s ∧ ∀ d, (s.ctx, x.toNat / 128) ∉ (u.dev.dome d).linePins)

/-- An atomic is outstanding until it is performed; then it returns the old value and writes the new one of R313 at its
place (R313, R136, R154). For every accepting state with an active guard, size 2 or 3, an aligned, permitted and
unwatched access with no open segment, and no float operation in Meridian mode: AMO, AMOS and CAS add one outstanding
atomic with place, width, operation (12 for CAS), operands cut to w bits and scope, and touch the page. When an atomic
of operations 0 to 8 or CAS is performed on private memory, or on global memory in which every store is published at SYSTEM scope,
with nothing in flight and no poison, its bytes are the old value combined with the operand as the table of R313 says,
s_t has the old value zero-extended, and every other byte of home memory is as before. -/
def Obligations.AtomicsReadModifyWrite : Prop :=
  (∀ (s : State) (o : AForm) (p : Place × Nat), s.core.active o.g = true → (o.size = 2 ∨ o.size = 3) → s.core.seg = none →
    let n : Nat := 2 ^ o.size.toNat
    accessOk s o (s.eaBase o) n .atomic true true p →
    let gone (op : Nat) (e : Nat) (d : Option Reg) : State :=
      let q := s.touch o.as.toNat (s.eaBase o) n .atomic
      { q with core := { q.core with outst := q.core.outst ++ [.atomic p.1 p.2 n op (BitVec.ofNat 64 ((s.core.sreg o.idx).toNat % 2 ^ (8 * n)))
        (BitVec.ofNat 64 (e % 2 ^ (8 * n))) d o.scope (addrInfo (s.eaBase o)) (s.floors o false)] } }
    (s.refuses (.amo o) = none → (s.core.mer = true → o.mod.toNat < 9 ∨ 11 < o.mod.toNat) → exec (.amo o) s = .next (gone o.mod.toNat 0 (some o.t))) ∧
    (s.refuses (.amos o) = none → (s.core.mer = true → o.mod.toNat < 9 ∨ 11 < o.mod.toNat) → exec (.amos o) s = .next (gone o.mod.toNat 0 none)) ∧
    (s.core.mer = true → 9 ≤ o.mod.toNat → o.mod.toNat ≤ 11 → s.refuses (.amo o) = none → exec (.amo o) s = .next (s.takeTrap 0x11 1 0 false)) ∧
    (s.refuses (.cas o) = none → exec (.cas o) s = .next (gone 12 (s.core.sreg o.t).toNat (some o.t)))) ∧
  ∀ (s : State) (at_ : Place) (x n op ea : Nat) (v e : Word) (r : Reg) (scope : BitVec 3) (fl : List Nat), quietMemory s → (n = 4 ∨ n = 8) →
    s.dev.poison = [] → r ≠ 0 → (at_ = .own ∨ at_ = .phys ∧ s.dev.hist = [] ∧ s.core.dirty = [] ∧ memWf s.dev.mem = true) →
    v.toNat < 2 ^ (8 * n) → e.toNat < 2 ^ (8 * n) → (op ≤ 8 ∨ op = 12) → s.core.outst[s.ev.index]? = some (.atomic at_ x n op v e (some r) scope ea fl) →
    let w := 8 * n
    let old := (List.range n).foldr (fun k acc => (s.byteAt at_ (x + k)).toNat * 2 ^ (8 * k) + acc) 0
    let signed (y : Nat) : Int := if y < 2 ^ (w - 1) then y else (y : Int) - 2 ^ w
    let new : Nat := match op with
      | 0 => (old + v.toNat) % 2 ^ w
      | 1 => old &&& v.toNat
      | 2 => old ||| v.toNat
      | 3 => old ^^^ v.toNat
      | 4 => if signed v.toNat < signed old then v.toNat else old
      | 5 => if signed old < signed v.toNat then v.toNat else old
      | 6 => min old v.toNat
      | 7 => max old v.toNat
      | 8 => v.toNat
      | _ => if old = e.toNat then v.toNat else old
    ∃ u, exec .atomicPerformed s = .next u ∧ (u.core.sreg r).toNat = old ∧
      (∀ k, k < n → (u.byteAt at_ (x + k)).toNat = new / 2 ^ (8 * k) % 256) ∧
      (∀ pl y, homePlace pl → (pl ≠ at_ ∨ y < x ∨ x + n ≤ y) → u.byteAt pl y = s.byteAt pl y) ∧
      (∀ q, q ≠ r → u.core.sreg q = s.core.sreg q) ∧ u.core.sticky = s.core.sticky ∧ u.core.outst = s.core.outst.eraseIdx s.ev.index

/-- A V-slot result on its way: `v` goes to the lanes `m` of v_d after `lat` cycles with flags `fl`, the register is journalled when a
segment is open, and the slot is busy for `occ` cycles. Everything else is as in `s` (R153, R157, R375). -/
def vectorSent (s : State) (o : VForm) (lat occ : Nat) (m : LaneMask) (v : VReg) (fl : BitVec 11) (can : Bool) : State :=
  let d := s.core.vnum o.d
  let q := s.core.journalV d
  let r : Result := { w := .v d m v, flags := fl, can := can, due := s.core.tau + lat }
  { s with core := { q with results := s.core.results ++ [r]
                            busyV0 := if o.v1 then s.core.busyV0 else s.core.tau + occ
                            busyV1 := if o.v1 then s.core.tau + occ else s.core.busyV1 } }

/-- The active lanes of a guarded V-slot operation (R144). -/
def guardLanes (s : State) (o : VForm) : LaneMask := if o.p then s.core.topM else BitVec.allOnes 1024

/-- The b operand of lane `l` (R229): a vector lane, a scalar, or the sign-extended immediate. -/
def operandB (s : State) (o : VForm) (l : Nat) (h : l < 1024) : Lane :=
  match o.fn.toNat % 4 with
  | 0 => (s.core.vreg o.b)[l]
  | 1 => BitVec.ofNat 32 (s.core.sreg o.b).toNat
  | _ => BitVec.ofInt 32 o.imm8.toInt

/-- Each integer element operation sends, lane by lane, the value of R231 after 3 cycles; only saturating ones raise SAT
(R231). For every state and operands with ty i32 or u32 (bitwise ones with any ty): VADD, VSUB, VMUL, VFMA, VFMS and
VFNMA send the low 32 bits of the exact result, VMIN and VMAX the smaller and larger in the type, VABS and VNEG
absolute value and negation (without sat modulo 2^32), VAND, VOR, VXOR and VNOT the bitwise result, VSHL, VSHR and
VSRA the shift by b mod 32, VMULH the high half, VADDS and VSUBS the clamped sum with SAT exactly when an active lane
was clamped. Results go to the active lanes at tau + 3, the slot is busy 4 cycles, nothing else changes, and no other
flag is set. -/
def Obligations.VectorIntegerArithmetic : Prop :=
  ∀ (s : State) (o : VForm), o.fn.toNat % 4 ≤ 2 →
    let m := guardLanes s o
    let val (x : Lane) : Int := if o.ty = 0x0F then x.toInt else x.toNat
    let lo : Int := if o.ty = 0x0F then -2 ^ 31 else 0
    let hi : Int := if o.ty = 0x0F then 2 ^ 31 - 1 else 2 ^ 32 - 1
    let a (l : Nat) (h : l < 1024) : Lane := (s.core.vreg o.a)[l]
    let c (l : Nat) (h : l < 1024) : Lane := (s.core.vreg o.c)[l]
    let sends (i : Instr) (f : ∀ l, l < 1024 → Lane → Prop) : Prop :=
      ∃ v can, exec i s = .next (vectorSent s o 3 4 m v 0 can) ∧ ∀ l (h : l < 1024), m.getLsbD l = true → f l h v[l]
    let exact (i : Instr) (f : Int → Int → Int → Int) : Prop :=
      sends i fun l h r => r = BitVec.ofInt 32 (f (val (a l h)) (val (operandB s o l h)) (val (c l h)))
    let clamps (i : Instr) (f : Int → Int → Int) : Prop :=
      ∃ v fl can, exec i s = .next (vectorSent s o 3 4 m v fl can) ∧
        (∀ l (h : l < 1024), m.getLsbD l = true → val v[l] = max lo (min hi (f (val (a l h)) (val (operandB s o l h))))) ∧
        (fl = 0 ∨ fl = 0x020) ∧
        (fl = 0x020 ↔ ∃ l, ∃ h : l < 1024, m.getLsbD l = true ∧
          ¬ (lo ≤ f (val (a l h)) (val (operandB s o l h)) ∧ f (val (a l h)) (val (operandB s o l h)) ≤ hi))
    (o.ty = 0x0F ∨ o.ty = 0x10 →
      exact (.vadd o) (fun x y _ => x + y) ∧ exact (.vsub o) (fun x y _ => x - y) ∧ exact (.vmul o) (fun x y _ => x * y) ∧
      exact (.vfma o) (fun x y z => x * y + z) ∧ exact (.vfms o) (fun x y z => x * y - z) ∧ exact (.vfnma o) (fun x y z => z - x * y) ∧
      exact (.vmin o) (fun x y _ => min x y) ∧ exact (.vmax o) (fun x y _ => max x y) ∧
      exact (.vmulh o) (fun x y _ => Int.fdiv (x * y) (2 ^ 32)) ∧
      (o.sat = false → exact (.vneg o) (fun x _ _ => -x) ∧ exact (.vabs o) (fun x _ _ => |x|)) ∧
      clamps (.vadds o) (fun x y => x + y) ∧ clamps (.vsubs o) (fun x y => x - y)) ∧
    sends (.vand o) (fun l h r => ∀ k, r.getLsbD k = ((a l h).getLsbD k && (operandB s o l h).getLsbD k)) ∧
    sends (.vor o) (fun l h r => ∀ k, r.getLsbD k = ((a l h).getLsbD k || (operandB s o l h).getLsbD k)) ∧
    sends (.vxor o) (fun l h r => ∀ k, r.getLsbD k = ((a l h).getLsbD k != (operandB s o l h).getLsbD k)) ∧
    sends (.vnot o) (fun l h r => ∀ k, k < 32 → r.getLsbD k = !(a l h).getLsbD k) ∧
    sends (.vshl o) (fun l h r => r.toNat = (a l h).toNat * 2 ^ ((operandB s o l h).toNat % 32) % 2 ^ 32) ∧
    sends (.vshr o) (fun l h r => r.toNat = (a l h).toNat / 2 ^ ((operandB s o l h).toNat % 32)) ∧
    sends (.vsra o) (fun l h r => r.toInt = Int.fdiv (a l h).toInt (2 ^ ((operandB s o l h).toNat % 32)))

/-- Each FP32 element operation and special function sends its value to the active lanes with the OR of the lanes' flags
(R230, R231, R232, R233, R254). For every state with ty f32: VADD, VSUB, VMUL, VFMA, VFMS and VFNMA send the sum,
difference, product or fused result of the rounding mode, SAT and FTZ (fAdd, fSub, fMul, fFma) after 6 cycles; VRCP,
VRSQ, VSQRT, VDIV, VEXP2, VLOG2, VTANH, VSIGM, VSINP and VERF the special function after 12; VMIN, VMAX, VABS, VNEG
and VCLMP after 3, without flags, VABS clearing and VNEG inverting bit 31. The flags sent are the OR of those of the
active lanes, and nothing else changes. -/
def Obligations.VectorFloatArithmetic : Prop :=
  ∀ (s : State) (o : VForm), o.ty = 0 → o.fn.toNat % 4 ≤ 2 →
    let m := guardLanes s o
    let a (l : Nat) (h : l < 1024) : Lane := (s.core.vreg o.a)[l]
    let c (l : Nat) (h : l < 1024) : Lane := (s.core.vreg o.c)[l]
    let rm := o.rm.toNat
    let ftz := s.core.tflags.getLsbD 1
    let sends (i : Instr) (lat : Nat) (f : ∀ l, l < 1024 → Lane × BitVec 11) : Prop :=
      ∃ v fl can, exec i s = .next (vectorSent s o lat 4 m v fl can) ∧ (∀ l (h : l < 1024), m.getLsbD l = true → v[l] = (f l h).1) ∧
        ∀ k, fl.getLsbD k = true ↔ ∃ l, ∃ h : l < 1024, m.getLsbD l = true ∧ (f l h).2.getLsbD k = true
    sends (.vadd o) 6 (fun l h => fAdd rm o.sat ftz (a l h) (operandB s o l h)) ∧ sends (.vsub o) 6 (fun l h => fSub rm o.sat ftz (a l h) (operandB s o l h)) ∧
    sends (.vmul o) 6 (fun l h => fMul rm o.sat ftz (a l h) (operandB s o l h)) ∧
    sends (.vfma o) 6 (fun l h => fFma rm o.sat ftz false false (a l h) (operandB s o l h) (c l h)) ∧
    sends (.vfms o) 6 (fun l h => fFma rm o.sat ftz false true (a l h) (operandB s o l h) (c l h)) ∧
    sends (.vfnma o) 6 (fun l h => fFma rm o.sat ftz true false (a l h) (operandB s o l h) (c l h)) ∧
    sends (.vmin o) 3 (fun l h => (fMinMax false (a l h) (operandB s o l h), 0)) ∧ sends (.vmax o) 3 (fun l h => (fMinMax true (a l h) (operandB s o l h), 0)) ∧
    sends (.vabs o) 3 (fun l h => (BitVec.ofNat 32 ((a l h).toNat % 2 ^ 31), 0)) ∧
    sends (.vneg o) 3 (fun l h => (BitVec.ofNat 32 ((a l h).toNat + 2 ^ 31), 0)) ∧
    sends (.vrcp o) 12 (fun l h => fRcp rm o.sat ftz (a l h)) ∧ sends (.vrsq o) 12 (fun l h => fRsq rm o.sat ftz (a l h)) ∧
    sends (.vsqrt o) 12 (fun l h => fSqrt rm o.sat ftz (a l h)) ∧ sends (.vdiv o) 12 (fun l h => fDiv rm o.sat ftz (a l h) (operandB s o l h)) ∧
    sends (.vexp2 o) 12 (fun l h => fExp2 rm o.sat ftz (a l h)) ∧ sends (.vlog2 o) 12 (fun l h => fLog2 rm o.sat ftz (a l h)) ∧
    sends (.vtanh o) 12 (fun l h => fTanh rm o.sat ftz (a l h)) ∧ sends (.vsigm o) 12 (fun l h => fSigm rm o.sat ftz (a l h)) ∧
    sends (.vsinp o) 12 (fun l h => fSinp rm o.sat ftz (a l h)) ∧ sends (.verf o) 12 (fun l h => fErf rm o.sat ftz (a l h)) ∧
    sends (.vclmp o) 3 (fun l h => (if (a l h).toNat % 2 ^ 31 > 0x7F800000 then a l h ||| 0x400000
      else fMinMax false (c l h) (fMinMax true (a l h) (s.core.vreg o.b)[l]), 0))

/-- The rational number that a finite value denotes. -/
def rationalOf : FVal → Option ℚ
  | .fin s m e => some ((if s then -1 else 1) * m * (2 : ℚ) ^ e)
  | _ => none

/-- Results are the rational rounded once: an exact one is itself, any other is the neighbour that the rounding mode
chooses (R68, R72, R230, R13). For every rounding mode 0 to 4: converting the value of a finite FP32 encoding gives
that encoding with no flag; and whenever the rational sum (product, fused sum) of finite FP32 values is the value of a
finite nonzero encoding x, fAdd (fMul, fFma) without FTZ gives x and no flag. These are the functions that VADD, VMUL
and VFMA apply lane by lane. For every magnitude n/d with d positive and each mode: RNE gives an integer at least
distance from n/d, the even one of two; RTZ the floor of the magnitude; RUP and RDN the floor or ceiling by the sign;
RNA the nearest with ties away from zero; the second component is true exactly when d does not divide n. -/
def Obligations.RoundingOfRationals : Prop :=
  (∀ (rm : Nat) (sat : Bool) (a b c x : Lane) (p q r z : ℚ), rm ≤ 4 →
    rationalOf (f32Val x) = some z →
    fp32.convert rm 0 sat (f32Val x) = (x.toNat, 0) ∧
    (z ≠ 0 → rationalOf (f32Val a) = some p → rationalOf (f32Val b) = some q →
      (p + q = z → fAdd rm sat false a b = (x, 0)) ∧ (p * q = z → fMul rm sat false a b = (x, 0)) ∧
      (rationalOf (f32Val c) = some r → p * q + r = z → fFma rm sat false false false a b c = (x, 0)))) ∧
  (∀ (r : Nat) (sg : Bool) (n d : Nat), 0 < d →
    let dist (k : Nat) : Nat := Int.natAbs ((n : Int) - k * d)
    (∀ rm, rm ≤ 5 → (roundNat rm r sg n d).2 = decide (n % d ≠ 0)) ∧
    (let k := (roundNat 0 r sg n d).1
     (∀ j, dist k ≤ dist j) ∧ (∀ j, j ≠ k → dist j = dist k → k % 2 = 0)) ∧
    (roundNat 1 r sg n d).1 = n / d ∧
    (roundNat 2 r sg n d).1 = (if sg then n / d else (n + d - 1) / d) ∧
    (roundNat 3 r sg n d).1 = (if sg then (n + d - 1) / d else n / d) ∧
    (let k := (roundNat 4 r sg n d).1
     (∀ j, dist k ≤ dist j) ∧ (∀ j, dist j = dist k → j ≤ k)))

/-- VCMP, VCLS and VVTOM push the lane mask of their condition within the parent entry; VSEL, VMTOV and VMCNT read the top
mask (R200, R235, R236, R237, R238, R239, R262). For every state: VCMP pushes an entry whose bit is the parent's and
whose mask is the parent's AND the lane condition (integer codes 0 to 9 by signed or unsigned value; float codes by
floatCond), written at tau + 3; VCLS that of the selected classes and VVTOM that of the nonzero lanes or of the packed
bits; VSEL sends a or b by the top mask to every lane; VMTOV the mask as all-ones lanes or packed in row 0; VMCNT the
number of set bits or the lowest set bit (1024 for none) to s_d after 3 cycles. -/
def Obligations.ComparesPushLaneMasks : Prop :=
  ∀ (s : State) (o : VForm), o.fn.toNat % 4 ≤ 2 →
    let st := s.core.pnext.getD s.core.pstack
    let a (l : Nat) (h : l < 1024) : Lane := (s.core.vreg o.a)[l]
    let pushes (i : Instr) (f : ∀ l, l < 1024 → Prop) : Prop :=
      ∃ u e, exec i s = .next u ∧ u.core.pnext = some (e :: st) ∧ e.b = (entryAt st 0).2 ∧ s.core.tau + 3 ≤ e.due ∧
        (∀ l (h : l < 1024), e.m.getLsbD l = true ↔ ((entryAt st 0).1.getLsbD l = true ∧ f l h)) ∧
        u.core.s = s.core.s ∧ u.core.v = s.core.v ∧ u.core.pstack = s.core.pstack ∧ u.dev = s.dev
    let all := BitVec.allOnes 1024
    let sends (i : Instr) (f : ∀ l, l < 1024 → Lane) : Prop := ∃ v, exec i s = .next (vectorSent s o 3 4 all v 0 false) ∧ ∀ l (h : l < 1024), v[l] = f l h
    (o.ty = 0 → pushes (.vcmp o) fun l h => (floatCond (o.fn.toNat / 4) (a l h) (operandB s o l h)).1 = true) ∧
    (o.ty = 0x0F ∨ o.ty = 0x10 → pushes (.vcmp o) fun l h =>
      let x := a l h
      let y := operandB s o l h
      match o.fn.toNat / 4 with
      | 0 => x = y | 1 => x ≠ y | 2 => x.toInt < y.toInt | 3 => y.toInt ≤ x.toInt | 4 => x.toNat < y.toNat | 5 => y.toNat ≤ x.toNat
      | 6 => x.toInt ≤ y.toInt | 7 => y.toInt < x.toInt | 8 => x.toNat ≤ y.toNat | 9 => y.toNat < x.toNat | _ => False) ∧
    pushes (.vcls o) (fun l h =>
      let x := (a l h).toNat
      let k := x % 2 ^ 31
      let neg := x ≥ 2 ^ 31
      let sel (n : Nat) : Prop := if n = 8 then o.fn.getLsbD 0 = true else o.imm8.getLsbD n = true
      (k > 0x7F800000 ∧ sel 8) ∨ (k = 0x7F800000 ∧ (if neg then sel 0 else sel 7)) ∨ (0x800000 ≤ k ∧ k < 0x7F800000 ∧ (if neg then sel 1 else sel 6)) ∨
      (0 < k ∧ k < 0x800000 ∧ (if neg then sel 2 else sel 5)) ∨ (k = 0 ∧ (if neg then sel 3 else sel 4))) ∧
    (o.fn = 0 → pushes (.vvtom o) fun l h => a l h ≠ 0) ∧
    (o.fn = 1 → pushes (.vvtom o) fun l h => (s.core.vreg o.a)[l / 32].getLsbD (l % 32) = true) ∧
    sends (.vsel o) (fun l h => if s.core.topM.getLsbD l then a l h else operandB s o l h) ∧
    (o.fn = 0 → sends (.vmtov o) fun l _ => if s.core.topM.getLsbD l then 0xFFFFFFFF else 0) ∧
    (o.fn = 1 → sends (.vmtov o) fun l _ => if l < 32 then s.core.topM.extractLsb' (32 * l) 32 else 0) ∧
    (∃ u n, exec (.vmcnt o) s = .next u ∧ u.core.results = s.core.results ++ [{ w := .s o.d (BitVec.ofNat 64 n) none, due := s.core.tau + 3 }] ∧
      u.core.s = s.core.s ∧ u.dev = s.dev ∧
      (o.fn = 0 → n = ((List.range 1024).filter fun l => s.core.topM.getLsbD l).length) ∧
      (o.fn = 1 → (∀ l, l < n → s.core.topM.getLsbD l = false) ∧ (n = 1024 ∨ n < 1024 ∧ s.core.topM.getLsbD n = true)))

/-- Each move within a register sends to lane (row, column) the lane its rule names, to the active lanes (R240, R241,
R242, R243, R244, R255, R262). For every state: VMOV, VSPLAT, VIOTA, VBCR, VBCC, VROTR, VROTC, VPERMR, VTRN and VTIDX
(coordinate below D) send to each active lane l = 64 row + column the value that R240 to R244 and R255 name, after 3,
4, 8, 12 or 6 cycles; VINS sends, when lane s_b mod 1024 is active, s_a to that lane and d's own values to the others; VEXT sends the lane s_b mod 1024 of a
to s_d, sign-extended for i32, after 4 cycles. No flag is set and nothing else changes. -/
def Obligations.RegisterMovesPermuteLanes : Prop :=
  ∀ (s : State) (o : VForm),
    let m := guardLanes s o
    let a := s.core.vreg o.a
    let b := s.core.vreg o.b
    let sends (i : Instr) (lat : Nat) (f : Nat → Nat → Lane) : Prop :=
      ∃ v, exec i s = .next (vectorSent s o lat 4 m v 0 false) ∧ ∀ l (h : l < 1024), m.getLsbD l = true → v[l] = f (l / 64) (l % 64)
    let at_ (r : VReg) (row col : Nat) : Lane := r[(64 * row + col) % 1024]'(Nat.mod_lt _ (by decide))
    let k : Nat := if o.fn.getLsbD 0 then (s.core.sreg o.b).toNat % 2 ^ 32 else o.imm8.toNat
    sends (.vmov o) 3 (fun row col => at_ a row col) ∧
    (o.fn = 0 → sends (.vsplat o) 3 fun _ _ => BitVec.ofNat 32 (s.core.sreg o.a).toNat) ∧
    (o.fn = 1 → sends (.vsplat o) 3 fun _ _ => BitVec.ofInt 32 o.imm8.toInt) ∧
    (o.fn.toNat ≤ 2 → sends (.viota o) 3 fun row col =>
      BitVec.ofInt 32 ((s.core.sreg o.a).toNat + (if o.fn = 0 then 64 * row + col else if o.fn = 1 then col else row : Nat) * o.imm8.toInt)) ∧
    sends (.vbcr o) 4 (fun row _ => at_ a row (k % 64)) ∧ sends (.vbcc o) 8 (fun _ col => at_ a (k % 16) col) ∧
    sends (.vrotr o) 4 (fun row col => at_ a row ((col + k) % 64)) ∧ sends (.vrotc o) 8 (fun row col => at_ a ((row + k) % 16) col) ∧
    sends (.vpermr o) 4 (fun row col => let x := (at_ b row col).toNat; if 2 ^ 31 ≤ x then 0 else at_ a row (x % 64)) ∧
    sends (.vtrn o) 12 (fun row col => at_ a (col % 16) (col / 16 * 16 + row)) ∧
    (let h := s.core.shapes[o.fn.toNat % 16]'(Nat.mod_lt _ (by decide))
     let j := o.imm8.toNat % 8
     (h.dims ≤ j → exec (.vtidx o) s = .next (s.takeTrap 0x01 (if o.v1 then 3 else 2) (BitVec.ofNat 64 (slotBits (.vtidx o))) false)) ∧
     (j < h.dims → h.dims ≤ 5 → (∀ i, (hi : i < 5) → i < h.dims → 1 ≤ h.sizes[i].toNat) →
       sends (.vtidx o) 6 fun row col =>
         let q := (List.range j).foldl (fun q i => q / h.size i) (at_ a row col).toNat
         BitVec.ofNat 32 (if j + 1 = h.dims then q else q % h.size j))) ∧
    (∃ u x, exec (.vext o) s = .next u ∧ u.core.results = s.core.results ++ [{ w := .s o.d x none, due := s.core.tau + 4 }] ∧ u.core.s = s.core.s ∧ u.dev = s.dev ∧
      let y := at_ a ((s.core.sreg o.b).toNat % 1024 / 64) ((s.core.sreg o.b).toNat % 64)
      x = (if o.ty = 0x0F then BitVec.ofInt 64 y.toInt else BitVec.ofNat 64 y.toNat)) ∧
    (∃ v, let l := (s.core.sreg o.b).toNat % 1024
      exec (.vins o) s = .next (vectorSent s o 4 1 (if m.getLsbD l then BitVec.allOnes 1024 else 0) v 0 false) ∧
      ∀ k, (h : k < 1024) → v[k] = if k = l then BitVec.ofNat 32 (s.core.sreg o.a).toNat else (s.core.vreg o.d)[k])

/-- VREDR, VREDC and VSCANR by integer sum send the sum modulo 2^32 of the active lanes of the row, column or prefix
(R245, R246, R247, R262). For every state with ty i32 or u32, sum and sat clear: VREDR sends to each active lane the
sum of the active lanes of its row, after 10 cycles; VREDC that of its column, after 14; VSCANR the sum of the active
lanes up to and including it (excluding it with .excl), after 10. For every operation and type the three complete with
one result for the active lanes and no other change, whatever the operands. -/
def Obligations.IntegerReductionsAndScans : Prop :=
  ∀ (s : State) (o : VForm),
    let m := guardLanes s o
    let a := s.core.vreg o.a
    let sum (p : Nat → Bool) : Nat := (List.range 1024).foldr (fun l acc => (if m.getLsbD l && p l then (a[l % 1024]'(Nat.mod_lt _ (by decide))).toNat else 0) + acc) 0
    let sends (i : Instr) (lat : Nat) (f : ∀ l, l < 1024 → Lane → Prop) : Prop :=
      ∃ v fl can, exec i s = .next (vectorSent s o lat 4 m v fl can) ∧ ∀ l (h : l < 1024), m.getLsbD l = true → f l h v[l]
    sends (.vredr o) 10 (fun _ _ _ => True) ∧ sends (.vredc o) 14 (fun _ _ _ => True) ∧ sends (.vscanr o) 10 (fun _ _ _ => True) ∧
    (o.ty = 0x0F ∨ o.ty = 0x10 → o.fn.toNat % 8 = 0 → o.sat = false →
      sends (.vredr o) 10 (fun l _ r => r.toNat = sum (fun k => k / 64 == l / 64) % 2 ^ 32) ∧
      sends (.vredc o) 14 (fun l _ r => r.toNat = sum (fun k => k % 64 == l % 64) % 2 ^ 32) ∧
      sends (.vscanr o) 10 (fun l _ r => r.toNat = sum (fun k => k / 64 == l / 64 && (if o.fn.getLsbD 3 then decide (k < l) else decide (k ≤ l))) % 2 ^ 32))

/-- A checked V-slot result on its way (R253): each active lane gets its value as the bound register leaves it, flags are the OR of
the lanes' flags and of BND, and under TRAP a BOUND becomes due with the result when a lane is out of bounds. -/
def checkedSent (s : State) (o : VForm) (i : Instr) (lat f : Nat) (conv : ∀ l, l < 1024 → Nat × BitVec 11) : Prop :=
  let m := guardLanes s o
  let out (l : Nat) (h : l < 1024) : Prop := m.getLsbD l = true ∧ (s.checkLane o f (conv l h).1).2 = true
  ∃ v fl extra, exec i s = .next (let q := vectorSent s o lat 4 m v fl true; { q with core := { q.core with results := q.core.results ++ extra } }) ∧
    (∀ l (h : l < 1024), m.getLsbD l = true → v[l] = BitVec.ofNat 32 (s.checkLane o f (conv l h).1).1) ∧
    (∀ k, fl.getLsbD k = true ↔ (∃ l, ∃ h : l < 1024, m.getLsbD l = true ∧ (conv l h).2.getLsbD k = true) ∨ k = 8 ∧ ∃ l, ∃ h : l < 1024, out l h) ∧
    (let due := o.tid ≠ 0 ∧ (s.core.bounds[o.tid.toNat]'o.tid.isLt).act = 2 ∧ ∃ l, ∃ h : l < 1024, out l h
     (due → extra = [{ w := .bound (issueKey s.core.tau (if o.v1 then 3 else 2)) o.tid, due := s.core.tau + lat }]) ∧ (¬ due → extra = []))

/-- VCVT, VSCL, VBCHK and VDQT send each lane's element, VQNT its blocks' bytes; VPACK and VUNPK move elements between lanes and
packed parts (R248, R249, R250, R251, R252, R253, R254, R69, R226). For every state and bound register, with a random word W (0 except
under SR, where it is the bundle's): VCVT completes with the conversion of each active lane after 6 cycles, VSCL with the lane scaled
by a power of two after 6, VBCHK with its element after 3, VDQT with the decoded element of its block after 16, each checked as R253
says and with flags that are the OR over the active lanes; VQNT, without a bound register, with the element bytes of each row at E p of v_d and its scale bytes
at S p of v_c, after 16, every other byte kept; VPACK writes 32/w elements of w bits per lane into part p of each row after 4 and
keeps the other lanes, VUNPK spreads part p over lanes. Under SR without the bundle's word VCVT, VSCL, VQNT and VDQT wait while
none is ready; else they take the oldest ready one and act with it. -/
def Obligations.ConversionsAndPacking : Prop :=
  ∀ (s : State) (o : VForm),
    let a (l : Nat) (h : l < 1024) : Lane := (s.core.vreg o.a)[l]
    let ftz := s.core.tflags.getLsbD 1
    let f := o.ty.toNat
    let p := o.fn.toNat % 16
    (∀ W : Nat, (o.rm ≠ 5 ∧ W = 0 ∨ o.rm = 5 ∧ s.core.word = some (BitVec.ofNat 64 W) ∧ W < 2 ^ 64) →
      let r (l : Nat) : Nat := mix W (l + if o.v1 then 1024 else 0)
      checkedSent s o (.vcvt o) 6 f (fun l h => vcvtElem f (o.fn.toNat % 32) o.rm.toNat (r l) o.sat ftz
        ((a l h).toNat % 2 ^ formatBits (o.fn.toNat % 32))) ∧
      (o.fn.toNat % 4 ≤ 2 →
        checkedSent s o (.vscl o) 6 0 (fun l h => laneScale o.rm.toNat (r l) o.sat ftz (a l h) (operandB s o l h).toInt)) ∧
      checkedSent s o (.vdqt o) 16 0 (fun l _ =>
        let n := if f = 0x08 ∨ f = 0x09 ∨ f = 0x0A then 16 else 32
        let elems := sliceOf (rowBytes (s.core.vreg o.a) (l / 64)) (8 * formatBits f * p) (8 * formatBits f)
        let scales := sliceOf (rowBytes (s.core.vreg o.c) (l / 64)) (if n = 16 then 8 * p else 2 * p) (if n = 16 then 8 else 2)
        let k := l % 64
        let e0 := if n = 16 then scales.getD (k / n * 2) 0 else scales.getD (k / n) 0
        let e1 := if n = 16 then scales.getD (k / n * 2 + 1) 0 else 0
        flushOut fp32 ftz (fp32.convert o.rm.toNat (r l) o.sat (blockVal f (streamElem elems (formatBits f) k) e0.toNat e1.toNat (k % n)))) ∧
      (o.tid = 0 → ∃ fl, exec (.vqnt o) s = .next (((s.wBytes 16 o.d (8 * formatBits f * p) ((List.range 16).map fun row => (s.quantRow o W row).1) fl true).wBytes
          16 o.c ((if f = 0x08 ∨ f = 0x09 ∨ f = 0x0A then 8 else 2) * p) ((List.range 16).map fun row => (s.quantRow o W row).2.1)).occupyV o 4) ∧
        ∀ k, fl.getLsbD k = true ↔ ∃ row, row < 16 ∧ (s.quantRow o W row).2.2.1.getLsbD k = true) ∧
      ∃ u, exec (.vqnt o) s = .next u ∧ u.core.v = s.core.v ∧ u.core.s = s.core.s ∧ u.dev = s.dev) ∧
    checkedSent s o (.vbchk o) 3 f (fun l h => ((a l h).toNat % 2 ^ formatBits f, 0)) ∧
    (let w := formatBits f
     (w = 2 ∨ w = 4 ∨ w = 8 ∨ w = 16) → 2 * w * (p + 1) ≤ 64 →
      (∃ v, exec (.vpack o) s = .next (vectorSent s o 4 4 (BitVec.allOnes 1024) v 0 false) ∧
        (∀ l, (h : l < 1024) → ¬ (2 * w * p ≤ l % 64 ∧ l % 64 < 2 * w * (p + 1)) → v[l] = (s.core.vreg o.d)[l]) ∧
        ∀ row j i, row < 16 → j < 2 * w → i < 32 / w → ∀ h : 64 * row + 2 * w * p + j < 1024, ∀ h' : 64 * row + 32 / w * j + i < 1024,
          v[64 * row + 2 * w * p + j].toNat / 2 ^ (w * i) % 2 ^ w = (a (64 * row + 32 / w * j + i) h').toNat % 2 ^ w) ∧
      (∃ v, exec (.vunpk o) s = .next (vectorSent s o 4 4 (BitVec.allOnes 1024) v 0 false) ∧
        ∀ row col, row < 16 → col < 64 → ∀ h : 64 * row + col < 1024, ∀ h' : 64 * row + 2 * w * p + col / (32 / w) < 1024,
          v[64 * row + col].toNat = (a (64 * row + 2 * w * p + col / (32 / w)) h').toNat / 2 ^ (w * (col % (32 / w))) % 2 ^ w)) ∧
    (o.rm = 5 → s.core.word = none → ∀ i ∈ [Instr.vcvt o, .vscl o, .vqnt o, .vdqt o],
      (s.core.rbq = [] → exec i s = .next { s with last := .waits }) ∧
      ∀ w rest, s.core.rbq = w :: rest →
        (s.core.seg = none → exec i s = exec i { s with core := { s.core with rbq := rest, word := some w } }) ∧
        ∀ g, s.core.seg = some g → g.words.length < 16 →
          exec i s = exec i { s with core := { s.core with rbq := rest, word := some w, seg := some { g with words := g.words ++ [w] } } })

/-- VSPUSH, VSPOP and VSBAL act on the conditional streams; VQPOP in its forms reads the head of a result queue, empty
ones raise QUEUE (R256, R257, R258, R259, R260). For every state with no open segment: VSPUSH appends for each group g
of 256 lanes the one or two words of each active lane in lane order, unless a sub-queue would hold more than 512
words, when it raises QUEUE and changes nothing; VSPOP of one-word records takes from each sub-queue its first
min(256, length) words, sends them to the lanes of its group (0 beyond) after 6 cycles and pushes the mask of the
lanes filled; VSBAL keeps the words in order and the numbers of records of two sub-queues differ by at most one. For
every state with no open segment whose queue q = fn[1:0] has the head entry e: VQPOP sends element (row, 64h + column)
of e to the active lanes after 4 cycles, where h quarters were popped, and the fourth pop removes the entry;
VQPOP.side sends the sidecars of quarter imm8[1:0] and .info the OVC word and tile number, and both leave every queue
as it is. With no entry and no drain in flight each raises QUEUE with bit 8 of the detail set; with a drain in flight
each waits for the first to enter. -/
def Obligations.StreamsAndResultQueuesPop : Prop :=
  (∀ (s : State) (o : VForm), s.core.seg = none →
    let a := s.core.vreg o.a
    let b := s.core.vreg o.b
    let m := guardLanes s o
    let rec1 (l : Nat) : List Lane := if o.fn.getLsbD 0 then [laneAt a l, laneAt b l] else [laneAt a l]
    let new (g : Nat) : List Lane := ((List.range 256).filter fun i => m.getLsbD (256 * g + i)).flatMap fun i => rec1 (256 * g + i)
    ((∀ g, (h : g < 4) → (s.core.streams[g] ++ new g).length ≤ 512) →
      ∃ u, exec (.vspush o) s = .next u ∧ (∀ g, (h : g < 4) → u.core.streams[g] = s.core.streams[g] ++ new g) ∧ u.core.v = s.core.v ∧ u.core.s = s.core.s ∧
        u.core.pstack = s.core.pstack ∧ u.dev = s.dev) ∧
    ((∃ g, ∃ h : g < 4, 512 < (s.core.streams[g] ++ new g).length) →
      exec (.vspush o) s = .next (s.takeTrap 0x0A (if o.v1 then 3 else 2) 0 false)) ∧
    (o.fn.getLsbD 0 = false →
      let n (g : Nat) (h : g < 4) : Nat := min 256 s.core.streams[g].length
      ∃ u v e, exec (.vspop o) s = .next u ∧ (∀ g, (h : g < 4) → u.core.streams[g] = s.core.streams[g].drop (n g h)) ∧
        (∃ r ∈ u.core.results, r.w = .v (s.core.vnum o.d) (BitVec.allOnes 1024) v ∧ r.due = s.core.tau + 6) ∧
        u.core.pnext = some (e :: s.core.pnext.getD s.core.pstack) ∧
        ∀ g i, (h : g < 4) → i < 256 → ∀ h' : 256 * g + i < 1024,
          v[256 * g + i] = (if i < n g h then s.core.streams[g].getD i 0 else 0) ∧
          e.m.getLsbD (256 * g + i) = ((entryAt (s.core.pnext.getD s.core.pstack) 0).1.getLsbD (256 * g + i) && decide (i < n g h))) ∧
    (o.fn.getLsbD 0 = false →
      ∃ u, exec (.vsbal o) s = .next u ∧
        u.core.streams[0] ++ u.core.streams[1] ++ u.core.streams[2] ++ u.core.streams[3] =
          s.core.streams[0] ++ s.core.streams[1] ++ s.core.streams[2] ++ s.core.streams[3] ∧
        (∀ g k, (h : g < 4) → (h' : k < 4) → u.core.streams[g].length ≤ u.core.streams[k].length + 1) ∧ u.core.v = s.core.v ∧ u.core.s = s.core.s ∧ u.dev = s.dev)) ∧
  (∀ (s : State) (o : VForm), let q : BitVec 2 := BitVec.ofNat 2 o.fn.toNat
    let m := guardLanes s o
    let queue := s.core.mat.queues[q.toNat]'q.isLt
    let sl := if o.v1 then 3 else 2
    (∀ e rest, s.core.seg = none → queue = e :: rest →
      (∃ v u, exec (.vqpop o) s = .next u ∧ u = { vectorSent s o 4 4 m v 0 false with core := u.core } ∧
        u.core.results = (vectorSent s o 4 4 m v 0 false).core.results ∧ u.core.v = s.core.v ∧
        u.core.mat.queues[q.toNat]'q.isLt = (if 3 ≤ e.popped then rest else { e with popped := e.popped + 1 } :: rest) ∧
        (∀ k, (h : k < 4) → k ≠ q.toNat → u.core.mat.queues[k] = s.core.mat.queues[k]) ∧
        ∀ row col, (h : 64 * row + col < 1024) → col < 64 → ∀ h' : 256 * row + (64 * e.popped + col) < 4096,
          v[64 * row + col] = e.elems[256 * row + (64 * e.popped + col)]) ∧
      (∃ v, exec (.vqpopSide o) s = .next (vectorSent s o 4 4 m v 0 false) ∧
        ∀ row col, (h : 64 * row + col < 1024) → col < 64 → ∀ h' : 256 * row + (64 * (o.imm8.toNat % 4) + col) < 4096,
          v[64 * row + col] = e.sides[256 * row + (64 * (o.imm8.toNat % 4) + col)]) ∧
      (∃ v, exec (.vqpopInfo o) s = .next (vectorSent s o 4 4 m v 0 false) ∧ v[0].toNat = e.ovc.toNat ∧ (e.popped < 4 → v[1].toNat = e.tile.toNat + 4 * e.popped) ∧
        ∀ l, (h : l < 1024) → 2 ≤ l → v[l] = 0)) ∧
    (queue = [] → ∀ i ∈ [Instr.vqpop o, .vqpopSide o, .vqpopInfo o],
      ((∀ d ∈ s.core.mat.drains, d.q ≠ q) → exec i s = .next (s.takeTrap 0x0A sl (BitVec.ofNat 64 (q.toNat + 256)) false)) ∧
      (∀ d ∈ s.core.mat.drains, d.q = q → (∀ x ∈ s.core.mat.drains, x.q = q → d.left ≤ x.left) →
        exec i s = .next { s with last := .waitTau (s.core.tau + max d.left 1) })))

/-- VBCHK sets BND exactly when an active lane lies outside its bound register, keeps or clamps the lane, and makes TRAP
due (R253, R254). For every state and bound register tid (not 0) of format FP32 with finite lo at most hi, and finite
active lanes of ty f32: VBCHK sends a result for the active lanes due at tau + 3 whose flags are BND when some active
lane is below lo or above hi, and none otherwise; a lane within the bounds is kept, one outside is kept under FLAG and
TRAP, and replaced by lo or hi under CLAMP; under TRAP with a lane outside, a BOUND for tid becomes due with the
result, and otherwise none. -/
def Obligations.BoundChecksFlagClampAndTrap : Prop :=
  ∀ (s : State) (o : VForm) (lo hi : ℚ), o.tid ≠ 0 → o.ty = 0 →
    let b := s.core.bounds[o.tid.toNat]'o.tid.isLt
    let m := guardLanes s o
    let a (l : Nat) (h : l < 1024) : Lane := (s.core.vreg o.a)[l]
    b.fmt = 0 → rationalOf (f32Val b.lo) = some lo → rationalOf (f32Val b.hi) = some hi → lo ≤ hi → b.lo.toNat ≠ 2 ^ 31 → b.hi.toNat ≠ 2 ^ 31 →
    (∀ l (h : l < 1024), m.getLsbD l = true → ∃ x, rationalOf (f32Val (a l h)) = some x) →
    let outside (l : Nat) (h : l < 1024) : Prop := ∀ x, rationalOf (f32Val (a l h)) = some x → x < lo ∨ hi < x
    ∃ u v fl extra, exec (.vbchk o) s = .next u ∧ u.dev = s.dev ∧ u.core.s = s.core.s ∧ u.core.v = s.core.v ∧
      u.core.results = s.core.results ++ [{ w := .v (s.core.vnum o.d) m v, flags := fl, can := true, due := s.core.tau + 3 }] ++ extra ∧
      ((∃ l, ∃ h : l < 1024, m.getLsbD l = true ∧ outside l h) → fl = 0x100) ∧
      ((∀ l (h : l < 1024), m.getLsbD l = true → ¬ outside l h) → fl = 0) ∧
      (∀ l (h : l < 1024), m.getLsbD l = true →
        (b.act.toNat ≠ 1 ∨ ¬ outside l h → v[l] = a l h) ∧
        (b.act.toNat = 1 → ∀ x, rationalOf (f32Val (a l h)) = some x → (x < lo → v[l] = b.lo) ∧ (hi < x → v[l] = b.hi))) ∧
      (b.act.toNat = 2 ∧ fl = 0x100 → extra = [{ w := .bound (issueKey s.core.tau (if o.v1 then 3 else 2)) o.tid, due := s.core.tau + 3 }]) ∧ (b.act.toNat ≠ 2 ∨ fl = 0 → extra = [])

/-- A core runs its task, outside the monitor (R362). -/
def inTask (s : State) : Prop := (∃ p, s.focus = .core p) ∧ s.core.mon.mode = false

/-- A core in task mode that MHND does not stop (R266). -/
def matrixReady (s : State) : Prop := inTask s ∧ (s.core.hnd = false ∨ s.core.msaved = true)

/-- The trap of an operation for an illegal use: the detail is its slot word (R189). -/
def illegal (s : State) (i : Instr) (slot : Nat) : Prop := exec i s = .next (s.takeTrap 0x01 slot (BitVec.ofNat 64 (slotBits i)) false)

/-- An operation takes effect on the matrix context alone; an open segment may note it (R375). -/
def matActs (s : State) (i : Instr) (m : MatCtx) : Prop :=
  ∃ g, (g = none ↔ s.core.seg = none) ∧ exec i s = .next { s with core := { s.core with mat := m, seg := g } }

/-- A matrix context with one tile replaced. -/
def tileSet (m : MatCtx) (t : BitVec 2) (x : Tile) : MatCtx := { m with tiles := m.tiles.set t.toNat x t.isLt }

/-- A matrix context in which a set of tiles has taken its epochs (R285). -/
def epochsSet (m : MatCtx) (ts : List Nat) : MatCtx :=
  { m with tiles := Vector.ofFn fun k =>
      if k.val ∈ ts then { m.tiles[k] with epoch := some { data := m.tiles[k].data, feeder := m.feeder } } else m.tiles[k] }

/-- No beat into tile `t` is in flight (R279). -/
def beatsLanded (s : State) (t : Nat) : Prop := ∀ b ∈ s.core.mat.beats, b.tiles.getLsbD t = true → b.left = 0

/-- MPUSH, MSHIFT, MZERO, MEPOCH, MRETRY and MSWAP change the feeder, the tile or the live bank as R277 to R286 and R295
say, and nothing else (R275, R277, R279, R280, R282, R283, R285, R286, R295). For every core in task mode that MHND
does not stop. MPUSH latches the next row, with pp 0 and rp its row; a zero row by index comes from no memory and a
feeder without descriptor raises ILLOP. MSHIFT adds plane + 1 to pp, with .ep after the epochs of the tiles named.
MZERO resets its tile and keeps the epoch. MEPOCH records tile and feeder. MRETRY brings tile and feeder back from the
epoch, or zeroes the tile without one, sets the override, and clears PEND and RETRY with the record when the pending
fault is of the tile. MSWAP makes the other bank live. A beat in flight into the tile holds MZERO, MEPOCH and MRETRY.
An open segment commits before MRETRY and MSWAP. -/
def Obligations.MatrixPointersAndTiles : Prop :=
  ∀ (s : State) (o : MForm), matrixReady s →
    let m := s.core.mat
    let t := s.commitSeg
    let x := m.tiles[o.acc.toNat]'o.acc.isLt
    let y := t.core.mat.tiles[o.acc.toNat]'o.acc.isLt
    (o.flags.getLsbD 4 = false → m.feeder.desc = none → illegal s (.mpush o) 4) ∧
    (∀ fd fl, o.flags.getLsbD 4 = false → s.latchRow = .row fd fl →
      ∃ g, (g = none ↔ s.core.seg = none) ∧ exec (.mpush o) s = .next { s with core := { s.core with
        mat := { m with feeder := { fd with pp := 0, rp := o.row } }, seg := g,
        sticky := s.core.sticky ||| fl, flagsNow := s.core.flagsNow ||| fl } }) ∧
    (∀ d, m.feeder.desc = some d → fdRefuses d (s.core.fmt.cur.extractLsb' 0 5).toNat = false → fdZeroRow d m.feeder.pos = true →
      ∃ fd, s.latchRow = .row fd 0 ∧ fd.lrow = Row.zero ∧ fd.pos = m.feeder.pos + 1 ∧ fd.desc = some d) ∧
    (o.flags.getLsbD 4 = false → matActs s (.mshift o) { m with feeder := { m.feeder with pp := m.feeder.pp + o.plane + 1 } }) ∧
    (∀ ts, o.flags.getLsbD 4 = true → tilesNamed s.core.weightWidth o.acc = some ts → (∀ k ∈ ts, beatsLanded s k) →
      matActs s (.mshift o) { epochsSet m ts with feeder := { m.feeder with pp := m.feeder.pp + o.plane + 1 } }) ∧
    (o.flags.getLsbD 4 = true → tilesNamed s.core.weightWidth o.acc = none → illegal s (.mshift o) 4) ∧
    (beatsLanded s o.acc.toNat →
      matActs s (.mzero o) (tileSet m o.acc { Tile.reset with epoch := x.epoch }) ∧
      matActs s (.mepoch o) (epochsSet m [o.acc.toNat]) ∧
      (∃ ck f, exec (.mretry o) s = .next { t with core := { t.core with mat :=
          { (match y.epoch with
             | some e => { tileSet t.core.mat o.acc { y with data := e.data, override := true } with feeder := e.feeder }
             | none => tileSet t.core.mat o.acc { Tile.reset with override := true }) with ckstat := ck, fault := f } } } ∧
        ((t.core.mat.ckstat.getLsbD 0 = true ∧ t.core.mat.ckstat.extractLsb' 1 2 = o.acc →
            f = none ∧ ∀ k, ck.getLsbD k = (t.core.mat.ckstat.getLsbD k && decide (k ≠ 0 ∧ k ≠ 20))) ∧
         (¬ (t.core.mat.ckstat.getLsbD 0 = true ∧ t.core.mat.ckstat.extractLsb' 1 2 = o.acc) → f = t.core.mat.fault ∧ ck = t.core.mat.ckstat)))) ∧
    ((∀ e, Outstanding.engine e ∈ s.core.outst → e.kind ≠ 7) →
      exec (.mswap o) s = .next { t with core := { t.core with live := !t.core.live } }) ∧
    (∀ i ∈ [Instr.mzero o, .mepoch o, .mretry o], (∃ b ∈ m.beats, b.tiles.getLsbD o.acc.toNat = true ∧ 0 < b.left) →
      ∃ n, s.core.tau < n ∧ exec i s = .next { s with last := .waitTau n })

/-- The signed sum of the weights of bank column `n` over the activations whose bit of the current plane is set (R91). -/
def planeSum (s : State) (o : MForm) (n : Nat) : Int :=
  let c := s.core
  let w := c.weightWidth
  let pl := (memRun (c.bank c.bankNo).planes 0 65536).toArray
  ((List.range 256).map fun k =>
    if (if h : k < 256 then (c.mat.feeder.lrow.mags[k]).testBit c.mat.feeder.pp.toNat else false) then
      (let x := weightAt pl w (n / (512 / w)) (n % (512 / w)) k
       if o.flags.getLsbD 3 && c.mat.feeder.lrow.neg.getLsbD k then -x else x)
    else 0).sum

/-- MBEAT may issue now: legal tiles, the format that its bank was loaded for, macros that are not busy, and no hold by the power
controller (R98, R112, R265, R353). -/
def beatMayIssue (s : State) (o : MForm) (ts : List Nat) : Prop :=
  tilesNamed s.core.weightWidth o.acc = some ts ∧ (∀ f, (s.core.bank s.core.bankNo).fmt = some f → f = s.core.fmt.cur.extractLsb' 8 5) ∧
  s.core.bankBusy s.core.bankNo = false ∧ s.beatPace ((s.beatIn o).split.all fun n => n == 0) ≠ none ∧
  o.flags.getLsbD 4 = false ∧ o.flags.getLsbD 1 = false ∧ ∀ k, k < 4 → (s.core.array s.core.bankNo k).parity = false

/-- MBEAT changes the rows that R279 names and lands after 8 cycles; beats and drains in flight land when their cycles
have passed (R89, R90, R91, R92, R97, R278, R279, R287, R289, R353). For every core in task mode that MHND does not
stop, whose beat may issue, without .ep and .last: a beat joins those in flight with 8 cycles left, the tiles named
and the bank that is live; .s adds 1 to pp; tiles that acc does not name, other rows of a named tile, its epoch and
override, queues, drains, CKSTAT, registers, STICKY, predicate stack and device keep their values. A non-finite row
writes the canonical NaN and sidecar infinity, with IV at its first beat. A finite row with every effective split 0,
ACC 0, and all scales of the plane 0 replaces an element +0 by the exact sum over active rows of sign times weight.
BEAT_LAND makes the beats with no cycle left set their flags, CLIPMASK bits and burst count. For every state.
BEAT_LAND removes the beats with no cycle left and keeps the others: STICKY gains exactly their flags, each CLIPMASK
word their bits, the burst count their number; tile elements, sidecars and feeder are unchanged. DRAIN_ENTER_QUEUE
appends the entries of the drains with no cycle left to their queues in order, STICKY gains their flags, a TRAP of a
bound becomes due for each that has one; the other drains stay. Neither changes scalar, address or vector registers,
tau, or the device. -/
def Obligations.MatrixBeatsAccumulateAndLand : Prop :=
  (∀ (s : State) (o : MForm) (ts : List Nat), matrixReady s → beatMayIssue s o ts →
    let c := s.core
    let w := c.weightWidth
    let r := (c.mat.feeder.rp.toNat + o.row.toNat) % 16
    let cols := min 256 (2048 / w)
    ∃ m g d f b mk, (g = none ↔ c.seg = none) ∧
      exec (.mbeat o) s = .next { s with core := { c with mat := m, seg := g, digital := d }, free := f } ∧
      m.beats = c.mat.beats ++ [b] ∧ b.left = 8 ∧ b.bank = c.live ∧ (∀ k, k < 4 → (b.tiles.getLsbD k = true ↔ k ∈ ts)) ∧
      m.feeder = { c.mat.feeder with pp := c.mat.feeder.pp + (if o.flags.getLsbD 0 then 1 else 0), lrow := { c.mat.feeder.lrow with marked := mk } } ∧
      m.queues = c.mat.queues ∧ m.drains = c.mat.drains ∧ m.ckstat = c.mat.ckstat ∧ m.ckloc = c.mat.ckloc ∧ m.fault = c.mat.fault ∧
      (∀ k, (h : k < 4) → k ∉ ts → m.tiles[k] = c.mat.tiles[k]) ∧
      (∀ k, (h : k < 4) → m.tiles[k].epoch = c.mat.tiles[k].epoch ∧ m.tiles[k].override = c.mat.tiles[k].override ∧
        ∀ j, (hj : j < 4096) → (j / 256 ≠ r ∨ cols ≤ j % 256) →
          m.tiles[k].data.elems[j] = c.mat.tiles[k].data.elems[j] ∧ m.tiles[k].data.sides[j] = c.mat.tiles[k].data.sides[j]) ∧
      (c.mat.feeder.lrow.finite = false → mk = true ∧ (b.flags.getLsbD 0 = !c.mat.feeder.lrow.marked) ∧
        ∀ k, (h : k < 4) → k ∈ ts → ∀ x, x < cols → ∀ hj : 256 * r + x < 4096,
          m.tiles[k].data.elems[256 * r + x] = 0x7FC00000 ∧ m.tiles[k].data.sides[256 * r + x] = 0x7F800000) ∧
      (c.mat.feeder.lrow.finite = true → (s.beatIn o).split.all (fun n => n == 0) = true → c.fmt.cur.getLsbD 28 = false →
        (∀ q g', q < 4 → g' < 16 → (s.beatIn o).scale q g' = 0) →
        ∀ k, (h : k < 4) → k ∈ ts → ∀ x, x < cols → ∀ hj : 256 * r + x < 4096, c.mat.tiles[k].data.elems[256 * r + x] = 0 →
          rationalOf (f32Val m.tiles[k].data.elems[256 * r + x]) = some (planeSum s o (tileBase w k + x) : ℚ))) ∧
  (∀ (s : State),
    (∃ u, exec .beatLand s = .next u ∧ u.dev = s.dev ∧ u.core.s = s.core.s ∧ u.core.a = s.core.a ∧ u.core.v = s.core.v ∧ u.core.tau = s.core.tau ∧
      let gone := s.core.mat.beats.filter fun b => b.left == 0
      u.core.mat.beats = (s.core.mat.beats.filter fun b => b.left != 0) ∧ u.core.burstBeats = s.core.burstBeats + gone.length ∧
      u.core.mat.feeder = s.core.mat.feeder ∧ u.core.mat.queues = s.core.mat.queues ∧ u.core.mat.drains = s.core.mat.drains ∧
      (∀ k, u.core.sticky.getLsbD k = (s.core.sticky.getLsbD k || gone.any fun b => b.flags.getLsbD k)) ∧
      ∀ t, (h : t < 4) → u.core.mat.tiles[t].data.elems = s.core.mat.tiles[t].data.elems ∧ u.core.mat.tiles[t].data.sides = s.core.mat.tiles[t].data.sides ∧
        ∀ k, u.core.mat.tiles[t].data.clip.getLsbD k =
          (s.core.mat.tiles[t].data.clip.getLsbD k || gone.any fun b => b.clips.any fun c => c.1 == t && c.2.getLsbD k)) ∧
    (∃ u, exec .drainEnterQueue s = .next u ∧ u.dev = s.dev ∧ u.core.s = s.core.s ∧ u.core.a = s.core.a ∧ u.core.v = s.core.v ∧ u.core.tau = s.core.tau ∧
      let gone := s.core.mat.drains.filter fun d => d.left == 0
      u.core.mat.drains = (s.core.mat.drains.filter fun d => d.left != 0) ∧ u.core.mat.beats = s.core.mat.beats ∧ u.core.mat.tiles = s.core.mat.tiles ∧
      u.core.boundDue = s.core.boundDue ++ (gone.filter fun d => d.bound != 0).map (fun d => (issueKey (s.core.tau - 16) 4, d.bound)) ∧
      (∀ k, u.core.sticky.getLsbD k = (s.core.sticky.getLsbD k || gone.any fun d => d.flags.getLsbD k)) ∧
      ∀ q : BitVec 2, u.core.mat.queues[q.toNat]'q.isLt = (s.core.mat.queues[q.toNat]'q.isLt) ++ (gone.filter fun d => d.q == q).map Drain.entry))

/-- MDRAIN drains its tile into a result queue, after the compare where it is checked; MCKLOC and MCKFIX act on the pending
fault (R103, R104, R106, R287, R288, R289, R292, R293). For every core in task mode
that MHND does not stop and whose beats into the tile have landed. MDRAIN without .ck, with fewer than four entries against its queue, puts a
drain in flight with 16 cycles, the tile's sidecars, OVC and number, its elements as the bound register that it names leaves them,
resets the tile unless keep, and clears FIXED; four entries raise QUEUE; a tile that MCKFIX has drained only loses
FIXED, with .ck too. With .ck it first waits P + 14 cycles, its hidden beats, which set no flag and no CLIPMASK bit (the model's reading,
log 38), joining those in flight; a passing compare then drains, with PEND 0 unless
another tile's fault is pending; a failing one writes the fault record and makes TILECK due, leaving tiles, queues and memory. MCKLOC
and MCKFIX with PEND 0 change nothing but that MCKFIX commits an open segment. MCKLOC waits 16 cycles and writes CKLOC and
LOC from the record. MCKFIX waits 24 cycles, or 40 without LOC, which it then sets as MCKLOC does; it corrects
the one element, drains its tile, sets FIXED and clears PEND, raises QUEUE where the queue is full, or sets RETRY where no correction holds. -/
def Obligations.DrainsAndChecksums : Prop :=
  ∀ (s : State) (o : MForm), matrixReady s → beatsLanded s o.acc.toNat →
    let c := s.core
    let t := s.commitSeg
    let keep := o.imm.getLsbD 4
    let q := c.queueUse o.q
    let done := c.mat.isFixed = true ∧ c.mat.ckTile = o.acc
    let clr (k : Nat) (x y : Word) : Prop := ∀ j, y.getLsbD j = (x.getLsbD j && decide (j ≠ k))
    let drains (u : State) : Prop :=
      ∃ d, u.core.mat.drains = t.core.mat.drains ++ [d] ∧ d.left = 16 ∧ d.q = o.q ∧ d.entry.tile = o.acc ∧ d.entry.popped = 0 ∧
        d.entry.sides = (t.core.mat.tiles[o.acc.toNat]'o.acc.isLt).data.sides ∧ d.entry.ovc = (t.core.mat.tiles[o.acc.toNat]'o.acc.isLt).data.ovc ∧
        (o.imm.toNat % 16 = 0 → d.entry.elems = (t.core.mat.tiles[o.acc.toNat]'o.acc.isLt).data.elems ∧ d.flags = 0 ∧ d.bound = 0) ∧
        (o.imm.toNat % 16 ≠ 0 → ∀ j, (h : j < 4096) →
          let b := c.bounds[o.imm.toNat % 16]'(Nat.mod_lt _ (by decide))
          d.entry.elems[j] = BitVec.ofNat 32 (checkPlain b 0 ((t.core.mat.tiles[o.acc.toNat]'o.acc.isLt).data.elems[j]).toNat).1) ∧
        u.core.mat.tiles = (if keep then t.core.mat.tiles else
          t.core.mat.tiles.set o.acc.toNat { Tile.reset with epoch := (t.core.mat.tiles[o.acc.toNat]'o.acc.isLt).epoch } o.acc.isLt) ∧
        u.core.mat.queues = t.core.mat.queues ∧ u.core.mat.feeder = t.core.mat.feeder ∧ u.core.mat.beats = t.core.mat.beats ∧
        u = { t with core := { t.core with mat := u.core.mat } }
    (o.flags.getLsbD 2 = false → ¬ done → q < 4 → ∃ u, exec (.mdrain o) s = .next u ∧ drains u ∧ clr 19 t.core.mat.ckstat u.core.mat.ckstat) ∧
    (o.flags.getLsbD 2 = false → ¬ done → 4 ≤ q → exec (.mdrain o) s = .next (s.takeTrap 0x0A 4 (BitVec.ofNat 64 o.q.toNat) false)) ∧
    (o.flags.getLsbD 2 = false → done → ∃ ck, clr 19 t.core.mat.ckstat ck ∧
      exec (.mdrain o) s = .next { t with core := { t.core with mat := { t.core.mat with ckstat := ck } } }) ∧
    (o.flags.getLsbD 2 = true → c.served = false → ∃ p, p = planesOf (c.fmt.cur.extractLsb' 0 5).toNat ∧
      exec (.mdrain o) s = .next { s with last := .waitTau (c.tau + (p + 14)), core := { c with served := true, mat := { c.mat with
        beats := c.mat.beats ++ (List.range (p + 2)).map fun j => { left := 8 + j, tiles := 0, bank := c.live, clips := [], flags := 0 } } } }) ∧
    (o.flags.getLsbD 2 = true → c.served = true → done → ∃ ck, clr 19 t.core.mat.ckstat ck ∧
      exec (.mdrain o) s = .next { t with core := { t.core with mat := { t.core.mat with ckstat := ck } } }) ∧
    (o.flags.getLsbD 2 = true → c.served = true → ¬ done → q < 4 →
      (ckSkips (c.mat.tile o.acc.toNat).data = true ∨ (c.ckData o.acc.toNat (c.mat.tile o.acc.toNat).data).bad (c.mat.tile o.acc.toNat).data = ([], [])) →
      ∃ u, exec (.mdrain o) s = .next u ∧ drains u ∧ (c.mat.pend = false ∨ c.mat.ckTile = o.acc → u.core.mat.pend = false)) ∧
    (o.flags.getLsbD 2 = true → c.served = true → ¬ done → 4 ≤ q → exec (.mdrain o) s = .next (s.takeTrap 0x0A 4 (BitVec.ofNat 64 o.q.toNat) false)) ∧
    (let bad := (c.ckData o.acc.toNat (c.mat.tile o.acc.toNat).data).bad (c.mat.tile o.acc.toNat).data
     o.flags.getLsbD 2 = true → c.served = true → ¬ done → q < 4 → ckSkips (c.mat.tile o.acc.toNat).data = false → bad ≠ ([], []) →
      ∃ u f, exec (.mdrain o) s = .next u ∧ u.last = .trapped { code := 0x0E, slot := 4, info := BitVec.ofNat 64 o.acc.toNat } ∧
        u.core = { c with reraise := true, mat := { c.mat with ckstat := u.core.mat.ckstat, fault := some f } } ∧
        u.core.mat.pend = true ∧ u.core.mat.ckTile = o.acc ∧ f.q = o.q ∧ f.tid.toNat = o.imm.toNat % 16 ∧
        (∀ k, k < 16 → (f.rows.getLsbD k = true ↔ k ∈ bad.1)) ∧ (∀ k, k < 256 → (f.cols.getLsbD k = true ↔ k ∈ bad.2)) ∧ u.dev = s.dev) ∧
    (c.mat.pend = false → exec (.mckloc o) s = .next s ∧ exec (.mckfix o) s = .next t) ∧
    (c.mat.pend = true → c.served = false → ∃ u, exec (.mckloc o) s = .next u ∧ u.last = .waitTau (c.tau + 16) ∧ u.core.mat = c.mat) ∧
    (∀ f, c.mat.pend = true → c.served = true → c.mat.fault = some f →
      ∃ x, exec (.mckloc o) s = .next { s with core := { c with mat := { c.mat with ckstat := c.mat.ckstat ||| 0x40000, ckloc := x } } } ∧
        (∀ k, k < 16 → x.getLsbD k = f.rows.getLsbD k) ∧
        ∀ lo hi, f.cols.getLsbD lo = true → f.cols.getLsbD hi = true → (∀ k, f.cols.getLsbD k = true → lo ≤ k ∧ k ≤ hi) →
          x.toNat / 2 ^ 16 % 256 = lo ∧ x.toNat / 2 ^ 24 = hi) ∧
    (c.mat.pend = true → c.served = false → beatsLanded s c.mat.ckTile.toNat →
      exec (.mckfix o) s = .next { s with last := .waitTau (c.tau + if c.mat.loc then 24 else 40), core := { c with served := true } }) ∧
    (∀ f r x v, c.mat.pend = true → c.served = true → beatsLanded s c.mat.ckTile.toNat → c.mat.fault = some f → c.correction = some (r, x, v) →
      4 ≤ c.queueUse f.q → exec (.mckfix o) s = .next (s.takeTrap 0x0A 4 (BitVec.ofNat 64 f.q.toNat) false)) ∧
    (∀ f r x v, c.mat.pend = true → c.served = true → beatsLanded s c.mat.ckTile.toNat → c.mat.fault = some f →
      c.correction = some (r, x, v) → c.queueUse f.q < 4 → r < 16 → x < 256 →
      ∃ u d, exec (.mckfix o) s = .next u ∧ u = { t with core := { t.core with mat := u.core.mat } } ∧ u.core.mat.loc = true ∧ u.core.mat.drains = c.mat.drains ++ [d] ∧
        d.q = f.q ∧ d.left = 16 ∧ d.entry.tile = c.mat.ckTile ∧ u.core.mat.fault = none ∧ u.core.mat.pend = false ∧ u.core.mat.isFixed = true ∧
        u.core.mat.tiles[c.mat.ckTile.toNat]'c.mat.ckTile.isLt = { Tile.reset with epoch := (c.mat.tiles[c.mat.ckTile.toNat]'c.mat.ckTile.isLt).epoch } ∧
        (f.tid = 0 → ∀ h : 256 * r + x < 4096, d.entry.elems[256 * r + x] = v ∧
          ∀ j, (hj : j < 4096) → j ≠ 256 * r + x → d.entry.elems[j] = (c.mat.tiles[c.mat.ckTile.toNat]'c.mat.ckTile.isLt).data.elems[j])) ∧
    (c.mat.pend = true → c.served = true → beatsLanded s c.mat.ckTile.toNat → c.correction = none →
      let w : Core := if c.mat.loc then t.core else t.core.locate
      exec (.mckfix o) s = .next { t with core := { w with mat := { w.mat with ckstat := w.mat.ckstat ||| 0x100000 } } })

/-- MCAL, MFBK and MINJ act on the macros, entries and elements that they name; MCTX saves, restores or keeps the matrix
context of a handler (R98, R266, R296, R297, R298). For every core in task mode that MHND does not stop. MCAL
makes the named macros busy for 4,096 cycles, from the end of the beats and the WLOAD in flight on them where there are such, and ends
their fallback; that one on a calibrating macro starts anew is the model's choice (log 28). MFBK puts them into fallback, MINJ.par arms their
parity error; other macros keep their state. MINJ.acc inverts one bit of one element, MINJ.cks one bit of one checksum
entry. MCAL_COMPLETE ends a calibration whose time has come and dates it. The monitor calibration acts on an array of
an idle core once a period of CALPER has passed since its last one there, and a core with monitor code is then on monitor duty from
MVEC, which is the model's reading of R98 and R369 (log 29). In a handler whose beats have
landed MCTX.save writes the context to the handler region, .restore puts back what the region holds, or the copy kept where the region
is not usable, and .keep drops it; after it .restore puts back nothing (both log 59). While a beat is in flight each waits. Without a
save the last two raise MHND; outside a handler all three, and a second save, raise ILLOP. -/
def Obligations.CalibrationInjectionAndMatrixContext : Prop :=
  ∀ (s : State) (o : MForm),
    let c := s.core
    let t := s.commitSeg
    let b : Nat := if o.bnk then 1 else 0
    let named (k : Nat) : Prop := k / 4 = b ∧ (o.mac = 4 ∨ o.mac.toNat = k % 4)
    let macros (i : Instr) (f : ArrState → ArrState) (fb : Bool → Bool) : Prop :=
      ∃ ar x, exec i s = .next { t with core := { t.core with arrays := ar, fbk := x } } ∧
        ∀ k, (h : k < 8) → (named k → ar[k] = f t.core.arrays[k] ∧ x.getLsbD k = fb (t.core.fbk.getLsbD k)) ∧
          (¬ named k → ar[k] = t.core.arrays[k] ∧ x.getLsbD k = t.core.fbk.getLsbD k)
    let landed := ∀ k, k < 4 → beatsLanded s k
    (matrixReady s → o.mac.toNat ≤ 4 →
      (let free := (∀ x ∈ c.mat.beats, x.bank = o.bnk → x.left = 0) ∧ (c.wloadBusy = false ∨ c.live = o.bnk)
       (free → macros (.mcal o) (fun a => { a with busy := some (t.core.wall + 4096), queued := false }) (fun _ => false)) ∧
       (¬ free → macros (.mcal o) (fun a => { a with busy := none, queued := true }) (fun _ => false))) ∧
      macros (.mfbk o) id (fun _ => true) ∧ macros (.minjPar o) (fun a => { a with parity := true }) id) ∧
    (∀ k, (h : k < 8) → c.arrays[k].queued = true →
      (c.calFree (k / 4) = true → c.tickWall.arrays[k] = { c.arrays[k] with queued := false, busy := some (c.wall + 4096) }) ∧
      (c.calFree (k / 4) = false → c.tickWall.arrays[k].queued = true)) ∧
    (matrixReady s → beatsLanded s o.acc.toNat →
      ∃ x, exec (.minjAcc o) s = .next { t with core := { t.core with mat := tileSet t.core.mat o.acc x } } ∧
        let y := t.core.mat.tiles[o.acc.toNat]'o.acc.isLt
        let k := 256 * o.row.toNat + o.imm.toNat % 256
        x = { y with data := { y.data with elems := x.data.elems } } ∧
        ∀ j, (h : j < 4096) → x.data.elems[j] =
          (if j = k then y.data.elems[j] ^^^ BitVec.ofNat 32 (2 ^ (o.split.toNat + (if o.plane = 0 then 16 else 0))) else y.data.elems[j])) ∧
    (matrixReady s → o.mac.toNat < 4 →
      ∃ ck, exec (.minjCks o) s = .next { t with core := { t.core with banks := t.core.banks.setIfInBounds b { t.core.bank b with ck := ck } } } ∧
        ∀ j, (h : j < 1024) → (j ≠ 256 * o.mac.toNat + o.imm.toNat % 256 → ck[j] = (t.core.bank b).ck[j]) ∧
          (j = 256 * o.mac.toNat + o.imm.toNat % 256 → 0 ≤ (t.core.bank b).ck[j] → (t.core.bank b).ck[j] < 2 ^ 23 →
            ck[j] = ((t.core.bank b).ck[j].toNat ^^^ 2 ^ o.split.toNat : Nat))) ∧
    (s.ev.arr < 8 →
      (∃ ar, exec .mcalComplete s = .next { s with core := { c with arrays := ar } } ∧ ∀ k, (h : k < 8) →
        (k ≠ s.ev.arr → ar[k] = c.arrays[k]) ∧
        (k = s.ev.arr → ∀ n, c.arrays[k].busy = some n →
          (n ≤ c.wall → ar[k] = { c.arrays[k] with busy := none, calAt := some n }) ∧ (c.wall < n → ar[k] = c.arrays[k]))) ∧
      (∀ h : s.ev.arr < 8, s.focus = .core s.ev.core → c.task = none → c.stopped = false → c.mon.calper ≠ 0 → c.arrays[s.ev.arr].busy = none →
        c.arrays[s.ev.arr].queued = false → (∀ n, c.arrays[s.ev.arr].monAt = some n → n + c.mon.calper.toNat ≤ c.wall) →
        let d : Core := { c with arrays := c.arrays.set s.ev.arr { c.arrays[s.ev.arr] with calAt := some c.wall, monAt := some c.wall } h }
        (c.mon.mcode = 0 → exec .monitorCalibration s = .next { s with core := d }) ∧
        (c.mon.mcode ≠ 0 → exec .monitorCalibration s = .next { s with core :=
          { d with mon := { c.mon with mode := true, tvalid := false, saved := false, thnd := false }, pos := c.mon.mvec.toNat, sig := SigState.target } })) ∧
      (∀ h : s.ev.arr < 8, s.focus = .core s.ev.core →
        (c.task ≠ none ∨ c.mon.calper = 0 ∨ ∃ n, c.arrays[s.ev.arr].monAt = some n ∧ c.wall < n + c.mon.calper.toNat) →
        exec .monitorCalibration s = .next s)) ∧
    (inTask s → c.hnd = false → illegal s (.mctxSave o) 4 ∧ illegal s (.mctxRestore o) 4 ∧ illegal s (.mctxKeep o) 4) ∧
    (inTask s → c.hnd = true → c.msaved = true → illegal s (.mctxSave o) 4) ∧
    (inTask s → c.hnd = true → c.msaved = false → landed →
      ∃ v, exec (.mctxSave o) s = .next { t with dev := v, core := { t.core with msaved := true, mdue := true, mcopy := some t.core.mat } } ∧ v.slots = t.dev.slots ∧
        v.parts = t.dev.parts) ∧
    (inTask s → c.hnd = true → c.msaved = false → ∀ i ∈ [Instr.mctxRestore o, .mctxKeep o], exec i s = .next (s.takeTrap 0x10 4 0 false)) ∧
    (inTask s → c.hnd = true → c.msaved = true → landed →
      (∃ x, exec (.mctxRestore o) s = .next { t with core := { t.core with mat := x, mdue := false } } ∧
        (c.mcopy = none → x = c.mat) ∧
        ∀ m, c.mcopy = some m →
          (s.dev.usable s.ctx (c.mon.csave + 0x160000) matPages = true → x = s.dev.matFrom s.ctx c.mon.csave 0x160000 [m]) ∧
          (s.dev.usable s.ctx (c.mon.csave + 0x160000) matPages = false → x = m)) ∧
      exec (.mctxKeep o) s = .next { t with core := { t.core with mcopy := none, mdue := false } }) ∧
    (inTask s → c.hnd = true → ¬ landed → (c.msaved = false → ∃ n, c.tau < n ∧ exec (.mctxSave o) s = .next { s with last := .waitTau n }) ∧
      (c.msaved = true → ∀ i ∈ [Instr.mctxRestore o, .mctxKeep o], ∃ n, c.tau < n ∧ exec i s = .next { s with last := .waitTau n }))

/-- The set-up instructions write and read FMT, the bound, shape and tolerance entries and the random-bit generator as
R299 to R304, R83, R84 and R355 say (R83, R84, R299, R300, R301, R303, R304, R354, R355). For every core in task mode
with an active guard. FMTW of a legal value joins the pending writes: it counts its bundle and four more, then
governs; a reserved field raises RESV, a code outside its list ILLOP. FMTR sends the value in effect, FMTR.pend that
of the latest FMTW. BNDW writes the bounds of its register unless one is a NaN (ILLOP); BNDR and BNDR.fa send its
bits. SHPW writes one size and D of a shape entry, a size 0 raises ILLOP. CKTOL writes a tolerance entry, CKTOL.rd
sends it. RBCFG sets key and counter and empties the queue of random words; RBPOP sends the oldest word or waits; the
generator appends the next word while fewer than 16 are held. Results come after one cycle; everything else keeps its
value, but that RBCFG commits an open segment. -/
def Obligations.SetupRegistersReadAndWrite : Prop :=
  ∀ (s : State) (o : XForm), inTask s → s.core.active o.g = true →
    let c := s.core
    let w := c.sreg o.a
    let f (lo n : Nat) : Nat := w.toNat / 2 ^ lo % 2 ^ n
    let reserved := f 5 3 ≠ 0 ∨ f 13 3 ≠ 0 ∨ f 21 3 ≠ 0 ∨ f 30 34 ≠ 0
    let listed := 1 ≤ f 0 5 ∧ f 0 5 ≤ 0xE ∧ 1 ≤ f 8 5 ∧ f 8 5 ≤ 0xE ∧ f 16 5 ≤ 0x11 ∧ f 24 3 ≤ 5 ∧ f 28 2 ≤ 1
    let n : BitVec 4 := BitVec.ofNat 4 o.imm.toNat
    let bd := c.bounds[n.toNat]'n.isLt
    let sends (i : Instr) (v : Word) : Prop := exec i s = .next (s.sent 1 (.s o.d v none))
    let sets (i : Instr) (x : Core) : Prop := exec i s = .next { s with core := x }
    let t := s.commitSeg
    (¬ reserved → listed → sets (.fmtw o) { c with fmt := { cur := c.fmt.cur, pend := c.fmt.pend ++ [(5, w)] } }) ∧
    (reserved → exec (.fmtw o) s = .next (s.takeTrap 0x02 5 (BitVec.ofNat 64 (slotBits (.fmtw o))) false)) ∧
    (¬ reserved → ¬ listed → illegal s (.fmtw o) 5) ∧
    (∀ old : Word, let q : FmtState := { cur := old, pend := [(5, w)] }
      q.count.count.count.count.cur = old ∧ q.count.count.count.count.count = { cur := w, pend := [] }) ∧
    sends (.fmtr o) c.fmt.cur ∧ (c.fmt.pend = [] → sends (.fmtrPend o) c.fmt.cur) ∧ (∀ p k v, c.fmt.pend = p ++ [(k, v)] → sends (.fmtrPend o) v) ∧
    (let lo : Lane := BitVec.ofNat 32 w.toNat
     let hi : Lane := BitVec.ofNat 32 (c.sreg o.b).toNat
     let bad := (elemVal (o.fn.toNat % 32) lo.toNat).isNan = true ∨ (elemVal (o.fn.toNat % 32) hi.toNat).isNan = true
     (bad → illegal s (.bndw o) 5) ∧
     let nb : Bound := { lo := lo, hi := hi, fmt := BitVec.ofNat 5 o.fn.toNat, act := BitVec.ofNat 2 (o.fn.toNat / 32) }
     (¬ bad → sets (.bndw o) { c with bounds := c.bounds.set n.toNat nb n.isLt })) ∧
    sends (.bndr o) (BitVec.ofNat 64 (bd.lo.toNat + bd.hi.toNat * 2 ^ 32)) ∧ sends (.bndrFa o) (BitVec.ofNat 64 (bd.fmt.toNat + bd.act.toNat * 32)) ∧
    (f 0 32 = 0 → illegal s (.shpw o) 5) ∧
    (f 0 32 ≠ 0 → ∃ h, sets (.shpw o) { c with shapes := c.shapes.set n.toNat h n.isLt } ∧ h.dims = o.fn.toNat % 8 ∧
      ∀ k, (hk : k < 5) → (k = o.imm.toNat / 16 % 8 → h.sizes[k].toNat = f 0 32) ∧
        (k ≠ o.imm.toNat / 16 % 8 → h.sizes[k] = (c.shapes[n.toNat]'n.isLt).sizes[k])) ∧
    (∀ h : o.imm.toNat % 64 < 56,
      sets (.cktol o) { c with tol := c.tol.set (o.imm.toNat % 64) (BitVec.ofNat 64 (f 0 32 + (c.sreg o.b).toNat % 2 ^ 32 * 2 ^ 32)) h } ∧
      sends (.cktolRd o) (c.tol[o.imm.toNat % 64]'h)) ∧
    exec (.rbcfg o) s = .next { t with core := { t.core with rbkey := t.core.sreg o.a, rbctr := t.core.sreg o.b, rbq := [] } } ∧
    (c.rbq = [] → exec (.rbpop o) s = .next { s with last := .waits }) ∧
    (∀ x rest, c.rbq = x :: rest → c.seg = none →
      exec (.rbpop o) s = .next (({ s with core := { c with rbq := rest } } : State).sent 1 (.s o.d x none))) ∧
    (c.task ≠ none → c.rbq.length < 16 → sets .rbGenerate { c with rbq := c.rbq ++ [rbgen c.rbkey c.rbctr], rbctr := c.rbctr + 1 }) ∧
    (16 ≤ c.rbq.length → exec .rbGenerate s = .next s) ∧
    (∃ q, sets .fmtTakeEffect { c with fmt := q } ∧ (∀ p ∈ q.pend, p.1 ≠ 0) ∧ ((∀ p ∈ c.fmt.pend, p.1 ≠ 0) → q = c.fmt) ∧
      ∀ v rest, c.fmt.pend = (0, v) :: rest → (∀ p ∈ rest, p.1 ≠ 0) → q = { cur := v, pend := rest })

/-- FEEDCFG and LNEST load a valid descriptor from P space; LBODY, LBRK, LBRK.drain and LSTAT act on the replay as R317 to
R321 say (R269, R273, R276, R317, R318, R319, R320). For every core in task mode with an active guard whose descriptor
is aligned to 64, lies in the footprint and is not poisoned. FEEDCFG of a valid one makes it the feeder's, at row 0
with the first three rows on their way; LNEST takes counts and slots as they stand in its 128 bytes; an invalid one
raises ILLOP, a misaligned one ALIGN. LBODY sets the replay up at iteration 0 with the counts' product as N; N = 0
clears the nest and goes past the body. LBRK ends the replay with the present iteration, LBRK.drain makes it N, both
ILLOP outside a replay. LSTAT sends iteration, rotation base or index. A loop iteration gives each slot's address
register its start plus the sum of stride times index at the delayed iteration. A row arrives only when it is on its
way. -/
def Obligations.FeederAndLoopNestConfigure : Prop :=
  ∀ (s : State) (o : XForm) (ti : TaskInfo), inTask s → s.core.active o.g = true → s.core.task = some ti →
    let c := s.core
    let x := (c.sreg o.a).toNat
    let clean := ∀ q ∈ s.dev.poison, q.1 ≠ .spad ti.part ti.slot
    let d := s.bytesAt .own x
    let here := c.replay
    (x % 64 ≠ 0 → exec (.feedcfg o) s = .next (s.takeTrap 0x04 5 (BitVec.ofNat 64 (addrInfo x)) false)) ∧
    (x % 64 = 0 → x + 64 ≤ ti.foot → clean → fdValid (d 64) = false → illegal s (.feedcfg o) 5) ∧
    (x % 64 = 0 → x + 64 ≤ ti.foot → clean → fdValid (d 64) = true →
      ∃ p g, (g = none ↔ c.seg = none) ∧ (∀ r ∈ p, r.n ≤ 2) ∧
        exec (.feedcfg o) s = .next { s with core := { c with seg := g, mat := { c.mat with feeder := { Feeder.reset with desc := some (d 64), pre := p } } } }) ∧
    (∃ p, exec .feederRowArrive s = .next { s with core := { c with mat := { c.mat with feeder := { c.mat.feeder with pre := p } } } } ∧
      p = c.mat.feeder.pre.map fun r => if r.n = s.ev.index ∧ r.due = none then { r with due := some c.wall } else r) ∧
    (c.frozenReplay = false → x % 64 = 0 → x + 128 ≤ ti.foot → clean → nestValid (d 128) = true →
      ∃ n, exec (.lnest o) s = .next { s with core := { c with nest := some n } } ∧ n.counts.length = fieldAt (d 128) 0 1 ∧ n.slots.length = fieldAt (d 128) 1 1 ∧
        (∀ i, i < n.counts.length → n.counts[i]? = some (fieldAt (d 128) (8 + 4 * i) 4)) ∧
        ∀ j q, n.slots[j]? = some q → q.1.toNat = fieldAt (d 128) (2 + j) 1 ∧ q.2.1 = fieldAt (d 128) 6 2 / 8 ^ j % 8 ∧
          ∀ i, i < n.counts.length → q.2.2[i]? = some (sfieldAt (d 128) (0x20 + 16 * i + 4 * j) 4)) ∧
    (c.frozenReplay = false → x % 64 = 0 → x + 128 ≤ ti.foot → clean → nestValid (d 128) = false → illegal s (.lnest o) 5) ∧
    (∀ n stop, c.nest = some n → here = none → c.frozenReplay = false → s.afterBundles c.code (o.fn.toNat % 32 + 1) c.seqPos = some stop →
      (n.total = 0 → exec (.lbody o) s = .next { s with core := { c with nest := none, seqPos := stop } }) ∧
      (n.total ≠ 0 → ∃ r, exec (.lbody o) s = .next { s with core := { c with replay := some r } } ∧ r.nest = n ∧ r.n = n.total ∧ r.it = 0 ∧ r.b = 0 ∧
        r.len = o.fn.toNat % 32 + 1 ∧ r.start = c.seqPos ∧ r.rot = o.imm.getLsbD 0 ∧ r.a0 = n.slots.map (fun q => c.areg q.1) ∧ r.body = [] ∧ r.brk = false ∧
        ∀ b, b < 32 → r.stages[b]? = some (if b ≤ 20 then x / 8 ^ b % 8 else (c.sreg o.b).toNat / 8 ^ (b - 21) % 8))) ∧
    (c.nest = none → illegal s (.lbody o) 5) ∧
    (here = none → illegal s (.lbrk o) 5 ∧ illegal s (.lbrkDrain o) 5 ∧ exec (.lstat o) s = .next (s.sent 1 (.s o.d 0 none))) ∧
    (∀ r, here = some r →
      exec (.lbrk o) s = .next { s with core := { c with replay := some { r with brk := true } } } ∧
      exec (.lbrkDrain o) s = .next { s with core := { c with replay := some { r with n := min r.n (r.it + 1) } } } ∧
      (o.fn.toNat % 16 = 0 → exec (.lstat o) s = .next (s.sent 1 (.s o.d (BitVec.ofNat 64 r.it) none))) ∧
      (o.fn.toNat % 16 = 7 → exec (.lstat o) s = .next (s.sent 1 (.s o.d (BitVec.ofNat 64 r.rb) none))) ∧
      (o.fn.toNat % 16 = 1 → ∀ n0 rest, r.nest.counts = n0 :: rest →
        exec (.lstat o) s = .next (s.sent 1 (.s o.d (BitVec.ofNat 64 (min r.it (r.n - 1) % n0)) none)))) ∧
    (∀ r reg delay (strides : List Int) a0, here = some r → r.nest.slots = [(reg, delay, strides)] → r.a0 = [a0] →
      c.iterStart.areg reg = a0 + BitVec.ofInt 80 (((List.range strides.length).map fun i =>
        strides.getD i 0 * (idxAt r.nest.counts i (min (r.it - delay) (r.n - 1)) : Int)).sum) ∧
      ∀ k, k ≠ reg → c.iterStart.areg k = c.areg k)

/-- The engine operation with index `k` of a core ends: the operation leaves the list, its token holds byte count and status, its
counter goes down, and no other scalar register changes (R129, R131, R323). -/
def tokenWritten (c : Core) (k : Nat) (e : EngineOp) (st bytes : Nat) (code : Option Nat) (u : Core) : Prop :=
  u.outst = c.outst.eraseIdx k ∧ (e.tok ≠ 0 → u.sreg e.tok = BitVec.ofNat 64 (bytes % 2 ^ 48 + st * 2 ^ 48)) ∧
  (∀ r, r ≠ e.tok → u.sreg r = c.sreg r) ∧ u.tokens = c.tokens ++ [{ reg := e.tok, trap := if st = 0 then none else code, scope := e.scope, ranges := e.ranges bytes }] ∧
  (∀ j, e.ctr = some j → (u.counter j).1 = (c.counter j).1 - 1) ∧ (∀ j, e.ctr ≠ some j → u.counter j = c.counter j) ∧
  u.a = c.a ∧ u.v = c.v ∧ u.tau = c.tau ∧ u.pstack = c.pstack

/-- An engine operation joins the outstanding ones (R129, R322): its token is pending and its counter counts it; of the core's state
nothing else changes. -/
def engineStarted (c : Core) (o : XForm) (e : EngineOp) (u : Core) : Prop :=
  u = { c with outst := c.outst ++ [.engine e], tokens := c.tokens.filter (fun t => t.reg != o.d), counters := u.counters } ∧
  e.tok = o.d ∧ e.ctr = (if o.fn.getLsbD 3 then some (BitVec.ofNat 3 o.fn.toNat) else none) ∧
  (∀ j, e.ctr = some j → u.counter j = ((c.counter j).1 + 1, if (c.counter j).2.toNat < e.scope.toNat then e.scope else (c.counter j).2)) ∧ ∀ j, e.ctr ≠ some j → u.counter j = c.counter j

/-- An engine instruction starts operation `e` from state `t` (R129, R322, R418): what it reads may join the translation caches, set
accessed bits, be logged where a walk fails, and count as read in a race; nothing else of the core changes. -/
def engineGoes (t : State) (o : XForm) (i : Instr) (s : State) (e : EngineOp) : Prop :=
  ∃ c0 u v n, exec i s = .next { t with core := u, dev := v, reads := n } ∧ c0 = { t.core with tlb := c0.tlb, raced := c0.raced } ∧
    engineStarted c0 o e u

/-- The 256-byte descriptor of a copy instruction can be read (R317, R325). -/
def copyDescOk (s : State) (o : XForm) (ti : TaskInfo) : Prop :=
  s.core.task = some ti ∧ (s.core.sreg o.a).toNat % 64 = 0 ∧ (s.core.sreg o.a).toNat + 256 ≤ ti.foot ∧ ∀ q ∈ s.dev.poison, q.1 ≠ .spad ti.part ti.slot

/-- CPY, CPYX, FPUT, FGET and WLOAD put an engine operation in flight with its token and counter; sixteen outstanding ones
make the next wait (R129, R130, R322, R325, R326, R328, R331). For every core in task mode with an active guard,
copies with a readable descriptor. With sixteen engine operations outstanding each copy waits. An invalid descriptor
gives an operation of status 2 that moves nothing; a valid one whose source is no result queue an operation with the
pieces, bytes and status of its run over the state with an open segment committed, at a scope not narrower than its destination
space's home. A run of single bytes from P to P reads its source and moves every byte to the destination. A
queue source pops the head quarter, or raises QUEUE. WLOAD, with no other WLOAD in flight and the shadow bank neither
busy nor under a beat, takes the image or the first failing check's status. -/
def Obligations.EngineOperationsStart : Prop :=
  ∀ (s : State) (o : XForm) (ti : TaskInfo), inTask s → s.core.active o.g = true →
    let t := s.commitSeg
    let d := s.bytesAt .own (s.core.sreg o.a).toNat 256
    let full := 16 ≤ s.core.engineCount
    let starts (i : Instr) (kind : Nat) (sc : BitVec 3) : Prop :=
      let cd := copyOf (kind == 2) d
      (full → exec i s = .next { s with last := .waits }) ∧
      let home : BitVec 3 := if cd.dstSp = 2 then 1 else if cd.dstSp = 3 then 2 else 0
      let scope : BitVec 3 := if sc.toNat < home.toNat then home else sc
      (¬ full → copyValid kind d = false → ∃ e u, exec i s = .next { t with core := u } ∧ engineStarted t.core o e u ∧
        e.kind = kind ∧ e.status = 2 ∧ e.pieces = [] ∧ e.bytes = 0 ∧ e.scope = scope) ∧
      (¬ full → copyValid kind d = true → cd.srcSp ≠ 4 → ∃ e, engineGoes t o i s e ∧
        e.kind = kind ∧ e.scope = scope ∧ e.desc = d ∧ e.pieces = (t.copyAll cd none).pieces ∧ e.status = (t.copyAll cd none).status ∧
        e.bytes = (t.copyAll cd none).bytes ∧ e.flags = (t.copyAll cd none).flags) ∧
      (¬ full → copyValid kind d = true → cd.aligned = true → cd.srcSp = 4 → t.core.mat.queue cd.q = [] → (∀ x ∈ t.core.mat.drains, x.q ≠ cd.q) →
        exec i s = .next (t.takeTrap 0x0A 5 (BitVec.ofNat 64 (cd.q.toNat + 256)) false)) ∧
      (∀ e rest, ¬ full → copyValid kind d = true → cd.aligned = true → cd.srcSp = 4 → t.core.mat.queue cd.q = e :: rest →
        ∃ u, exec i s = .next u ∧ u.core.outst.length = t.core.outst.length + 1 ∧ u.core.s = t.core.s ∧
          u.core.mat.queue cd.q = (if 3 ≤ e.popped then rest else { e with popped := e.popped + 1 } :: rest))
    (copyDescOk s o ti → starts (.cpy o) 1 o.scope ∧ starts (.cpyx o) 2 o.scope ∧ starts (.fput o) 3 4 ∧ starts (.fget o) 4 4) ∧
    (∀ (cd : CopyDesc) (n x y : Nat), s.core.task = some ti → (∀ q ∈ s.dev.poison, q.1 ≠ .spad ti.part ti.slot) → cd.srcSp = 1 → cd.dstSp = 1 → cd.dims = [(n, 1, 1)] → cd.ssz = 1 → cd.dsz = 1 → cd.conv = none → cd.start = 0 →
      cd.src = x → cd.dst = y → x + n ≤ 0x80000 → y + n ≤ 0x80000 →
      (s.copyAll cd none).status = 0 ∧ (s.copyAll cd none).bytes = n ∧ (s.copyAll cd none).flags = 0 ∧
      (s.copyAll cd none).pieces = (List.range n).map fun k => { place := .own, addr := y + k, bytes := s.bytesAt .own (x + k) 1 }) ∧
    (s.core.wloadBusy = false → s.core.bankBusy (1 - s.core.bankNo) = false → (∀ b ∈ s.core.mat.beats, b.bank ≠ s.core.live → b.left = 0) → ¬ full →
      let fl := t.dev.promised (t.core.aTaint o.base)
      (∀ st, t.wloadCheck fl (t.core.areg o.base) = .error st → st.1 ≠ 0 →
        ∃ e, engineGoes t o (.wload o) s e ∧ e.kind = 7 ∧ e.status = st.1 ∧ e.bytes = 0) ∧
      (∀ img, t.wloadCheck fl (t.core.areg o.base) = .ok img →
        ∃ e, engineGoes t o (.wload o) s e ∧ e.kind = 7 ∧ e.status = 0 ∧ e.bytes = 69632 ∧ e.image = img.1 ∧ e.pos = 1 - s.core.bankNo)) ∧
    (s.core.wloadBusy = true → exec (.wload o) s = .next { s with last := .waits })

/-- A completing engine operation writes its bytes, then its token with byte count and status, and its counter goes down;
SCWAIT and SCRD read counters (R129, R131, R132, R134, R323, R328, R330, R331, R333). For every state whose event
names an engine operation of the core. An end that comes later than a Meridian task's declared latency is logged first
(merLate), and changes nothing else. A completing CPY or CPYX into the scratchpad writes the bytes of its pieces
there in order and then the token; a piece in global memory is a store of the engine, published at the copy's scope. A WLOAD with status 0 fills the bank that it named with planes, segment exponents,
checksums and format of its image; a failed one leaves the banks, but a poisoned image empties it. FPUT and FGET end
with their early status, with 0x09 when no route reaches the node, with the outcome of the own device's translation for the own
node, where the token of an FPUT has the ranges that it has written here, else with the fabric's, the bytes complete being those before the first element that failed; a put hands those to
the fabric, with the remote addresses and the context; no other code is taken from the fabric. SCWAIT waits while its counter is above the bound, else it commits an open segment and acquires at the
recorded scope; SCRD sends the count after one cycle. -/
def Obligations.EngineOperationsComplete : Prop :=
  ∀ (s : State) (e : EngineOp), let k := s.ev.index
    let q := s.merLate
    q.core = s.core ∧ (s.core.mer = false ∨ s.ev.late = 0 → q = s) ∧
    (s.core.outst[k]? = some (.engine e) →
      let code : Option Nat := if e.trapOn then some 0x13 else none
      ((e.kind = 1 ∨ e.kind = 2) → (∀ p ∈ e.pieces, p.place = .own) → e.carry = [] →
        ∃ u, exec .copyComplete s = .next u ∧ tokenWritten s.core k e e.status e.bytes code u.core ∧
          u.dev = { q.dev with far := u.dev.far } ∧
          u.core.spad = e.pieces.foldl (fun m p => memWrite m p.addr p.bytes) s.core.spad ∧ u.core.sticky = s.core.sticky ||| e.flags) ∧
      (∀ p, (e.kind = 1 ∨ e.kind = 2) → e.pieces = [p] → p.place = .phys → e.carry = [] →
        ∃ u, exec .copyComplete s = .next u ∧ tokenWritten s.core k e e.status e.bytes code u.core ∧ u.core.spad = s.core.spad ∧
          u.dev = q.dev.publishAs (.engine s.focus) e.scope.toNat p.addr p.bytes ∧ u.core.dirty = s.core.dirty) ∧
      (e.kind = 7 → e.status = 0 →
        ∃ u, exec .wloadComplete s = .next u ∧ tokenWritten s.core k e 0 e.bytes (if e.trapOn then some 0x14 else none) u.core ∧
          u.core.live = s.core.live ∧ u.dev.mem = s.dev.mem ∧
          ∀ b, (h : b < 2) → u.core.banks[b] = (if b = e.pos % 2 then bankOf e.va e.image else s.core.banks[b])) ∧
      (e.kind = 7 → e.status ≠ 0 →
        ∃ u, exec .wloadComplete s = .next u ∧ tokenWritten s.core k e e.status 0 (if e.trapOn then some 0x14 else none) u.core ∧ u.dev = q.dev ∧
          ∀ b, (h : b < 2) → u.core.banks[b] = (if b = e.pos % 2 ∧ e.status = 0x16 then Bank.reset else s.core.banks[b])) ∧
      ((e.kind = 3 ∨ e.kind = 4) →
        ((e.status = 2 ∨ e.status = 7) → ∃ u, exec .fabricCopyComplete s = .next { q with core := u } ∧ tokenWritten s.core k e e.status 0 code u) ∧
        (e.status ≠ 2 → e.status ≠ 7 → e.node ≠ s.dev.node → (∀ r ∈ s.dev.routes, r.node = e.node → s.dev.vports.getLsbD r.vport = false) →
          ∃ u, exec .fabricCopyComplete s = .next { q with core := u } ∧ tokenWritten s.core k e 9 e.cursor code u) ∧
        (e.status ≠ 2 → e.status ≠ 7 → e.node ≠ s.dev.node → (∃ r ∈ s.dev.routes, r.node = e.node ∧ s.dev.vports.getLsbD r.vport = true) →
          let put (ps : List Piece) : List Frame := if ps = [] then [] else [.put e.node s.ctx ((joinPieces ps).map fun p => (p.addr, p.bytes))]
          (s.ev.ok = false → fabricStatus e.kind s.ev.value = false → exec .fabricCopyComplete s = .next q) ∧
          (s.ev.ok = false → fabricStatus e.kind s.ev.value = true →
            let m := if s.ev.value = 8 then e.pieces.length else if s.ev.value = 9 then 0 else min s.ev.count e.pieces.length
            ∃ u, exec .fabricCopyComplete s = .next u ∧ tokenWritten s.core k e s.ev.value (e.cursor + m * (copyOf false e.desc).dsz) code u.core ∧
              (e.kind = 3 → u.dev.egress = s.dev.egress ++ put (e.pieces.take m) ∧ u.dev.mem = s.dev.mem ∧ u.core.spad = s.core.spad)) ∧
          (s.ev.ok = true → e.status ≠ 8 → e.kind = 3 → e.carry = [] → ∃ u, exec .fabricCopyComplete s =
              .next { q with core := u, dev := { q.dev with egress := q.dev.egress ++ put e.pieces } } ∧
            tokenWritten s.core k e e.status e.bytes code u) ∧
          (s.ev.ok = true → e.status ≠ 8 → e.kind = 4 → (∀ p ∈ e.pieces, p.place = .own) → ∃ u far, exec .fabricCopyComplete s =
              .next { q with core := u, dev := { q.dev with far := far } } ∧
            tokenWritten s.core k e e.status e.bytes code u ∧
            u.spad = (fillPieces e.pieces s.ev.data).foldl (fun m p => memWrite m p.addr p.bytes) s.core.spad)) ∧
        (e.status ≠ 2 → e.status ≠ 7 → e.node = s.dev.node → ∃ u, exec .fabricCopyComplete s = .next u ∧
          let r := q.fabricLocal e
          let here : EngineOp := if e.kind = 3 then e.landedAt (q.putPlaces e ((r.2.2 - e.cursor) / (copyOf false e.desc).dsz)) else e
          tokenWritten s.core k here (if r.2.1 = 0 then e.status else r.2.1) r.2.2 code u.core))) ∧
    (∀ o : XForm, inTask s → s.core.active o.g = true →
      let j : BitVec 3 := BitVec.ofNat 3 o.fn.toNat
      (o.imm.toNat % 65536 < (s.core.counter j).1 → exec (.scwait o) s = .next { s with last := .waits }) ∧
      ((s.core.counter j).1 ≤ o.imm.toNat % 65536 → exec (.scwait o) s = .next (s.commitSeg.acquire (s.core.counter j).2.toNat)) ∧
      exec (.scrd o) s = .next (s.sent 1 (.s o.d (BitVec.ofNat 64 (s.core.counter j).1) none)))

/-- ENQ appends an item or gives it to the oldest waiter, DEQ and DEQT remove the head item or wait, QSTAT counts, as R48
and R334 to R337 say (R48, R334, R335, R336, R337, R34, R32). For every core in task mode with an active guard. A
queue that is not configured raises ILLOP. ENQ commits an open segment; with room and no waiter the item is appended
and 1 is on its way to s_d, a full queue gives 0 and appends nothing, a waiting task becomes READY with the item in
its register. DEQ of a queue with items removes the head into s_d and acquires at DEVICE; on an empty queue the task
leaves the core in WAITQ (2) with cause 2, queue and register recorded, as a waiter. DEQT gives the item and 1, or 0
and 0 once n cycles have passed, at once with n = 0, and is one of the queue's waiters meanwhile; in Meridian mode it sets NDET and takes
the item as DEQ does. An item that a wait of the task has been given comes before the queue's.
QSTAT sends count and capacity less one after 4 cycles. Results are written when their event comes, before which the lateness of one
in Meridian mode is logged (merLate). Other queues keep their items. -/
def Obligations.QueueInstructionsMoveItems : Prop :=
  ∀ (s : State) (o : XForm) (ti : TaskInfo), inTask s → s.core.active o.g = true → s.core.task = some ti →
    let c := s.core
    let t := s.commitSeg
    let p := ti.part
    let q := if o.fn.getLsbD 0 then (c.sreg o.b).toNat % 256 else o.imm.toNat % 256
    let item := t.core.sreg o.a
    let alone (v w : Device) : Prop := ∀ p' q', (p' ≠ p ∨ q' ≠ q) → w.hwq p' q' = v.hwq p' q'
    (s.dev.hwq p q = none → illegal s (.enq o) 5 ∧ illegal s (.deq o) 5 ∧ illegal s (.deqt o) 5 ∧ illegal s (.qstat o) 5) ∧
    (∀ h, s.dev.hwq p q = some h → t.dev.hwq p q = some h →
      (h.waiters = [] → h.items.length < h.cap → ∃ v, exec (.enq o) s =
          .next { t with dev := v, core := { t.core with outst := t.core.outst ++ [.queue o.d 1 none 0] } } ∧
        v.hwq p q = some { h with items := h.items ++ [item] } ∧ alone t.dev v ∧ v.mem = t.dev.mem ∧ v.slots = t.dev.slots) ∧
      (h.waiters = [] → h.cap ≤ h.items.length → exec (.enq o) s =
          .next { t with core := { t.core with outst := t.core.outst ++ [.queue o.d 0 none 0] } }) ∧
      (∀ i rest y, h.waiters = i :: rest → t.dev.slotOf p i = some y → y.st ≠ 2 → y.deqtQ = some q →
        ∃ v, exec (.enq o) s = .next { t with dev := v, core := { t.core with outst := t.core.outst ++ [.queue o.d 1 none 0] } } ∧
          v.hwq p q = some { h with waiters := rest } ∧ v.slotOf p i = some { y with deqtQ := none, deqtGot := some (q, item) }) ∧
      (∀ i rest y k, h.waiters = i :: rest → t.dev.slotOf p i = some y → y.st = 2 → y.qnum = q → y.kept = some k → y.dreg ≠ 0 →
        ∃ v z k', exec (.enq o) s = .next { t with dev := v, core := { t.core with outst := t.core.outst ++ [.queue o.d 1 none 0] } } ∧
          v.hwq p q = some { h with waiters := rest } ∧ v.slotOf p i = some z ∧ z.st = 0 ∧ z.kept = some k' ∧ k'.sreg y.dreg = item ∧
          ∀ r, r ≠ y.dreg → k'.sreg r = k.sreg r) ∧
      (∀ x rest, h.items = x :: rest → s.givenItem q = none → t.givenItem q = none → c.late = false → (∀ b ∈ t.dev.combines, b.part = p → cmbQueue b.word ≠ q) →
        let taken (i : Instr) (a : Option Reg) (fl : BitVec 11) : Prop :=
          ∃ u, exec i s = .next u ∧ u.core.outst = t.core.outst ++ [.queue o.d x a 1] ∧ u.dev.hwq p q = some { h with items := rest } ∧
            alone t.dev u.dev ∧ u.core.s = t.core.s ∧ u.core.hold = none ∧ u.core.sticky = t.core.sticky ||| fl ∧ u.dev.mem = t.dev.mem ∧
            ∀ r : Reg, ∀ k, (t.core.staint[r.toNat]'r.isLt) = some k → k.scope.toNat ≤ 3 → (u.core.staint[r.toNat]'r.isLt) = none
        taken (.deq o) none 0 ∧ (c.tflags.getLsbD 24 = false → taken (.deqt o) (some o.a) 0) ∧ (c.tflags.getLsbD 24 = true → taken (.deqt o) none 0x400)) ∧
      (∀ x, t.givenItem q = some x → s.givenItem q = some x → c.late = false → ∀ i ∈ [Instr.deq o, .deqt o], ∃ u a fl, exec i s = .next u ∧
        u.core.outst = t.core.outst ++ [.queue o.d x a 1] ∧ u.dev.hwq p q = some h ∧ u.givenItem q = none ∧ u.core.s = t.core.s ∧
        u.core.sticky = t.core.sticky ||| fl ∧ u.dev.mem = t.dev.mem) ∧
      (∀ y, h.items = [] → s.givenItem q = none → c.tflags.getLsbD 24 = false → s.dev.slotOf p ti.slot = some y → y.deqtGot = none →
        (c.deqtAt = none → y.deqtQ = none → o.imm.toNat / 256 = 0 → exec (.deqt o) s =
          .next { t with core := { t.core with deqtAt := none, hold := none, outst := t.core.outst ++ [.queue o.d 0 (some o.a) 0] } }) ∧
        (c.deqtAt = none → y.deqtQ = none → o.imm.toNat / 256 ≠ 0 → ∃ v, exec (.deqt o) s =
            .next { s with dev := v, core := { c with deqtAt := some (c.wall + o.imm.toNat / 256, false) }, last := .waits } ∧
          v.hwq p q = some { h with waiters := (h.waiters.filter fun i => i != ti.slot) ++ [ti.slot] } ∧
          v.slotOf p ti.slot = some { y with deqtQ := some q } ∧ v.mem = s.dev.mem) ∧
        (∀ n, c.deqtAt = some (n, false) → exec (.deqt o) s = .next { s with last := .waits }) ∧
        (∀ n, c.deqtAt = some (n, true) → ∃ u, exec (.deqt o) s = .next u ∧ u.core.outst = t.core.outst ++ [.queue o.d 0 (some o.a) 0] ∧
          u.core.deqtAt = none ∧ u.core.s = t.core.s ∧ ∀ z, u.dev.slotOf p ti.slot = some z → z.deqtQ = none)) ∧
      (h.items = [] → s.givenItem q = none → ti.slot ∉ h.waiters → c.late = false → s.suspendCheck .x = none → c.outst = [] → c.seg = none → c.results = [] → c.landing = [] → c.dirty = [] →
        ∀ x, s.dev.slotOf p ti.slot = some x → x.deqtQ = none → x.deqtGot = none →
        ∃ u y g, exec (.deq o) s = .next u ∧ u.core.task = none ∧ u.dev.slotOf p ti.slot = some y ∧ y.st = 2 ∧ y.why = 2 ∧ y.qnum = q ∧ y.dreg = o.d ∧
          u.dev.hwq p q = some g ∧ g.waiters = h.waiters ++ [ti.slot] ∧ g.items = []) ∧
      exec (.qstat o) s = .next (s.sent 4 (.s o.d (BitVec.ofNat 64 (h.items.length + (h.cap - 1) % 2 ^ 16 * 2 ^ 32)) none))) ∧
    (∀ n, c.deqtAt = some (n, false) → (n ≤ c.wall → exec .deqtTimeout s = .next { s with core := { c with deqtAt := some (n, true) } }) ∧
      (c.wall < n → exec .deqtTimeout s = .next s)) ∧
    (∀ d v a st, c.outst[s.ev.index]? = some (.queue d v a st) → d ≠ 0 →
      ∃ u, exec .queueResultReturn s = .next u ∧ u.dev = s.merLate.dev ∧ u.core.outst = c.outst.eraseIdx s.ev.index ∧ u.core.a = c.a ∧ u.core.v = c.v ∧
        (a ≠ some d → u.core.sreg d = v) ∧ (∀ r, a = some r → r ≠ 0 → u.core.sreg r = st) ∧ ∀ r, r ≠ d → a ≠ some r → u.core.sreg r = c.sreg r)

/-- PHASE releases and acquires, TRIG ends one trigger obligation, BARR counts one arrival, BARW and BARQ test it, SPAWN
creates a task (R44, R49, R51, R117, R118, R339, R340, R341, R338). For every core in task mode with an active guard.
PHASE, TRIG and BARR wait while an atomic is not performed (R340 says so of AMOS; for one with a result log 91). PHASE
commits, ends a hold, releases and acquires at its scope. A release at DEVICE or wider leaves no unpublished store,
its byte being in memory. TRIG ends the obligation of a task that owes one: the entry owes one less, and the task no
more. An unbound barrier raises ILLOP. BARR counts the arrival in the present generation, which ends when all live
tasks have arrived; with its own arrival pending it waits, and so does BARW, which else acquires. BARQ sends 0 or 1
after 2 cycles. SPAWN with a free slot puts a READY spawned task at the target with index times 2^16 plus its count
and sends 1, without one sends 0: R49 says so of the limit of 4,096, and where the task table is full it is the model's reading (log
42); a target from 2^30 up raises ILLOP. -/
def Obligations.BarriersPhasesTriggersAndSpawn : Prop :=
  ∀ (s : State) (o : XForm) (ti : TaskInfo), inTask s → s.core.active o.g = true → s.core.task = some ti →
    let c := s.core
    let t := s.commitSeg
    let quiet := c.amosLeft = false
    let r := s.syncPoint.release o.scope.toNat
    let n := o.imm.toNat % 64
    let waits (i : Instr) : Prop := exec i s = .next { s with last := .waits }
    (quiet → exec (.phase o) s = .next (r.acquire o.scope.toNat)) ∧ (c.amosLeft = true → waits (.phase o)) ∧
    (c.landing = [] → s.release 0 = s) ∧
    (∀ w sc, c.dirty = [w] → w.pubs = [] → c.landing = [] → 1 ≤ sc → s.memOk = true →
      let u := s.release sc
      u.core.dirty = [] ∧ w.id ∈ u.core.view ∧ u.core.s = c.s ∧
      (∃ old, old.length = s.dev.hist.length ∧ u.dev.hist = old ++ [{ w with pubs := [(sc, .unit s.focus, s.dev.stamp + 1)] }]) ∧
      (5 ≤ sc → ∀ k, (h : k < w.bytes.length) → memGet u.dev.mem (w.addr + k) = w.bytes[k])) ∧
    (quiet → c.owesTrig = false ∨ ti.spawned = true → exec (.trig o) s = .next r) ∧
    (c.owesTrig = true → ti.spawned = false → s.dev.holdFull ti.part (s.dev.triggerSignals ti.part ti.lid) = true → waits (.trig o)) ∧
    (c.amosLeft = true → waits (.trig o)) ∧
    (quiet → c.owesTrig = true → ti.spawned = false → s.dev.holdFull ti.part (s.dev.triggerSignals ti.part ti.lid) = false →
      exec (.trig o) s = .next { r with core := { r.core with owesTrig := false }, dev := r.dev.endObligation ti.part ti.lid }) ∧
    (∀ (v : Device) e, v.entryOf ti.part ti.lid = some e → 1 < e.owed → (v.endObligation ti.part ti.lid).entryOf ti.part ti.lid = some { e with owed := e.owed - 1 }) ∧
    (ti.barriers ≤ n → illegal s (.barr o) 5 ∧ illegal s (.barw o) 5 ∧ illegal s (.barq o) 5) ∧
    (∀ g gen arr, s.dev.gangOf ti.gang = some g → n < ti.barriers → g.bars[n]? = some (gen, arr) →
      let pending := ∃ a ∈ c.arrivals, a = (n, gen)
      (pending → (∀ i ∈ [Instr.barr o, .barw o], exec i s = .next { s with last := .waits, core := { c with barFrom := some (c.barFrom.getD c.wall) } }) ∧ exec (.barq o) s = .next (s.syncPoint.sent 2 (.s o.d 0 none))) ∧
      (¬ pending → exec (.barw o) s = .next (s.syncPoint.acquire o.scope.toNat) ∧
        exec (.barq o) s = .next ((s.syncPoint.acquire o.scope.toNat).sent 2 (.s o.d 1 none))) ∧
      (¬ pending → quiet → ∃ u, exec (.barr o) s = .next u ∧ u.dev = { r.dev with gangs := u.dev.gangs } ∧
        u.core = { r.core with arrivals := (n, gen) :: r.core.arrivals.filter fun a => a.1 != n } ∧
        ((∀ k, k < g.slots.length → k = ti.cidx.toNat ∨ k ∈ arr ∨ g.slots.getD k 0 ∈ g.ended) →
          (u.dev.gangOf ti.gang).bind (fun y => y.bars[n]?) = some (gen + 1, [])) ∧
        ((∃ k, k < g.slots.length ∧ k ≠ ti.cidx.toNat ∧ k ∉ arr ∧ g.slots.getD k 0 ∉ g.ended) →
          (u.dev.gangOf ti.gang).bind (fun y => y.bars[n]?) = some (gen, arr ++ [ti.cidx.toNat])))) ∧
    (2 ^ 30 ≤ (c.sreg o.a).toNat → illegal s (.spawn o) 5) ∧
    ((c.sreg o.a).toNat < 2 ^ 30 →
      let room := (t.dev.part ti.part).spawnedLive < 4096 ∧ t.dev.freeSlots ti.part ≠ []
      (¬ room → exec (.spawn o) s = .next (({ t with core := { t.core with spawns := c.spawns + 1 } } : State).sent 8 (.s o.d 0 none))) ∧
      (room → ∃ v slot x, exec (.spawn o) s = .next (({ t with dev := v, core := { t.core with spawns := c.spawns + 1 } } : State).sent 8 (.s o.d 1 none)) ∧
        t.dev.slotOf ti.part slot = none ∧ v.slotOf ti.part slot = some x ∧ x.st = 0 ∧ x.info.spawned = true ∧ x.info.entry = (c.sreg o.a).toNat ∧
        x.info.index = BitVec.ofNat 64 (ti.index.toNat * 2 ^ 16 + c.spawns) ∧ x.info.gsize = 1 ∧ x.info.cidx = 0 ∧ x.info.barriers = 0 ∧ x.info.param = ti.param ∧
        (v.part ti.part).spawnedLive = (t.dev.part ti.part).spawnedLive + 1))

/-- CMBOPEN opens the lowest free slot, CMBPUT and its arrival fill it, deadline and close complete it, records release in
order, CMBPOLL shows it (R345, R346, R347, R348, R349, R350, R351). For every core in task mode with an active guard.
CMBOPEN of a valid record opens the lowest free slot with its fields and sends the handle; with none free .try sends
bit 63 and CMBOPEN waits; without a buffer both raise ILLOP. CMBPUT at position 16 or more raises RESV; else its row
is on its way. An arrival is discarded with 0x0C for a stale handle, 0x0E for a position from K up, 0x0D for a taken
one, and 0x0C too where the record is held (log 68); else row and bit join the slot; a put to a device that no route reaches ends
with 0x09, and one to another device leaves with its row. Lateness in Meridian mode is logged before the put is taken (merLate). A deadline that has come completes an open slot outside Meridian mode; before it,
nothing happens. The held record that is next is appended to the queue with its sequence number, and its slot is free
with the next generation. CMBPOLL of handle 0 sends the configuration word, of a live handle bitmap, state and
discards. CMBCLOSE completes an open slot and sends 1, or sends 0 for one that is not open. What is sent for a handle of another device is
the model's choice (log 68): CMBPOLL a free value whose state is at most 4, CMBCLOSE a free 0 or 1. -/
def Obligations.CombineBuffersOpenReceiveAndRelease : Prop :=
  ∀ (s : State) (o : XForm) (ti : TaskInfo) (b : Combine), inTask s → s.core.active o.g = true → s.core.task = some ti →
    let c := s.core
    let t := s.commitSeg
    let d := s.focus.dome
    let x := (c.sreg o.a).toNat
    let r := s.bytesAt .own x 128
    let readable := x % 64 = 0 ∧ x + 128 ≤ ti.foot ∧ ∀ q ∈ s.dev.poison, q.1 ≠ .spad ti.part ti.slot
    (s.dev.combineOf s.ctx d = none → illegal s (.cmbopen o) 5 ∧ illegal s (.cmbopenTry o) 5) ∧
    (s.dev.combineOf s.ctx d = some b → t.dev.combineOf s.ctx d = some b → cmbSlots b.word ≠ 0 → readable →
      (openValid b.word r = false → illegal s (.cmbopen o) 5 ∧ illegal s (.cmbopenTry o) 5) ∧
      (openValid b.word r = true →
        ((∀ y ∈ b.slots, y.state ≠ 0) → exec (.cmbopen o) s = .next { s with last := .waits } ∧
          exec (.cmbopenTry o) s = .next { t with core := { t.core with outst := t.core.outst ++ [.queue o.d (BitVec.ofNat 64 (2 ^ 63)) none 0] } }) ∧
        (∀ k y, b.slots[k]? = some y → y.state = 0 → (∀ j z, j < k → b.slots[j]? = some z → z.state ≠ 0) → ∀ i ∈ [Instr.cmbopen o, .cmbopenTry o],
          ∃ v z, exec i s = .next { t with dev := v, core := { t.core with outst := t.core.outst ++ [.queue o.d (handleOf k y.gen d t.dev.node) none 0] } } ∧
            (v.combineOf s.ctx d).bind (fun w => w.slots[k]?) = some z ∧ z.state = 1 ∧ z.gen = y.gen ∧ z.token.toNat = fieldAt r 0 4 ∧ z.k = fieldAt r 4 1 ∧
            z.bitmap = 0 ∧ z.dest = BitVec.ofNat 80 (fieldAt r 8 10) ∧ (∀ p, p < 16 → z.gates[p]? = some (BitVec.ofNat 32 (fieldAt r (0x40 + 4 * p) 4))) ∧
            (c.tflags.getLsbD 24 = false → z.deadline = if fieldAt r 0x14 4 = 0 then 0 else t.dev.time + fieldAt r 0x14 4) ∧ v.mem = t.dev.mem))) ∧
    (16 ≤ (c.sreg o.b).toNat → exec (.cmbput o) s = .next (s.takeTrap 0x02 5 (BitVec.ofNat 64 (slotBits (.cmbput o))) false)) ∧
    ((c.sreg o.b).toNat < 16 → c.engineCount < 16 →
      ∃ e, engineGoes t o (.cmbput o) s e ∧ e.kind = 6 ∧ e.handle = t.core.sreg o.a ∧
        e.pos = (c.sreg o.b).toNat ∧ (e.status = 0 → e.image.length = e.bytes)) ∧
    (∀ e, c.outst[s.ev.index]? = some (.engine e) → e.kind = 6 → let q := s.merLate
      (e.status ≠ 0 → e.status ≠ 8 → ∃ u, exec .cmbputArrival s = .next { q with core := u } ∧ tokenWritten c s.ev.index e e.status 0 none u) ∧
      (e.status = 0 → e.handle ≠ 0 → e.node ≠ s.dev.node → s.dev.reaches e.node = false →
        ∃ u, exec .cmbputArrival s = .next { q with core := u } ∧ tokenWritten c s.ev.index e 9 0 none u) ∧
      (e.status = 0 → e.handle ≠ 0 → e.node ≠ s.dev.node → s.dev.reaches e.node = true → e.carry = [] → s.ev.ok = true →
        ∃ u, exec .cmbputArrival s = .next { q with core := u, dev := { q.dev with egress := q.dev.egress ++ [.row e.node s.ctx e.handle e.pos e.image] } } ∧
          tokenWritten c s.ev.index e 0 e.bytes none u) ∧
      (e.status = 0 → e.handle = 0 ∨ e.node = s.dev.node →
        ∃ u, exec .cmbputArrival s = .next { q with core := u, dev := (q.dev.cmbReceive s.ctx e.handle d e.pos e.image).2 } ∧
          let st := (q.dev.cmbReceive s.ctx e.handle d e.pos e.image).1
          tokenWritten c s.ev.index e st (if st = 0 then e.bytes else 0) none u)) ∧
    (∀ slot gen pos row, let out := b.receive slot gen pos row
      (∀ y, b.slots[slot]? = some y →
        (y.state = 0 ∨ y.gen.toNat ≠ gen → out = (0x0C, { b with discards := b.discards + 1 })) ∧
        (y.state ≠ 0 → y.gen.toNat = gen → y.k ≤ pos → out = (0x0E, { b with discards := b.discards + 1 })) ∧
        (y.state ≠ 0 → y.gen.toNat = gen → pos < y.k → y.bitmap.getLsbD pos = true → out = (0x0D, { b with discards := b.discards + 1 })) ∧
        (1 < y.state → y.gen.toNat = gen → pos < y.k → y.bitmap.getLsbD pos = false → out = (0x0C, { b with discards := b.discards + 1 })) ∧
        (y.state = 1 → y.gen.toNat = gen → pos < y.k → pos < 16 → y.bitmap.getLsbD pos = false →
          ∃ z, out = (0, { b with slots := b.slots.set slot z }) ∧ z.rows = y.rows ++ [(pos, row)] ∧ z.state = 1 ∧
            ∀ j, z.bitmap.getLsbD j = (y.bitmap.getLsbD j || decide (j = pos)))) ∧
      (b.slots[slot]? = none → out = (0x0C, { b with discards := b.discards + 1 }))) ∧
    (∀ y, s.dev.combineOf s.ev.ctx s.ev.dome = some b → b.slots[s.ev.slot]? = some y →
      (y.state ≠ 1 ∨ y.deadline = 0 ∨ s.dev.time < y.deadline → exec .cmbDeadline s = .next s) ∧
      (y.state = 1 → y.deadline ≠ 0 → y.deadline ≤ s.dev.time → y.mer = false →
        exec .cmbDeadline s = .next { s with dev := s.dev.cmbComplete s.ev.ctx s.ev.dome s.ev.slot true })) ∧
    (s.dev.combineOf s.ev.ctx s.ev.dome = some b →
      (b.nextRelease = none → exec .cmbReleaseEnqueue s = .next s) ∧
      (∀ k y h, b.nextRelease = some k → b.slots[k]? = some y → (∀ j z, j ≠ k → b.slots[j]? = some z → z.state ≠ 2) →
        s.dev.hwq b.part (cmbQueue b.word) = some h → h.waiters = [] → h.items.length < h.cap →
        ∃ v z, exec .cmbReleaseEnqueue s = .next { s with dev := v } ∧
          v.hwq b.part (cmbQueue b.word) = some { h with items := h.items ++ [y.record ||| BitVec.ofNat 64 (b.seq % 256 * 2 ^ 56)] } ∧
          v.combineOf s.ev.ctx s.ev.dome = some { b with slots := b.slots.set k z, seq := b.seq + 1, stalled := false } ∧ z.state = 0 ∧
          z.gen = (if y.gen = 0x3FFF then 1 else y.gen + 1))) ∧
    (let h := c.sreg o.a
     (h = 0 → s.dev.combineOf s.ctx d = some b → exec (.cmbpoll o) s = .next (t.sent 8 (.s o.d b.word none))) ∧
     (h = 0 → s.dev.combineOf s.ctx d = none → exec (.cmbpoll o) s = .next (t.sent 8 (.s o.d 0 none))) ∧
     (∀ y, c.seg = none → h ≠ 0 → handleNode h = s.dev.node → s.dev.combineOf s.ctx (handleDome h) = some b → b.slots[handleSlot h]? = some y →
       y.state = 1 → y.gen.toNat = handleGen h → handleGen h ≠ 0 →
       exec (.cmbpoll o) s = .next (s.sent 8 (.s o.d (BitVec.ofNat 64 (y.bitmap.toNat + b.discards.toNat * 2 ^ 32)) none)) ∧
       (y.mer = false → c.tflags.getLsbD 24 = false →
         exec (.cmbclose o) s = .next (({ s with dev := s.dev.cmbComplete s.ctx (handleDome h) (handleSlot h) false } : State).sent 8 (.s o.d 1 none))) ∧
       (y.mer = true → exec (.cmbclose o) s = .next (s.takeTrap 0x11 5 0 false))) ∧
     (h = 0 → exec (.cmbclose o) s = .next (t.sent 8 (.s o.d 0 none))) ∧
     (h ≠ 0 → handleNode h ≠ s.dev.node → let q : State := { t with free := t.free + 1 }
       (∃ w, exec (.cmbpoll o) s = .next (q.sent 8 (.s o.d w none)) ∧ w.toNat / 2 ^ 16 % 2 ^ 16 ≤ 4) ∧
       ∃ w, exec (.cmbclose o) s = .next (q.sent 8 (.s o.d w none)) ∧ (w = 0 ∨ w = 1)))

/-- COLL joins its group and completes for all with agreed descriptors, PHINT and PHCLR declare bursts, windows of 256
cycles and 1 ms are accounted (R322, R342, R344, R352, R353, R462). For every core in task mode with an active guard
and a readable 64-byte descriptor, fewer than sixteen engine operations outstanding: COLL of a task that is in no
group named starts an operation of kind 5 with status 0x0B; a member's joins the group. A collective operation that
failed at issue completes with its status and no byte, its lateness in Meridian mode being logged first (merLate). COLL_COMPLETE of a group whose local members have not all
joined changes nothing; descriptors that do not agree end the joins of one operation; an all-gather of one participant on the
focused core writes its token with status 0 and the length of what it sent. That a completion, with or without an error, takes one join of
each rank is the model's reading (log 93). PHINT with length 0 raises ILLOP, else the declaration begins s_a cycles from now; PHCLR
removes it. A window that is over counts an overrun once in BURSTCNT and starts again at 0, the window just after it being held at its
own allowance; one still open changes nothing. A power window above the limit lowers f by one sixteenth, not below 4, one under 95 percent raises it, not
above 16. -/
def Obligations.CollectivesBurstsAndPower : Prop :=
  ∀ (s : State) (o : XForm) (ti : TaskInfo), inTask s → s.core.active o.g = true → s.core.task = some ti →
    let c := s.core
    let t := s.commitSeg
    let x := (c.sreg o.a).toNat
    let d := s.bytesAt .own x 64
    (x % 64 = 0 → x + 64 ≤ ti.foot → (∀ q ∈ s.dev.poison, q.1 ≠ .spad ti.part ti.slot) → c.engineCount < 16 →
      ((∀ g, t.dev.group (collGroup d) = some g → t.dev.rankIn g ti = none) → collForm d = true →
        ∃ e u, exec (.coll o) s = .next { t with core := u } ∧ engineStarted t.core o e u ∧ e.kind = 5 ∧ e.status = 0x0B) ∧
      (∀ g k, t.dev.group (collGroup d) = some g → t.dev.rankIn g ti = some k → collValid d g.members.length = true →
        ∃ e c0 u v n, exec (.coll o) s = .next { t with core := u, dev := v, reads := n } ∧ c0 = { t.core with tlb := c0.tlb, raced := c0.raced } ∧
          engineStarted c0 o e u ∧ e.kind = 5 ∧ e.status = 0 ∧ e.pos = k ∧ e.desc = d ∧
          (v.group g.group).map CollGroup.joined = some (g.joined ++ [(k, ti.part, ti.slot, d)]))) ∧
    (∀ e, c.outst[s.ev.index]? = some (.engine e) → e.kind = 5 → e.status ≠ 0 →
      ∃ u, exec .collComplete s = .next { s.merLate with core := u } ∧ tokenWritten c s.ev.index e e.status 0 none u) ∧
    (∀ g, c.outst[s.ev.index]? = none → s.dev.group s.ev.group = some g → s.collParts g 0 g.members s.ev.data = none →
      exec .collComplete s = .next s) ∧
    (∀ g p rest, c.outst[s.ev.index]? = none → s.dev.group s.ev.group = some g → s.collParts g 0 g.members s.ev.data = some (p :: rest) →
      (∀ r, s.collUnit g r = none) → ((p :: rest).any fun y => !collAgree y.desc p.desc) = true →
      ∃ v, exec .collComplete s = .next { s with dev := v } ∧ v.mem = s.dev.mem ∧ (v.group g.group).map CollGroup.joined =
        some ((List.range g.members.length).foldl (fun l r => l.eraseP fun j => j.1 == r) g.joined)) ∧
    (∀ g p e k ps, c.outst[s.ev.index]? = none → s.dev.group s.ev.group = some g → g.members.length = 1 → s.collParts g 0 g.members s.ev.data = some [p] →
      s.collUnit g 0 = some s.focus → c.collOp g.group = some (k, e) → e.carry = [] → p.status = 0 → collKind p.desc = 2 →
      s.collPieces (collRecv p.desc) [(0, p.sent)] = .ok ps →
      ∃ u, exec .collComplete s = .next u ∧ tokenWritten c k e 0 p.sent.length none u.core) ∧
    ((c.sreg o.b).toNat = 0 → illegal s (.phint o) 5) ∧
    ((c.sreg o.b).toNat ≠ 0 →
      exec (.phint o) s = .next { s with core := { c with phint := some (c.wall + x, (c.sreg o.b).toNat, o.imm.toNat % 32) } }) ∧
    exec (.phclr o) s = .next { s with core := { c with phint := none } } ∧
    (c.wall / 256 ≤ c.window → exec .burstWindowEnd s = .next s) ∧
    (c.window < c.wall / 256 → exec .burstWindowEnd s = .next { s with core := { c with
        window := c.wall / 256, burstBeats := 0, burstPaid := false
        burstHeld := decide (c.allowance c.window < c.burstBeats ∧ c.wall / 256 = c.window + 1)
        burstcnt := if c.allowance c.window < c.burstBeats ∧ c.burstPaid = false then c.burstcnt + 1 else c.burstcnt } }) ∧
    (c.phint = none → c.allowance c.window = 32) ∧
    (∃ v, exec .powerWindowEnd s = .next { s with dev := v } ∧ v.powerAvg = s.ev.value ∧ v.powerSec = s.ev.count ∧ v.mem = s.dev.mem ∧ v.powerLimit = s.dev.powerLimit ∧
      (s.dev.powerLimit < s.ev.value → v.powerF = max 4 (s.dev.powerF - 1)) ∧
      (s.ev.value ≤ s.dev.powerLimit → 95 * s.dev.powerLimit ≤ 100 * s.ev.value → v.powerF = s.dev.powerF) ∧
      (100 * s.ev.value < 95 * s.dev.powerLimit → v.powerF = min 16 (s.dev.powerF + 1)))

/-- PCSET, PCDEC, DISP, PREEMPT, QCFGP, MIGRATE, SCRUBCFG, OBSLOG and HEALTHW have the effects and results of R399 to R403
on a queue processor (R389, R390, R393, R398, R399, R400, R401, R402, R403, R445). For every queue processor and a
partition that it serves; another partition raises ILLOP. PCSET of a claimed record gives status 1, of an unreadable
one 0x81; of a valid unclaimed one it sets CLAIMED in memory and the entry takes the record and its predecessor count.
PCDEC decrements the counter of a waiting entry, and at zero with SET the entry is READY at the end of the ready
queue; PCDEC.fail marks an entry without a record. DISP submits the head of the ready queue, or gives 0. PREEMPT
without a resident task gives 0, else the number pre-empted in turn. QCFGP gives 2 beyond a limit, 1 while the queue
holds items or waiters, else 0 and an empty queue of that capacity; .off removes it. MIGRATE gives 2, with a malformed entry that its walk meets logged, 1 or 0. SCRUBCFG
sets a period and gives the old one. OBSLOG appends its event. HEALTHW posts its value, or gives 1. Results come after
one cycle. -/
def Obligations.FirmwareInstructionsAct : Prop :=
  ∀ (s : State) (o : XForm) (d k : Nat), s.focus = .qp d k →
    let c := s.core
    let p := o.imm.toNat % 8
    let lid := (c.sreg o.a).toNat % 2 ^ 31
    let gives (i : Instr) (v : Device) (x : Nat) : Prop := exec i s = .next (({ s with dev := v } : State).sent 1 (.s o.d (BitVec.ofNat 64 x) none))
    let va := c.areg o.base
    (s.mayName p = false → ∀ i ∈ [Instr.pcset o, .pcdec o, .pcdecFail o, .disp o, .preempt o], illegal s i 5) ∧
    (s.mayName p = true →
      (∀ b x, s.recordAt va = .error (b, x) → exec (.pcset o) s = .next ((s.failWalk 0 x b).sent 1 (.s o.d (BitVec.ofNat 64 (0x81 * 2 ^ 48)) none))) ∧
      (∀ ps pl a, s.chunks 0 .load 1 (va.toNat : Int) 128 = .ok ps → s.place 0 (addrIn 0 ((va.toNat : Int) + 0x13)) 1 .store = .ok (pl, a) →
        (∀ f, s.poisoned 1 ps = some f → s.recordAt va = .error (POISON, (va.toNat : Int))) ∧
        (s.poisoned 1 ps = none →
          let t := (s.touch 0 (va.toNat : Int) 128 .load).touch 0 (addrIn 0 ((va.toNat : Int) + 0x13)) 1 .store
          let r := s.dev.readVa s.ctx va 128
          let w := t.atomicWrite pl a [BitVec.ofNat 8 (fieldAt r 0x13 1 + 0x80)] 5
          (recFlag r 7 = true → exec (.pcset o) s = .next (t.sent 1 (.s o.d (t.dev.resultWord p (recLid r) 1) none))) ∧
          (recFlag r 7 = false → t.dev.noEntry p (recLid r) = true → exec (.pcset o) s = .next (t.sent 1 (.s o.d (t.dev.resultWord p (recLid r) 2) none))) ∧
          (pl = .phys → w.dev.mem = memWrite t.dev.mem a [BitVec.ofNat 8 (fieldAt r 0x13 1 + 0x80)]) ∧
          (recFlag r 7 = false → t.dev.noEntry p (recLid r) = false →
            (∀ q, w.dev.recordRejects p va r = some q →
              let v := w.dev.rejectRecord p r q
              exec (.pcset o) s = .next (({ w with dev := v } : State).sent 1 (.s o.d (v.resultWord p (recLid r) (0x80 + q)) none))) ∧
            (w.dev.recordRejects p va r = none →
              let v := w.dev.acceptRecord p va r
              exec (.pcset o) s = .next (({ w with dev := v } : State).sent 1 (.s o.d (v.resultWord p (recLid r) 0) none)))))) ∧
      (∀ (v : Device) r e, v.entryOf p (recLid r) = some e → e.counter + recPreds r ≠ 0 →
        (v.acceptRecord p va r).entryOf p (recLid r) = some { e with set := true, record := r, va := va, counter := e.counter + recPreds r }) ∧
      (∀ e, s.dev.entryOf p lid = some e →
        exec (.pcdec o) s = .next (({ s with dev := s.dev.decrement p lid } : State).sent 1 (.s o.d ((s.dev.decrement p lid).resultWord p lid 0) none)) ∧
        (e.state < 2 → -32768 < e.counter → (e.set = false ∨ e.counter ≠ 1 ∨ e.state ≠ 0) →
          (s.dev.decrement p lid).entryOf p lid = some { e with counter := e.counter - 1 } ∧ ((s.dev.decrement p lid).part p).ready = (s.dev.part p).ready) ∧
        (e.state = 0 → e.counter = 1 → e.set = true →
          (s.dev.decrement p lid).entryOf p lid = some { e with counter := 0, state := 1 } ∧
          ((s.dev.decrement p lid).part p).ready = (s.dev.part p).ready ++ [lid]) ∧
        (∃ v, exec (.pcdecFail o) s = .next (({ s with dev := v } : State).sent 1 (.s o.d (v.resultWord p lid 0) none))) ∧
        (e.set = false → (s.dev.part p).state = 1 → ∃ v, exec (.pcdecFail o) s = .next (({ s with dev := v } : State).sent 1 (.s o.d (v.resultWord p lid 0) none)) ∧
          v.entryOf p lid = some { e with failed := true })) ∧
      (s.dev.noEntry p lid = true → gives (.pcdec o) s.dev (s.dev.resultWord p lid 2).toNat ∧ gives (.pcdecFail o) s.dev (s.dev.resultWord p lid 2).toNat) ∧
      (s.dev.noEntry p lid = false → (∃ v, gives (.pcdec o) v (v.resultWord p lid 0).toNat) ∧ ∃ v, gives (.pcdecFail o) v (v.resultWord p lid 0).toNat) ∧
      ((s.dev.part p).ready = [] → gives (.disp o) s.dev 0) ∧
      (∀ l rest, (s.dev.part p).ready = l :: rest → ∃ v, gives (.disp o) v l) ∧
      (∀ l rest e, (s.dev.part p).ready = l :: rest → s.dev.entryOf p l = some e → s.dev.gangsOf p e.record ≠ 0 →
        ∃ v, gives (.disp o) v l ∧ (v.part p).ready = rest ∧ (v.entryOf p l).map (fun e => (e.state, e.gangs)) = some (2, s.dev.gangsOf p e.record) ∧
          v.mem = s.dev.mem) ∧
      (∃ u, exec (.preempt o) s = .next (u.sent 1 (.s o.d (BitVec.ofNat 64 (s.coresOf p lid).length) none)) ∧
        (s.coresOf p lid = [] → u = s) ∧ ∀ x, s.coresOf p lid = [x] → u = s.preemptCore x (o.fn.toNat % 4) 0)) ∧
    (let p := o.imm.toNat / 2 ^ 8 % 8
     let q := o.imm.toNat % 2 ^ 8
     let cap := (c.sreg o.a).toNat % 2 ^ 17
     let used : Prop := ∃ h, s.dev.hwq p q = some h ∧ (h.items ≠ [] ∨ h.waiters ≠ [])
     let bad : Prop := cap < 1 ∨ 65536 < cap ∨ va.toNat % 64 ≠ 0 ∨
       s.dev.usable s.ctx (BitVec.ofNat 80 (va.toNat / 65536 * 65536)) ((va.toNat % 65536 + 8 * cap + 65535) / 65536) = false
     (s.mayName p = false → illegal s (.qcfgp o) 5 ∧ illegal s (.qcfgpOff o) 5) ∧
     (s.mayName p = true →
       (bad → gives (.qcfgp o) s.dev 2) ∧ (¬ bad → used → gives (.qcfgp o) s.dev 1) ∧ (used → gives (.qcfgpOff o) s.dev 1) ∧
       (¬ bad → ¬ used → (∀ b ∈ s.dev.combines, b.part = p → cmbQueue b.word ≠ q) →
         ∃ v, gives (.qcfgp o) v 0 ∧ v.hwq p q = some { part := p, q := q, cap := cap, store := va, items := [], waiters := [] } ∧
           ∀ p' q', (p' ≠ p ∨ q' ≠ q) → v.hwq p' q' = s.dev.hwq p' q') ∧
       (¬ bad → ¬ used → ∃ v, gives (.qcfgp o) v 0) ∧ (¬ used → ∃ v, gives (.qcfgpOff o) v 0) ∧
       (¬ used → (∀ b ∈ s.dev.combines, b.part = p → cmbQueue b.word ≠ q) → ∃ v, gives (.qcfgpOff o) v 0 ∧ v.hwq p q = none ∧ ∀ p' q', (p' ≠ p ∨ q' ≠ q) → v.hwq p' q' = s.dev.hwq p' q'))) ∧
    (let x : BitVec 12 := BitVec.ofNat 12 (c.sreg o.a).toNat
     let page : Addr := BitVec.ofNat 80 (va.toNat / 65536 * 65536)
     (∀ e, s.dev.walk x page = .error e → gives (.migrate o) (s.logWalk x page).dev 2) ∧
     (∀ l e, s.dev.walk x page = .ok (l, e) → s.dev.pinned x page e = true → gives (.migrate o) (s.dev.deferMove x page) 1) ∧
     (∀ l e, s.dev.walk x page = .ok (l, e) → s.dev.pinned x page e = false → ∃ v, gives (.migrate o) v 0 ∧ v.mem = s.dev.mem ∧
       (v.dome (s.dev.ctxDome x)).migq = (s.dev.dome (s.dev.ctxDome x)).migq ++ [(x, page, o.fn.toNat % 4)])) ∧
    (o.fn.toNat % 4 < 3 → ∃ v old, gives (.scrubcfg o) v old.toNat ∧ (s.dev.dome d).scrub[o.fn.toNat % 4]? = some old ∧
      (v.dome d).scrub[o.fn.toNat % 4]? = some (BitVec.ofNat 32 (c.sreg o.a).toNat) ∧ v.mem = s.dev.mem) ∧
    (o.imm.toNat % 2 ^ 16 < 0x8000 → illegal s (.obslog o) 5) ∧
    (0x8000 ≤ o.imm.toNat % 2 ^ 16 → ∃ v x, gives (.obslog o) v (s.dev.dome d).logSeq ∧ (v.dome d).log.getLast? = some x ∧ x.seq = (s.dev.dome d).logSeq ∧
      x.code.toNat = o.imm.toNat % 2 ^ 16 ∧ x.p0 = c.sreg o.a ∧ x.p1 = c.sreg o.b ∧ (v.dome d).logSeq = (s.dev.dome d).logSeq + 1 ∧ v.mem = s.dev.mem) ∧
    (let item := o.imm.toNat % 2 ^ 12
     let g := (c.sreg o.b).toNat % 8
     (g ≤ 4 → 0x800 ≤ item → item ≤ 0xBFF → ∃ v, gives (.healthw o) v 0 ∧ v.almPosts.getLast? = some (item, c.sreg o.a, g) ∧ v.mem = s.dev.mem) ∧
     (5 ≤ g ∨ item < 0x800 ∨ 0xBFF < item → gives (.healthw o) s.dev 1))

/-- CTXSV saves the frozen task to the area at CSAVE and CTXLD brings a saved one back, with the statuses of R373; other
states raise ILLOP (R373, R379, R405, R28). For every core in monitor mode with a task. CTXSV with TVALID 0 or SAVED
1, and CTXLD unless both are 1, raise ILLOP. CTXSV waits for outstanding operations that are no copies; with a free
area in the pool and a usable area it always completes: copies in flight stop, none changing nothing, it writes the state that MRET
would resume as the area's image, keeps it in the task's slot with the area taken from the pool, has no copy outstanding, sets SAVED and gives 0; else it gives 1 and changes
nothing. CTXLD of an area that is not usable gives 1, and of one whose bank image fails R28 gives 2, with nothing changed;
otherwise it gives 0, clears SAVED, and brings the scalar, address and vector registers, STICKY, and the bound, shape and
tolerance registers back from the bytes of the area, under the monitor's own mode, time and position, and the area taken goes
back to the pool; with no copy to issue again memory is unchanged. A task without loaded banks has no image that fails. -/
def Obligations.ContextSaveAndLoad : Prop :=
  ∀ (s : State) (o : SR) (p : Nat) (ti : TaskInfo), s.focus = .core p → s.core.mon.mode = true → s.core.task = some ti →
    let m := s.core.mon
    let ctx := (s.dev.part ti.part).ctx
    let usable := s.dev.areaUsable ctx m.csave
    let gives (i : Instr) (x : Nat) : Prop := exec i s = .next (s.sent 1 (.s o.d (BitVec.ofNat 64 x) none))
    (m.tvalid = false ∨ m.saved = true → illegal s (.ctxsv o) 0) ∧
    (m.tvalid = false ∨ m.saved = false → illegal s (.ctxld o) 0) ∧
    (m.tvalid = true → m.saved = false →
      ((∃ x ∈ s.core.outst, x.isCopy = false) → exec (.ctxsv o) s = .next { s with last := .waits }) ∧
      ((∀ x ∈ s.core.outst, x.isCopy = true) →
        ((s.dev.part ti.part).freeAreas = [] ∨ usable = false → gives (.ctxsv o) 1) ∧
        (∀ a rest, (s.dev.part ti.part).freeAreas = a :: rest → usable = true →
          let q := s.stopCopies
          let z := q.core.mret.saved ti.foot
          (s.core.outst = [] → q = s) ∧
          ∃ v, exec (.ctxsv o) s =
              .next (({ q with dev := v, core := { q.core with mon := { m with saved := true }, outst := [] } } : State).sent 1 (.s o.d 0 none)) ∧
            v.mem = ((q.dev.takeArea ti.part ti.slot).writeCtx ctx m.csave z z.engines).mem ∧ (v.part ti.part).freeAreas = rest ∧
            z.s = s.core.s ∧ z.a = s.core.a ∧ z.v = s.core.v ∧ z.sticky = s.core.sticky ∧ z.pos = m.mtpc.toNat ∧ z.mat = s.core.mat ∧
            (∀ y, q.dev.slotOf ti.part ti.slot = some y →
              v.slotOf ti.part ti.slot = some { y with area := some a, kept := some z })))) ∧
    (m.tvalid = true → m.saved = true →
      (usable = false → gives (.ctxld o) 1) ∧
      (usable = true →
        let l := s.dev.readCtx ctx m.csave ((s.dev.slotOf ti.part ti.slot).bind TaskSlot.kept).toList
        let w : State := { s with core := s.core.underMonitor l }
        let at_ (off n : Nat) : Nat := leNat (s.dev.areaBytes ctx m.csave off n)
        (w.reloadBanks = none → gives (.ctxld o) 2) ∧
        (∀ a e, (l.bank 0).va = some a → w.wloadCheck [] a = .error e → w.reloadBanks = none) ∧
        ((l.bank 0).va = none → (l.bank 1).va = none → w.reloadBanks ≠ none) ∧
        (w.reloadBanks ≠ none →
          ∃ u, exec (.ctxld o) s = .next u ∧ u.core.v = l.v ∧ u.core.bounds = l.bounds ∧ u.core.shapes = l.shapes ∧ u.core.tol = l.tol ∧
            (∀ i, (h : i < 32) → (u.core.s[i]).toNat = at_ (0x100 + 8 * i) 8) ∧ (∀ i, (h : i < 16) → u.core.a[i] = BitVec.ofNat 80 (at_ (0x200 + 16 * i) 10)) ∧
            u.core.sticky = (BitVec.ofNat 64 (at_ 0x308 8)).setWidth 11 ∧
            (∀ i, (h : i < 32) → ∀ j, (k : j < 1024) → ((u.core.v[i])[j]).toNat = at_ (0x4000 + 4096 * i + 4 * j) 4) ∧
            u.core.mon.mode = true ∧ u.core.mon.saved = false ∧ u.core.pos = s.core.pos ∧ u.core.tau = s.core.tau ∧ u.core.wall = s.core.wall ∧
            u.core.results = s.core.results ++ [{ w := .s o.d 0 none, due := s.core.tau + 1 }] ∧
            (u.dev.slotOf ti.part ti.slot).bind TaskSlot.kept = none ∧ (l.outst = [] → u.dev.mem = s.dev.mem) ∧
            ∀ y a, s.dev.slotOf ti.part ti.slot = some y → y.area = some a →
              (u.dev.part ti.part).freeAreas = (s.dev.part ti.part).freeAreas ++ [a])))

/-- The first work of the event's partition that is due for room and has victims: a gang without a place that has waited for the
pre-emption wait, or a task without a place whose gang runs and for which no core is idle (R53, R406). -/
def dueForRoom (s : State) : Option Work :=
  s.dev.firstWork s.ev.part ((s.dev.workOf s.ev.part).filter fun w => (s.placeOf s.ev.part w).isNone &&
    (match w with
     | .gang e => decide (e.age + (s.dev.part s.ev.part).waitMax ≤ s.dev.time)
     | .task y => s.dev.matesRun w && !(s.roomCores y).any s.coreIdle) && !(s.roomOf s.ev.part w).1.isEmpty)

/-- Gangs start, tasks resume and take their cores, and drain, checkpoint and kill pre-emption stop them as R42, R45 and
R382 say (R35, R37, R40, R41, R42, R44, R45, R53, R382, R405, R406, R407). For every state. When what comes next in
the event's partition is a gang of a kernel object, GANG_START starts it: the entry has started one gang more, and a
gang of one task puts that task on the core chosen, at the kernel's entry, index its gang's number times G. When it is
a task that has run, TASK_RESUME puts it on its core at its saved position with the scalar registers kept, its slot
RUNNING with one resumption more, provided its record is intact and it was not checkpointed; SPAWNED_TASK_START does
so for a spawned task that has not started. Otherwise these events change nothing. COLD_START_RELEASE releases starts
whose time has come. FOOTPRINT_MOVE marks the footprint of a non-resident task as in its spill area, and its core forwards for 65,536
cycles. An aged gang or task reserves its cluster. For every core in focus that runs a task outside the monitor, with nothing outstanding and no
open segment. Of DRAIN_PREEMPT, CHECKPOINT_PREEMPT and KILL_PREEMPT only the one acts that R382 chooses: drain where the estimate
is not 0 and leaves no more than the drain window, else kill where the newcomer's tokens reach the threshold and the launch is
idempotent, else checkpoint, which is a drain without a usable area. A drain marks the core as draining and dates it. A checkpoint leaves the
core without a task and the slot SAVED (5) with cause 5, CKPT, the position and registers kept.
A kill leaves the slot READY at the entry with a fresh start.
DRAIN_WINDOW_EXPIRE acts only on a draining core whose window is over. GANG_WAIT_PREEMPT checkpoints with cause 6 the
task that has waited at a barrier for 65,536 cycles while a ready member of its gang lacks a core, and resumes that member in its
place; it leaves Meridian tasks alone. PREEMPTION_WAIT_EXPIRE pre-empts, for the first work due for room, the tasks of the cores chosen. -/
def Obligations.SchedulerStartsResumesAndStopsTasks : Prop :=
  (∀ (s : State), let p := s.ev.part
    let core (u : State) (x : Nat) : Core := u.getCore (.core x)
    (s.nextStart p = none → exec .gangStart s = .next s ∧ exec .taskResume s = .next s ∧ exec .spawnedTaskStart s = .next s) ∧
    (∀ e k cores dome o, s.nextStart p = some (.gang e k cores dome) → s.dev.kernelOf (s.dev.part p).ctx (recKernel e.record) = some o →
      s.dev.entryOf p e.lid = some e →
      exec .taskResume s = .next s ∧ exec .spawnedTaskStart s = .next s ∧
      ∃ u, exec .gangStart s = .next u ∧ (u.dev.entryOf p e.lid).map SchedEntry.started = some (e.started + 1) ∧ u.dev.nextGang = s.dev.nextGang + 1 ∧
        (∀ x, recGang e.record = 1 → cores = [x] → s.dev.freeSlots p ≠ [] →
          ∃ t, (core u x).task = some t ∧ t.part = p ∧ t.lid = recLid e.record ∧ t.index = BitVec.ofNat 64 e.started ∧ (core u x).pos = o.entry ∧
            (core u x).thandler = (if o.handlerPos = 0xFFFFFFFF then 0 else o.handlerPos ||| 0x80000000) ∧ (core u x).pstack = [] ∧
            s.dev.slotOf p t.slot = none ∧ (u.dev.slotOf p t.slot).map TaskSlot.st = some 1)) ∧
    (∀ t x k, s.nextStart p = some (.task t x) → t.part = p → s.dev.slotOf p t.slot = some t → t.kept = some k → s.dev.recordIntact t = true →
      t.ckpt = false → t.area = none →
      let runs (u : State) (n : Nat) : Prop :=
        (core u x).task = some t.info ∧ (core u x).s = k.s ∧ (core u x).a = k.a ∧ (core u x).sticky = k.sticky ∧ (core u x).pos = t.cpos ∧
        (core u x).evt = (t.evt && t.why != 3) ∧ ∃ y, u.dev.slotOf p t.slot = some y ∧ y.st = 1 ∧ y.kept = none ∧ y.resumes = n ∧ y.lastCore = some x
      exec .gangStart s = .next s ∧
      (t.fresh = false → exec .spawnedTaskStart s = .next s ∧ ∃ u, exec .taskResume s = .next u ∧ runs u (t.resumes + 1)) ∧
      (t.fresh = true → exec .taskResume s = .next s ∧ ∃ u, exec .spawnedTaskStart s = .next u ∧ runs u 0)) ∧
    (∃ v, exec .coldStartRelease s = .next { s with dev := v } ∧
      (v.cluster s.ev.index).coldPending = (s.dev.cluster s.ev.index).coldPending.filter (fun y => decide (s.dev.time < y.2)) ∧ v.mem = s.dev.mem) ∧
    (∀ t k, s.dev.slotOf p s.ev.slot = some t → s.residentOf t.part t.slot = none → t.kept = some k → t.foot = false →
      ∃ v y z, exec .footprintMove s = .next { s with dev := v } ∧ v.slotOf p s.ev.slot = some y ∧ y.foot = true ∧ y.kept = some z ∧ z.spad = [] ∧ z.s = k.s ∧
        ∀ x, t.lastCore = some x → v.forwards = s.dev.forwards.filter (fun f => !(f.core == x && f.part == t.part && f.slot == t.slot)) ++
          [{ core := x, part := t.part, slot := t.slot, till := s.dev.time + 65536 }]) ∧
    (∀ t, s.dev.slotOf p s.ev.slot = some t → t.foot = true → exec .footprintMove s = .next s) ∧
    (let has (lid : Nat) (slot : Option Nat) : Bool := s.dev.reserved.any fun x => x.part == p && x.lid == lid && x.slot == slot
     let aged := s.dev.firstWork p ((s.dev.workOf p).filter fun w => decide (w.since.1 + (s.dev.part p).aging ≤ s.dev.time) &&
       match w with | .gang e => !has e.lid none | .task t => !has t.info.lid (some t.slot))
     let reserves (lid : Nat) (slot : Option Nat) (k : Nat) : Prop := exec .agingLimitExpire s =
       .next { s with dev := { s.dev with reserved := s.dev.reserved ++ [{ part := p, lid := lid, slot := slot, cluster := k }] } }
     (aged = none → exec .agingLimitExpire s = .next s) ∧
     (∀ e, aged = some (.gang e) →
       (∀ x, recMer e.record = false → s.mostIdle (s.dev.launchClusters p e) = some x → reserves e.lid none x.1) ∧
       (∀ x, recMer e.record = true → s.meridianGang p e = some x → reserves e.lid none x.1)) ∧
     (∀ t, aged = some (.task t) →
       (∀ k, t.info.mer = false → s.dev.homeCluster t = some k → reserves t.info.lid (some t.slot) k) ∧
       (∀ c, t.info.mer = true → s.meridianCore t = some c → reserves t.info.lid (some t.slot) (c / 128))))) ∧
  (∀ (s : State) (p : Nat) (t : TaskInfo) (x : TaskSlot), s.focus = .core p → s.ev.core = p → s.core.mon.mode = false → s.core.task = some t →
    s.core.outst = [] → s.core.seg = none → s.core.landing = [] → s.dev.slotOf t.part t.slot = some x →
    let c := s.core
    let drained := { s with core := { c with draining := true }, dev := s.dev.updSlot t.part t.slot fun y => { y with age := s.dev.time } }
    let saved (why : Nat) (u : State) : Prop :=
      u.core.task = none ∧ ∃ y k, u.dev.slotOf t.part t.slot = some y ∧ y.st = 5 ∧ y.why = why ∧ y.ckpt = true ∧ y.cpos = c.pos ∧ y.kept = some k ∧
        k.s = c.s ∧ k.a = c.a ∧ k.v = c.v ∧ k.pstack = c.pstack ∧ k.mat = c.mat ∧ y.area = some c.mon.csave
    let k := s.chosen s.ev.count
    let soon := recEstimate s.taskRecord ≠ 0 ∧ recEstimate s.taskRecord ≤ c.cycle.toNat + (s.dev.part s.partition).drainWindow
    let mayKill := (s.dev.part s.partition).killAt ≤ s.ev.count ∧ recIdem s.taskRecord = true
    (soon → k = 1) ∧ (¬ soon → mayKill → k = 3) ∧ (¬ soon → ¬ mayKill → k = if s.canCheckpoint then 2 else 1) ∧
    (k ≠ 1 → exec .drainPreempt s = .next s) ∧ (k ≠ 2 → exec .checkpointPreempt s = .next s) ∧ (k ≠ 3 → exec .killPreempt s = .next s) ∧
    (k = 1 → exec .drainPreempt s = .next drained) ∧
    (k = 2 → ∃ u, exec .checkpointPreempt s = .next u ∧ saved 5 u) ∧
    (k = 3 → ∃ u y, exec .killPreempt s = .next u ∧ u.core.task = none ∧ u.dev.slotOf t.part t.slot = some y ∧ y.st = 0 ∧
      y.cpos = t.entry ∧ y.kept = some { startCore t with owesTrig := c.owesTrig } ∧ y.ckpt = false) ∧
    (c.draining = false ∨ s.dev.time < x.age + (s.dev.part t.part).drainWindow → exec .drainWindowExpire s = .next s) ∧
    (c.draining = true → x.age + (s.dev.part t.part).drainWindow ≤ s.dev.time → s.canCheckpoint = true →
      ∃ u, exec .drainWindowExpire s = .next u ∧ saved 5 u) ∧
    (t.mer = true ∨ t.spawned = true ∨ c.draining = true ∨ (∀ n, c.barFrom = some n → c.wall < n + 65536) → exec .gangWaitPreempt s = .next s) ∧
    (let lacks (v : State) : Option Work := v.dev.firstWork t.part ((v.dev.slots.filter fun y =>
       y.part == t.part && y.info.gang == t.gang && !y.info.spawned && y.ready && y.slot != t.slot).map Work.task)
     let w := s.checkpoint 6
     (lacks s = none → exec .gangWaitPreempt s = .next s) ∧
     (∀ n, lacks s ≠ none → t.mer = false → t.spawned = false → c.draining = false → c.barFrom = some n → n + 65536 ≤ c.wall → s.idleIn (p / 128) = [] →
       s.canCheckpoint = true → saved 6 w ∧
         (∀ m, lacks w = some (.task m) → w.coreIdle p = true → exec .gangWaitPreempt s = .next (w.resumeTask m p)) ∧
         (lacks w = none ∨ w.coreIdle p = false → exec .gangWaitPreempt s = .next w))) ∧
    (dueForRoom s = none → exec .preemptionWaitExpire s = .next s) ∧
    (∀ w, dueForRoom s = some w → let r := s.roomOf s.ev.part w
      exec .preemptionWaitExpire s = .next (r.1.foldl (fun u y => u.preemptCore y 0 r.2) s)) ∧
    (∀ e, s.roomOf s.ev.part (.gang e) = (s.roomFor s.ev.part e, recTokens e.record)) ∧
    (∀ y e, s.dev.entryOf s.ev.part y.info.lid = some e → s.roomOf s.ev.part (.task y) =
      (((s.victims (recClass e.record) (s.roomCores y)).take 1).map Prod.fst, recTokens e.record)))

/-- The custodian has processed the request of the event's port, which was the first of those that wait, with a status and results
(R453): the response stands in the port, BUSY ends, DONE is set, and MSI-X vector 0 is raised. -/
def answered (s : State) (st : Nat) (rs : List Byte) (u : State) : Prop :=
  let k := s.ev.port
  u = { s with dev := (({ s.dev with mbx := s.dev.mbx.tail } : Device).updPort k fun p => { p with
          busy := false, done := true, rsp := bytesOfNat 2 st ++ [0, 0] ++ memRun p.req 4 4 ++ rs }).msix k 0 }

/-- A mailbox command ends with a status and changes nothing but the mailbox (R453). -/
def refusedWith (s : State) (i : Instr) (st : Nat) : Prop := ∃ u, exec i s = .next u ∧ answered s st [] u

/-- A mailbox command changes the device as given, and ends with status 0 and results. -/
def doneWith (s : State) (i : Instr) (v : Device) (rs : List Byte) : Prop := ∃ u, exec i s = .next u ∧ answered { s with dev := v } 0 rs u

/-- The custodian takes requests in turn, checks the port against the partition's owner, and partition commands follow
the states of R446 (R406, R407, R412, R446, R452, R453, R454, R465). For every state. A command changes nothing while its port has no
request whose turn it is, or has one of another command or with other operands; a request with no form of R454 gets status 2. How many
bytes each operand has is the model's choice (log 104). A command that is due acts thus. PART_CREATE
of an absent partition whose operands, clusters and shares fit makes it DRAINED (3) with owner, clusters, task area
and time of creation; of an existing one gives 3. That a share in a dome without a cluster of the partition does not fit is the model's
reading (log 75). A command on a partition of another port, or an absent one, gives 1
and changes nothing but the mailbox. ONLINE from DRAINED or DRAINING makes it ONLINE (1), else gives 3; DRAIN from ONLINE
makes it DRAINING, and DRAINED with nothing left; FENCE fences it; RESET from FENCED with no task and no claimed entry
makes it DRAINED; DESTROY from DRAINED removes it with its queues and buffers. DISP_PARAM sets the four parameters;
GRADE_CLEAR clears the worst grade; PART_CTX sets the context while no task runs. -/
def Obligations.PartitionCommandsAct : Prop :=
  ∀ (s : State), let p := s.ev.part
    let q := s.dev.part p
    let pt := s.dev.port s.ev.port
    let own := p < 8 ∧ q.state ≠ 0 ∧ q.port = s.ev.port % 2
    let cmds := [Instr.partStateOnline, .partStateDrain, .partStateFence, .partStateReset, .partDestroy, .partCtx, .dispParam, .gradeClear, .monitorLoad, .collGroup]
    let all := [Instr.partCreate, .ctxSet, .cmbCfg, .keyLoad, .nodeSet, .memAssign, .logRead, .attest, .powerLimit] ++ cmds
    (∀ i ∈ all,
      (s.dev.mbxTurn s.ev.port = false → exec i s = .next s) ∧
      (s.dev.mbxTurn s.ev.port = true → mbxFormOk pt.reqOp pt.reqBytes = false → refusedWith s i 2) ∧
      (s.dev.mbxTurn s.ev.port = true → mbxFormOk pt.reqOp pt.reqBytes = true → pt.asks i s.ev = false → exec i s = .next s)) ∧
    (p < 8 → ¬ own → ∀ i ∈ cmds, s.mbxDue i = true → refusedWith s i 1) ∧ (8 ≤ p → ∀ i ∈ cmds, s.mbxDue i = true → refusedWith s i 2) ∧
    (s.mbxDue .partCreate = true → let c := s.ev.create
      (8 ≤ c.p → refusedWith s .partCreate 2) ∧ (c.p < 8 → (s.dev.part c.p).state ≠ 0 → refusedWith s .partCreate 3) ∧
      (c.p < 8 → (s.dev.part c.p).state = 0 → partCreateOk c = false → refusedWith s .partCreate 2) ∧
      (c.p < 8 → (s.dev.part c.p).state = 0 → partCreateOk c = true → s.dev.sharesFit c = true → (∀ k, k < 8 → c.clusters.getLsbD k = true → s.dev.partOfCluster k = none) →
        ∃ t u, exec .partCreate s = .next u ∧ answered t 0 [] u ∧ t.dev.mem = s.dev.mem ∧ t.ev = s.ev ∧
          let y := t.dev.part c.p
          y.state = 3 ∧ y.port = s.ev.port % 2 ∧ y.clusters = c.clusters ∧ y.taskArea = c.taskArea ∧ y.spillPool = c.spillPool ∧ y.tableSize = c.tableSize ∧
          y.created = s.dev.time ∧ y.drainWindow = 4194304 ∧ y.killAt = 1024 ∧ y.aging = 16777216 ∧ y.waitMax = 65536)) ∧
    (own →
      (s.mbxDue .partStateOnline = true →
        (q.state = 2 ∨ q.state = 3 → ∃ v, doneWith s .partStateOnline v [] ∧ (v.part p).state = 1 ∧ v.mem = s.dev.mem) ∧
        (q.state = 1 ∨ q.state = 4 → refusedWith s .partStateOnline 3)) ∧
      (s.mbxDue .partStateDrain = true →
        (q.state = 1 → (∃ e ∈ s.dev.entries, e.part = p ∧ e.set = true) → ∃ v, doneWith s .partStateDrain v [] ∧ (v.part p).state = 2) ∧
        (q.state = 1 → s.dev.entries = [] → s.dev.slots = [] → (s.dev.dome (s.dev.homeDome p)).held = [] →
          ∃ v, doneWith s .partStateDrain v [] ∧ (v.part p).state = 3) ∧
        (q.state ≠ 1 → refusedWith s .partStateDrain 3)) ∧
      (s.mbxDue .partStateFence = true → ∃ u, exec .partStateFence s = .next u ∧ answered (s.fence p 1 0) 0 [] u) ∧
      (s.mbxDue .partStateReset = true →
        (q.state ≠ 4 → refusedWith s .partStateReset 3) ∧
        (q.state = 4 → (∀ t ∈ s.dev.slots, t.part ≠ p) → (∀ e ∈ s.dev.entries, e.part = p → e.set = false) →
          ∃ t u, exec .partStateReset s = .next u ∧ answered t 0 [] u ∧ (t.dev.part p).state = 3 ∧ (∀ e ∈ t.dev.entries, e.part ≠ p) ∧ t.dev.mem = s.dev.mem)) ∧
      (s.mbxDue .partDestroy = true →
        (q.state ≠ 3 → refusedWith s .partDestroy 3) ∧
        (q.state = 3 → ∃ t u, exec .partDestroy s = .next u ∧ answered t 0 [] u ∧ t.dev.part p = Partition.absent ∧ (∀ h ∈ t.dev.queues, h.part ≠ p) ∧
          (∀ b ∈ t.dev.combines, b.part ≠ p) ∧ t.dev.mem = s.dev.mem)) ∧
      (s.mbxDue .dispParam = true → ∀ a b c d, s.ev.params = [a, b, c, d] → ∃ v, doneWith s .dispParam v [] ∧ v.mem = s.dev.mem ∧
        v.part p = { q with drainWindow := a, killAt := b, aging := c, waitMax := d }) ∧
      (s.mbxDue .gradeClear = true → ∃ v, doneWith s .gradeClear v [] ∧ v.part p = { q with worst := 0 } ∧ v.mem = s.dev.mem) ∧
      (s.mbxDue .partCtx = true →
        (s.unitsOf p = [] → s.dev.ctxOwner s.ev.ctx = some p → ∃ v, doneWith s .partCtx v [] ∧ v.part p = { q with ctx := s.ev.ctx } ∧ v.mem = s.dev.mem) ∧
        (s.unitsOf p ≠ [] → refusedWith s .partCtx 3)))

/-- CTX_SET, CMB_CFG, KEY_LOAD, COLL_GROUP, NODE_SET, MONITOR_LOAD, MEM_ASSIGN, LOG_READ, ATTEST and POWER_LIMIT act as
R454 says (R342, R345, R412, R417, R439, R454, R462, R463, R464). For every state in which the command is due and, for a
command on a partition, its port owns it. CTX_SET of a well-formed entry that the port may own replaces the context's entry, where the port may
own that too; a firmware entry, owner 8, either port may write, and otherwise it gives 1 (the model's choice, log 74). Unless the entry
stays valid with the same root and owner, the pins of the context end (log 106).
CMB_CFG with no open slot sets a buffer of free slots that fits the share, of generation 1 (log 68), or with SLOTS 0 a word without one.
KEY_LOAD marks a key id from 1 to 255 as loaded and keeps its keys. COLL_GROUP sets the participants of a group that none has joined.
NODE_SET, while no task runs, sets node and routes. MONITOR_LOAD of a DRAINED partition gives its cores MCODE and MVEC
and counts; a NATV header of another revision gives 2 (log 56). MEM_ASSIGN adds units that the other port does not have, else gives 4
(log 74). LOG_READ writes the entries from a sequence
number to host memory and answers the oldest number and the count. ATTEST answers report and signature. POWER_LIMIT
takes 600 to 1,900 W, else gives 2. -/
def Obligations.CustodianCommandsAct : Prop :=
  ∀ (s : State),
    let p := s.ev.part
    let own (p : Nat) : Prop := p < 8 ∧ (s.dev.part p).state ≠ 0 ∧ (s.dev.part p).port = s.ev.port % 2
    let x := s.ev.ctx
    (s.mbxDue .ctxSet = true →
      let stays : Bool := match s.dev.contexts.find? fun y => y.1 == x with
        | some y => y.2.take 10 == s.ev.data.take 10 && fieldAt y.2 8 1 % 2 == 1
        | none => false
      (contextEntryOk s.ev.data = false → refusedWith s .ctxSet 2) ∧
      (contextEntryOk s.ev.data = true → own (fieldAt s.ev.data 9 1) ∨ fieldAt s.ev.data 9 1 = 8 →
        (∀ y ∈ s.dev.contexts, y.1 = x → fieldAt y.2 8 1 % 2 = 0 ∨ own (fieldAt y.2 9 1) ∨ fieldAt y.2 9 1 = 8) →
        ∃ v, doneWith s .ctxSet v [] ∧ v.contexts = s.dev.contexts.filter (fun y => y.1 != x) ++ [(x, s.ev.data)] ∧ v.mem = s.dev.mem ∧ v.parts = s.dev.parts ∧
          (stays = true → v.pins = s.dev.pins ∧ v.domes = s.dev.domes) ∧
          (stays = false → v.pins = s.dev.pins.filter (fun y => y.1 != x) ∧ ∀ d, d < 4 → ∀ l, l ∈ (v.dome d).linePins ↔ l ∈ (s.dev.dome d).linePins ∧ l.1 ≠ x)) ∧
      (contextEntryOk s.ev.data = true → fieldAt s.ev.data 9 1 < 8 → ¬ own (fieldAt s.ev.data 9 1) → refusedWith s .ctxSet 1) ∧
      (∀ y, contextEntryOk s.ev.data = true → s.dev.contexts.find? (fun y => y.1 == x) = some y → fieldAt y.2 8 1 % 2 = 1 → fieldAt y.2 9 1 < 8 →
        ¬ own (fieldAt y.2 9 1) → refusedWith s .ctxSet 1)) ∧
    (s.mbxDue .cmbCfg = true →
      (s.dev.ctxOwner x = none → refusedWith s .cmbCfg 1) ∧
      (∀ q, s.dev.ctxOwner x = some q → own q → s.ev.dome < 4 → s.ev.value < 2 ^ 43 →
        let w : Word := BitVec.ofNat 64 s.ev.value
        (∀ b, s.dev.combineOf x s.ev.dome = some b → (∃ y ∈ b.slots, y.state ≠ 0) → refusedWith s .cmbCfg 3) ∧
        (s.dev.combineOf x s.ev.dome = none → cmbSlots w = 0 → ∃ v b, doneWith s .cmbCfg v [] ∧ v.combineOf x s.ev.dome = some b ∧ b.word = w ∧ b.slots = []) ∧
        (s.dev.combineOf x s.ev.dome = none → cmbSlots w ≠ 0 → cmbWordOk w = true → s.ev.addr + cmbBytes w ≤ (s.dev.part q).shares.getD s.ev.dome 0 →
          (∀ r ∈ s.dev.takenIn s.ev.dome, overlaps (s.dev.shareBase q s.ev.dome + s.ev.addr) (cmbBytes w) r.1 r.2 = false) →
          ∃ v b, doneWith s .cmbCfg v [] ∧ v.combineOf x s.ev.dome = some b ∧ b.word = w ∧ b.part = q ∧ b.discards = 0 ∧ b.seq = 0 ∧
            b.slots.length = cmbSlots w ∧ ∀ y ∈ b.slots, y.state = 0 ∧ y.gen = 1))) ∧
    (s.mbxDue .keyLoad = true →
      (s.ev.value < 1 ∨ 255 < s.ev.value → refusedWith s .keyLoad 2) ∧
      (∀ q, 1 ≤ s.ev.value → s.ev.value ≤ 255 → s.dev.ctxOwner x = some q → own q → ∃ v, doneWith s .keyLoad v [] ∧ v.mem = s.dev.mem ∧
        (∀ k, k ∈ v.keys ↔ k ∈ s.dev.keys ∨ k = BitVec.ofNat 8 s.ev.value) ∧
        v.keyData.find? (fun y => y.1 == BitVec.ofNat 8 s.ev.value) = some (BitVec.ofNat 8 s.ev.value, Config.sm2Open s.ev.data))) ∧
    (s.mbxDue .collGroup = true → own p →
      (s.ev.members = [] → refusedWith s .collGroup 2) ∧
      (s.ev.members ≠ [] → s.ev.group < 65536 → (∀ g ∈ s.dev.groups, g.group = s.ev.group → g.joined = []) → ∃ v, doneWith s .collGroup v [] ∧
        v.mem = s.dev.mem ∧ v.group s.ev.group = some { group := s.ev.group, members := s.ev.members, joined := [] } ∧
        ∀ g, g ≠ s.ev.group → v.group g = s.dev.group g)) ∧
    (s.mbxDue .nodeSet = true →
      ((∃ q, q < 8 ∧ s.unitsOf q ≠ []) → refusedWith s .nodeSet 3) ∧
      ((∀ q, q < 8 → s.unitsOf q = []) → (∀ r ∈ s.ev.routes, r.vport < 16) → doneWith s .nodeSet { s.dev with node := s.ev.node, routes := s.ev.routes } [])) ∧
    (s.mbxDue .monitorLoad = true → own p →
      ((s.dev.part p).state ≠ 3 → refusedWith s .monitorLoad 3) ∧
      ((s.dev.part p).state = 3 →
        let h := s.dev.readVa (s.dev.part p).ctx s.ev.va 64
        (fieldAt h 0 2 ≠ 2 → refusedWith s .monitorLoad 2) ∧
        (fieldAt h 0 2 = 2 → ∃ t u, exec .monitorLoad s = .next u ∧ answered t 0 [] u ∧ t.dev.monLoads = s.dev.monLoads + 1 ∧ t.dev.mem = s.dev.mem ∧
          ∀ k, k ∈ s.dev.coresOfPart p → (t.getCore (.core k)).mon.mcode = s.ev.va ∧ (t.getCore (.core k)).mon.mvec.toNat = fieldAt h 0x1C 4))) ∧
    (s.mbxDue .memAssign = true →
      (2 ≤ s.ev.value → refusedWith s .memAssign 2) ∧
      (s.ev.value < 2 → (∃ j, j < s.ev.count ∧ s.ev.addr + j ∈ (s.dev.port (s.ev.value + 1)).units) → refusedWith s .memAssign 4) ∧
      (s.ev.value < 2 → (∀ j, j < s.ev.count → s.ev.addr + j ∉ (s.dev.port (s.ev.value + 1)).units) → ∃ v, doneWith s .memAssign v [] ∧ v.mem = s.dev.mem ∧
        ∀ n, n ∈ (v.port s.ev.value).units ↔ n ∈ (s.dev.port s.ev.value).units ∨ (s.ev.addr ≤ n ∧ n < s.ev.addr + s.ev.count))) ∧
    (s.mbxDue .logRead = true →
      (4 ≤ s.ev.dome → refusedWith s .logRead 2) ∧
      (s.ev.dome < 4 → let lo := (s.ev.port % 2 + 1) * 2 ^ 48
        lo ≤ s.ev.value → s.ev.value + 48 * s.ev.count ≤ lo + 2 ^ 48 →
        let es := ((s.dev.dome s.ev.dome).log.filter fun e => decide (s.ev.addr ≤ e.seq)).take s.ev.count
        ∃ v n, doneWith s .logRead v (bytesOfNat 8 n ++ bytesOfNat 8 es.length) ∧ v.mem = memWrite s.dev.mem s.ev.value (es.flatMap LogEntry.bytes) ∧
          (∀ e rest, (s.dev.dome s.ev.dome).log = e :: rest → n = e.seq))) ∧
    (s.mbxDue .attest = true → let r := s.dev.report s.ev.nonce
      doneWith s .attest s.dev (r ++ bytesOfNat 64 (Config.sm2Sign (Config.sm3 r)).toNat)) ∧
    (s.mbxDue .powerLimit = true →
      (s.ev.value < 600 ∨ 1900 < s.ev.value → refusedWith s .powerLimit 2) ∧
      (600 ≤ s.ev.value → s.ev.value ≤ 1900 → doneWith s .powerLimit ({ s.dev with powerLimit := s.ev.value } : Device).decideHeadroom []))

/-- A dome's Observing Log has one more entry, the newest: an event of a code and grade, with its payload 0, at the present time (R437). -/
def logged (s : State) (v : Device) (d code grade : Nat) (p0 : Word) : Prop :=
  ∃ e, (v.dome d).log.getLast? = some e ∧ e.code = BitVec.ofNat 16 code ∧ e.grade = grade ∧ e.p0 = p0 ∧ e.seq = (s.dev.dome d).logSeq ∧
    e.time = s.dev.time ∧ (v.dome d).logSeq = (s.dev.dome d).logSeq + 1

/-- An event changes the device alone, and no byte of memory. -/
def deviceOnly (s : State) (i : Instr) (f : Device → Prop) : Prop := ∃ v, exec i s = .next { s with dev := v } ∧ v.mem = s.dev.mem ∧ f v

/-- Doorbells, BAR4 accesses, BAR0 registers, loss of a link and fabric requests act on the device as R386, R449 to R452
and R455 say (R134, R330, R386, R443, R446, R449, R450, R451, R452, R453, R455, R465). For every state. A doorbell on
a ready port sets the kick bit of its stream when the port owns the partition; any other write on a ready port is
dropped and logged (DOORBELL-DROP). A BAR4 read inside device memory returns the published bytes, poisoned when a line
is or when a check value fails (logged E2E, grade D); a BAR4 write into units of the port writes its bytes; an
access outside is dropped and logged (BAR-REFUSED), a read then being answered with Unsupported Request. A BAR0 write fills the request
buffer, submits it to wait its turn when the port is ready and the mailbox free (else sets OVR), sets WINBASE or the MSI-X table;
read-only registers ignore it (log 79), and an unlisted offset is logged. PORTSTAT and MBXSTAT read as their fields say, and write-only
registers as zero. Loss of the link fences the partitions of the port
with grade B; loss of a fabric link clears its port's bit. A fabric put has a walk that fails logged where it meets a malformed entry, marks the pages, writes the bytes before the first that fails
to translate, published at FABRIC scope, and answers its status; a get answers status 0 and its bytes, 6 for a poisoned source, the
status of a failed translation, or 8 with the bytes of a source that fails its check; a row acts as a CMBPUT's and its status is
answered. Payload layouts are the model's (log 11), and so is the form of an answer (log 68). -/
def Obligations.HostPortsAndFabricAct : Prop :=
  ∀ (s : State), let e := s.ev
    let k := e.port
    let pt := s.dev.port k
    let q := e.value / 2 ^ 8 % 8
    let pa := pt.barPa e.addr
    (pt.ready = false → exec .doorbell s = .next s) ∧
    (pt.ready = true → e.value / 2 ^ 11 % 2 ^ 21 = 0 → (s.dev.part q).state ≠ 0 → (s.dev.part q).port = k % 2 → deviceOnly s .doorbell fun v =>
      (∀ j, j < 256 → (v.part q).kicks.getLsbD j = ((s.dev.part q).kicks.getLsbD j || decide (j = e.value % 256))) ∧
      (∀ r, r < 8 → r ≠ q → v.part r = s.dev.part r) ∧ v.slots = s.dev.slots ∧ v.entries = s.dev.entries) ∧
    (pt.ready = true → (s.dev.part q).state = 0 ∨ (s.dev.part q).port ≠ k % 2 ∨ e.value / 2 ^ 11 % 2 ^ 21 ≠ 0 → deviceOnly s .doorbell fun v =>
      logged s v 0 0x0023 0 (BitVec.ofNat 64 (e.value % 2 ^ 32)) ∧ v.parts = s.dev.parts) ∧
    (e.addr < 2 ^ 36 → inDevice pa e.count = true → deviceOnly s .hostBar4Read fun v =>
      ∃ bad, (v.port k).reads = pt.reads ++ [(pa, some ((List.range e.count).map fun i => s.dev.homeByte (pa + i), bad))] ∧
        (bad = true ↔ e.ok = false ∨ s.dev.failing pa e.count ≠ [] ∨
          ∃ x ∈ s.dev.poison, x.1 = Place.phys ∧ pa < x.2.1 + x.2.2 ∧ x.2.1 < pa + e.count) ∧
        (e.ok = false → logged s v (domeOfPa pa) 0x000A 4 (BitVec.ofNat 64 pa)) ∧
        (∀ a, e.ok = true → s.dev.failing pa e.count = [a] → logged s v (domeOfPa a) 0x000A 4 (BitVec.ofNat 64 a)) ∧
        (e.ok = true → s.dev.failing pa e.count = [] → v.domes = s.dev.domes)) ∧
    (2 ^ 36 ≤ e.addr ∨ inDevice pa e.count = false → deviceOnly s .hostBar4Read fun v =>
      logged s v 0 0x0071 0 (BitVec.ofNat 64 e.addr) ∧ (v.port k).reads = pt.reads ++ [(pa, none)]) ∧
    (2 ^ 36 ≤ e.addr → deviceOnly s .hostBar4Write fun v => logged s v 0 0x0071 0 (BitVec.ofNat 64 e.addr) ∧ v.ports = s.dev.ports) ∧
    (e.addr < 2 ^ 36 → inDevice pa e.data.length = true → pa / 2 ^ 28 ∈ pt.units → (pa + e.data.length - 1) / 2 ^ 28 ∈ pt.units →
      (∀ j, j < e.data.length → s.dev.homeOf (pa + j) = (.phys, pa + j)) →
      ∃ v, exec .hostBar4Write s = .next { s with dev := v } ∧ v.mem = memWrite s.dev.mem pa e.data ∧ v.parts = s.dev.parts ∧
        (s.dev.failing pa e.data.length = [] → v.ports = s.dev.ports ∧ v.domes = s.dev.domes)) ∧
    (e.addr < 2 ^ 36 → pa / 2 ^ 28 ∉ pt.units → deviceOnly s .hostBar4Write fun v => logged s v 0 0x0071 0 (BitVec.ofNat 64 e.addr) ∧ v.ports = s.dev.ports) ∧
    (e.addr = 0x1000 → exec .hostRegisterWrite s = exec .doorbell s) ∧
    (0x2000 ≤ e.addr → e.addr + e.count ≤ 0x3000 → exec .hostRegisterWrite s = .next { s with dev := s.dev.updPort k fun p =>
      { p with req := memWrite p.req (e.addr - 0x2000) (bytesOfNat e.count e.value) } }) ∧
    (e.addr = 0x4000 → e.value % 2 = 1 →
      (pt.ready = true → pt.busy = false → exec .hostRegisterWrite s = .next { s with dev :=
        (({ s.dev with mbx := s.dev.mbx ++ [k % 2] } : Device).updPort k fun p => { p with busy := true, done := false }) }) ∧
      (pt.ready = false ∨ pt.busy = true → exec .hostRegisterWrite s = .next { s with dev := s.dev.updPort k fun p => { p with ovr := true } })) ∧
    (e.addr = 0x4000 → e.value % 2 = 0 → exec .hostRegisterWrite s = .next s) ∧
    (0x8000 ≤ e.addr → e.addr + e.count ≤ 0x8400 → exec .hostRegisterWrite s = .next { s with dev := s.dev.updPort k fun p =>
      { p with msixTable := memWrite p.msixTable (e.addr - 0x8000) (bytesOfNat e.count e.value) } }) ∧
    (0x5000 ≤ e.addr → e.addr < 0x8000 → deviceOnly s .hostRegisterWrite fun v => logged s v 0 0x0071 0 (BitVec.ofNat 64 e.addr) ∧ v.ports = s.dev.ports) ∧
    (leNat (s.dev.bar0Read k 0 4) = k % 2 + (if pt.ready then 2 else 0) + 4 * s.dev.owned k ∧
      leNat (s.dev.bar0Read k 0x4008 4) = (if pt.busy then 1 else 0) + (if pt.done then 2 else 0) + (if pt.ovr then 4 else 0) ∧
      ∀ a, (0x1000 ≤ a ∧ a < 0x1004) ∨ (0x4000 ≤ a ∧ a < 0x4004) → s.dev.bar0Byte k a = 0) ∧
    (e.addr = 0x4010 → e.count = 8 → exec .hostRegisterWrite s = .next { s with dev := s.dev.updPort k fun p =>
      { p with winbase := BitVec.ofNat 64 (e.value / 2 ^ 36 % 2 ^ 16 * 2 ^ 36) } }) ∧
    ((0x3000 ≤ e.addr ∧ e.addr < 0x4000) ∨ e.addr = 0x4008 ∨ e.addr = 0 ∨ (0x9000 ≤ e.addr ∧ e.addr < 0x9008) → exec .hostRegisterWrite s = .next s) ∧
    (∃ u, exec .portLinkLoss s = .next u ∧ (u.dev.port k).up = false ∧ (u.dev.port k).busy = false ∧
      ∀ p, p < 8 → if (s.dev.part p).state ≠ 0 ∧ (s.dev.part p).port = k % 2 then (u.dev.part p).state = 4 ∧ (u.dev.part p).fenceGrade = 2
        else (u.dev.part p).state = (s.dev.part p).state) ∧
    (deviceOnly s .verbyLinkDown fun v => logged s v 0 0x0070 2 (BitVec.ofNat 64 (k % 16)) ∧
      ∀ j, j < 16 → v.vports.getLsbD j = (s.dev.vports.getLsbD j && decide (j ≠ k % 16))) ∧
    (let g := e.ingress
     let answer (v : Device) (bs : List Byte) : Device := { v with egress := s.dev.egress ++ [Frame.reply g.src bs] }
     (g.row = none → g.put = true →
       let ps := s.dev.places g.ctx .store g.va g.data.length
       let w := s.dev.logRemote g.ctx g.va g.data.length ps.length
       ∃ st, let x := answer w [BitVec.ofNat 8 st]
         exec .fabricIngress s = .next { s with dev :=
           ((x.markPages g.ctx g.va ps.length true).writeAs .peer 4 g.ctx g.va (g.data.take ps.length)).carryLines ((x.ctxOwner g.ctx).getD 0xFF) ps g.checks } ∧
         (ps.length = g.data.length → st = 0 ∧ w = s.dev) ∧
         (∀ c, ps.length ≠ g.data.length → w.locate g.ctx (g.va + BitVec.ofNat 80 ps.length) .store = .error c → st = faultStatus c false)) ∧
     (g.row = none → g.put = false →
       let ps := s.dev.places g.ctx .load g.va g.len
       let w := (s.dev.logRemote g.ctx g.va g.len ps.length).markPages g.ctx g.va ps.length false
       let bad := ∃ q ∈ s.dev.poison, ∃ p ∈ ps, p.1 = q.1 ∧ p.2 < q.2.1 + q.2.2 ∧ q.2.1 < p.2 + 1
       let fails := ∃ c ∈ s.dev.checks, ∃ p ∈ ps, p.1 = Place.phys ∧ overlaps p.2 1 c.1 64 = true
       (ps.length = g.len → ¬ bad → ¬ fails → exec .fabricIngress s = .next { s with dev := answer w (0 :: ps.map fun p => s.dev.fabricByte p.1 p.2) }) ∧
       (ps.length = g.len → bad → exec .fabricIngress s = .next { s with dev := answer w [6] }) ∧
       (∀ c, ps.length ≠ g.len → s.dev.locate g.ctx (g.va + BitVec.ofNat 80 ps.length) .load = .error c → faultStatus c true ≠ 0 → faultStatus c true ≠ 8 →
         exec .fabricIngress s = .next { s with dev := answer w [BitVec.ofNat 8 (faultStatus c true)] }) ∧
       (ps.length = g.len → ¬ bad → fails → ∃ v, exec .fabricIngress s = .next { s with dev := v } ∧
         v.egress = s.dev.egress ++ [Frame.reply g.src (8 :: ps.map fun p => s.dev.fabricByte p.1 p.2)])) ∧
     (∀ h p, g.row = some (h, p) →
       let r := s.dev.cmbReceive g.ctx h 0 p g.data
       exec .fabricIngress s = .next { s with dev := { r.2 with egress := r.2.egress ++ [Frame.reply g.src [BitVec.ofNat 8 r.1]] } }))

/-- Takeover, recovery, scrubbing, lane repair, sensors, the Almanac and device reset act as R408, R432, R440, R444, R459
to R461, R465 say (R397, R408, R432, R437, R440, R441, R444, R445, R459, R460, R461, R465). For every state.
HEARTBEAT_EXPIRE with an active queue processor whose last heartbeat is 3 * 2^20 cycles old, a standby and no takeover
within 2^30 cycles stops it, makes the other one active at the firmware's entry with its partitions and the dome's TKCNT one more
(at most 15), and logs; with none late it changes nothing. STANDBY_RECOVERY makes the stopped one the standby, its instruction memory
loaded again.
PATROL_SCRUB does nothing on a tier whose period is 0; else it corrects one bit of a word, poisons a word of more (the word and not
its line, log 54), both logged, and counts the pass. Of an encrypted page it takes up the tag at the first line and compares it at the
last: a mismatch is logged and poisons the page, a write to the page meanwhile repeats it up to four times. Stored bytes that change
unseen leave a tag that differs (log 99). LANE_REPAIR
uses a spare, or grades the tier B. SENSOR_READ records the reading, fails a sensor outside -40 to 150 degrees
(readings in sixteenths), marks one stuck that has moved less than 0.25 degrees over an interval of 12,000,000 cycles in which the
power changed by more than a tenth (intervals that follow one another, log 77), and sets the cluster's rate from its temperature:
stopped from 115, half from 105 until below 100. That a stopped cluster runs again when it cools is the model's reading (log 77).
ALMANAC_SNAPSHOT raises the generation by 2 and rebuilds the region with its magic; the first one after a reset ends bring-up (log 31),
with both ports ready and the first queue processor of each dome started, or, where a signature failed, with neither.
DEVICE_RESET leaves the reset state but for the bytes of memory (log 30), the logs, and one more reset. -/
def Obligations.ReliabilityEventsAct : Prop :=
  ∀ (s : State), let e := s.ev
    let d := e.dome
    let late (k : Nat) : Prop := let c := s.getCore (.qp d k); c.mon.active = true ∧ c.stopped = false ∧ c.mon.qhbAt + 3 * 2 ^ 20 ≤ c.wall
    (d < 4 → late 0 → (s.dev.dome d).standby = true → (∀ t, (s.dev.dome d).takeAt = some t → 2 ^ 30 ≤ s.dev.time - t) → ∃ u, exec .heartbeatExpire s = .next u ∧
      (let o := u.getCore (.qp d 0); o.mon.active = false ∧ o.stopped = true) ∧
      (let n := u.getCore (.qp d 1); n.mon.active = true ∧ n.mon.take = true ∧ n.stopped = false ∧ n.pos = Config.firmwareEntry ∧
        n.mon.parts = (s.getCore (.qp d 0)).mon.parts) ∧ (u.dev.dome d).tkcnt.toNat = min 15 ((s.dev.dome d).tkcnt.toNat + 1) ∧
      (u.dev.dome d).hold = true ∧ (u.dev.dome d).standby = false ∧ logged s u.dev d 0x0020 0 1 ∧ u.dev.mem = s.dev.mem ∧ u.dev.slots = s.dev.slots) ∧
    (¬ late 0 → ¬ late 1 → exec .heartbeatExpire s = .next s) ∧
    (d < 4 → (s.dev.dome d).standby = true → exec .standbyRecovery s = .next s) ∧
    (d < 4 → (s.dev.dome d).standby = false → (s.getCore (.qp d 0)).mon.active = true → ∃ u, exec .standbyRecovery s = .next u ∧ u.dev.mem = s.dev.mem ∧
      (e.ok = true → (u.dev.dome d).standby = true ∧ (u.getCore (.qp d 1)).mon.failed = false ∧ (u.getCore (.qp d 1)).stopped = true ∧
        (u.getCore (.qp d 1)).imem = firmwareImage) ∧
      (e.ok = false → (u.getCore (.qp d 1)).mon.failed = true ∧ logged s u.dev d 0x0021 2 1)) ∧
    (let x := s.dev.dome d
     let page := e.addr / 65536 * 65536
     let w := e.addr / 8 * 8
     let pl : Place := if e.index = 2 ∧ e.space ≠ 5 then .dome d else .phys
     let last := pl = .phys ∧ e.addr / 64 % 1024 = 1023
     (x.scrub.toArray.getD e.index 0 = 0 → exec .patrolScrub s = .next s) ∧
     (d < 4 → x.scrub.toArray.getD e.index 0 ≠ 0 → e.bus = none → deviceOnly s .patrolScrub fun v => let y := v.dome d
       (x.tagScan = none →
         (e.value = 0 → v.poison = s.dev.poison ∧ y.log = x.log) ∧
         (e.value = 1 → e.index < 3 → logged s v d 0x0001 0 (BitVec.ofNat 64 w) ∧
           y.corrected = x.corrected.setIfInBounds e.index (x.corrected.toArray.getD e.index 0 + 1) ∧ v.poison = s.dev.poison) ∧
         (2 ≤ e.value → logged s v d 0x0008 2 (BitVec.ofNat 64 w) ∧ ∀ z, z ∈ v.poison ↔ z ∈ s.dev.poison ∨ z = (pl, w, 8))) ∧
       (pl = .phys → e.addr / 64 % 1024 = 0 → s.dev.encrypted e.ctx e.va page = true → y.tagScan = some (page, s.dev.stamp, 1)) ∧
       (∀ t k, last → e.value = 0 → e.ok = true → x.tagScan = some (page, t, k) →
         (s.dev.writtenSince page t = false → s.dev.tagDiff page ≠ 0 →
           y.tagScan = none ∧ logged s v d 0x0009 4 (BitVec.ofNat 64 page) ∧ (Place.phys, page, 65536) ∈ v.poison) ∧
         (s.dev.writtenSince page t = false → s.dev.tagDiff page = 0 → y.tagScan = none ∧ v.poison = s.dev.poison ∧ y.log = x.log) ∧
         (s.dev.writtenSince page t = true → y.tagScan = (if k < 4 then some (page, s.dev.stamp, k + 1) else none) ∧ v.poison = s.dev.poison ∧ y.log = x.log)) ∧
       (e.ok = false → v.tagDiff page ≠ 0) ∧ (e.ok = true → v.tags = s.dev.tags) ∧
       (e.count = 1 → e.index < 3 → y.passes.toArray.getD e.index 0 = x.passes.toArray.getD e.index 0 + 1) ∧
       (e.count ≠ 1 → y.passes = x.passes))) ∧
    (d < 4 → deviceOnly s .laneRepair fun v => let n := (s.dev.dome d).sparesUsed e.addr
      (n < 2 → (v.dome d).sparesUsed e.addr = n + 1 ∧ logged s v d 0x0006 0 (BitVec.ofNat 64 (e.addr + e.value * 2 ^ 32)) ∧ (v.dome d).tierGrade = (s.dev.dome d).tierGrade) ∧
      (2 ≤ n → (v.dome d).spares = (s.dev.dome d).spares ∧ (v.dome d).tierGrade = max (s.dev.dome d).tierGrade 2 ∧ logged s v d 0x0007 2 (BitVec.ofNat 64 e.addr)) ∧
      ∀ b, b ≠ e.addr → (v.dome d).sparesUsed b = (s.dev.dome d).sparesUsed b) ∧
    (∀ x : Sensor, let g := e.sensor
      (s.dev.cluster g.cluster).sensors[g.column]? = some x → g.cluster < 8 → ∃ u, exec .sensorRead s = .next u ∧
        let y := u.dev.cluster g.cluster
        let r0 := (s.dev.cluster g.cluster).rate
        (∃ z : Sensor, y.sensors[g.column]? = some z ∧ z.reading = g.reading ∧
          z.state = (if x.state ≠ 0 then x.state else if g.reading < -640 ∨ 2400 < g.reading then 1 else
            match x.span with
            | none => 0
            | some (t0, lo, hi, w0) =>
              if t0 + 12000000 ≤ s.dev.time ∧ max hi g.reading - min lo g.reading < 4 ∧ w0 < 10 * ((g.power : Int) - (w0 : Int)).natAbs then 2 else 0) ∧
          (x.span = none → z.span = some (s.dev.time, g.reading, g.reading, g.power)) ∧
          (∀ t0 lo hi w0, x.span = some (t0, lo, hi, w0) → z.span = some (if t0 + 12000000 ≤ s.dev.time then (s.dev.time, g.reading, g.reading, g.power)
            else (t0, min lo g.reading, max hi g.reading, w0)))) ∧
        (∀ j, j ≠ g.column → y.sensors[j]? = (s.dev.cluster g.cluster).sensors[j]?) ∧
        (∀ t, y.temp = some t → (1840 ≤ t → y.rate = 2) ∧ (1680 ≤ t → t < 1840 → y.rate = 1) ∧
          (y.lockHalf = false → t < 1600 → y.rate = 0) ∧ (y.lockHalf = false → 1600 ≤ t → t < 1680 → y.rate = if r0 = 0 then 0 else 1) ∧
          (y.lockHalf = true → t < 1840 → y.rate = 1)) ∧
        (y.rate = 2 → r0 ≠ 2 → ∀ p, s.dev.partOfCluster g.cluster = some p → (u.dev.part p).state = 4)) ∧
    (let good := s.dev.ready = false ∧ s.dev.bootFailed = false ∧ e.ok = true
     let built (v : Device) : Prop := v.almGen = s.dev.almGen + 2 ∧ memRun v.almanac 0 4 = [0x46, 0x4B, 0x41, 0x4C] ∧
       leNat (memRun v.almanac 8 8) = v.almGen % 2 ^ 64 ∧ v.parts = s.dev.parts ∧ v.domes = s.dev.domes
     (¬ good → deviceOnly s .almanacSnapshot fun v => built v ∧ v.ports = s.dev.ports ∧ v.ready = s.dev.ready ∧
       v.bootFailed = (s.dev.bootFailed || !s.dev.ready)) ∧
     (good → ∃ u, exec .almanacSnapshot s = .next u ∧ u.dev.mem = s.dev.mem ∧ built u.dev ∧ u.dev.ready = true ∧ (∀ k, (u.dev.port k).ready = true) ∧
       ∀ k, k < 4 → (u.getCore (.qp k 0)).stopped = false)) ∧
    (∃ u, exec .deviceReset s = .next u ∧ u.core = State.reset.core ∧ u.parked = State.reset.parked ∧ u.focus = State.reset.focus ∧ u.dev.mem = s.dev.mem ∧
      u.dev.resets = s.dev.resets + 1 ∧ u.dev.slots = [] ∧ u.dev.entries = [] ∧ u.dev.contexts = [] ∧ (∀ p, (u.dev.part p).state = 0) ∧ (∀ k, (u.dev.port k).ready = false) ∧
      ∀ k, k < 4 → (u.dev.dome k).log = (s.dev.dome k).log ∧ (u.dev.dome k).logSeq = (s.dev.dome k).logSeq ∧ (u.dev.dome k).spad = [])

/-- MIGRATE_PAGE moves a page and its leaf, defers or drops what may not move; DWIN binds and revokes windows with an
outcome code (R423, R424, R426, R427, R428, R429, R312). For every state.
MIGRATE_PAGE of a base page of tier class 2 that is not locked, pinned or bound, asked for or not, with a fitting free
address of the other tier, waits while an access that used the page's old entry is in flight; then the page's 64 KiB are copied there
and the leaf's low quadword has the new page number and
its other bits; without a leaf, a requested page is dropped and logged; a page whose leaf has changed at its coherence point is logged
and stays, and either way the page's cached translations are dropped; a pinned or bound page joins the deferral list. DWIN_BIND of a bound window gives outcome 1, of an
invalid descriptor 2, and of one that cannot be read 2 too (the model's reading, log 52); of a valid one 0, and the window's place in the dome scratchpad holds the
pages' bytes. DWIN_REVOKE of an unbound window gives 1; of a bound one 0, its bytes return to the recorded pages and the binding ends. Both
wait while an access to the range is in flight. The format of the log payload is the model's (log 11). -/
def Obligations.MigrationAndWindowsAct : Prop :=
  ∀ (s : State),
    let e := s.ev
    let va : Addr := BitVec.ofNat 80 (e.va.toNat / 65536 * 65536)
    let asked := ∃ x ∈ (s.dev.dome (s.dev.ctxDome e.ctx)).migq, x.1 = e.ctx ∧ x.2.1.toNat / 65536 = va.toNat / 65536
    let gone (v : Device) : Prop := ∀ x ∈ (v.dome (s.dev.ctxDome e.ctx)).migq, ¬ (x.1 = e.ctx ∧ x.2.1.toNat / 65536 = va.toNat / 65536)
    (∀ at_ w, s.dev.leafEntry e.ctx va = some at_ → s.dev.walk e.ctx va = .ok (5, w) → pteTier w = 2 → pteMH w ≠ 3 → pteCG w = false →
      (s.dev.pinned e.ctx va w = false → s.dev.images = [] → e.addr % 65536 = 0 → tierOf (ptePA w) ≤ 1 →
        tierOf e.addr = 1 - tierOf (ptePA w) → (∃ lo hi, physRange e.addr = some (lo, hi) ∧ e.addr + 65536 ≤ hi) →
        let flying := ∃ c ∈ s.allCores, c.inFlight (ptePA w) 65536 = true
        (flying → exec .migratePage s = .next s) ∧
        (¬ flying → e.ok = true → s.dev.pointRead64 at_ = w % 2 ^ 64 → ∃ u, exec .migratePage s = .next u ∧ gone u.dev ∧ u.dev.slots.map TaskSlot.info = s.dev.slots.map TaskSlot.info ∧
          u.core.s = s.core.s ∧ noneCached u (fun c => c.ctx = e.ctx ∧ ptePA c.low = ptePA w) ∧
          u.dev.mem = memWrite (memCopy s.dev.mem e.addr s.dev.mem (ptePA w) 65536) at_ (bytesOfNat 8 (w % 2 ^ 28 + e.addr / 65536 * 2 ^ 28))) ∧
        (¬ flying → e.ok = false ∨ s.dev.pointRead64 at_ ≠ w % 2 ^ 64 → ∃ u, exec .migratePage s = .next u ∧ gone u.dev ∧ logged s u.dev (s.dev.ctxDome e.ctx) 0x0032 0 (BitVec.ofNat 64 (va.toNat % 2 ^ 64)) ∧
          noneCached u (fun c => c.ctx = e.ctx ∧ ptePA c.low = ptePA w) ∧ u.dev.mem = s.dev.mem)) ∧
      (s.dev.windowOf e.ctx va ≠ none → s.dev.pinned e.ctx va w = true) ∧
      (s.dev.pinned e.ctx va w = true → s.dev.ctxDome e.ctx < 4 →
        deviceOnly s .migratePage fun v => gone v ∧ (v.dome (s.dev.ctxDome e.ctx)).defer.getLast? = some (e.ctx, va))) ∧
    (s.dev.leafEntry e.ctx va = none → ∃ x : Device, x.mem = s.dev.mem ∧
      exec .migratePage s = .next { s with dev := x.logWalk (s.dev.ctxDome e.ctx) 2 0 ((s.dev.ctxOwner e.ctx).getD 0xFF) e.ctx va } ∧
      (asked → gone x ∧ logged s x (s.dev.ctxDome e.ctx) 0x0031 0 (BitVec.ofNat 64 (va.toNat % 2 ^ 64))) ∧ (¬ asked → x = s.dev)) ∧
    (let d := s.focus.dome
     let win := e.win
     let outcome (u : State) (n : Nat) : Prop := u.core.mon.dwStat.toNat = n ∧ u.core.mon.dwWin = win
     let desc := s.readG .load s.core.mon.dwdesc.toNat 32
     ((∃ w ∈ (s.dev.dome d).windows, w.win = win) → ∃ u, exec .dwinBind s = .next u ∧ outcome u 1 ∧ u.dev = s.dev) ∧
     ((∀ w ∈ (s.dev.dome d).windows, w.win ≠ win) →
       (s.core.mon.dwdesc.toNat % 32 ≠ 0 ∨ (∃ x, desc = .error x) → ∃ u, exec .dwinBind s = .next u ∧ outcome u 2 ∧ u.dev = s.dev) ∧
       (∀ bs, s.core.mon.dwdesc.toNat % 32 = 0 → desc = .ok bs →
         (s.dev.windowOfDesc s.partition d win.toNat bs = none → ∃ u, exec .dwinBind s = .next u ∧ outcome u 2 ∧ u.dev = (s.windowWalks d bs).dev) ∧
         (∀ w, s.dev.windowOfDesc s.partition d win.toNat bs = some w →
           ((∃ pa ∈ w.pas, s.frameBusy pa = true) → exec .dwinBind s = .next s) ∧
           ((∀ pa ∈ w.pas, s.frameBusy pa = false) → memWf s.dev.mem = true →
             ∃ u, exec .dwinBind s = .next u ∧ outcome u 0 ∧ (u.dev.dome d).windows = (s.dev.dome d).windows ++ [w] ∧ u.core.s = s.core.s ∧
               (∀ j pa, w.pas[j]? = some pa → ∀ i, i < 65536 → memGet u.dev.mem (windowPa d (w.off + 65536 * j) + i) = memGet s.dev.mem (pa + i)) ∧
               ∀ x, x < windowPa d w.off ∨ windowPa d (w.off + 65536 * w.pages) ≤ x → memGet u.dev.mem x = memGet s.dev.mem x))) ∧
       (∃ u, exec .dwinRevoke s = .next u ∧ outcome u 1 ∧ u.dev = s.dev)) ∧
     (∀ w, (s.dev.dome d).windows.find? (fun w => w.win.toNat == win.toNat) = some w →
       ((∃ f ∈ w.frames d, s.frameBusy f.2 = true) → exec .dwinRevoke s = .next s) ∧
       ((∀ f ∈ w.frames d, s.frameBusy f.2 = false) → ∃ u, exec .dwinRevoke s = .next u ∧ outcome u 0 ∧
         (∀ y ∈ (u.dev.dome d).windows, y.win ≠ win) ∧ u.dev.slots.map TaskSlot.info = s.dev.slots.map TaskSlot.info ∧ u.core.s = s.core.s ∧
         u.dev.mem = (w.frames d).foldl (fun m f => cellsOut (memCopy m f.1 m f.2 65536) f.2 65536) s.dev.mem)))

/-- Stores in flight land, walks fill the caches, forwarding entries expire, and fixed-latency results are written when
due (R120, R124, R414, R420, R40, R153, R155, R173, R152, R146). For every state: K_STORE_LAND with a store in flight
performs the oldest one and takes it off the list, and with none changes nothing; TRANSLATION_WALK of an address that
has a leaf fills the caches of the unit for it and, walked from the root, sets its accessed bit, and of another address changes no register and no memory;
FORWARD_EXPIRE removes the forwarding entry that the event names once its 65,536 cycles have passed. The events stand for the moments that the manual leaves to the device (log 6).
For every core with one result in flight: while it is not due FIXED_RESULT_WRITEBACK changes nothing; when it is due
its value stands in the scalar, address or vector register (in the lanes of its mask), its flags are added to STICKY,
none is in flight, and the device, the other registers, the predicate stack and the position are unchanged. An all-
zero bundle that opens no segment and waits for no hold lasts 1 + st cycles, pops its entries, counts in RDVSEQ, and
changes no register. n cycles of schedule time move tau on by n and leave in flight only results due later. -/
def Obligations.MemoryAndWritebackEventsAct : Prop :=
  (∀ (s : State),
    (s.core.landing = [] → exec .kStoreLand s = .next s) ∧
    (∀ l rest, s.core.landing = l :: rest →
      exec .kStoreLand s = .next (({ s with core := { s.core with landing := rest } } : State).performAll l.pieces)) ∧
    (let x := s.ev.walk
     (∀ leaf, s.dev.walk x.ctx x.va = .ok leaf → exec .translationWalk s = .next (s.fill x.ctx x.va .any) ∧
       (∃ c ∈ (s.fill x.ctx x.va .any).core.tlb, c.hits x.ctx x.va = true) ∧ (s.fill x.ctx x.va .any).core.s = s.core.s ∧
       (∀ at_, s.nodes = [] → memWf s.dev.mem = true → s.dev.leafEntry x.ctx x.va = some at_ →
         (memRead64 (s.fill x.ctx x.va .any).dev.mem at_).testBit 11 = true)) ∧
     (∀ lvl w, s.dev.walk x.ctx x.va = .error (lvl, w) → ∃ u, exec .translationWalk s = .next u ∧ u.core = s.core ∧ u.dev.mem = s.dev.mem ∧
       (pteV w = false → u = s))) ∧
    (∀ f, s.dev.forwards[s.ev.index]? = some f →
      (f.till ≤ s.dev.time → exec .forwardExpire s = .next { s with dev := { s.dev with forwards := s.dev.forwards.eraseIdx s.ev.index } }) ∧
      (s.dev.time < f.till → exec .forwardExpire s = .next s))) ∧
  (∀ (s : State),
    (∀ r : Result, s.core.results = [r] → s.ev.ok = true →
      (s.core.tau < r.due → exec .fixedResultWriteback s = .next s) ∧
      (r.due ≤ s.core.tau → ∃ u, exec .fixedResultWriteback s = .next u ∧ u.core.results = [] ∧ u.core.sticky = s.core.sticky ||| r.flags ∧ u.dev = s.dev ∧
        u.core.pstack = s.core.pstack ∧ u.core.pos = s.core.pos ∧ u.core.tau = s.core.tau ∧ u.core.mat = s.core.mat ∧
        (∀ d v t, r.w = .s d v t → (d ≠ 0 → u.core.sreg d = v) ∧ (∀ q, q ≠ d → u.core.sreg q = s.core.sreg q) ∧ u.core.sreg 0 = 0 ∧ u.core.a = s.core.a ∧ u.core.v = s.core.v) ∧
        (∀ d v t, r.w = .a d v t → u.core.areg d = v ∧ (∀ q, q ≠ d → u.core.areg q = s.core.areg q) ∧ u.core.s = s.core.s ∧ u.core.v = s.core.v) ∧
        (∀ d m v, r.w = .v d m v → (∀ l (h : l < 1024), (u.core.vphys d)[l] = if m.getLsbD l = true then v[l] else (s.core.vphys d)[l]) ∧
          (∀ q, q ≠ d → u.core.vphys q = s.core.vphys q) ∧ u.core.s = s.core.s ∧ u.core.a = s.core.a))) ∧
    (∀ h : Header, h.seg = false → (h.rdv = true → s.rendezvous = false) → h.pop.toNat ≤ s.core.pstack.length → s.core.seg = none → s.core.replay = none →
        s.core.results = [] → s.core.mat.beats = [] → s.core.mat.drains = [] →
      ∃ u, exec (.allZeroBundle h) s = .next u ∧ u.core.tau = s.core.tau + 1 + h.st.toNat ∧ u.core.pos = s.core.seqPos ∧
        u.core.pstack = s.core.pstack.drop h.pop.toNat ∧ u.core.rdvseq = (if h.rdv = true then s.core.rdvseq + 1 else s.core.rdvseq) ∧ u.core.s = s.core.s ∧
        u.core.a = s.core.a ∧ u.core.v = s.core.v ∧ u.core.sticky = s.core.sticky ∧ u.core.mon = s.core.mon ∧ u.dev = { s.dev with time := max s.dev.time u.core.wall } ∧ u.parked = s.parked) ∧
    (∀ n, (s.core.ticks n).tau = s.core.tau + n ∧ (0 < n → ∀ r ∈ (s.core.ticks n).results, r ∈ s.core.results ∧ s.core.tau + n < r.due)))

/-- A step is what is due on the agenda, else the bundle at the position: its decoded operation acts on the state prepared
for it, then the bundle finishes (R16, R18, R140, R143, R146, R147, R152, R214, R366, R367). For every state. With an
event on the agenda, a step is exec of that event; with a unit, the focus moves to it. With an empty agenda and a unit
that can issue, when the bundle fetched at the position has a legal header and one nonzero slot word, which decodes to
i in this mode, and nothing precedes it (no waiting pre-emption, CFSIG, BOUND, breakpoint, structural or scoreboard wait, hold, segment or
token), the step executes i on the state that the fetch leaves in the translation caches, with the bundle's fields set (Core.prepare of
R189, R201, R208): if i takes
effect, the bundle's end follows (predicate pops, signature, tau, position; Core.finishBundle; the device clock keeps
up); if it traps, the step is that trap; an operation that acts once its bundle has issued (EXIT, WFE, TRAP, TRET,
MRET and the like) acts after the end. A store keeps the bound registers and result queues of the issue, what takes an epoch the CLIPMASK words, and an X slot
operation the drains in flight. A bundle whose slots are all zero is the all-zero bundle's meaning. After every step a fence that is due
takes place and the waits of Meridian work are noted (State.tidy), which does nothing where neither is there. -/
def Obligations.StepRunsTheDecodedBundle : Prop :=
  ∀ (s : State),
    (∀ i d rest, s.agenda = .event i d :: rest → isEvent i = true → step s = tidied (exec i { s with agenda := rest, ev := d, last := .issued })) ∧
    (∀ u rest, s.agenda = .focus u :: rest → step s = .next (({ s with agenda := rest } : State).refocus u).tidy) ∧
    ((∀ d, d < 4 → (s.dev.dome d).fenceDue = false) → s.merNow = [] → s.dev.merWaits = [] → s.tidy = s) ∧
    (∀ (f : Fetch),
      let h := Header.ofNat f.bits
      let r : Ready := { bits := f.bits, feed := f.feed, next := f.next }
      let q := ({ s with last := .issued } : State).fetchTouch
      let begun (pushes : Nat) : State := q.rdvDone.upd fun c => c.prepare h f.next pushes
      s.agenda = [] → s.held = false → s.core.preempt = none → s.owedNow = none → s.core.badDue = none → s.core.reraise = false → s.core.replay = none →
      s.fetch = .ok f → q.sigTrap r = none → s.core.boundDue = [] → q.breakHit (some r) = none → f.bits / 2 ^ 10 % 2 ^ 6 = 0 →
      (h.rdv = true → q.rendezvous = false) → h.seg = false → s.core.seg = none → s.core.tokens = [] →
        ((∀ y ∈ slotOrder, slotWord f.bits y = 0) → (begun 0).bundleTrap (begun 0) [] = none →
          step s = tidied (exec (.allZeroBundle h) ((begun 0).upd fun c => { c with sig := c.sig.feed h f.feed }))) ∧
        (∀ (sl : Slot) (i : Instr), sl ∈ slotOrder → (∀ y ∈ slotOrder, y ≠ sl → slotWord f.bits y = 0) → decodeSlot sl (slotWord f.bits sl) = .ok (some i) →
          q.refuses i = none → q.sprRefuses i = none → (mhndStops i = true → q.core.hnd = true → q.core.msaved = true) →
          q.core.structural h [i] ≤ q.core.tau → q.core.scoreboard [i] = false → q.atomicAhead [i] = false →
          let p := begun (q.core.uses i).pushes
          let used := (p.core.uses i).reads ++ (p.core.uses i).writes.map Prod.fst
          let finish (t : State) : State :=
            { (t.upd fun c => c.finishBundle r h used (isTransfer i) (endsBlock i || p.suspends i)).clock with last := .issued }
          let settled (t : State) : State := t.upd fun c =>
            (match i with
             | .vstQueue _ => { c with bounds := p.core.bounds }
             | i => if isStore i = true then { c.queuesOf p.core with bounds := p.core.bounds }
               else if takesEpoch i = true then c.clipsOf p.core else if slotOfOp i = .x then c.drainsOf p.core else c);
            (∀ t, exec i { p with last := .issued } = .next t → t.last = .issued → p.actsLate i = false → p.bundleTrap (settled t) [i] = none →
              (isTransfer i = true → (t.core.sig.feed h f.feed).bad = false) → step s = .next (finish (settled t)).tidy) ∧
            (∀ t y, exec i { p with last := .issued } = .next t → t.last = .trapped y → p.actsLate i = false ∨ y.after = false → p.bundleTrap p [i] = none →
              step s = .next t.tidy) ∧
            (∀ t w, p.actsLate i = true → p.core.takes i = true → exec i { p with last := .issued } = .next t → (∀ y, t.last = .trapped y → y.after = true) →
              p.bundleTrap p [i] = none →
              (let x := finish p
               exec (p.resolve i) { x with core := { x.core with late := true, owed := none }, last := .issued } = .next w) →
              w.last ≠ .waits → (∀ n, w.last ≠ .waitTau n) → step s = .next ({ w with core := { w.core with late := false } } : State).tidy)))

/-- Slot words written out from the encoding tables decode to the operations that the manual names for them (R140, R142,
R143, R160, R161, R163, R164, R165, R171). The slot words of the manual's own examples and tables for ADD s3,s1,s2;
CMPI.ne s3,0; DBNZ s1,-3; PRDSR s5,MCAUSE; MRET.requeue; VLD.row v16,P:[a1]; VFMA.f32 v4,v1,v2,v3; VCVT with
stochastic rounding in V1; VSPOP of two registers; MBEAT with end checks; a checked MDRAIN with a bound; LNEST; ENQ;
DISP; CMBPUT decode to exactly those operations; a zero word to no operation; a word with opcode 0 and another bit set
is reserved; an opcode that no table assigns is unassigned. -/
def Obligations.WrittenWordsDecode : Prop :=
  (decodeSlot .s 0x0000000000082301 = .ok (some (.add { g := false, fn := 0, b := 2, a := 1, d := 3 }))) ∧
  (decodeSlot .s 0x0004000000006031 = .ok (some (.cmpi { g := false, fn := 1, imm := 0, a := 3, d := 0 }))) ∧
  (decodeSlot .s 0x003FFFFFFF401047 = .ok (some (.dbnz { g := false, imm8 := 0, off := 0xFFFFFFFD, b := 0, a := 1, cc := 0 }))) ∧
  (decodeSlot .s 0x0000000002004571 = .ok (some (.prdsr { g := false, sel := 0, spr := 0x801, isA := false, d := 5 }))) ∧
  (decodeSlot .s 0x800070 = .ok (some (.mretRequeue { g := false, fn := 1, b := 0, a := 0, d := 0 }))) ∧
  (decodeSlot .a 0x0000000008403013 = .ok (some (.vld { g := false, mod := 0, off := 0, tid := 0, scope := 0, size := 4, as := 1, idx := 0, base := 1, t := 16 }))) ∧
  (decodeSlot .v0 0x00000001882404 = .ok (some (.vfma { v1 := false, imm8 := 0, tid := 0, p := false, sat := false, rm := 0, fn := 0, ty := 0, c := 3, b := 2, a := 1, d := 4 }))) ∧
  (decodeSlot .v1 0x00068010010750 = .ok (some (.vcvt { v1 := true, imm8 := 0, tid := 0, p := false, sat := true, rm := 5, fn := 0, ty := 1, c := 0, b := 0, a := 8, d := 7 }))) ∧
  (decodeSlot .v0 0x00000202800461 = .ok (some (.vspop { v1 := false, imm8 := 0, tid := 0, p := false, sat := false, rm := 0, fn := 1, ty := 0, c := 5, b := 0, a := 0, d := 4 }))) ∧
  (decodeSlot .m 0x000002480002 = .ok (some (.mbeat { imm := 0, row := 0, flags := 9, q := 0, split := 8, plane := 0, mac := 0, bnk := false, acc := 0 }))) ∧
  (decodeSlot .m 0x000C01200044 = .ok (some (.mdrain { imm := 3, row := 0, flags := 4, q := 2, split := 0, plane := 0, mac := 0, bnk := false, acc := 1 }))) ∧
  (decodeSlot .x 0x10 = .ok (some (.lnest { g := false, imm := 0, fn := 0, scope := 0, base := 0, b := 0, a := 0, d := 0 }))) ∧
  (decodeSlot .x 0x000000C00000C030 = .ok (some (.enq { g := false, imm := 3, fn := 0, scope := 0, base := 0, b := 0, a := 6, d := 0 }))) ∧
  (decodeSlot .x 0xA82 = .ok (some (.disp { g := false, imm := 0, fn := 0, scope := 0, base := 0, b := 0, a := 0, d := 10 }))) ∧
  (decodeSlot .x 0x000000000120EC61 = .ok (some (.cmbput { g := false, imm := 0, fn := 0, scope := 0, base := 2, b := 8, a := 7, d := 12 }))) ∧
  decodeSlot .s 0 = .ok none ∧ decodeSlot .s 0x100 = .error .reserved ∧ decodeSlot .m 0x3F = .error .unassigned

/-- Right after reset FMT, bounds, shapes, tolerances, watchpoints, partitions, scrub periods and the power limit hold the
values of their Reset columns (R83, R216, R301, R302, R384, R406, R440, R462, R465). At State.reset: FMT is 0x0B0B
with no write pending; every bound register has LO 0xFF800000, HI 0x7F800000 and action FLAG; every shape entry has no
dimension and sizes 1; every tolerance entry is 0x3480000000000000; WPCn has SZ 6; every partition is ABSENT with the
dispatch parameters of R406; neither port is ready (R449), and none has a request; in each dome queue processor 0 is active and 1 is
not; the scrub periods are 4,096, the power limit 1,900 W with f 16; no core has a task, and memory is in its
canonical form. Registers for which the manual gives no reset value are zero by the model's choice (log 1), and are
not stated here; which step of bring-up has been reached is the model's (log 31). -/
def Obligations.ResetState : Prop :=
  let s := State.reset
  s.core.fmt.cur = 0x0B0B ∧ s.core.fmt.pend = [] ∧ s.core.task = none ∧ s.core.mon.mode = false ∧
  (∀ k (h : k < 16), s.core.bounds[k].lo = 0xFF800000 ∧ s.core.bounds[k].hi = 0x7F800000 ∧ s.core.bounds[k].act = 0) ∧
  (∀ k (h : k < 16), s.core.shapes[k].dims = 0 ∧ ∀ j (h : j < 5), s.core.shapes[k].sizes[j] = 1) ∧
  (∀ k (h : k < 56), s.core.tol[k] = 0x3480000000000000) ∧ (∀ k (h : k < 4), s.core.mon.wpc[k] = 0x18) ∧ s.core.pstack = [] ∧ s.core.results = [] ∧
  (∀ p, (s.dev.part p).state = 0 ∧ (s.dev.part p).drainWindow = 4194304 ∧ (s.dev.part p).killAt = 1024 ∧ (s.dev.part p).aging = 16777216 ∧ (s.dev.part p).waitMax = 65536) ∧
  (∀ k, (s.dev.port k).ready = false ∧ (s.dev.port k).busy = false ∧ (s.dev.port k).done = false) ∧
  (∀ d, d < 4 → (s.getCore (.qp d 0)).mon.active = true ∧ (s.getCore (.qp d 1)).mon.active = false ∧ (s.dev.dome d).log = [] ∧ (s.dev.dome d).windows = [] ∧
    ∀ k (h : k < 3), (s.dev.dome d).scrub[k] = 4096) ∧
  s.dev.powerLimit = 1900 ∧ s.dev.powerF = 16 ∧ s.dev.slots = [] ∧ s.memOk = true

/-- Decoding the encoded bundle of any well-formed operation gives back its header and the operation with every operand;
likewise the all-zero bundle (R140, R141, R142, R143, R160, R161, R162, R163, R164, R165). For every header and every
well-formed operation of the six slots, with every operand at every value that the encoding admits, the encoder gives
a word below 2^384 whose 48 bytes decode to a bundle with that header and that one operation, and the table's decoder
reads the operation; an all-zero bundle's word decodes to its header and no operation. No bit of an encoding is
dropped and no two operations share a word. -/
def Obligations.DecodeReadsBackWhatIsEncoded : Prop :=
  ∀ (h : Header),
    (∀ (i : Instr), i.wellFormed = true → isEvent i = false → (∀ h', i ≠ .allZeroBundle h') →
      ∃ w, encode h i = some w ∧ w < 2 ^ 384 ∧ decodeBytes (bytesOfNat 48 w) = some ⟨h, [i]⟩ ∧ decodeTableWord 384 w = some i) ∧
    (∃ w, encode h (.allZeroBundle h) = some w ∧ w < 2 ^ 32 ∧ decodeBytes (bytesOfNat 48 w) = some ⟨h, []⟩ ∧ decodeTableWord 384 w = some (.allZeroBundle h))

/-- From every state whose memory is in canonical form, a step answers a next state whose memory is in canonical form
(R41, R122, R413). For every state, reachable or not, whose device memory lists rising addresses and no zero byte, one
step of the device answers a next state (never a fault or a refusal), and the memory of that state has the same form,
whatever bundle is issued or event happens: a store, a copy, a combine, a completion record, a journal, a page
migration, a host's write. Equal memories are therefore equal data. The form is the model's own (log 4). -/
def Obligations.EveryStepKeepsTheMemoryForm : Prop :=
  ∀ (s : State), s.memOk = true → ∃ t, step s = .next t ∧ t.memOk = true
end

