-- ==== Sys2Proof/Laws/Memory.lean ====
section
/-! SUPPORT. Sparse memories: reading what was written, and the canonical form that every memory operation keeps (log 4). -/

namespace Sys2Proof.Machine

theorem risingFrom_mono {m : List Host.Cell} {lo lo' : Nat} (h : risingFrom m lo = true) (hl : lo' ≤ lo) : risingFrom m lo' = true := by
  cases m with
  | nil => rfl
  | cons c m => simp only [risingFrom, Bool.and_eq_true, decide_eq_true_eq] at h ⊢; exact ⟨by omega, h.2⟩

/-- Below the first listed address a memory reads as 0. -/
theorem memGet_below {m : Mem} {lo x : Nat} (h : risingFrom m lo = true) (hx : x < lo) : memGet m x = 0 := by
  cases m with
  | nil => rfl
  | cons c m =>
    simp only [risingFrom, Bool.and_eq_true, decide_eq_true_eq] at h
    have h1 : ¬ x = c.1 := by omega
    have h2 : x < c.1 := by omega
    simp [memGet, h1, h2]

theorem memGet_memSet_same_from {m : Mem} {lo : Nat} (h : risingFrom m lo = true) (x : Nat) (b : Byte) :
    memGet (memSet m x b) x = b := by
  induction m generalizing lo with
  | nil => by_cases hb : b = 0#8 <;> simp [memSet, memGet, hb]
  | cons c m ih =>
    simp only [risingFrom, Bool.and_eq_true, decide_eq_true_eq] at h
    by_cases h1 : x < c.1
    · have : ¬ x = c.1 := by omega
      by_cases hb : b = 0#8 <;> simp [memSet, memGet, h1, hb, this]
    · by_cases h2 : x = c.1
      · by_cases hb : b = 0#8
        · subst h2; simp [memSet, hb, memGet_below h.2 (Nat.lt_succ_self _)]
        · simp [memSet, memGet, h2, hb]
      · simp [memSet, memGet, h1, h2, ih h.2]

theorem memGet_memSet_other_from {m : Mem} {lo : Nat} (h : risingFrom m lo = true) {x y : Nat} (b : Byte) (hy : y ≠ x) :
    memGet (memSet m x b) y = memGet m y := by
  induction m generalizing lo with
  | nil => by_cases hb : b = 0#8 <;> simp [memSet, memGet, hb, hy]
  | cons c m ih =>
    simp only [risingFrom, Bool.and_eq_true, decide_eq_true_eq] at h
    by_cases h1 : x < c.1
    · by_cases hb : b = 0#8
      · simp [memSet, h1, hb]
      · by_cases h3 : y < x
        · have : ¬ y = c.1 := by omega
          have : y < c.1 := by omega
          simp [memSet, memGet, *]
        · simp [memSet, memGet, h1, hb, hy, h3]
    · by_cases h2 : x = c.1
      · by_cases hb : b = 0#8
        · have hc : ¬ y = c.1 := by omega
          by_cases h3 : y < c.1
          · simp [memSet, memGet, h2, hb, hc, h3, memGet_below h.2 (by omega : y < c.1 + 1)]
          · simp [memSet, memGet, h2, hb, hc, h3]
        · have hc : ¬ y = c.1 := by omega
          simp [memSet, memGet, h2, hb, hc]
      · simp [memSet, memGet, h1, h2, ih h.2]

theorem memSet_rising {m : Mem} {lo : Nat} (h : risingFrom m lo = true) {x : Nat} (b : Byte) (hx : lo ≤ x) :
    risingFrom (memSet m x b) lo = true := by
  induction m generalizing lo with
  | nil => by_cases hb : b = 0#8 <;> simp [memSet, risingFrom, hb, hx]
  | cons c m ih =>
    simp only [risingFrom, Bool.and_eq_true, decide_eq_true_eq] at h
    by_cases h1 : x < c.1
    · by_cases hb : b = 0#8 <;> simp [memSet, risingFrom, h1, hb, hx, h.1, h.2]
    · by_cases h2 : x = c.1
      · by_cases hb : b = 0#8
        · simp [memSet, h2, hb]; exact risingFrom_mono h.2 (by omega)
        · simp [memSet, risingFrom, h2, hb, h.1, h.2]
      · simp [memSet, risingFrom, h1, h2, h.1, ih h.2 (by omega)]

theorem memSet_nonzero {m : Mem} (h : (m.all fun c => c.2 != 0) = true) (x : Nat) (b : Byte) :
    ((memSet m x b).all fun c => c.2 != 0) = true := by
  induction m with
  | nil => by_cases hb : b = 0#8 <;> simp [memSet, hb]
  | cons c m ih =>
    simp only [List.all_cons, Bool.and_eq_true] at h
    simp only [memSet]
    split
    · split
      · simp only [List.all_cons, Bool.and_eq_true]; exact h
      · rename_i hb; simp only [List.all_cons, Bool.and_eq_true]; exact ⟨by simpa using hb, h⟩
    · split
      · split
        · exact h.2
        · rename_i hb; simp only [List.all_cons, Bool.and_eq_true]; exact ⟨by simpa using hb, h.2⟩
      · simp only [List.all_cons, Bool.and_eq_true]; exact ⟨h.1, ih h.2⟩

/-- A one-byte write keeps the canonical form. -/
theorem memWf_memSet {m : Mem} (h : memWf m = true) (x : Nat) (b : Byte) : memWf (memSet m x b) = true := by
  simp only [memWf, Bool.and_eq_true] at h ⊢
  exact ⟨memSet_rising h.1 b (Nat.zero_le _), memSet_nonzero h.2 x b⟩

/-- A write of bytes keeps the canonical form. -/
theorem memWf_memWrite {m : Mem} (h : memWf m = true) (x : Nat) (bs : List Byte) : memWf (memWrite m x bs) = true := by
  induction bs generalizing m x with
  | nil => exact h
  | cons b bs ih => exact ih (memWf_memSet h x b) (x + 1)

/-- Reading the byte just written. -/
theorem memGet_memSet_same {m : Mem} (h : memWf m = true) (x : Nat) (b : Byte) : memGet (memSet m x b) x = b := by
  simp only [memWf, Bool.and_eq_true] at h
  exact memGet_memSet_same_from h.1 x b

/-- A write leaves every other byte alone. -/
theorem memGet_memSet_other {m : Mem} (h : memWf m = true) {x y : Nat} (b : Byte) (hy : y ≠ x) :
    memGet (memSet m x b) y = memGet m y := by
  simp only [memWf, Bool.and_eq_true] at h
  exact memGet_memSet_other_from h.1 b hy

theorem rising_filter_ge (m : List Host.Cell) {lo k : Nat} (h : risingFrom m lo = true) :
    risingFrom (m.filter fun c => k ≤ c.1) k = true := by
  induction m generalizing lo with
  | nil => rfl
  | cons c m ih =>
    simp only [risingFrom, Bool.and_eq_true, decide_eq_true_eq] at h
    by_cases hc : k ≤ c.1
    · simp only [hc, List.filter_cons, decide_true, if_true, risingFrom, Bool.and_eq_true, true_and]
      have := ih h.2
      -- every kept address is above c.1 as well
      clear ih
      have key : ∀ (l : List Host.Cell) (a : Nat), risingFrom l a = true → risingFrom (l.filter fun x => k ≤ x.1) a = true := by
        intro l
        induction l with
        | nil => intro a _; rfl
        | cons d l ihl =>
          intro a hl
          simp only [risingFrom, Bool.and_eq_true, decide_eq_true_eq] at hl
          by_cases hd : k ≤ d.1
          · simp only [hd, List.filter_cons, decide_true, if_true, risingFrom, Bool.and_eq_true, decide_eq_true_eq]
            exact ⟨hl.1, ihl _ hl.2⟩
          · simp only [hd, List.filter_cons, decide_false]
            exact risingFrom_mono (ihl _ hl.2) (by omega)
      exact key _ _ h.2
    · simp only [hc, List.filter_cons, decide_false]
      exact ih h.2

/-- Addresses of a list joined from parts that follow one another rise. -/
theorem rising_append {m n : List Host.Cell} {lo mid : Nat} (hm : risingFrom m lo = true) (hb : ∀ c ∈ m, c.1 < mid)
    (hn : risingFrom n mid = true) (hl : lo ≤ mid) : risingFrom (m ++ n) lo = true := by
  induction m generalizing lo with
  | nil => exact risingFrom_mono hn hl
  | cons c m ih =>
    simp only [risingFrom, Bool.and_eq_true, decide_eq_true_eq] at hm
    simp only [List.cons_append, risingFrom, Bool.and_eq_true, decide_eq_true_eq]
    exact ⟨hm.1, ih hm.2 (fun d hd => hb d (List.mem_cons_of_mem _ hd)) (hb c List.mem_cons_self)⟩

theorem rising_filter (m : List Host.Cell) (p : Host.Cell → Bool) {lo : Nat} (h : risingFrom m lo = true) :
    risingFrom (m.filter p) lo = true := by
  induction m generalizing lo with
  | nil => rfl
  | cons c m ih =>
    simp only [risingFrom, Bool.and_eq_true, decide_eq_true_eq] at h
    by_cases hc : p c = true
    · simp only [List.filter_cons, hc, if_true, risingFrom, Bool.and_eq_true, decide_eq_true_eq]; exact ⟨h.1, ih h.2⟩
    · simp only [List.filter_cons, hc]; exact risingFrom_mono (ih h.2) (by omega)

theorem cellsOf_rising (x : Nat) (bs : List Byte) : risingFrom (cellsOf x bs) x = true := by
  induction bs generalizing x with
  | nil => rfl
  | cons b bs ih =>
    simp only [cellsOf]
    split
    · exact risingFrom_mono (ih _) (by omega)
    · simp only [risingFrom, Bool.and_eq_true, decide_eq_true_eq]; exact ⟨Nat.le_refl _, ih _⟩

theorem cellsOf_below (x : Nat) (bs : List Byte) : ∀ c ∈ cellsOf x bs, c.1 < x + bs.length := by
  induction bs generalizing x with
  | nil => intro c hc; simp [cellsOf] at hc
  | cons b bs ih =>
    intro c hc
    simp only [cellsOf] at hc
    split at hc
    · have := ih (x + 1) c hc; simp only [List.length_cons]; omega
    · rcases List.mem_cons.mp hc with rfl | hc
      · simp only [List.length_cons]; omega
      · have := ih (x + 1) c hc; simp only [List.length_cons]; omega

theorem cellsOf_nonzero (x : Nat) (bs : List Byte) : ((cellsOf x bs).all fun c => c.2 != 0) = true := by
  induction bs generalizing x with
  | nil => rfl
  | cons b bs ih =>
    simp only [cellsOf]
    split
    · exact ih _
    · rename_i hb; simp only [List.all_cons, Bool.and_eq_true]; exact ⟨by simpa using hb, ih _⟩

theorem all_filter (m : List Host.Cell) (p q : Host.Cell → Bool) (h : m.all q = true) : (m.filter p).all q = true := by
  simp only [List.all_eq_true] at h ⊢
  exact fun c hc => h c (List.mem_of_mem_filter hc)

/-- A block write keeps the canonical form. -/
theorem memWf_memPut {m : Mem} (h : memWf m = true) (x : Nat) (bs : List Byte) : memWf (memPut m x bs) = true := by
  simp only [memWf, Bool.and_eq_true] at h ⊢
  refine ⟨?_, ?_⟩
  · have lowBelow : ∀ c ∈ m.filter fun c => c.1 < x, c.1 < x := by
      intro c hc; simpa using (List.mem_filter.mp hc).2
    have mid := rising_append (cellsOf_rising x bs) (cellsOf_below x bs) (rising_filter_ge m (k := x + bs.length) h.1) (by omega)
    have := rising_append (rising_filter m (fun c => c.1 < x) h.1) lowBelow mid (Nat.zero_le _)
    simpa [memPut, List.append_assoc] using this
  · simp only [memPut, List.all_append, Bool.and_eq_true]
    exact ⟨⟨all_filter _ _ _ h.2, cellsOf_nonzero _ _⟩, all_filter _ _ _ h.2⟩

/-- A copy between memories keeps the canonical form. -/
theorem memWf_memCopy {m : Mem} (h : memWf m = true) (db : Nat) (src : Mem) (sb n : Nat) : memWf (memCopy m db src sb n) = true :=
  memWf_memPut h _ _

/-- Taking a range out keeps the canonical form. -/
theorem memWf_cellsOut {m : Mem} (h : memWf m = true) (lo n : Nat) : memWf (cellsOut m lo n) = true := by
  simp only [memWf, Bool.and_eq_true] at h ⊢
  exact ⟨rising_filter _ _ h.1, all_filter _ _ _ h.2⟩

/-- What is published at SYSTEM scope keeps the canonical form (R120). -/
theorem memWf_sysMem {m : Mem} (h : memWf m = true) (xs : List GStore) : memWf (sysMem m xs) = true := by
  induction xs generalizing m with
  | nil => exact h
  | cons x xs ih =>
    simp only [sysMem, List.foldl_cons]
    split
    · exact ih (memWf_memWrite h _ _)
    · exact ih h

/-- A new history keeps the form of both memories. -/
theorem withHist_memOk (v : Device) (xs : List GStore) (t : Nat) (hm : memWf v.mem = true) (hb : memWf v.base = true) :
    memWf (v.withHist xs t).mem = true ∧ memWf (v.withHist xs t).base = true := by
  have hbase : memWf (if v.hist.isEmpty then v.mem else v.base) = true := by split <;> assumption
  exact ⟨memWf_sysMem hbase xs, hbase⟩

end Sys2Proof.Machine
end

