-- ==== Sys2Proof/Laws/Device.lean ====
section
/-! SUPPORT. What the device's own writes to memory leave alone: the task table, the gangs, the launches, the queues, the clusters, the
contexts and the time; only memory, its check values and poison, the log and what a log entry raises can change (R392, R437, R442). -/

namespace Sys2Proof.Machine

/-- The scheduler's tables, the clusters, the contexts and the time are those of another device state. -/
structure SameTables (v u : Device) : Prop where
  slots    : u.slots = v.slots
  gangs    : u.gangs = v.gangs
  entries  : u.entries = v.entries
  queues   : u.queues = v.queues
  clusters : u.clusters = v.clusters
  contexts : u.contexts = v.contexts
  time     : u.time = v.time

theorem SameTables.refl (v : Device) : SameTables v v := ⟨rfl, rfl, rfl, rfl, rfl, rfl, rfl⟩

theorem SameTables.trans {v u w : Device} (h : SameTables v u) (k : SameTables u w) : SameTables v w :=
  ⟨k.slots.trans h.slots, k.gangs.trans h.gangs, k.entries.trans h.entries, k.queues.trans h.queues, k.clusters.trans h.clusters,
    k.contexts.trans h.contexts, k.time.trans h.time⟩

/-- A fold of updates that each keep the tables keeps them. -/
theorem SameTables.foldl {α : Type} {f : Device → α → Device} (h : ∀ v x, SameTables v (f v x)) (xs : List α) (v : Device) :
    SameTables v (xs.foldl f v) := by
  induction xs generalizing v with
  | nil => exact .refl v
  | cons x xs ih => exact (h v x).trans (ih _)

/-- Updating a dome keeps the tables. -/
theorem updDome_tables (v : Device) (d : Nat) (f : Dome → Dome) : SameTables v (v.updDome d f) := ⟨rfl, rfl, rfl, rfl, rfl, rfl, rfl⟩

/-- A log entry keeps the tables (R437). -/
theorem log_tables (v : Device) (d code grade unit index : Nat) (p0 p1 : Word) (ctx part : Nat) :
    SameTables v (v.log d code grade unit index p0 p1 ctx part) := by
  simp only [Device.log]
  split <;> split <;> try split
  all_goals exact ⟨rfl, rfl, rfl, rfl, rfl, rfl, rfl⟩

/-- So does an end-to-end error's (R443). -/
theorem logE2e_tables (v : Device) (unit index pa p : Nat) : SameTables v (v.logE2e unit index pa p) :=
  log_tables v (domeOfPa pa) 0x000A 4 unit index _ _ 0xFFFF p

/-- Marking poison keeps the tables. -/
theorem markPoison_tables (v : Device) (pl : Place) (x n : Nat) : SameTables v (v.markPoison pl x n) := by
  simp only [Device.markPoison]
  split <;> exact ⟨rfl, rfl, rfl, rfl, rfl, rfl, rfl⟩

/-- A write that reaches its home keeps the tables (R442, R443). -/
theorem madeAt_tables (v : Device) (p pa n : Nat) : SameTables v (v.madeAt p pa n) := by
  refine SameTables.foldl (fun v a => ?_) _ _
  dsimp only
  split
  · exact ⟨rfl, rfl, rfl, rfl, rfl, rfl, rfl⟩
  · refine SameTables.trans ?_ (markPoison_tables _ _ _ _)
    exact SameTables.trans (u := { v with checks := v.checks.filter fun x => x.1 != a }) ⟨rfl, rfl, rfl, rfl, rfl, rfl, rfl⟩ (logE2e_tables ..)

/-- A published store keeps the tables (R120). -/
theorem publishAs_tables (v : Device) (p : Party) (scope pa : Nat) (bs : List Byte) : SameTables v (v.publishAs p scope pa bs) := by
  have h : SameTables v (if scope < 3 then v else v.madeAt (v.partyPart p) pa bs.length) := by
    split
    · exact .refl v
    · exact madeAt_tables ..
  exact h.trans ⟨rfl, rfl, rfl, rfl, rfl, rfl, rfl⟩

/-- A piece put at its place keeps the tables. -/
theorem put_tables (v : Device) (p : Party) (scope : Nat) (x : Piece) : SameTables v (v.put p scope x) := by
  simp only [Device.put]
  split
  · exact publishAs_tables ..
  · exact updDome_tables ..
  · exact .refl v

/-- A write at a VA keeps the tables. -/
theorem writeAs_tables (v : Device) (p : Party) (scope : Nat) (ctx : BitVec 12) (va : Addr) (bs : List Byte) :
    SameTables v (v.writeAs p scope ctx va bs) := SameTables.foldl (fun v x => put_tables v p scope x) _ _

/-- So does the write of a block. -/
theorem writeBlock_tables (v : Device) (ctx : BitVec 12) (n : Nat) (va : Addr) (bs : List Byte) :
    SameTables v (v.writeBlock ctx n va bs) := by
  induction n generalizing v va bs with
  | zero => exact .refl v
  | succ n ih =>
    simp only [Device.writeBlock]
    split
    · exact .refl v
    · refine SameTables.trans ?_ (ih _ _ _)
      split
      · exact publishAs_tables ..
      · exact updDome_tables ..
      · exact .refl v

/-- Saving a task's state in its area keeps the tables (R379). -/
theorem writeCtx_tables (v : Device) (ctx : BitVec 12) (base : Addr) (c : Core) (es : List EngineOp) : SameTables v (v.writeCtx ctx base c es) :=
  SameTables.foldl (fun v _ => writeBlock_tables v ctx _ _ _) _ _

/-- Writing a continuation record keeps the tables (R31). -/
theorem writeRecord_tables (v : Device) (p slot : Nat) : SameTables v (v.writeRecord p slot) := by
  simp only [Device.writeRecord]
  split
  · exact .refl v
  · exact writeAs_tables ..

/-! The same writes keep the canonical form of both memories (log 4). -/

/-- Both memories of the device have the canonical form. -/
def Device.memOk (v : Device) : Prop := memWf v.mem = true ∧ memWf v.base = true

/-- Both memories and the history are those of another device state. -/
structure SameMem (v u : Device) : Prop where
  mem  : u.mem = v.mem
  base : u.base = v.base
  hist : u.hist = v.hist

theorem SameMem.trans {v u w : Device} (h : SameMem v u) (k : SameMem u w) : SameMem v w :=
  ⟨k.mem.trans h.mem, k.base.trans h.base, k.hist.trans h.hist⟩

theorem SameMem.memOk {v u : Device} (h : SameMem v u) (hv : v.memOk) : u.memOk := ⟨h.mem ▸ hv.1, h.base ▸ hv.2⟩

/-- A log entry leaves memory alone. -/
theorem log_mem (v : Device) (d code grade unit index : Nat) (p0 p1 : Word) (ctx part : Nat) :
    SameMem v (v.log d code grade unit index p0 p1 ctx part) := by
  simp only [Device.log]
  split <;> split <;> try split
  all_goals exact ⟨rfl, rfl, rfl⟩

/-- So does what a write does to check values. -/
theorem madeAt_mem (v : Device) (p pa n : Nat) : SameMem v (v.madeAt p pa n) := by
  suffices h : ∀ (as : List Nat) (v : Device), SameMem v (as.foldl (fun v a =>
      let v := { v with checks := v.checks.filter fun x => x.1 != a }
      if pa ≤ a ∧ a + 64 ≤ pa + n then v else (v.logE2e 3 0 a p).markPoison .phys a 64) v) from h _ _
  intro as
  induction as with
  | nil => exact fun v => ⟨rfl, rfl, rfl⟩
  | cons a as ih =>
    intro v
    refine SameMem.trans ?_ (ih _)
    dsimp only
    split
    · exact ⟨rfl, rfl, rfl⟩
    · have h := log_mem { v with checks := v.checks.filter fun x => x.1 != a } (domeOfPa a) 0x000A 4 3 0 (BitVec.ofNat 64 a)
        (Device.mark { v with checks := v.checks.filter fun x => x.1 != a } (domeOfPa a) (tierOf a) p) 0xFFFF p
      simp only [Device.markPoison]
      split <;> exact ⟨h.mem, h.base, h.hist⟩

/-- A published store keeps the form. -/
theorem publishAs_memOk {v : Device} (h : v.memOk) (p : Party) (scope pa : Nat) (bs : List Byte) : (v.publishAs p scope pa bs).memOk := by
  have k : Device.memOk (if scope < 3 then v else v.madeAt (v.partyPart p) pa bs.length) := by
    split
    · exact h
    · exact (madeAt_mem ..).memOk h
  unfold Device.publishAs
  generalize (if scope < 3 then v else v.madeAt (v.partyPart p) pa bs.length) = u at k ⊢
  refine ⟨?_, ?_⟩ <;> dsimp only <;> split
  · exact memWf_memWrite k.1 _ _
  · exact k.1
  · exact k.1
  · exact k.2

/-- A piece put at its place keeps the form. -/
theorem put_memOk {v : Device} (h : v.memOk) (p : Party) (scope : Nat) (x : Piece) : (v.put p scope x).memOk := by
  simp only [Device.put]
  split
  · exact publishAs_memOk h ..
  · exact h
  · exact h

/-- A write at a VA keeps the form. -/
theorem writeAs_memOk {v : Device} (h : v.memOk) (p : Party) (scope : Nat) (ctx : BitVec 12) (va : Addr) (bs : List Byte) :
    (v.writeAs p scope ctx va bs).memOk := by
  suffices k : ∀ (xs : List Piece) (v : Device), v.memOk → (xs.foldl (fun v x => v.put p scope x) v).memOk from k _ _ h
  intro xs
  induction xs with
  | nil => exact fun _ h => h
  | cons x xs ih => exact fun v h => ih _ (put_memOk h p scope x)

end Sys2Proof.Machine
end

