-- ==== Sys2Proof/Laws/State.lean ====
section
/-! SUPPORT. One lemma for each field of a state after each named update, true by `rfl`: later proofs unfold no record update. -/

namespace Sys2Proof.Machine

/-! `State.upd` changes the focused unit alone. -/

@[simp] theorem upd_core (s : State) (f : Core → Core) : (s.upd f).core = f s.core := rfl
@[simp] theorem upd_dev (s : State) (f : Core → Core) : (s.upd f).dev = s.dev := rfl
@[simp] theorem upd_focus (s : State) (f : Core → Core) : (s.upd f).focus = s.focus := rfl
@[simp] theorem upd_parked (s : State) (f : Core → Core) : (s.upd f).parked = s.parked := rfl
@[simp] theorem upd_agenda (s : State) (f : Core → Core) : (s.upd f).agenda = s.agenda := rfl
@[simp] theorem upd_ev (s : State) (f : Core → Core) : (s.upd f).ev = s.ev := rfl
@[simp] theorem upd_last (s : State) (f : Core → Core) : (s.upd f).last = s.last := rfl
@[simp] theorem upd_free (s : State) (f : Core → Core) : (s.upd f).free = s.free := rfl
@[simp] theorem upd_reads (s : State) (f : Core → Core) : (s.upd f).reads = s.reads := rfl

/-! `State.updDev` changes the device alone. -/

@[simp] theorem updDev_dev (s : State) (f : Device → Device) : (s.updDev f).dev = f s.dev := rfl
@[simp] theorem updDev_core (s : State) (f : Device → Device) : (s.updDev f).core = s.core := rfl
@[simp] theorem updDev_focus (s : State) (f : Device → Device) : (s.updDev f).focus = s.focus := rfl
@[simp] theorem updDev_parked (s : State) (f : Device → Device) : (s.updDev f).parked = s.parked := rfl
@[simp] theorem updDev_agenda (s : State) (f : Device → Device) : (s.updDev f).agenda = s.agenda := rfl
@[simp] theorem updDev_ev (s : State) (f : Device → Device) : (s.updDev f).ev = s.ev := rfl
@[simp] theorem updDev_last (s : State) (f : Device → Device) : (s.updDev f).last = s.last := rfl
@[simp] theorem updDev_free (s : State) (f : Device → Device) : (s.updDev f).free = s.free := rfl
@[simp] theorem updDev_reads (s : State) (f : Device → Device) : (s.updDev f).reads = s.reads := rfl

/-! `State.wait` and `State.waitTau` change the verdict alone. -/

@[simp] theorem wait_last (s : State) : s.wait.last = .waits := rfl
@[simp] theorem waitTau_last (s : State) (n : Nat) : (s.waitTau n).last = .waitTau n := rfl
@[simp] theorem wait_core (s : State) : s.wait.core = s.core := rfl
@[simp] theorem waitTau_core (s : State) (n : Nat) : (s.waitTau n).core = s.core := rfl
@[simp] theorem wait_dev (s : State) : s.wait.dev = s.dev := rfl
@[simp] theorem waitTau_dev (s : State) (n : Nat) : (s.waitTau n).dev = s.dev := rfl
@[simp] theorem wait_focus (s : State) : s.wait.focus = s.focus := rfl
@[simp] theorem waitTau_focus (s : State) (n : Nat) : (s.waitTau n).focus = s.focus := rfl
@[simp] theorem wait_parked (s : State) : s.wait.parked = s.parked := rfl
@[simp] theorem waitTau_parked (s : State) (n : Nat) : (s.waitTau n).parked = s.parked := rfl
@[simp] theorem wait_agenda (s : State) : s.wait.agenda = s.agenda := rfl
@[simp] theorem waitTau_agenda (s : State) (n : Nat) : (s.waitTau n).agenda = s.agenda := rfl
@[simp] theorem wait_ev (s : State) : s.wait.ev = s.ev := rfl
@[simp] theorem waitTau_ev (s : State) (n : Nat) : (s.waitTau n).ev = s.ev := rfl
@[simp] theorem wait_free (s : State) : s.wait.free = s.free := rfl
@[simp] theorem wait_reads (s : State) : s.wait.reads = s.reads := rfl
@[simp] theorem waitTau_free (s : State) (n : Nat) : (s.waitTau n).free = s.free := rfl
@[simp] theorem waitTau_reads (s : State) (n : Nat) : (s.waitTau n).reads = s.reads := rfl

/-! `State.sent` adds one result in flight. -/

@[simp] theorem sent_results (s : State) (n : Nat) (w : Write) (g : BitVec 11) (b : Bool) : (s.sent n w g b).core.results = s.core.results ++ [{ w := w, flags := g, can := b, due := s.core.tau + n }] := rfl
@[simp] theorem sent_task (s : State) (n : Nat) (w : Write) (g : BitVec 11) (b : Bool) : (s.sent n w g b).core.task = s.core.task := rfl
@[simp] theorem sent_stopped (s : State) (n : Nat) (w : Write) (g : BitVec 11) (b : Bool) : (s.sent n w g b).core.stopped = s.core.stopped := rfl
@[simp] theorem sent_pos (s : State) (n : Nat) (w : Write) (g : BitVec 11) (b : Bool) : (s.sent n w g b).core.pos = s.core.pos := rfl
@[simp] theorem sent_code (s : State) (n : Nat) (w : Write) (g : BitVec 11) (b : Bool) : (s.sent n w g b).core.code = s.core.code := rfl
@[simp] theorem sent_s (s : State) (n : Nat) (w : Write) (g : BitVec 11) (b : Bool) : (s.sent n w g b).core.s = s.core.s := rfl
@[simp] theorem sent_a (s : State) (n : Nat) (w : Write) (g : BitVec 11) (b : Bool) : (s.sent n w g b).core.a = s.core.a := rfl
@[simp] theorem sent_v (s : State) (n : Nat) (w : Write) (g : BitVec 11) (b : Bool) : (s.sent n w g b).core.v = s.core.v := rfl
@[simp] theorem sent_staint (s : State) (n : Nat) (w : Write) (g : BitVec 11) (b : Bool) : (s.sent n w g b).core.staint = s.core.staint := rfl
@[simp] theorem sent_ataint (s : State) (n : Nat) (w : Write) (g : BitVec 11) (b : Bool) : (s.sent n w g b).core.ataint = s.core.ataint := rfl
@[simp] theorem sent_pstack (s : State) (n : Nat) (w : Write) (g : BitVec 11) (b : Bool) : (s.sent n w g b).core.pstack = s.core.pstack := rfl
@[simp] theorem sent_pnext (s : State) (n : Nat) (w : Write) (g : BitVec 11) (b : Bool) : (s.sent n w g b).core.pnext = s.core.pnext := rfl
@[simp] theorem sent_pwr (s : State) (n : Nat) (w : Write) (g : BitVec 11) (b : Bool) : (s.sent n w g b).core.pwr = s.core.pwr := rfl
@[simp] theorem sent_target (s : State) (n : Nat) (w : Write) (g : BitVec 11) (b : Bool) : (s.sent n w g b).core.target = s.core.target := rfl
@[simp] theorem sent_seqPos (s : State) (n : Nat) (w : Write) (g : BitVec 11) (b : Bool) : (s.sent n w g b).core.seqPos = s.core.seqPos := rfl
@[simp] theorem sent_late (s : State) (n : Nat) (w : Write) (g : BitVec 11) (b : Bool) : (s.sent n w g b).core.late = s.core.late := rfl
@[simp] theorem sent_outst (s : State) (n : Nat) (w : Write) (g : BitVec 11) (b : Bool) : (s.sent n w g b).core.outst = s.core.outst := rfl
@[simp] theorem sent_tokens (s : State) (n : Nat) (w : Write) (g : BitVec 11) (b : Bool) : (s.sent n w g b).core.tokens = s.core.tokens := rfl
@[simp] theorem sent_tau (s : State) (n : Nat) (w : Write) (g : BitVec 11) (b : Bool) : (s.sent n w g b).core.tau = s.core.tau := rfl
@[simp] theorem sent_wall (s : State) (n : Nat) (w : Write) (g : BitVec 11) (b : Bool) : (s.sent n w g b).core.wall = s.core.wall := rfl
@[simp] theorem sent_sticky (s : State) (n : Nat) (w : Write) (g : BitVec 11) (b : Bool) : (s.sent n w g b).core.sticky = s.core.sticky := rfl
@[simp] theorem sent_tflags (s : State) (n : Nat) (w : Write) (g : BitVec 11) (b : Bool) : (s.sent n w g b).core.tflags = s.core.tflags := rfl
@[simp] theorem sent_fmt (s : State) (n : Nat) (w : Write) (g : BitVec 11) (b : Bool) : (s.sent n w g b).core.fmt = s.core.fmt := rfl
@[simp] theorem sent_tcause (s : State) (n : Nat) (w : Write) (g : BitVec 11) (b : Bool) : (s.sent n w g b).core.tcause = s.core.tcause := rfl
@[simp] theorem sent_tinfo (s : State) (n : Nat) (w : Write) (g : BitVec 11) (b : Bool) : (s.sent n w g b).core.tinfo = s.core.tinfo := rfl
@[simp] theorem sent_tpc (s : State) (n : Nat) (w : Write) (g : BitVec 11) (b : Bool) : (s.sent n w g b).core.tpc = s.core.tpc := rfl
@[simp] theorem sent_thandler (s : State) (n : Nat) (w : Write) (g : BitVec 11) (b : Bool) : (s.sent n w g b).core.thandler = s.core.thandler := rfl
@[simp] theorem sent_handler (s : State) (n : Nat) (w : Write) (g : BitVec 11) (b : Bool) : (s.sent n w g b).core.handler = s.core.handler := rfl
@[simp] theorem sent_monSave (s : State) (n : Nat) (w : Write) (g : BitVec 11) (b : Bool) : (s.sent n w g b).core.monSave = s.core.monSave := rfl
@[simp] theorem sent_mat (s : State) (n : Nat) (w : Write) (g : BitVec 11) (b : Bool) : (s.sent n w g b).core.mat = s.core.mat := rfl
@[simp] theorem sent_banks (s : State) (n : Nat) (w : Write) (g : BitVec 11) (b : Bool) : (s.sent n w g b).core.banks = s.core.banks := rfl
@[simp] theorem sent_live (s : State) (n : Nat) (w : Write) (g : BitVec 11) (b : Bool) : (s.sent n w g b).core.live = s.core.live := rfl
@[simp] theorem sent_bounds (s : State) (n : Nat) (w : Write) (g : BitVec 11) (b : Bool) : (s.sent n w g b).core.bounds = s.core.bounds := rfl
@[simp] theorem sent_shapes (s : State) (n : Nat) (w : Write) (g : BitVec 11) (b : Bool) : (s.sent n w g b).core.shapes = s.core.shapes := rfl
@[simp] theorem sent_tol (s : State) (n : Nat) (w : Write) (g : BitVec 11) (b : Bool) : (s.sent n w g b).core.tol = s.core.tol := rfl
@[simp] theorem sent_nest (s : State) (n : Nat) (w : Write) (g : BitVec 11) (b : Bool) : (s.sent n w g b).core.nest = s.core.nest := rfl
@[simp] theorem sent_replay (s : State) (n : Nat) (w : Write) (g : BitVec 11) (b : Bool) : (s.sent n w g b).core.replay = s.core.replay := rfl
@[simp] theorem sent_counters (s : State) (n : Nat) (w : Write) (g : BitVec 11) (b : Bool) : (s.sent n w g b).core.counters = s.core.counters := rfl
@[simp] theorem sent_rbq (s : State) (n : Nat) (w : Write) (g : BitVec 11) (b : Bool) : (s.sent n w g b).core.rbq = s.core.rbq := rfl
@[simp] theorem sent_lanes (s : State) (n : Nat) (w : Write) (g : BitVec 11) (b : Bool) : (s.sent n w g b).core.lanes = s.core.lanes := rfl
@[simp] theorem sent_spad (s : State) (n : Nat) (w : Write) (g : BitVec 11) (b : Bool) : (s.sent n w g b).core.spad = s.core.spad := rfl
@[simp] theorem sent_streams (s : State) (n : Nat) (w : Write) (g : BitVec 11) (b : Bool) : (s.sent n w g b).core.streams = s.core.streams := rfl
@[simp] theorem sent_seg (s : State) (n : Nat) (w : Write) (g : BitVec 11) (b : Bool) : (s.sent n w g b).core.seg = s.core.seg := rfl
@[simp] theorem sent_rdvseq (s : State) (n : Nat) (w : Write) (g : BitVec 11) (b : Bool) : (s.sent n w g b).core.rdvseq = s.core.rdvseq := rfl
@[simp] theorem sent_hold (s : State) (n : Nat) (w : Write) (g : BitVec 11) (b : Bool) : (s.sent n w g b).core.hold = s.core.hold := rfl
@[simp] theorem sent_dirty (s : State) (n : Nat) (w : Write) (g : BitVec 11) (b : Bool) : (s.sent n w g b).core.dirty = s.core.dirty := rfl
@[simp] theorem sent_landing (s : State) (n : Nat) (w : Write) (g : BitVec 11) (b : Bool) : (s.sent n w g b).core.landing = s.core.landing := rfl
@[simp] theorem sent_curPop (s : State) (n : Nat) (w : Write) (g : BitVec 11) (b : Bool) : (s.sent n w g b).core.curPop = s.core.curPop := rfl
@[simp] theorem sent_curPushes (s : State) (n : Nat) (w : Write) (g : BitVec 11) (b : Bool) : (s.sent n w g b).core.curPushes = s.core.curPushes := rfl
@[simp] theorem sent_word (s : State) (n : Nat) (w : Write) (g : BitVec 11) (b : Bool) : (s.sent n w g b).core.word = s.core.word := rfl
@[simp] theorem sent_popped (s : State) (n : Nat) (w : Write) (g : BitVec 11) (b : Bool) : (s.sent n w g b).core.popped = s.core.popped := rfl
@[simp] theorem sent_flagsNow (s : State) (n : Nat) (w : Write) (g : BitVec 11) (b : Bool) : (s.sent n w g b).core.flagsNow = s.core.flagsNow := rfl
@[simp] theorem sent_busyA (s : State) (n : Nat) (w : Write) (g : BitVec 11) (b : Bool) : (s.sent n w g b).core.busyA = s.core.busyA := rfl
@[simp] theorem sent_busyV0 (s : State) (n : Nat) (w : Write) (g : BitVec 11) (b : Bool) : (s.sent n w g b).core.busyV0 = s.core.busyV0 := rfl
@[simp] theorem sent_busyV1 (s : State) (n : Nat) (w : Write) (g : BitVec 11) (b : Bool) : (s.sent n w g b).core.busyV1 = s.core.busyV1 := rfl
@[simp] theorem sent_sig (s : State) (n : Nat) (w : Write) (g : BitVec 11) (b : Bool) : (s.sent n w g b).core.sig = s.core.sig := rfl
@[simp] theorem sent_cycle (s : State) (n : Nat) (w : Write) (g : BitVec 11) (b : Bool) : (s.sent n w g b).core.cycle = s.core.cycle := rfl
@[simp] theorem sent_burstcnt (s : State) (n : Nat) (w : Write) (g : BitVec 11) (b : Bool) : (s.sent n w g b).core.burstcnt = s.core.burstcnt := rfl
@[simp] theorem sent_spawns (s : State) (n : Nat) (w : Write) (g : BitVec 11) (b : Bool) : (s.sent n w g b).core.spawns = s.core.spawns := rfl
@[simp] theorem sent_evt (s : State) (n : Nat) (w : Write) (g : BitVec 11) (b : Bool) : (s.sent n w g b).core.evt = s.core.evt := rfl
@[simp] theorem sent_owesTrig (s : State) (n : Nat) (w : Write) (g : BitVec 11) (b : Bool) : (s.sent n w g b).core.owesTrig = s.core.owesTrig := rfl
@[simp] theorem sent_arrivals (s : State) (n : Nat) (w : Write) (g : BitVec 11) (b : Bool) : (s.sent n w g b).core.arrivals = s.core.arrivals := rfl
@[simp] theorem sent_mcopy (s : State) (n : Nat) (w : Write) (g : BitVec 11) (b : Bool) : (s.sent n w g b).core.mcopy = s.core.mcopy := rfl
@[simp] theorem sent_msaved (s : State) (n : Nat) (w : Write) (g : BitVec 11) (b : Bool) : (s.sent n w g b).core.msaved = s.core.msaved := rfl
@[simp] theorem sent_mdue (s : State) (n : Nat) (w : Write) (g : BitVec 11) (b : Bool) : (s.sent n w g b).core.mdue = s.core.mdue := rfl
@[simp] theorem sent_arrays (s : State) (n : Nat) (w : Write) (g : BitVec 11) (b : Bool) : (s.sent n w g b).core.arrays = s.core.arrays := rfl
@[simp] theorem sent_rbkey (s : State) (n : Nat) (w : Write) (g : BitVec 11) (b : Bool) : (s.sent n w g b).core.rbkey = s.core.rbkey := rfl
@[simp] theorem sent_rbctr (s : State) (n : Nat) (w : Write) (g : BitVec 11) (b : Bool) : (s.sent n w g b).core.rbctr = s.core.rbctr := rfl
@[simp] theorem sent_rewinds (s : State) (n : Nat) (w : Write) (g : BitVec 11) (b : Bool) : (s.sent n w g b).core.rewinds = s.core.rewinds := rfl
@[simp] theorem sent_served (s : State) (n : Nat) (w : Write) (g : BitVec 11) (b : Bool) : (s.sent n w g b).core.served = s.core.served := rfl
@[simp] theorem sent_badDue (s : State) (n : Nat) (w : Write) (g : BitVec 11) (b : Bool) : (s.sent n w g b).core.badDue = s.core.badDue := rfl
@[simp] theorem sent_deqtAt (s : State) (n : Nat) (w : Write) (g : BitVec 11) (b : Bool) : (s.sent n w g b).core.deqtAt = s.core.deqtAt := rfl
@[simp] theorem sent_phint (s : State) (n : Nat) (w : Write) (g : BitVec 11) (b : Bool) : (s.sent n w g b).core.phint = s.core.phint := rfl
@[simp] theorem sent_window (s : State) (n : Nat) (w : Write) (g : BitVec 11) (b : Bool) : (s.sent n w g b).core.window = s.core.window := rfl
@[simp] theorem sent_burstBeats (s : State) (n : Nat) (w : Write) (g : BitVec 11) (b : Bool) : (s.sent n w g b).core.burstBeats = s.core.burstBeats := rfl
@[simp] theorem sent_burstPaid (s : State) (n : Nat) (w : Write) (g : BitVec 11) (b : Bool) : (s.sent n w g b).core.burstPaid = s.core.burstPaid := rfl
@[simp] theorem sent_burstHeld (s : State) (n : Nat) (w : Write) (g : BitVec 11) (b : Bool) : (s.sent n w g b).core.burstHeld = s.core.burstHeld := rfl
@[simp] theorem sent_digital (s : State) (n : Nat) (w : Write) (g : BitVec 11) (b : Bool) : (s.sent n w g b).core.digital = s.core.digital := rfl
@[simp] theorem sent_view (s : State) (n : Nat) (w : Write) (g : BitVec 11) (b : Bool) : (s.sent n w g b).core.view = s.core.view := rfl
@[simp] theorem sent_part (s : State) (n : Nat) (w : Write) (g : BitVec 11) (b : Bool) : (s.sent n w g b).core.part = s.core.part := rfl
@[simp] theorem sent_raced (s : State) (n : Nat) (w : Write) (g : BitVec 11) (b : Bool) : (s.sent n w g b).core.raced = s.core.raced := rfl
@[simp] theorem sent_phase (s : State) (n : Nat) (w : Write) (g : BitVec 11) (b : Bool) : (s.sent n w g b).core.phase = s.core.phase := rfl
@[simp] theorem sent_bufs (s : State) (n : Nat) (w : Write) (g : BitVec 11) (b : Bool) : (s.sent n w g b).core.bufs = s.core.bufs := rfl
@[simp] theorem sent_l1 (s : State) (n : Nat) (w : Write) (g : BitVec 11) (b : Bool) : (s.sent n w g b).core.l1 = s.core.l1 := rfl
@[simp] theorem sent_tlb (s : State) (n : Nat) (w : Write) (g : BitVec 11) (b : Bool) : (s.sent n w g b).core.tlb = s.core.tlb := rfl
@[simp] theorem sent_reraise (s : State) (n : Nat) (w : Write) (g : BitVec 11) (b : Bool) : (s.sent n w g b).core.reraise = s.core.reraise := rfl
@[simp] theorem sent_noBreak (s : State) (n : Nat) (w : Write) (g : BitVec 11) (b : Bool) : (s.sent n w g b).core.noBreak = s.core.noBreak := rfl
@[simp] theorem sent_boundDue (s : State) (n : Nat) (w : Write) (g : BitVec 11) (b : Bool) : (s.sent n w g b).core.boundDue = s.core.boundDue := rfl
@[simp] theorem sent_draining (s : State) (n : Nat) (w : Write) (g : BitVec 11) (b : Bool) : (s.sent n w g b).core.draining = s.core.draining := rfl
@[simp] theorem sent_owed (s : State) (n : Nat) (w : Write) (g : BitVec 11) (b : Bool) : (s.sent n w g b).core.owed = s.core.owed := rfl
@[simp] theorem sent_waitFrom (s : State) (n : Nat) (w : Write) (g : BitVec 11) (b : Bool) : (s.sent n w g b).core.waitFrom = s.core.waitFrom := rfl
@[simp] theorem sent_barFrom (s : State) (n : Nat) (w : Write) (g : BitVec 11) (b : Bool) : (s.sent n w g b).core.barFrom = s.core.barFrom := rfl
@[simp] theorem sent_fbk (s : State) (n : Nat) (w : Write) (g : BitVec 11) (b : Bool) : (s.sent n w g b).core.fbk = s.core.fbk := rfl
@[simp] theorem sent_preempt (s : State) (n : Nat) (w : Write) (g : BitVec 11) (b : Bool) : (s.sent n w g b).core.preempt = s.core.preempt := rfl
@[simp] theorem sent_imem (s : State) (n : Nat) (w : Write) (g : BitVec 11) (b : Bool) : (s.sent n w g b).core.imem = s.core.imem := rfl
@[simp] theorem sent_mon (s : State) (n : Nat) (w : Write) (g : BitVec 11) (b : Bool) : (s.sent n w g b).core.mon = s.core.mon := rfl
@[simp] theorem sent_dev (s : State) (n : Nat) (w : Write) (g : BitVec 11) (b : Bool) : (s.sent n w g b).dev = s.dev := rfl
@[simp] theorem sent_focus (s : State) (n : Nat) (w : Write) (g : BitVec 11) (b : Bool) : (s.sent n w g b).focus = s.focus := rfl
@[simp] theorem sent_parked (s : State) (n : Nat) (w : Write) (g : BitVec 11) (b : Bool) : (s.sent n w g b).parked = s.parked := rfl
@[simp] theorem sent_agenda (s : State) (n : Nat) (w : Write) (g : BitVec 11) (b : Bool) : (s.sent n w g b).agenda = s.agenda := rfl
@[simp] theorem sent_ev (s : State) (n : Nat) (w : Write) (g : BitVec 11) (b : Bool) : (s.sent n w g b).ev = s.ev := rfl
@[simp] theorem sent_last (s : State) (n : Nat) (w : Write) (g : BitVec 11) (b : Bool) : (s.sent n w g b).last = s.last := rfl
@[simp] theorem sent_free (s : State) (n : Nat) (w : Write) (g : BitVec 11) (b : Bool) : (s.sent n w g b).free = s.free := rfl
@[simp] theorem sent_reads (s : State) (n : Nat) (w : Write) (g : BitVec 11) (b : Bool) : (s.sent n w g b).reads = s.reads := rfl

/-! The named results are results in flight. -/

@[simp] theorem wS_eq_sent (s : State) (n : Nat) (d : Reg) (v : Word) (t : Option Taint) (f : BitVec 11) :
    s.wS n d v t f = s.sent n (.s d v t) f := rfl
@[simp] theorem wA_eq_sent (s : State) (n : Nat) (d : Reg) (v : Addr) (t : Option Taint) :
    s.wA n d v t = s.sent n (.a (d.setWidth 4) v t) := rfl

/-! `Core.goTo` sets the target of a transfer alone. -/

@[simp] theorem goTo_target (c : Core) (p : Pos) : (c.goTo p).target = some p := rfl
@[simp] theorem goTo_task (c : Core) (p : Pos) : (c.goTo p).task = c.task := rfl
@[simp] theorem goTo_stopped (c : Core) (p : Pos) : (c.goTo p).stopped = c.stopped := rfl
@[simp] theorem goTo_pos (c : Core) (p : Pos) : (c.goTo p).pos = c.pos := rfl
@[simp] theorem goTo_code (c : Core) (p : Pos) : (c.goTo p).code = c.code := rfl
@[simp] theorem goTo_s (c : Core) (p : Pos) : (c.goTo p).s = c.s := rfl
@[simp] theorem goTo_a (c : Core) (p : Pos) : (c.goTo p).a = c.a := rfl
@[simp] theorem goTo_v (c : Core) (p : Pos) : (c.goTo p).v = c.v := rfl
@[simp] theorem goTo_staint (c : Core) (p : Pos) : (c.goTo p).staint = c.staint := rfl
@[simp] theorem goTo_ataint (c : Core) (p : Pos) : (c.goTo p).ataint = c.ataint := rfl
@[simp] theorem goTo_pstack (c : Core) (p : Pos) : (c.goTo p).pstack = c.pstack := rfl
@[simp] theorem goTo_pnext (c : Core) (p : Pos) : (c.goTo p).pnext = c.pnext := rfl
@[simp] theorem goTo_pwr (c : Core) (p : Pos) : (c.goTo p).pwr = c.pwr := rfl
@[simp] theorem goTo_seqPos (c : Core) (p : Pos) : (c.goTo p).seqPos = c.seqPos := rfl
@[simp] theorem goTo_late (c : Core) (p : Pos) : (c.goTo p).late = c.late := rfl
@[simp] theorem goTo_results (c : Core) (p : Pos) : (c.goTo p).results = c.results := rfl
@[simp] theorem goTo_outst (c : Core) (p : Pos) : (c.goTo p).outst = c.outst := rfl
@[simp] theorem goTo_tokens (c : Core) (p : Pos) : (c.goTo p).tokens = c.tokens := rfl
@[simp] theorem goTo_tau (c : Core) (p : Pos) : (c.goTo p).tau = c.tau := rfl
@[simp] theorem goTo_wall (c : Core) (p : Pos) : (c.goTo p).wall = c.wall := rfl
@[simp] theorem goTo_sticky (c : Core) (p : Pos) : (c.goTo p).sticky = c.sticky := rfl
@[simp] theorem goTo_tflags (c : Core) (p : Pos) : (c.goTo p).tflags = c.tflags := rfl
@[simp] theorem goTo_fmt (c : Core) (p : Pos) : (c.goTo p).fmt = c.fmt := rfl
@[simp] theorem goTo_tcause (c : Core) (p : Pos) : (c.goTo p).tcause = c.tcause := rfl
@[simp] theorem goTo_tinfo (c : Core) (p : Pos) : (c.goTo p).tinfo = c.tinfo := rfl
@[simp] theorem goTo_tpc (c : Core) (p : Pos) : (c.goTo p).tpc = c.tpc := rfl
@[simp] theorem goTo_thandler (c : Core) (p : Pos) : (c.goTo p).thandler = c.thandler := rfl
@[simp] theorem goTo_handler (c : Core) (p : Pos) : (c.goTo p).handler = c.handler := rfl
@[simp] theorem goTo_monSave (c : Core) (p : Pos) : (c.goTo p).monSave = c.monSave := rfl
@[simp] theorem goTo_mat (c : Core) (p : Pos) : (c.goTo p).mat = c.mat := rfl
@[simp] theorem goTo_banks (c : Core) (p : Pos) : (c.goTo p).banks = c.banks := rfl
@[simp] theorem goTo_live (c : Core) (p : Pos) : (c.goTo p).live = c.live := rfl
@[simp] theorem goTo_bounds (c : Core) (p : Pos) : (c.goTo p).bounds = c.bounds := rfl
@[simp] theorem goTo_shapes (c : Core) (p : Pos) : (c.goTo p).shapes = c.shapes := rfl
@[simp] theorem goTo_tol (c : Core) (p : Pos) : (c.goTo p).tol = c.tol := rfl
@[simp] theorem goTo_nest (c : Core) (p : Pos) : (c.goTo p).nest = c.nest := rfl
@[simp] theorem goTo_replay (c : Core) (p : Pos) : (c.goTo p).replay = c.replay := rfl
@[simp] theorem goTo_counters (c : Core) (p : Pos) : (c.goTo p).counters = c.counters := rfl
@[simp] theorem goTo_rbq (c : Core) (p : Pos) : (c.goTo p).rbq = c.rbq := rfl
@[simp] theorem goTo_lanes (c : Core) (p : Pos) : (c.goTo p).lanes = c.lanes := rfl
@[simp] theorem goTo_spad (c : Core) (p : Pos) : (c.goTo p).spad = c.spad := rfl
@[simp] theorem goTo_streams (c : Core) (p : Pos) : (c.goTo p).streams = c.streams := rfl
@[simp] theorem goTo_seg (c : Core) (p : Pos) : (c.goTo p).seg = c.seg := rfl
@[simp] theorem goTo_rdvseq (c : Core) (p : Pos) : (c.goTo p).rdvseq = c.rdvseq := rfl
@[simp] theorem goTo_hold (c : Core) (p : Pos) : (c.goTo p).hold = c.hold := rfl
@[simp] theorem goTo_dirty (c : Core) (p : Pos) : (c.goTo p).dirty = c.dirty := rfl
@[simp] theorem goTo_landing (c : Core) (p : Pos) : (c.goTo p).landing = c.landing := rfl
@[simp] theorem goTo_curPop (c : Core) (p : Pos) : (c.goTo p).curPop = c.curPop := rfl
@[simp] theorem goTo_curPushes (c : Core) (p : Pos) : (c.goTo p).curPushes = c.curPushes := rfl
@[simp] theorem goTo_word (c : Core) (p : Pos) : (c.goTo p).word = c.word := rfl
@[simp] theorem goTo_popped (c : Core) (p : Pos) : (c.goTo p).popped = c.popped := rfl
@[simp] theorem goTo_flagsNow (c : Core) (p : Pos) : (c.goTo p).flagsNow = c.flagsNow := rfl
@[simp] theorem goTo_busyA (c : Core) (p : Pos) : (c.goTo p).busyA = c.busyA := rfl
@[simp] theorem goTo_busyV0 (c : Core) (p : Pos) : (c.goTo p).busyV0 = c.busyV0 := rfl
@[simp] theorem goTo_busyV1 (c : Core) (p : Pos) : (c.goTo p).busyV1 = c.busyV1 := rfl
@[simp] theorem goTo_sig (c : Core) (p : Pos) : (c.goTo p).sig = c.sig := rfl
@[simp] theorem goTo_cycle (c : Core) (p : Pos) : (c.goTo p).cycle = c.cycle := rfl
@[simp] theorem goTo_burstcnt (c : Core) (p : Pos) : (c.goTo p).burstcnt = c.burstcnt := rfl
@[simp] theorem goTo_spawns (c : Core) (p : Pos) : (c.goTo p).spawns = c.spawns := rfl
@[simp] theorem goTo_evt (c : Core) (p : Pos) : (c.goTo p).evt = c.evt := rfl
@[simp] theorem goTo_owesTrig (c : Core) (p : Pos) : (c.goTo p).owesTrig = c.owesTrig := rfl
@[simp] theorem goTo_arrivals (c : Core) (p : Pos) : (c.goTo p).arrivals = c.arrivals := rfl
@[simp] theorem goTo_mcopy (c : Core) (p : Pos) : (c.goTo p).mcopy = c.mcopy := rfl
@[simp] theorem goTo_msaved (c : Core) (p : Pos) : (c.goTo p).msaved = c.msaved := rfl
@[simp] theorem goTo_mdue (c : Core) (p : Pos) : (c.goTo p).mdue = c.mdue := rfl
@[simp] theorem goTo_arrays (c : Core) (p : Pos) : (c.goTo p).arrays = c.arrays := rfl
@[simp] theorem goTo_rbkey (c : Core) (p : Pos) : (c.goTo p).rbkey = c.rbkey := rfl
@[simp] theorem goTo_rbctr (c : Core) (p : Pos) : (c.goTo p).rbctr = c.rbctr := rfl
@[simp] theorem goTo_rewinds (c : Core) (p : Pos) : (c.goTo p).rewinds = c.rewinds := rfl
@[simp] theorem goTo_served (c : Core) (p : Pos) : (c.goTo p).served = c.served := rfl
@[simp] theorem goTo_badDue (c : Core) (p : Pos) : (c.goTo p).badDue = c.badDue := rfl
@[simp] theorem goTo_deqtAt (c : Core) (p : Pos) : (c.goTo p).deqtAt = c.deqtAt := rfl
@[simp] theorem goTo_phint (c : Core) (p : Pos) : (c.goTo p).phint = c.phint := rfl
@[simp] theorem goTo_window (c : Core) (p : Pos) : (c.goTo p).window = c.window := rfl
@[simp] theorem goTo_burstBeats (c : Core) (p : Pos) : (c.goTo p).burstBeats = c.burstBeats := rfl
@[simp] theorem goTo_burstPaid (c : Core) (p : Pos) : (c.goTo p).burstPaid = c.burstPaid := rfl
@[simp] theorem goTo_burstHeld (c : Core) (p : Pos) : (c.goTo p).burstHeld = c.burstHeld := rfl
@[simp] theorem goTo_digital (c : Core) (p : Pos) : (c.goTo p).digital = c.digital := rfl
@[simp] theorem goTo_view (c : Core) (p : Pos) : (c.goTo p).view = c.view := rfl
@[simp] theorem goTo_part (c : Core) (p : Pos) : (c.goTo p).part = c.part := rfl
@[simp] theorem goTo_raced (c : Core) (p : Pos) : (c.goTo p).raced = c.raced := rfl
@[simp] theorem goTo_phase (c : Core) (p : Pos) : (c.goTo p).phase = c.phase := rfl
@[simp] theorem goTo_bufs (c : Core) (p : Pos) : (c.goTo p).bufs = c.bufs := rfl
@[simp] theorem goTo_l1 (c : Core) (p : Pos) : (c.goTo p).l1 = c.l1 := rfl
@[simp] theorem goTo_tlb (c : Core) (p : Pos) : (c.goTo p).tlb = c.tlb := rfl
@[simp] theorem goTo_reraise (c : Core) (p : Pos) : (c.goTo p).reraise = c.reraise := rfl
@[simp] theorem goTo_noBreak (c : Core) (p : Pos) : (c.goTo p).noBreak = c.noBreak := rfl
@[simp] theorem goTo_boundDue (c : Core) (p : Pos) : (c.goTo p).boundDue = c.boundDue := rfl
@[simp] theorem goTo_draining (c : Core) (p : Pos) : (c.goTo p).draining = c.draining := rfl
@[simp] theorem goTo_owed (c : Core) (p : Pos) : (c.goTo p).owed = c.owed := rfl
@[simp] theorem goTo_waitFrom (c : Core) (p : Pos) : (c.goTo p).waitFrom = c.waitFrom := rfl
@[simp] theorem goTo_barFrom (c : Core) (p : Pos) : (c.goTo p).barFrom = c.barFrom := rfl
@[simp] theorem goTo_fbk (c : Core) (p : Pos) : (c.goTo p).fbk = c.fbk := rfl
@[simp] theorem goTo_preempt (c : Core) (p : Pos) : (c.goTo p).preempt = c.preempt := rfl
@[simp] theorem goTo_imem (c : Core) (p : Pos) : (c.goTo p).imem = c.imem := rfl
@[simp] theorem goTo_mon (c : Core) (p : Pos) : (c.goTo p).mon = c.mon := rfl

/-! Scalar registers: s0 reads zero and keeps nothing (R171, R174). -/

theorem sreg_zero (c : Core) : c.sreg 0 = 0 := rfl
theorem setS_zero (c : Core) (v : Word) (t : Option Taint) : c.setS 0 v t = c := rfl

theorem sreg_setS_same (c : Core) {r : Reg} (h : r ≠ 0) (v : Word) (t : Option Taint) : (c.setS r v t).sreg r = v := by
  have h' : ¬ r = 0#5 := h
  simp [Core.sreg, Core.setS, h']

theorem sreg_setS_other (c : Core) {r q : Reg} (h : q ≠ r) (v : Word) (t : Option Taint) : (c.setS r v t).sreg q = c.sreg q := by
  by_cases hr : r = 0#5
  · simp [Core.setS, hr]
  · by_cases hq : q = 0#5
    · simp [Core.sreg, hq]
    · have : r.toNat ≠ q.toNat := fun e => h (BitVec.eq_of_toNat_eq e.symm)
      simp [Core.sreg, Core.setS, hr, hq, this]

end Sys2Proof.Machine
end

