-- ==== Sys2Proof/Tests/Slice0.lean ====
section
/-! SUPPORT. Tests of single decodes and single steps against values worked from the manual, the refusals of ill-formed terms,
and states that meet the hypotheses of the statements. -/

namespace Sys2Proof.Tests

open Sys2Proof Sys2Proof.Machine

set_option Elab.async false

/-! Forms by field values, and small states. -/

def sr (d a b : Nat) (fn : Nat := 0) (g : Bool := false) : SR := ⟨g, BitVec.ofNat 9 fn, BitVec.ofNat 5 b, BitVec.ofNat 5 a, BitVec.ofNat 5 d⟩
def si (d a : Nat) (imm : Int) (fn : Nat := 0) (g : Bool := false) : SI := ⟨g, BitVec.ofNat 9 fn, BitVec.ofInt 32 imm, BitVec.ofNat 5 a, BitVec.ofNat 5 d⟩
def sb (a b cc : Nat) (off : Int) (imm8 : Int := 0) (g : Bool := false) : SB :=
  ⟨g, BitVec.ofInt 8 imm8, BitVec.ofInt 32 off, BitVec.ofNat 5 b, BitVec.ofNat 5 a, BitVec.ofNat 4 cc⟩
def ss (d spr : Nat) (isA : Bool := false) (sel : Nat := 0) : SS := ⟨false, BitVec.ofNat 2 sel, BitVec.ofNat 12 spr, isA, BitVec.ofNat 5 d⟩
def af (t base idx as size : Nat) (off : Int) (mod : Nat := 0) (scope tid : Nat := 0) (g : Bool := false) : AForm :=
  ⟨g, BitVec.ofNat 4 mod, BitVec.ofInt 24 off, BitVec.ofNat 4 tid, BitVec.ofNat 3 scope, BitVec.ofNat 3 size, BitVec.ofNat 3 as,
    BitVec.ofNat 5 idx, BitVec.ofNat 4 base, BitVec.ofNat 5 t⟩
def vf (d a b c : Nat) (ty fn : Nat := 0) (imm8 : Int := 0) (rm : Nat := 0) (sat p v1 : Bool := false) (tid : Nat := 0) : VForm :=
  ⟨v1, BitVec.ofInt 8 imm8, BitVec.ofNat 4 tid, p, sat, BitVec.ofNat 3 rm, BitVec.ofNat 6 fn, BitVec.ofNat 5 ty, BitVec.ofNat 5 c,
    BitVec.ofNat 5 b, BitVec.ofNat 5 a, BitVec.ofNat 5 d⟩
def xf (d a b base fn imm : Nat) (scope : Nat := 0) : XForm :=
  ⟨false, BitVec.ofNat 24 imm, BitVec.ofNat 8 fn, BitVec.ofNat 3 scope, BitVec.ofNat 4 base, BitVec.ofNat 5 b, BitVec.ofNat 5 a, BitVec.ofNat 5 d⟩
def mf (acc imm row flags q split plane mac : Nat) (bnk : Bool := false) : MForm :=
  ⟨BitVec.ofNat 12 imm, BitVec.ofNat 4 row, BitVec.ofNat 8 flags, BitVec.ofNat 2 q, BitVec.ofNat 4 split, BitVec.ofNat 4 plane,
    BitVec.ofNat 3 mac, bnk, BitVec.ofNat 2 acc⟩

/-- A task with 8 KiB of footprint. -/
def ti : TaskInfo := { loadTask with foot := 8192, barriers := 2 }

/-- Core 0 with a task, changed as given. -/
def tk (f : Core → Core) : State := { State.reset with core := f { Core.reset with task := some ti } }

/-- Core 0 with a task and two scalar registers, s1 and s2. -/
def two (x y : Word) : State := tk fun c => (c.setS 1 x none).setS 2 y none

/-- What a meaning answers, if it is a next state. -/
def next? (o : Host.Outcome State Fault Refusal) : Option State := match o with | .next t => some t | _ => none

/-- A number of the next state. -/
def of (o : Host.Outcome State Fault Refusal) (f : State → Nat) : Option Nat := (next? o).map f

/-- Scalar register `r` after `n` cycles. -/
def reg (o : Host.Outcome State Fault Refusal) (n : Nat) (r : Reg) : Option Nat := of o fun t => ((t.core.ticks n).sreg r).toNat

/-- Address register `r` after `n` cycles. -/
def areg (o : Host.Outcome State Fault Refusal) (n : Nat) (r : BitVec 4) : Option Nat := of o fun t => ((t.core.ticks n).areg r).toNat

/-- Lane `l` of vector register `r` after `n` cycles. -/
def lane (o : Host.Outcome State Fault Refusal) (n : Nat) (r : Reg) (l : Nat) : Option Nat :=
  of o fun t => (laneAt ((t.core.ticks n).vphys r) l).toNat

/-- The trap that a meaning took: code and slot. -/
def trapOf (o : Host.Outcome State Fault Refusal) : Option (Nat × Nat) :=
  match o with
  | .next t => (match t.last with | .trapped x => some (x.code, x.slot) | _ => none)
  | _ => none

/-! Ill-formed terms are refused: one for each check of R143, in every form. -/

theorem test_wf_add : (Instr.add (sr 3 1 2)).wellFormed = true := by decide
theorem test_ill_add_fn : (Instr.add (sr 3 1 2 1)).wellFormed = false := by decide
theorem test_ill_clz_b : (Instr.clz (sr 3 1 2)).wellFormed = false := by decide
theorem test_ill_pelse_guard : (Instr.pelse (sr 0 0 0 0 true)).wellFormed = false := by decide
theorem test_ill_cmpi_condition : (Instr.cmpi (si 0 1 5 10)).wellFormed = false := by decide
theorem test_ill_cmpi_d : (Instr.cmpi (si 3 1 5 2)).wellFormed = false := by decide
theorem test_ill_extz_range : (Instr.extz (si 1 2 (1 + 63 * 64))).wellFormed = false := by decide
theorem test_ill_br_condition : (Instr.br (sb 1 2 10 0)).wellFormed = false := by decide
theorem test_ill_jmp_register : (Instr.jmp (sb 1 0 0 4)).wellFormed = false := by decide
theorem test_ill_rdsr_address_register : (Instr.rdsr (ss 16 0x010 true)).wellFormed = false := by decide
theorem test_ill_rdsr_selector : (Instr.rdsr (ss 1 0x020 false 1)).wellFormed = false := by decide
theorem test_ill_ld_size : (Instr.ld (af 1 1 0 0 4 0)).wellFormed = false := by decide
theorem test_ill_ld_tid : (Instr.ld (af 1 1 0 0 3 0 0 0 3)).wellFormed = false := by decide
theorem test_ill_vld_space : (Instr.vld (af 1 1 0 4 5 0 15)).wellFormed = false := by decide
theorem test_ill_vadd_type : (Instr.vadd (vf 1 2 3 0 3)).wellFormed = false := by decide
theorem test_ill_vadd_fn : (Instr.vadd (vf 1 2 3 0 0 3)).wellFormed = false := by decide
theorem test_ill_vmov_b : (Instr.vmov (vf 1 2 3 0)).wellFormed = false := by decide
theorem test_ill_vcvt_rounding : (Instr.vcvt (vf 1 2 0 0 1 0 0 6)).wellFormed = false := by decide
theorem test_ill_mzero_imm : (Instr.mzero (mf 0 1 0 0 0 0 0 0)).wellFormed = false := by decide
theorem test_ill_mcal_macro : (Instr.mcal (mf 0 0 0 0 0 0 0 5)).wellFormed = false := by decide
theorem test_ill_bndr_zero : (Instr.bndr (xf 1 0 0 0 0 0)).wellFormed = false := by decide
theorem test_ill_barr_scope : (Instr.barr (xf 0 0 0 0 0 1 6)).wellFormed = false := by decide
theorem test_ill_cktol_beyond : (Instr.cktol (xf 0 1 2 0 0 56)).wellFormed = false := by decide
theorem test_ill_mret_variant : (Instr.mret (sr 0 0 0 1)).wellFormed = false := by decide

/-! Words of the manual's examples and tables, one at least for each family. -/

theorem test_word_add : decodeSlot .s 0x0000000000082301 = .ok (some (.add (sr 3 1 2))) := by decide
theorem test_word_cmpi : decodeSlot .s 0x0004000000006031 = .ok (some (.cmpi (si 0 3 0 1))) := by decide
theorem test_word_add_guarded : decodeSlot .s 0x8000000000044201 = .ok (some (.add (sr 2 2 1 0 true))) := by decide
theorem test_word_dbnz : decodeSlot .s 0x003FFFFFFF401047 = .ok (some (.dbnz (sb 1 0 0 (-3)))) := by decide
theorem test_word_prdsr : decodeSlot .s 0x0000000002004571 = .ok (some (.prdsr (ss 5 0x801))) := by decide
theorem test_word_pwrsr : decodeSlot .s 0x0000000002008672 = .ok (some (.pwrsr (ss 6 0x802))) := by decide
theorem test_word_mret_requeue : decodeSlot .s 0x0000000000800070 = .ok (some (.mretRequeue (sr 0 0 0 1))) := by decide
theorem test_word_jrnl : decodeSlot .s 0x0000000000431977 = .ok (some (.jrnl (sr 25 24 16))) := by decide
theorem test_word_kickscan : decodeSlot .s 0xB78 = .ok (some (.kickscan (sr 11 0 0))) := by decide
theorem test_word_cmplhold : decodeSlot .s 0x800079 = .ok (some (.cmplholdRelease (sr 0 0 0 1))) := by decide
theorem test_word_vld_row : decodeSlot .a 0x0000000008403013 = .ok (some (.vld (af 16 1 0 1 4 0))) := by decide
theorem test_word_vfma : decodeSlot .v0 0x00000001882404 = .ok (some (.vfma (vf 4 1 2 3))) := by decide
theorem test_word_vadd : decodeSlot .v0 0x7C8401 = .ok (some (.vadd (vf 4 4 31 0))) := by decide
theorem test_word_vcvt : decodeSlot .v1 0x00068010010750 = .ok (some (.vcvt (vf 7 8 0 0 1 0 0 5 true false true))) := by decide
theorem test_word_vcmp : decodeSlot .v0 0x00001000082030 = .ok (some (.vcmp (vf 0 1 2 0 0 8))) := by decide
theorem test_word_vspop : decodeSlot .v0 0x00000202800461 = .ok (some (.vspop (vf 4 0 0 5 0 1))) := by decide
theorem test_word_mpush : decodeSlot .m 1 = .ok (some (.mpush (mf 0 0 0 0 0 0 0 0))) := by decide
theorem test_word_mbeat : decodeSlot .m 0x000002480002 = .ok (some (.mbeat (mf 0 0 0 9 0 8 0 0))) := by decide
theorem test_word_mbeat_last : decodeSlot .m 0x000002880002 = .ok (some (.mbeat (mf 0 0 0 10 0 8 0 0))) := by decide
theorem test_word_mdrain : decodeSlot .m 0x000C01200044 = .ok (some (.mdrain (mf 1 3 0 4 2 0 0 0))) := by decide
theorem test_word_lnest : decodeSlot .x 0x10 = .ok (some (.lnest (xf 0 0 0 0 0 0))) := by decide
theorem test_word_lbody : decodeSlot .x 0x0000004040010011 = .ok (some (.lbody (xf 0 8 0 0 1 1))) := by decide
theorem test_word_enq : decodeSlot .x 0x000000C00000C030 = .ok (some (.enq (xf 0 6 0 0 0 3))) := by decide
theorem test_word_deq : decodeSlot .x 0x0000000040040531 = .ok (some (.deq (xf 5 0 1 0 1 0))) := by decide
theorem test_word_cmbopen : decodeSlot .x 0xA60 = .ok (some (.cmbopen (xf 10 0 0 0 0 0))) := by decide
theorem test_word_cmbput : decodeSlot .x 0x000000000120EC61 = .ok (some (.cmbput (xf 12 7 8 2 0 0))) := by decide
theorem test_word_pcset : decodeSlot .x 0x01001580 = .ok (some (.pcset (xf 21 0 0 2 0 0))) := by decide
theorem test_word_disp : decodeSlot .x 0xA82 = .ok (some (.disp (xf 10 0 0 0 0 0))) := by decide
theorem test_word_empty : decodeSlot .v1 0 = .ok none := by decide
theorem test_word_opcode_zero : decodeSlot .a 0x100 = .error .reserved := by decide
theorem test_word_unassigned : decodeSlot .m 0x3F = .error .unassigned := by decide
theorem test_word_zero_field : decodeSlot .s 0x0004000000082301 = .error .reserved := by decide
theorem test_word_illegal : decodeSlot .s 0x0028000000006031 = .error .illegal := by decide
theorem test_bundle_header_reserved : decodeBundle 0x400 = .error (.header, .reserved) := by decide
theorem test_bundle_events_have_no_word : encodeSlot .doorbell = none := by decide

/-! Scalar operations (R193 to R197). -/

theorem test_add_wraps : reg (exec (.add (sr 3 1 2)) (two 0xFFFFFFFFFFFFFFFF 2)) 1 3 = some 1 := by decide +kernel
theorem test_add_latency : reg (exec (.add (sr 3 1 2)) (two 5 2)) 0 3 = some 0 := by decide +kernel
theorem test_add_to_s0 : reg (exec (.add (sr 0 1 2)) (two 5 2)) 1 0 = some 0 := by decide +kernel
theorem test_sub_borrows : reg (exec (.sub (sr 3 1 2)) (two 0 1)) 1 3 = some 0xFFFFFFFFFFFFFFFF := by decide +kernel
theorem test_mul_low : reg (exec (.mul (sr 3 1 2)) (two 0x100000001 0x100000001)) 3 3 = some 0x200000001 := by decide +kernel
theorem test_mulh_signed : reg (exec (.mulh (sr 3 1 2)) (two 0xFFFFFFFFFFFFFFFF 2)) 3 3 = some 0xFFFFFFFFFFFFFFFF := by decide +kernel
theorem test_mulhu_unsigned : reg (exec (.mulhu (sr 3 1 2)) (two 0xFFFFFFFFFFFFFFFF 2)) 3 3 = some 1 := by decide +kernel
theorem test_and : reg (exec (.and (sr 3 1 2)) (two 0xFF00FF 0x0FF0F0)) 1 3 = some 0x0F00F0 := by decide +kernel
theorem test_or : reg (exec (.or (sr 3 1 2)) (two 0xFF00FF 0x0FF0F0)) 1 3 = some 0xFFF0FF := by decide +kernel
theorem test_xor : reg (exec (.xor (sr 3 1 2)) (two 0xFF00FF 0x0FF0F0)) 1 3 = some 0xF0F00F := by decide +kernel
theorem test_shl_six_bits : reg (exec (.shl (sr 3 1 2)) (two 3 65)) 1 3 = some 6 := by decide +kernel
theorem test_shr : reg (exec (.shr (sr 3 1 2)) (two 0x8000000000000000 63)) 1 3 = some 1 := by decide +kernel
theorem test_sra_sign : reg (exec (.sra (sr 3 1 2)) (two 0x8000000000000000 63)) 1 3 = some 0xFFFFFFFFFFFFFFFF := by decide +kernel
theorem test_min_signed : reg (exec (.min (sr 3 1 2)) (two 0xFFFFFFFFFFFFFFFF 1)) 1 3 = some 0xFFFFFFFFFFFFFFFF := by decide +kernel
theorem test_max_signed : reg (exec (.max (sr 3 1 2)) (two 0xFFFFFFFFFFFFFFFF 1)) 1 3 = some 1 := by decide +kernel
theorem test_minu : reg (exec (.minu (sr 3 1 2)) (two 0xFFFFFFFFFFFFFFFF 1)) 1 3 = some 1 := by decide +kernel
theorem test_maxu : reg (exec (.maxu (sr 3 1 2)) (two 0xFFFFFFFFFFFFFFFF 1)) 1 3 = some 0xFFFFFFFFFFFFFFFF := by decide +kernel
theorem test_slt : reg (exec (.slt (sr 3 1 2)) (two 0xFFFFFFFFFFFFFFFF 1)) 1 3 = some 1 := by decide +kernel
theorem test_sltu : reg (exec (.sltu (sr 3 1 2)) (two 0xFFFFFFFFFFFFFFFF 1)) 1 3 = some 0 := by decide +kernel
theorem test_sel_zero_gives_b : reg (exec (.sel (sr 3 1 2 0)) (two 7 9)) 1 3 = some 9 := by decide +kernel
theorem test_sel_nonzero_gives_a : reg (exec (.sel (sr 3 1 2 1)) (two 7 9)) 1 3 = some 7 := by decide +kernel
theorem test_addi_negative : reg (exec (.addi (si 3 1 (-1))) (two 0 0)) 1 3 = some 0xFFFFFFFFFFFFFFFF := by decide +kernel
theorem test_andi_extends : reg (exec (.andi (si 3 1 (-16))) (two 0xFFFFFFFFFFFFFFFF 0)) 1 3 = some 0xFFFFFFFFFFFFFFF0 := by decide +kernel
theorem test_ori : reg (exec (.ori (si 3 1 (-1))) (two 0 0)) 1 3 = some 0xFFFFFFFFFFFFFFFF := by decide +kernel
theorem test_xori : reg (exec (.xori (si 3 1 3)) (two 5 0)) 1 3 = some 6 := by decide +kernel
theorem test_shli : reg (exec (.shli (si 3 1 4)) (two 0xF000000000000001 0)) 1 3 = some 0x10 := by decide +kernel
theorem test_shri : reg (exec (.shri (si 3 1 4)) (two 0xF000000000000001 0)) 1 3 = some 0x0F00000000000000 := by decide +kernel
theorem test_srai : reg (exec (.srai (si 3 1 4)) (two 0xF000000000000001 0)) 1 3 = some 0xFF00000000000000 := by decide +kernel
theorem test_li_extends : reg (exec (.li (si 3 0 (-2))) (two 0 0)) 1 3 = some 0xFFFFFFFFFFFFFFFE := by decide +kernel
theorem test_lih_keeps_low : reg (exec (.lih (si 3 1 0x12345678)) (two 0xFFFFFFFF00000005 0)) 1 3 = some 0x1234567800000005 := by decide +kernel
theorem test_exts_field : reg (exec (.exts (si 3 1 (4 + 3 * 64))) (two 0xA5 0)) 1 3 = some 0xFFFFFFFFFFFFFFFA := by decide +kernel
theorem test_extz_field : reg (exec (.extz (si 3 1 (4 + 3 * 64))) (two 0xA5 0)) 1 3 = some 0xA := by decide +kernel
theorem test_ins_field : reg (exec (.ins (si 2 1 (4 + 3 * 64))) (two 0xC 0xFFFF)) 1 2 = some 0xFFCF := by decide +kernel
theorem test_clz_zero : reg (exec (.clz (sr 3 1 0)) (two 0 0)) 1 3 = some 64 := by decide +kernel
theorem test_ctz : reg (exec (.ctz (sr 3 1 0)) (two 0x50 0)) 1 3 = some 4 := by decide +kernel
theorem test_popc : reg (exec (.popc (sr 3 1 0)) (two 0xF0F1 0)) 1 3 = some 9 := by decide +kernel
theorem test_bswap : reg (exec (.bswap (sr 3 1 0)) (two 0x0102030405060708 0)) 1 3 = some 0x0807060504030201 := by decide +kernel

/-- A division and its completion. -/
def divided (i : Instr) (x y : Word) : Host.Outcome State Fault Refusal :=
  match exec i (two x y) with
  | .next t => exec .divisionComplete t
  | o => o

theorem test_div_by_zero : reg (divided (.div (sr 3 1 2)) 5 0) 0 3 = some 0xFFFFFFFFFFFFFFFF := by decide +kernel
theorem test_div_by_zero_flag : of (divided (.div (sr 3 1 2)) 5 0) (fun t => t.core.sticky.toNat) = some 2 := by decide +kernel
theorem test_div_truncates : reg (divided (.div (sr 3 1 2)) 0xFFFFFFFFFFFFFFF9 2) 0 3 = some 0xFFFFFFFFFFFFFFFD := by decide +kernel
theorem test_div_overflow_flag : of (divided (.div (sr 3 1 2)) 0x8000000000000000 0xFFFFFFFFFFFFFFFF) (fun t => t.core.sticky.toNat) = some 4 := by decide +kernel
theorem test_divu : reg (divided (.divu (sr 3 1 2)) 0xFFFFFFFFFFFFFFF9 2) 0 3 = some 0x7FFFFFFFFFFFFFFC := by decide +kernel
theorem test_rem_sign_of_dividend : reg (divided (.rem (sr 3 1 2)) 0xFFFFFFFFFFFFFFF9 2) 0 3 = some 0xFFFFFFFFFFFFFFFF := by decide +kernel
theorem test_remu_by_zero : reg (divided (.remu (sr 3 1 2)) 5 0) 0 3 = some 5 := by decide +kernel

/-! Predicates and control transfers (R198 to R215). -/

/-- Core 0 with a predicate stack, s1 and s2. -/
def stk (p : List PredEntry) (x y : Word) : State := tk fun c => { (c.setS 1 x none).setS 2 y none with pstack := p }

theorem test_guard_false : reg (exec (.add (sr 3 1 2 0 true)) (stk [⟨0, false, 0⟩] 5 2)) 1 3 = some 0 := by decide +kernel
theorem test_cmp_pushes : of (exec (.cmp (sb 1 2 2 0)) (two 0xFFFFFFFFFFFFFFFF 1)) (fun t => if (t.core.stackNow.map fun e => e.b) == [true] then 1 else 0) = some 1 := by decide +kernel
theorem test_cmpi_under_false : of (exec (.cmpi (si 0 1 5 0)) (stk [⟨0, false, 0⟩] 5 0))
    (fun t => if (t.core.stackNow.map fun e => e.b) == [false, false] then 1 else 0) = some 1 := by decide +kernel
theorem test_acmp : of (exec (.acmp (af 2 1 0 0 0 0 4)) (tk fun c => (c.setA 1 5 none).setA 2 6 none))
    (fun t => if (t.core.stackNow.map fun e => e.b) == [true] then 1 else 0) = some 1 := by decide +kernel
theorem test_pelse : of (exec (.pelse (sr 0 0 0)) (stk [⟨0, false, 0⟩] 0 0)) (fun t => if (t.core.stackNow.map fun e => e.b) == [true] then 1 else 0) = some 1 := by decide +kernel
theorem test_prd_depth : reg (exec (.prd (sr 3 0 0)) (stk [⟨0, false, 0⟩, ⟨-1, true, 0⟩] 0 0)) 1 3 = some (1 + 2 * 2 ^ 16) := by decide +kernel
theorem test_pwr_conjunction : of (exec (.pwr (sr 0 1 0)) (two (5 + 3 * 2 ^ 16) 0))
    (fun t => if (t.core.pwr.map fun p => p.map fun e => e.b) == some [false, false, true] then 1 else 0) = some 1 := by decide +kernel

/-- The target of the bundle's transfer; 999 for none. -/
def tgt (t : State) : Nat := t.core.target.getD 999

/-- Core 0 at position 100, whose bundle ends at 101. -/
def at100 (x y : Word) : State := tk fun c => { (c.setS 1 x none).setS 2 y none with pos := 100, seqPos := 101 }

theorem test_br_backward : of (exec (.br (sb 1 2 2 (-10))) (at100 1 2)) tgt = some 90 := by decide +kernel
theorem test_br_not_taken : of (exec (.br (sb 1 2 0 (-10))) (at100 1 2)) tgt = some 999 := by decide +kernel
theorem test_bri_signed : of (exec (.bri (sb 1 0 7 4 (-1))) (at100 0 0)) tgt = some 104 := by decide +kernel
theorem test_jmp : of (exec (.jmp (sb 0 0 0 4)) (at100 0 0)) tgt = some 104 := by decide +kernel
theorem test_call_link : reg (exec (.call (sb 0 0 0 4)) (at100 0 0)) 1 31 = some 101 := by decide +kernel
theorem test_ret : of (exec (.ret (sr 0 1 0)) (at100 0x3FFFFFFF 0)) tgt = some 0x3FFFFFFF := by decide +kernel
theorem test_jr_beyond : trapOf (exec (.jr (sr 0 1 0)) (at100 0x40000000 0)) = some (1, 0) := by decide +kernel
theorem test_callr_link : reg (exec (.callr (sr 7 1 0)) (at100 5 0)) 1 7 = some 101 := by decide +kernel
theorem test_dbnz_last : of (exec (.dbnz (sb 1 0 0 (-3))) (at100 1 0)) tgt = some 999 := by decide +kernel
theorem test_dbnz_goes_on : of (exec (.dbnz (sb 1 0 0 (-3))) (at100 0 0)) tgt = some 97 := by decide +kernel
theorem test_trap_code : trapOf (exec (.trap (si 0 0 7)) (at100 0 0)) = some (0x18, 0) := by decide +kernel
theorem test_sev_own : of (exec (.sev (sr 0 1 0)) (two 0 0)) (fun t => if t.core.evt then 1 else 0) = some 1 := by decide +kernel
theorem test_sev_beyond : trapOf (exec (.sev (sr 0 1 0)) (two 1 0)) = some (5, 0) := by decide +kernel
theorem test_wfe_consumes : of (exec (.wfe (sr 0 0 0)) (tk fun c => { c with evt := true })) (fun t => if t.core.evt then 1 else 0) = some 0 := by decide +kernel
theorem test_trapf_quiet : trapOf (exec (.trapf (sr 0 0 0)) (two 0 0)) = none := by decide +kernel
theorem test_trapf_clip : trapOf (exec (.trapf (sr 0 0 0)) (tk fun c => { c with sticky := 0x40, tflags := 0x4000 })) = some (0x0D, 0) := by decide +kernel
theorem test_tret_outside : trapOf (exec (.tret (sr 0 0 0)) (two 0 0)) = some (1, 0) := by decide +kernel
theorem test_exit_frees : of (exec (.exit (sr 0 0 0)) (two 0 0)) (fun t => if t.core.task.isNone then 1 else 0) = some 1 := by decide +kernel
theorem test_tidx_middle : reg (exec (.tidx (sr 3 1 0 (2 + 16))) (tk fun c => { c.setS 1 37 none with shapes := c.shapes.set 2 ⟨3, #v[3, 4, 5, 1, 1]⟩ })) 3 3 = some 0 := by decide +kernel
theorem test_tidx_outer : reg (exec (.tidx (sr 3 1 0 (2 + 32))) (tk fun c => { c.setS 1 37 none with shapes := c.shapes.set 2 ⟨3, #v[3, 4, 5, 1, 1]⟩ })) 3 3 = some 3 := by decide +kernel

/-! Traps, privilege and special registers (R218 to R223, R363 to R373). -/

/-- Core 0 in monitor mode. -/
def mon (f : Mon → Mon) : State := tk fun c => { c with mon := f { c.mon with mode := true } }

theorem test_mret_privileged : trapOf (exec (.mret (sr 0 0 0)) (two 0 0)) = some (3, 0) := by decide +kernel
theorem test_trap_saves_cause : of (exec (.trap (si 0 0 7)) (at100 0 0)) (fun t => t.core.mon.mcause.toNat) = some 0x18 := by decide +kernel
theorem test_trap_saves_info : of (exec (.trap (si 0 0 (-1))) (at100 0 0)) (fun t => t.core.mon.minfo.toNat) = some 0xFFFFFFFF := by decide +kernel
theorem test_mret_resumes : of (exec (.mret (sr 0 0 0)) (tk fun c => { c with monSave := some ⟨[], SigState.start, c.fmt, [], none, []⟩, mon := { c.mon with mode := true, tvalid := true, mtpc := 77 } }))
    (fun t => t.core.pos + (if t.core.mon.mode then 1000 else 0)) = some 77 := by decide +kernel
theorem test_mret_end_frees : of (exec (.mretEnd (sr 0 0 0 2)) (mon fun m => { m with tvalid := true })) (fun t => if t.core.task.isNone then 1 else 0) = some 1 := by decide +kernel
theorem test_prdsr_mstatus : reg (exec (.prdsr (ss 3 0x800)) (mon fun m => { m with tvalid := true })) 1 3 = some 3 := by decide +kernel
theorem test_pwrsr_mtpc : of (exec (.pwrsr (ss 1 0x802)) (tk fun c => { c.setS 1 0x123456789 none with mon := { c.mon with mode := true } })) (fun t => t.core.mon.mtpc.toNat) = some 0x23456789 := by decide +kernel
theorem test_rdsr_seed : reg (exec (.rdsr (ss 3 0x005)) (two 0 0)) 1 3 = some 1 := by decide +kernel
theorem test_rdsr_privileged : trapOf (exec (.rdsr (ss 3 0x800)) (two 0 0)) = some (3, 0) := by decide +kernel
theorem test_wrsr_sticky : of (exec (.wrsr (ss 1 0x020)) (two 0xFFFF 0)) (fun t => t.core.sticky.toNat) = some 0x7FF := by decide +kernel
theorem test_corestop : of (exec (.corestop (sr 0 0 0)) (mon id)) (fun t => if t.core.stopped then 1 else 0) = some 1 := by decide +kernel
theorem test_xlinv_ctx : of (exec (.xlinvCtx (sr 0 0 0 1)) (tk fun c => { c with mon := { c.mon with mode := true }, tlb := [⟨0, 5, 5, 7⟩, ⟨9, 5, 5, 7⟩] }))
    (fun t => t.core.tlb.length) = some 1 := by decide +kernel

/-- Queue processor 0 of dome 0 in focus. -/
def qp (f : Core → Core) : State := let s := State.reset.refocus (.qp 0 0); { s with core := f s.core }

theorem test_kickscan_from : reg (exec (.kickscan (sr 3 1 0)) (let s := qp fun c => c.setS 1 (1 + 200 * 256) none
    { s with dev := s.dev.updPart 1 fun p => { p with kicks := 0x20 } })) 1 3 = some 5 := by decide +kernel
theorem test_kickscan_none : reg (exec (.kickscan (sr 3 1 0)) (qp id)) 1 3 = some 256 := by decide +kernel
theorem test_cmplhold : of (exec (.cmplholdHold (sr 0 0 0 0)) (qp id)) (fun t => if (t.dev.dome 0).hold then 1 else 0) = some 1 := by decide +kernel
theorem test_qp_refuses_exit : (qp id).refuses (.exit (sr 0 0 0)) = some 1 := by decide +kernel
theorem test_disp_nothing_ready : reg (exec (.disp (xf 3 0 0 0 0 0)) (let s := qp id
    { s with core := { s.core with mon := { s.core.mon with parts := 1 } }, dev := s.dev.updPart 0 fun p => { p with state := 1, clusters := 1 } })) 1 3 = some 0 := by decide +kernel
theorem test_scrubcfg_old : reg (exec (.scrubcfg (xf 3 1 0 0 1 0)) (qp id)) 1 3 = some 4096 := by decide +kernel
theorem test_healthw_refuses : reg (exec (.healthw (xf 3 1 2 0 0 0x7FF)) (qp id)) 1 3 = some 1 := by decide +kernel
theorem test_obslog_code : of (exec (.obslog (xf 3 1 2 0 0 0x8001)) (qp id)) (fun t => (t.dev.dome 0).log.length) = some 1 := by decide +kernel

/-! Address registers and memory (R197, R305 to R316). Space 1 is the private scratchpad. -/

theorem test_aadd_wraps : areg (exec (.aadd (af 2 1 1 0 0 0)) (tk fun c => (c.setA 1 0 none).setS 1 0xFFFFFFFFFFFFFFFF none)) 1 2 = some (2 ^ 80 - 1) := by decide +kernel
theorem test_aaddi_negative : areg (exec (.aaddi (af 2 1 0 0 0 (-1))) (tk fun c => c.setA 1 5 none)) 1 2 = some 4 := by decide +kernel
theorem test_amov : areg (exec (.amov (af 2 1 0 0 0 0)) (tk fun c => c.setA 1 (2 ^ 79) none)) 1 2 = some (2 ^ 79) := by decide +kernel
theorem test_aset_top : areg (exec (.aset (af 2 0 1 0 0 0x1234)) (two 5 0)) 1 2 = some (0x1234 * 2 ^ 64 + 5) := by decide +kernel
theorem test_ascl : areg (exec (.ascl (af 2 1 1 0 0 0 4)) (tk fun c => (c.setA 1 5 none).setS 1 3 none)) 1 2 = some 53 := by decide +kernel
theorem test_aget_high : reg (exec (.aget (af 3 1 0 0 0 0 1)) (tk fun c => c.setA 1 (0xABCD * 2 ^ 64 + 5) none)) 1 3 = some 0xABCD := by decide +kernel

/-- The scratchpad of core 0 holds bytes 1 to 16 at address 0. -/
def spd (f : Core → Core) : State := tk fun c => f { c with spad := (List.range 16).map fun k => (k, BitVec.ofNat 8 (k + 1)) }

/-- A load and its return. -/
def loaded (i : Instr) (s : State) : Host.Outcome State Fault Refusal :=
  match exec i s with
  | .next t => exec .loadReturn t
  | o => o

theorem test_ld_little_endian : reg (loaded (.ld (af 3 1 0 1 2 4)) (spd id)) 0 3 = some 0x08070605 := by decide +kernel
theorem test_ld_zero_extends : reg (loaded (.ld (af 3 1 1 1 0 0)) (spd fun c => { c.setS 1 15 none with spad := [(15, 0xFF)] })) 0 3 = some 0xFF := by decide +kernel
theorem test_ld_misaligned : trapOf (exec (.ld (af 3 1 0 1 3 4)) (spd id)) = some (4, 1) := by decide +kernel
theorem test_ld_beyond : trapOf (exec (.ld (af 3 1 0 1 0 0)) (spd fun c => c.setA 1 0x80000 none)) = some (5, 1) := by decide +kernel
theorem test_ldc_own_space : reg (loaded (.ldc (af 3 1 0 1 1 0)) (spd id)) 0 3 = some 0x0201 := by decide +kernel
theorem test_st_low_bytes : of (exec (.st (af 2 1 0 1 1 6)) (spd fun c => c.setS 2 0xAABBCC none))
    (fun t => (t.byteAt .own 6).toNat + 256 * (t.byteAt .own 7).toNat + 65536 * (t.byteAt .own 8).toNat) = some 0x09BBCC := by decide +kernel
theorem test_pref_nothing : of (exec (.pref (af 0 1 0 0 0 0)) (spd id)) (fun t => t.core.outst.length) = some 0 := by decide +kernel
theorem test_wbl_nothing : of (exec (.wbl (af 0 1 0 0 0 0)) (spd id)) (fun t => t.core.outst.length) = some 0 := by decide +kernel
theorem test_invl_nothing : of (exec (.invl (af 0 1 0 0 0 0)) (spd id)) (fun t => t.core.outst.length) = some 0 := by decide +kernel
theorem test_lpin_unmapped : trapOf (exec (.lpin (af 0 1 0 0 0 0)) (spd id)) = some (5, 1) := by decide +kernel
theorem test_lunpin_absent : of (exec (.lunpin (af 0 1 0 0 0 0)) (spd id)) (fun t => t.dev.pins.length) = some 0 := by decide +kernel
theorem test_lunpin_line_absent : of (exec (.lunpinLine (af 0 1 0 0 0 0 1)) (spd id)) (fun t => (t.dev.dome 0).linePins.length) = some 0 := by decide +kernel

/-- An atomic and its performance. -/
def done (i : Instr) (s : State) : Host.Outcome State Fault Refusal :=
  match exec i s with
  | .next t => exec .atomicPerformed t
  | o => o

theorem test_amo_add_returns_old : reg (done (.amo (af 3 1 2 1 2 0 0)) (spd fun c => c.setS 2 0xFFFFFFFF none)) 0 3 = some 0x04030201 := by decide +kernel
theorem test_amo_add_stores : of (done (.amo (af 3 1 2 1 2 0 0)) (spd fun c => c.setS 2 0xFFFFFFFF none)) (fun t => (t.byteAt .own 0).toNat) = some 0 := by decide +kernel
theorem test_amos_swap : of (done (.amos (af 0 1 2 1 3 0 8)) (spd fun c => c.setS 2 9 none)) (fun t => (t.byteAt .own 0).toNat + (t.byteAt .own 1).toNat) = some 9 := by decide +kernel
theorem test_cas_mismatch : of (done (.cas (af 3 1 2 1 2 0)) (spd fun c => (c.setS 2 9 none).setS 3 5 none)) (fun t => (t.byteAt .own 0).toNat) = some 1 := by decide +kernel
theorem test_cas_match : of (done (.cas (af 3 1 2 1 2 0)) (spd fun c => (c.setS 2 9 none).setS 3 0x04030201 none)) (fun t => (t.byteAt .own 0).toNat) = some 9 := by decide +kernel

/-! Vector operations (R226 to R262), on the result that the operation sends. -/

/-- Lane `l` of the last result sent. -/
def sent (o : Host.Outcome State Fault Refusal) (l : Nat) : Option Nat :=
  of o fun t => match t.core.results.getLast? with
    | some ⟨.v _ _ v, _, _, _⟩ => (laneAt v l).toNat
    | _ => 0

/-- v1 holds 10 + l in lane l; v2 holds 3 in every lane. -/
def vec (f : Core → Core) : State := tk fun c => f { c with v := (c.v.set 1 (Vector.ofFn fun l => BitVec.ofNat 32 (10 + l.val))).set 2 (Vector.ofFn fun _ => 3) }

theorem test_viota_rows : lane (exec (.viota (vf 3 1 0 0 0 2 3)) (two 7 0)) 3 3 65 = some 10 := by decide +kernel
theorem test_vsplat : sent (exec (.vsplat (vf 3 1 0 0)) (two 0x1FFFFFFFF 0)) 0 = some 0xFFFFFFFF := by decide +kernel
theorem test_vbcr_column : sent (exec (.vbcr (vf 3 1 0 0 0 0 5)) (vec id)) 1 = some 15 := by decide +kernel
theorem test_vrotr_row : sent (exec (.vrotr (vf 3 1 0 0 0 0 1)) (vec id)) 0 = some 11 := by decide +kernel
theorem test_vrotc_row : sent (exec (.vrotc (vf 3 1 0 0 0 0 1)) (vec id)) 0 = some 74 := by decide +kernel
theorem test_vtrn : lane (exec (.vtrn (vf 3 1 0 0)) (vec id)) 12 3 1 = some 74 := by decide +kernel
theorem test_vext : reg (exec (.vext (vf 3 1 2 0 0x10)) (vec fun c => c.setS 2 65 none)) 4 3 = some 75 := by decide +kernel
theorem test_vins : lane (exec (.vins (vf 3 1 2 0)) (vec fun c => (c.setS 1 9 none).setS 2 65 none)) 4 3 65 = some 9 := by decide +kernel
theorem test_vmcnt_all : reg (exec (.vmcnt (vf 3 0 0 0)) (vec id)) 3 3 = some 1024 := by decide +kernel
theorem test_vredr_int : lane (exec (.vredr (vf 3 1 0 0 0x10 0)) (vec id)) 10 3 0 = some 2656 := by decide +kernel
theorem test_vspush_counts : of (exec (.vspush (vf 0 1 0 0 0 0)) (vec id)) (fun t => t.core.streams[0].length) = some 256 := by decide +kernel
theorem test_vqpop_empty : trapOf (exec (.vqpop (vf 3 0 0 0 0 1)) (vec id)) = some (0x0A, 2) := by decide +kernel

/-! One element of an operation (R60 to R75). -/

theorem test_fadd_one_and_one : fAdd 0 false false 0x3F800000 0x3F800000 = (0x40000000, 0) := by decide +kernel
theorem test_fadd_rounds_to_even : fAdd 0 false false 0x4B800000 0x3F800000 = (0x4B800000, 0x10) := by decide +kernel
theorem test_fadd_rounds_up : fAdd 2 false false 0x4B800000 0x3F800000 = (0x4B800001, 0x10) := by decide +kernel
theorem test_fmul_overflow_saturates : fMul 0 true false 0x7F7FFFFF 0x40000000 = (0x7F7FFFFF, 0x34) := by decide +kernel
theorem test_fdiv_by_zero : fDiv 0 false false 0x3F800000 0 = (0x7F800000, 2) := by decide +kernel
theorem test_vadds_saturates : clampLane 0x0F (laneInt 0x0F 0x7FFFFFFF + laneInt 0x0F 1) = (0x7FFFFFFF, 0x20) := by decide +kernel
theorem test_vabs_most_negative : (laneAbs 0x0F false 0x80000000).1 = 0x80000000 := by decide +kernel
theorem test_vclmp_crossed : laneClamp 0x0F 5 7 3 = 3 := by decide +kernel
theorem test_crc_of_entries : crcFeed 0xFFFF [1, 2] = 0x9416 := by decide +kernel
theorem test_min_prefers_negative_zero : fMinMax false 0 0x80000000 = 0x80000000 := by decide +kernel

/-! The matrix unit and the X slot. -/

theorem test_mpush_unconfigured : trapOf (exec (.mpush (mf 0 0 0 0 0 0 0 0)) (two 0 0)) = some (1, 4) := by decide +kernel
theorem test_mshift : of (exec (.mshift (mf 0 0 0 0 0 0 3 0)) (two 0 0)) (fun t => t.core.mat.feeder.pp.toNat) = some 4 := by decide +kernel
theorem test_mswap : of (exec (.mswap (mf 0 0 0 0 0 0 0 0)) (two 0 0)) (fun t => if t.core.live then 1 else 0) = some 1 := by decide +kernel
theorem test_mepoch : of (exec (.mepoch (mf 2 0 0 0 0 0 0 0)) (two 0 0)) (fun t => if t.core.mat.tiles[2].epoch.isSome then 1 else 0) = some 1 := by decide +kernel
theorem test_mdrain_flies : of (exec (.mdrain (mf 1 0 0 0 2 0 0 0)) (two 0 0)) (fun t => (t.core.mat.drains.map fun d => d.left + d.q.toNat * 100).sum) = some 216 := by decide +kernel
theorem test_mckloc_without_fault : of (exec (.mckloc (mf 0 0 0 0 0 0 0 0)) (two 0 0)) (fun t => t.core.mat.ckstat.toNat) = some 0 := by decide +kernel
theorem test_mcal_busy : of (exec (.mcal (mf 0 0 0 0 0 0 0 1)) (two 0 0)) (fun t => t.core.arrays[1].busy.getD 0) = some 4096 := by decide +kernel
theorem test_minj_bit : of (exec (.minjAcc (mf 0 3 1 0 0 4 0 0)) (two 0 0)) (fun t => (t.core.mat.tiles[0].data.elems[259]).toNat) = some 0x100000 := by decide +kernel
theorem test_mctx_outside_handler : trapOf (exec (.mctxSave (mf 0 0 0 0 0 0 0 0)) (two 0 0)) = some (1, 4) := by decide +kernel
theorem test_mhnd_in_handler : trapOf (exec (.mzero (mf 0 0 0 0 0 0 0 0)) (tk fun c => c.setHnd true)) = some (0x10, 4) := by decide +kernel
theorem test_fmtw_reserved : trapOf (exec (.fmtw (xf 0 1 0 0 0 0)) (two 0x20 0)) = some (2, 5) := by decide +kernel
theorem test_fmtw_illegal : trapOf (exec (.fmtw (xf 0 1 0 0 0 0)) (two 0x0B00 0)) = some (1, 5) := by decide +kernel
theorem test_fmtr : reg (exec (.fmtr (xf 3 0 0 0 0 0)) (two 0 0)) 1 3 = some 0x0B0B := by decide +kernel
theorem test_bndr_reset : reg (exec (.bndr (xf 3 0 0 0 0 1)) (two 0 0)) 1 3 = some 0x7F800000FF800000 := by decide +kernel
theorem test_bndw_nan : trapOf (exec (.bndw (xf 0 1 2 0 0 1)) (two 0x7FC00000 0)) = some (1, 5) := by decide +kernel
theorem test_shpw_zero : trapOf (exec (.shpw (xf 0 1 0 0 1 0)) (two 0 0)) = some (1, 5) := by decide +kernel
theorem test_shpw_dims : of (exec (.shpw (xf 0 1 0 0 2 (3 + 16))) (two 7 0)) (fun t => t.core.shapes[3].dims * 100 + t.core.shapes[3].sizes[1].toNat) = some 207 := by decide +kernel
theorem test_cktol_read : reg (exec (.cktolRd (xf 3 0 0 0 1 55)) (two 0 0)) 1 3 = some 0x3480000000000000 := by decide +kernel
theorem test_rbgen : of (exec .rbGenerate (tk fun c => { c with rbkey := 1, rbctr := 0 })) (fun t => (t.core.rbq.headD 0).toNat) = some 0x5692161D100B05E5 := by decide +kernel
theorem test_rbpop_waits : of (exec (.rbpop (xf 3 0 0 0 0 0)) (two 0 0)) (fun t => if t.last = .waits then 1 else 0) = some 1 := by decide +kernel
theorem test_lstat_outside : reg (exec (.lstat (xf 3 0 0 0 0 0)) (two 0 0)) 1 3 = some 0 := by decide +kernel
theorem test_lbrk_outside : trapOf (exec (.lbrk (xf 0 0 0 0 0 0)) (two 0 0)) = some (1, 5) := by decide +kernel
theorem test_lbody_without_nest : trapOf (exec (.lbody (xf 0 1 2 0 0 0)) (two 0 0)) = some (1, 5) := by decide +kernel
theorem test_feedcfg_misaligned : trapOf (exec (.feedcfg (xf 0 1 0 0 0 0)) (two 32 0)) = some (4, 5) := by decide +kernel
theorem test_cpy_descriptor_error : of (exec (.cpy (xf 3 1 0 0 0 0)) (two 0 0))
    (fun t => (t.core.outst.map fun x => match x with | .engine e => e.status | _ => 99).sum) = some 2 := by decide +kernel
theorem test_scwait_zero : of (exec (.scwait (xf 0 0 0 0 0 0)) (two 0 0)) (fun t => if t.last = .issued then 1 else 0) = some 1 := by decide +kernel
theorem test_enq_unconfigured : trapOf (exec (.enq (xf 3 1 0 0 0 3)) (two 0 0)) = some (1, 5) := by decide +kernel

/-- Core 0 with queue 3 of capacity 2, holding the items given. -/
def que (xs : List Word) : State := { two 7 0 with dev := { Device.reset with queues := [⟨0, 3, 2, 0, xs, []⟩] } }

/-- A queue instruction and its result. -/
def returned (i : Instr) (s : State) : Host.Outcome State Fault Refusal :=
  match exec i s with
  | .next t => exec .queueResultReturn t
  | o => o

theorem test_enq_full : reg (returned (.enq (xf 3 1 0 0 0 3)) (que [1, 2])) 0 3 = some 0 := by decide +kernel
theorem test_enq_appends : of (exec (.enq (xf 3 1 0 0 0 3)) (que [1])) (fun t => match t.dev.queues with | q :: _ => (q.items.map BitVec.toNat).getLastD 0 | [] => 0) = some 7 := by decide +kernel
theorem test_deq_head : reg (returned (.deq (xf 3 0 0 0 0 3)) (que [5, 6])) 0 3 = some 5 := by decide +kernel
theorem test_deqt_at_once : reg (returned (.deqt (xf 3 4 0 0 0 3)) (que [])) 0 4 = some 0 := by decide +kernel
theorem test_qstat : reg (exec (.qstat (xf 3 0 0 0 0 3)) (que [5])) 4 3 = some (1 + 2 ^ 32) := by decide +kernel
theorem test_barr_beyond : trapOf (exec (.barr (xf 0 0 0 0 0 2 1)) (two 0 0)) = some (1, 5) := by decide +kernel
theorem test_spawn_beyond : trapOf (exec (.spawn (xf 3 1 0 0 0 0)) (two 0x40000000 0)) = some (1, 5) := by decide +kernel
theorem test_phint_zero : trapOf (exec (.phint (xf 0 1 2 0 0 5)) (two 0 0)) = some (1, 5) := by decide +kernel
theorem test_phint_from_now : of (exec (.phint (xf 0 1 2 0 0 5)) (tk fun c => { (c.setS 1 10 none).setS 2 20 none with wall := 100 }))
    (fun t => match t.core.phint with | some (b, n, l) => b * 10000 + n * 100 + l | none => 0) = some 1102005 := by decide +kernel
theorem test_cmbopen_no_buffer : trapOf (exec (.cmbopen (xf 3 1 0 0 0 0)) (two 0 0)) = some (1, 5) := by decide +kernel
theorem test_cmbpoll_no_buffer : reg (exec (.cmbpoll (xf 3 0 0 0 0 0)) (two 0 0)) 8 3 = some 0 := by decide +kernel

/-! Events. -/

/-- The device after bring-up, with the operands of an event. -/
def evt (d : EventData) : State :=
  { State.reset with dev := { Device.reset with ready := true, ports := Device.reset.ports.map fun p => { p with ready := true } }, ev := d }

/-- Bytes stand in MBXREQ of the port of an event, and their request waits for the custodian. -/
def submitted (s : State) (bs : List Byte) : State :=
  s.updDev fun v => { v with mbx := [s.ev.port % 2] }.updPort s.ev.port fun p => { p with req := memWrite [] 0 bs, busy := true }

/-- A command with the operands of an event is the request of its port, with the tag 0x77. -/
def request (i : Instr) (s : State) : State :=
  let bs := (mbxFields i s.ev).flatMap fun x => bytesOfNat x.1 x.2
  submitted s (bytesOfNat 2 (mbxOp i) ++ bytesOfNat 2 bs.length ++ bytesOfNat 4 0x77 ++ bs)

theorem test_doorbell_unowned_logged : of (exec .doorbell (evt { value := 5 })) (fun t => ((t.dev.dome 0).log.map fun e => e.code.toNat).sum) = some 0x23 := by decide +kernel
theorem test_bar0_request : of (exec .hostRegisterWrite (evt { addr := 0x2004, count := 4, value := 0x11223344 }))
    (fun t => (memGet (t.dev.port 0).req 4).toNat) = some 0x44 := by decide +kernel
theorem test_winbase_bits : of (exec .hostRegisterWrite (evt { addr := 0x4010, count := 8, value := 0xFFFFFFFFFFFFFFFF }))
    (fun t => (t.dev.port 0).winbase.toNat) = some 0x000FFFF000000000 := by decide +kernel
theorem test_bar4_read_refused : of (exec .hostBar4Read (evt { addr := 0x3000000000, count := 4 })) (fun t => ((t.dev.port 0).reads.map fun r => if r.2.isNone then 1 else 0).sum) = some 1 := by decide +kernel
theorem test_submit_in_order : of (exec .hostRegisterWrite (let s := evt { addr := 0x4000, value := 1, port := 1 }; s.updDev fun v => { v with mbx := [0] }))
    (fun t => t.dev.mbx.headD 9 * 10 + t.dev.mbx.getLastD 9 + if (t.dev.port 1).busy then 100 else 0) = some 101 := by decide +kernel
theorem test_bar0_mbxstat : leNat (((evt {}).dev.updPort 1 fun p => { p with busy := true, ovr := true }).bar0Read 1 0x4008 4) = 5 := by decide +kernel
theorem test_request_bytes : of (exec .powerLimit (submitted (evt { value := 600 }) [15, 0, 4, 0, 7, 0, 0, 0, 0x58, 2, 0, 0]))
    (fun t => t.dev.powerLimit + leNat (t.dev.port 0).rsp) = some (600 + 7 * 2 ^ 32) := by decide +kernel
theorem test_request_too_short : of (exec .powerLimit (submitted (evt { value := 600 }) [15, 0, 3, 0, 7, 0, 0, 0, 0x58, 2, 0]))
    (fun t => ((t.dev.port 0).rsp.headD 9).toNat) = some 2 := by decide +kernel
theorem test_power_limit_low : of (exec .powerLimit (request .powerLimit (evt { value := 599 }))) (fun t => t.dev.powerLimit * 10 + ((t.dev.port 0).rsp.headD 9).toNat) = some 19002 := by decide +kernel
theorem test_power_limit_set : of (exec .powerLimit (request .powerLimit (evt { value := 600 }))) (fun t => t.dev.powerLimit) = some 600 := by decide +kernel
theorem test_part_state_absent : of (exec .partStateOnline (request .partStateOnline (evt {}))) (fun t => ((t.dev.port 0).rsp.headD 9).toNat) = some 1 := by decide +kernel
theorem test_part_create : of (exec .partCreate (request .partCreate (evt { create := { port := 0, p := 2, clusters := 1, taskArea := 0, spillPool := 0, spillStride := 0x10000, savePool := 0, saveCount := 128, streamTable := 0, shares := [4096, 0, 0, 0], tableSize := 64 } })))
    (fun t => (t.dev.part 2).state) = some 3 := by decide +kernel
theorem test_key_zero : of (exec .keyLoad (request .keyLoad (evt { value := 0 }))) (fun t => ((t.dev.port 0).rsp.headD 9).toNat) = some 2 := by decide +kernel
theorem test_verby_down : of (exec .verbyLinkDown (evt { port := 15 })) (fun t => t.dev.vports.toNat) = some 0x7FFF := by decide +kernel
theorem test_scrub_corrects : of (exec .patrolScrub (evt { index := 1, addr := 0x4000000040, value := 1 })) (fun t => t.dev.poison.length * 10 + (t.dev.dome 0).corrected[1]) = some 1 := by decide +kernel
theorem test_scrub_poisons : of (exec .patrolScrub (evt { addr := 0x1234, value := 2 })) (fun t => (t.dev.poison.map fun p => p.2.1 * 16 + p.2.2).sum + ((t.dev.dome 0).log.map fun e => e.code.toNat).sum) = some 0x12310 := by decide +kernel
theorem test_spares_run_out : of (exec .laneRepair (let s := evt { addr := 3 }; { s with dev := s.dev.updDome 0 fun x => { x with spares := [(3, 2)] } }))
    (fun t => (t.dev.dome 0).tierGrade) = some 2 := by decide +kernel
theorem test_sensor_stops_cluster : of (exec .sensorRead (evt { sensor := ⟨3, 5, 1840, 100⟩ })) (fun t => (t.dev.cluster 3).rate) = some 2 := by decide +kernel
theorem test_sensor_fails_high : of (exec .sensorRead (evt { sensor := ⟨3, 5, 2401, 100⟩ })) (fun t => (((t.dev.cluster 3).sensor 5).map Sensor.state).getD 9) = some 1 := by decide +kernel
theorem test_power_window_falls : of (exec .powerWindowEnd (evt { value := 1901 })) (fun t => t.dev.powerF) = some 15 := by decide +kernel
theorem test_snapshot_generation : of (exec .almanacSnapshot (evt {})) (fun t => t.dev.almGen) = some 2 := by decide +kernel
theorem test_reset_counts : of (exec .deviceReset (evt {})) (fun t => t.dev.resets) = some 1 := by decide +kernel
theorem test_heartbeat_takeover : of (exec .heartbeatExpire (let s := evt {}; s.setCore (.qp 0 0) (let c := s.getCore (.qp 0 0); { c with stopped := false, wall := 3 * 2 ^ 20 })))
    (fun t => if (t.getCore (.qp 0 1)).mon.active && !(t.getCore (.qp 0 0)).mon.active then 1 else 0) = some 1 := by decide +kernel
theorem test_dwin_revoke_unbound : of (exec .dwinRevoke (evt { win := 5 })) (fun t => t.core.mon.dwStat.toNat * 100 + t.core.mon.dwWin.toNat) = some 105 := by decide +kernel

/-! One step from a loaded bundle. -/

theorem test_step_add : of (step ((two 5 2).withFetchWord 384 (0x0000000000082301 * 2 ^ 32))) (fun t => (t.core.sreg 3).toNat * 100 + t.core.pos) = some 725 := by decide +kernel
theorem test_step_empty_bundle_stalls : of (step (State.reset.withFetchWord 384 3)) (fun t => t.core.tau) = some 4 := by decide +kernel
theorem test_step_illegal_word_traps : trapOf (step (State.reset.withFetchWord 384 (0xFF * 2 ^ 32))) = some (1, 0) := by decide +kernel
theorem test_step_reserved_header_traps : trapOf (step (State.reset.withFetchWord 384 0x400)) = some (2, 6) := by decide +kernel

/-! Witnesses: for each statement with hypotheses, concrete states and operands that meet all of them together, and values at the ends of
the ranges that its clauses name. -/

/-- A task slot of partition 0. -/
def slot (i st : Nat) (k : Option Core := none) : TaskSlot :=
  { part := 0, slot := i, info := { ti with slot := i }, st := st, why := 0, qnum := 3, dreg := 5, cpos := 0, ckpt := false, foot := false, evt := false,
    kept := k, area := none, deqtQ := none, deqtGot := none, lastCore := none, resumes := 0, age := 0 }

/-- The gang of the task of `ti`, of which it is the member 0. -/
def gang0 : Gang := { id := 0, part := 0, lid := 1, index := 0, cluster := 0, slots := [0, 1], ended := [], bars := [(0, []), (4, [1])] }

/-- A memory that holds numbers: address, bytes and value of each, in rising order of address. -/
def pad (fs : List (Nat × Nat × Nat)) : Mem := fs.foldl (fun m f => memWrite m f.1 (bytesOfNat f.2.1 f.2.2)) []

/-- Tables from 0xFF00000 on that map the first 256 MiB to physical address 0: readable, writable, pinned, with A and D set (R414, R415). -/
def tables : List (Nat × Nat × Nat) :=
  [(0xFF00000, 8, 1 + 0xFF1 * 2 ^ 28), (0xFF10000, 8, 1 + 0xFF2 * 2 ^ 28), (0xFF20000, 8, 1 + 0xFF3 * 2 ^ 28), (0xFF30000, 8, 1 + 0xFF4 * 2 ^ 28), (0xFF40000, 8, 0x1A8F)]

/-- Their bytes. -/
def tableMem : Mem :=
  [(0xFF00000, 1), (0xFF00003, 0x10), (0xFF00004, 0xFF), (0xFF10000, 1), (0xFF10003, 0x20), (0xFF10004, 0xFF), (0xFF20000, 1), (0xFF20003, 0x30),
    (0xFF20004, 0xFF), (0xFF30000, 1), (0xFF30003, 0x40), (0xFF30004, 0xFF), (0xFF40000, 0x8F), (0xFF40001, 0x1A)]

theorem tableMem_holds_the_tables : pad tables = tableMem := by decide +kernel

/-- Context 0 with those tables. -/
def mapped (v : Device) : Device :=
  { v with contexts := [(0, bytesOfNat 8 0xFF00000 ++ [1, 0] ++ List.replicate 54 0)], mem := tableMem }

/-- Core 0 with a task, and the device changed as given. -/
def world (d : Device → Device) (c : Core → Core := id) : State := { tk c with dev := d Device.reset }

theorem wit_ScalarRegisterOperations : (two 0 0).core.active (sr 3 1 2).g = true ∧ (stk [⟨-1, true, 0⟩] 0 0).core.active (sr 0 31 31 31 true).g = true := by
  decide +kernel

theorem wit_ScalarImmediateOperations : (two 0 0).core.active (si 3 1 (-1)).g = true ∧
    (si 3 1 4032).imm.toNat = 0 + (64 - 1) * 64 ∧ (0 : Nat) < 64 ∧ 0 + 64 ≤ 64 ∧ (si 3 1 63).imm.toNat = 63 + (1 - 1) * 64 ∧ 63 < 64 ∧ 63 + 1 ≤ 64 := by
  decide +kernel

theorem wit_ScalarBitCounts : (two 0 0).core.active (sr 3 1 0).g = true ∧ (stk [⟨-1, true, 0⟩] 1 0).core.active (sr 3 1 0 0 true).g = true := by decide +kernel

theorem wit_InactiveScalarOperationsDoNothing : (stk [⟨-1, false, 0⟩] 0 0).core.active (sr 3 1 2 0 true).g = false ∧
    (stk [⟨-1, false, 0⟩] 0 0).core.active (si 3 1 2 0 true).g = false ∧ (stk [⟨-1, false, 0⟩] 0 0).core.active (sb 3 1 2 0 0 true).g = false := by decide +kernel

/-- Core 0 with one outstanding operation. -/
def outs (x : Outstanding) : State := tk fun c => { c with outst := [x] }

theorem wit_DivisionStartsAndCompletes : (two 0 0).core.active (sr 3 1 2).g = true ∧ 3 < 4 ∧
    (let q := outs (.division 3 5 0 31 none)
     q.core.outst[q.ev.index]? = some (.division 3 5 0 31 none) ∧ (0 : Word) = 0) ∧
    (let q := outs (.division 2 0x8000000000000000 (-1) 0 none)
     q.core.outst[q.ev.index]? = some (.division 2 0x8000000000000000 (-1) 0 none) ∧ (-1 : Word) ≠ 0 ∧ 2 % 2 = 0 ∧
       (0x8000000000000000 : Word).toInt = -2 ^ 63 ∧ (-1 : Word).toInt = -1) ∧
    (let q := outs (.division 0 0x8000000000000000 1 3 none)
     q.core.outst[q.ev.index]? = some (.division 0 0x8000000000000000 1 3 none) ∧ (1 : Word) ≠ 0 ∧ (1 : Word).toInt ≠ -1 ∧ q.core.dividing q.ev.index = false) ∧
    (let q : State := { tk (fun c => { c with outst := [.division 3 5 2 4 none, .division 0 9 3 5 none] }) with ev := { index := 1 } }
     q.core.outst[q.ev.index]? = some (.division 0 9 3 5 none) ∧ q.core.dividing q.ev.index = true) := by decide +kernel

theorem wit_PredicateStackOperationsAct : (sb 1 2 9 0).cc.toNat ≤ 9 ∧ (sb 1 2 0 0).cc.toNat ≤ 9 ∧ (si 0 1 0 9).fn.toNat ≤ 9 ∧
    (two 0 0).refuses (.acmp (af 15 1 0 0 0 0 9)) = none ∧ (af 15 1 0 0 0 0 9).t.toNat < 16 ∧ (af 15 1 0 0 0 0 9).mod.toNat ∈ [0, 1, 4, 5, 8, 9] ∧
    (let s := stk [⟨5, true, 0⟩] (0x100000 : Word) 0
     s.core.pstack = [⟨5, true, 0⟩] ∧ (⟨5, true, 0⟩ : PredEntry).due ≤ s.core.tau ∧ s.core.active (sr 0 1 0).g = true ∧
       (s.core.sreg (sr 0 1 0).a).toNat / 2 ^ 16 % 32 ≤ 16 ∧ (s.core.sreg (sr 0 1 0).a).toNat / 2 ^ 16 % 32 = 16) ∧
    (stk (List.replicate 16 ⟨0, false, 0⟩) 0 0).core.active (sr 3 0 0).g = true ∧
    (stk (List.replicate 16 ⟨0, false, 0⟩) 0 0).core.pstack.length ≤ 16 := by decide +kernel

theorem wit_TransfersSetTheirTargetOrTrap : (at100 0x3FFFFFFF 0x40000000).core.active (sb 1 2 9 (-100)).g = true ∧
    (((at100 0 0).core.pos : Int) + (sb 1 2 9 (-100)).off.toInt = ((0 : Nat) : Int) ∧ 0 < 2 ^ 32 ∧ (sb 1 2 9 (-100)).cc.toNat ≤ 9) ∧
    (let s := tk fun c => { c with pos := 2 ^ 32 - 2 }
     (s.core.pos : Int) + (sb 1 2 0 1).off.toInt = ((2 ^ 32 - 1 : Nat) : Int) ∧ 2 ^ 32 - 1 < 2 ^ 32) ∧
    (at100 0x3FFFFFFF 0x40000000).core.active (sr 7 1 0).g = true ∧ ((at100 0x3FFFFFFF 0x40000000).core.sreg (sr 7 1 0).a).toNat < 2 ^ 30 ∧
    2 ^ 30 ≤ ((at100 0x3FFFFFFF 0x40000000).core.sreg (sr 7 2 0).a).toNat ∧ (at100 0 0).core.active (si 0 0 7).g = true := by decide +kernel

/-- The gang of two, of which the second waits for an event. -/
def pair (t : TaskInfo) (x y : Word) : State :=
  let s := world (fun v => { v with gangs := [gang0], slots := [slot 0 1, slot 1 3] }) fun c => (c.setS 1 x none).setS 2 y none
  { s with core := { s.core with task := some t } }

theorem wit_EventLatchesSetAndConsumed :
    (let t : TaskInfo := { ti with gsize := 2 }
     let s := pair t 0 1
     s.focus = .core 0 ∧ s.core.active (sr 0 1 0).g = true ∧ s.core.task = some t ∧
     ((s.core.sreg (sr 0 1 0).a).toNat < t.gsize.toNat ∧ (s.core.sreg (sr 0 1 0).a).toNat = t.cidx.toNat) ∧
     s.commitSeg.dev.gangOf t.gang = some gang0 ∧
     ((s.core.sreg (sr 0 2 0).a).toNat < t.gsize.toNat ∧ (s.core.sreg (sr 0 2 0).a).toNat ≠ t.cidx.toNat) ∧ t.spawned = false ∧
     s.residentOf t.part 1 = none ∧ s.dev.slotOf t.part 1 = some (slot 1 3)) ∧
    (let t : TaskInfo := { ti with gsize := 2, spawned := true }
     let s := pair t 2 255
     s.core.task = some t ∧ t.gsize.toNat ≤ (s.core.sreg (sr 0 1 0).a).toNat ∧ t.spawned = true) ∧
    (let s : State := { tk fun c => { c with evt := true } with parked := [(.core 3, { Core.reset with task := some { ti with slot := 1 } })] }
     s.core.evt = true ∧ s.core.late = false ∧ s.residentOf ti.part 1 = some (.core 3) ∧ Agent.core 3 ≠ s.focus) := by decide +kernel

/-- The launch of the task of `ti`, whose last task it is. -/
def entry1 : SchedEntry :=
  { part := 0, lid := 1, counter := 0, set := true, record := [], va := 0, failed := false, state := 2, started := 1, gangs := 1, tasksLeft := 1, owed := 1,
    triggered := false, failCause := none, burst := 0, age := 0, dome := none }

theorem wit_SuspensionAndExitLeaveTheCore :
    (let s := world fun v => { mapped v with slots := [slot 0 1] }
     s.focus = .core 0 ∧ s.core.active (sr 0 0 0).g = true ∧ s.core.task = some ti ∧ s.core.mon.mode = false ∧ s.core.late = false ∧
     s.suspendCheck .s = none ∧ s.core.outst = [] ∧ s.core.seg = none ∧ s.core.results = [] ∧ s.core.mat.beats = [] ∧ s.dev.slotOf ti.part ti.slot = some (slot 0 1) ∧ s.core.evt = false ∧ s.core.mat.busyQueue = none ∧
     s.dev.holdFull ti.part (s.dev.endSignals ti s.core.owesTrig) = false ∧ s.routedHere = false) ∧
    (let s : State := { tk id with parked := [(.core 1, { Core.reset with outst := [.atomic (.spad 0 0) 64 4 0 1 0 none 1 0 []] })] }
     s.core.mat.busyQueue = none ∧ s.core.outst = [] ∧ s.routedHere = true) ∧
    ((mon id).focus = .core 0 ∧ (mon id).core.active (sr 0 0 0).g = true ∧ (mon id).core.mon.mode = true ∧ (mon id).core.evt = false) ∧
    (let s := world fun v => { v with entries := [entry1] }.updDome 0 fun d => { d with hold := true, held := List.replicate 4096 (.trigger 0 1) }
     s.core.mat.busyQueue = none ∧ s.dev.holdFull ti.part (s.dev.endSignals ti s.core.owesTrig) = true) ∧
    (let s := tk fun c => { c with mat := { c.mat with drains := [⟨0, 3, ⟨Vector.replicate 4096 0, Vector.replicate 4096 0, 0, 0, 0⟩, 0, 0, false⟩] } }
     s.focus = .core 0 ∧ s.core.late = false ∧ s.core.task = some ti ∧ s.core.mat.busyQueue = some 3) := by decide +kernel

theorem wit_TrapsRoutedToHandlerOrMonitor : (1 ≤ 1 ∧ 1 ≤ 0x1A) ∧ (1 ≤ 0x1A ∧ 0x1A ≤ 0x1A) ∧
    (let c : Core := { Core.reset with thandler := 0x80000000, mon := { Mon.reset with troute := 2 } }
     c.toMonitor 1 = false ∧ c.toMonitor 3 = true) := by decide +kernel

theorem wit_TrapEntrySavesAndTransfers :
    (let s := tk fun c => { c with thandler := 0x80000005, mon := { c.mon with troute := 0x2000 } }
     s.focus = .core 0 ∧ s.core.mon.mode = false ∧ 0x0D < 256 ∧ 7 < 8 ∧ s.core.toMonitor 0x0D = false ∧ s.core.seg = none) ∧
    (let s := tk id
     s.focus = .core 0 ∧ s.core.mon.mode = false ∧ 0x1A < 256 ∧ 0 < 8 ∧ s.core.toMonitor 0x1A = true ∧ s.core.seg = none) := by decide +kernel

/-- What an entry saved. -/
def saved0 : EntrySave := ⟨[⟨1, true, 0⟩], SigState.start, ⟨fmtReset, []⟩, [], none, []⟩

theorem wit_ReturnsRestoreWhatEntrySaved :
    ((tk id).core.active (sr 0 0 0).g = true ∧ (tk id).core.hnd = false) ∧
    (let s := tk fun c => { c.setHnd true with mcopy := some MatCtx.reset, mdue := true }
     s.core.hnd = true ∧ s.core.mdue = true) ∧
    (let s := tk fun c => { c.setHnd true with handler := some saved0 }
     s.core.hnd = true ∧ s.core.mdue = false ∧ s.core.handler = some saved0) ∧
    (let s := tk fun c => { c with monSave := some saved0, mon := { c.mon with mode := true, tvalid := true } }
     s.focus = .core 0 ∧ s.core.mon.mode = true ∧ s.core.mon.tvalid = true ∧ s.core.mon.saved = false ∧ s.core.monSave = some saved0 ∧ s.core.task = some ti ∧
     s.core.outst = [] ∧ s.core.seg = none) ∧
    (let s := world (fun v => { v with slots := [slot 0 1] }) fun c => { c with mon := { c.mon with mode := true, tvalid := true, saved := true } }
     s.focus = .core 0 ∧ s.core.mon.mode = true ∧ s.core.task = some ti ∧ s.core.mon.tvalid = true ∧ s.core.mon.saved = true ∧ s.core.outst = [] ∧ s.core.seg = none ∧
     s.core.landing = [] ∧ s.dev.slotOf ti.part ti.slot = some (slot 0 1)) ∧
    ((mon id).focus = .core 0 ∧ (mon id).core.mon.mode = true ∧ (mon id).core.mon.tvalid = false ∧ (mon id).core.outst = [] ∧ (mon id).core.seg = none ∧
     (mon id).core.landing = [] ∧ (mon id).core.dirty = [] ∧ (mon id).dev.hist = [] ∧ (mon id).dev.far = [] ∧ (mon id).core.l1 = [] ∧
     ((mon id).dev.dome (mon id).focus.dome).l2.all (fun y => !y.2.2) = true) := by decide +kernel

theorem wit_TrapFenceRaisesEnabledFlags :
    ((tk id).core.active (sr 0 0 0).g = true ∧ (tk id).core.flagTime = 0 ∧ (tk id).core.outst.any Outstanding.canFlag = false ∧ (tk id).core.sticky = 0) ∧
    (let s := tk fun c => { c with sticky := 0x440, tflags := 0x44000 }
     s.core.flagTime = 0 ∧ s.core.sticky.getLsbD 6 = true ∧ s.core.tflags.getLsbD 14 = true) ∧
    (let s := tk fun c => { c with sticky := 0x400, tflags := 0x40000 }
     s.core.flagTime = 0 ∧ s.core.sticky.getLsbD 6 = false ∧ 10 < 11 ∧ 10 ≠ 6 ∧ s.core.sticky.getLsbD 10 = true ∧ s.core.tflags.getLsbD (8 + 10) = true) ∧
    (let s := tk fun c => { c with sticky := 1, tflags := 0x100 }
     s.core.sticky.getLsbD 6 = false ∧ s.core.sticky.getLsbD 0 = true ∧ s.core.tflags.getLsbD (8 + 0) = true) := by decide +kernel

theorem wit_PrivilegedInstructionsTrapInTaskMode : (tk id).focus = .core 0 ∧ (tk id).core.mon.mode = false := by decide +kernel

theorem wit_SpecialRegisterReadsAndWrites :
    ((tk id).focus = .core 0 ∧ (tk id).core.mon.mode = false ∧ (tk id).core.active (ss 3 0x001).g = true ∧ (tk id).core.task = some ti) ∧
    ((ss 3 0x001).spr.toNat = 0x001 ∧ (ss 3 0x001).isA = false) ∧ ((ss 15 0x041 true).spr.toNat = 0x041 ∧ (ss 15 0x041 true).isA = true) ∧
    ((ss 15 0x010 true).spr.toNat = 0x010 ∧ (ss 15 0x010 true).isA = true) ∧ ((ss 3 0x021 false 3).spr.toNat = 0x021 ∧ (ss 3 0x021 false 3).isA = false) ∧
    ((ss 3 0x033).spr.toNat = 0x033 ∧ 0x800 ≤ (ss 3 0x800).spr.toNat ∧ 0x800 ≤ (ss 3 0xFFF).spr.toNat) := by decide +kernel

theorem wit_PrivilegedRegisterReadsAndWrites :
    ((mon id).focus = .core 0 ∧ (mon id).core.mon.mode = true) ∧ ((ss 3 0x800).spr.toNat = 0x800 ∧ (ss 3 0x800).isA = false) ∧
    ((ss 3 0x805 true).spr.toNat = 0x805 ∧ (ss 3 0x805 true).isA = true) ∧ ((ss 3 0x80B).spr.toNat = 0x808 + 3 ∧ (ss 3 0x80B).isA = false) ∧
    ((ss 3 0x030).spr.toNat = 0x030 ∧ (ss 3 0x032).spr.toNat = 0x032) ∧ (ss 3 0x812).spr.toNat ∈ [0x800, 0x801, 0x803, 0x80C, 0x812] ∧
    (qp id).focus = .qp 0 0 := by decide +kernel

theorem wit_PrivilegedOperationsAct :
    ((mon id).focus = .core 0 ∧ (mon id).core.mon.mode = true ∧ (mon id).core.mon.tvalid = false ∧ (mon id).core.seg = none) ∧
    (∀ x ∈ [XlScope.page 0 0 5, .context 0, .part 0],
      let c : Core := { Core.reset with mon := { Mon.reset with mode := true } }
      let v : Device := { Device.reset with contexts := [(0, List.replicate 8 0 ++ [1, 0])], leavesUsed := [⟨0, 0, 5, 0xF⟩] }
      ({ State.reset with core := c, dev := v } : State).xlinvWaits x = false ∧
        ({ State.reset with core := { c with outst := [.atomic .phys 0 8 0 0 0 none 5 0 []] }, dev := v } : State).xlinvWaits x = true) ∧
    ((qp id).focus = .qp 0 0 ∧ ((qp id).dev.part (0 % 8)).kicks = 0) ∧
    (let s := (let s := qp fun c => c.setS 1 (1 + 200 * 256) none
       { s with dev := s.dev.updPart 1 fun p => { p with kicks := 0x80 } })
     let x := (s.core.sreg 1).toNat
     s.focus = .qp 0 0 ∧ 63 < 256 ∧ (s.dev.part (x % 8)).kicks.getLsbD ((x / 256 + 63) % 256) = true ∧
       ∀ i, i < 63 → (s.dev.part (x % 8)).kicks.getLsbD ((x / 256 + i) % 256) = false) := by decide +kernel

theorem wit_AddressesAndTensorIndexes :
    ((two 0 0).core.active (af 2 1 1 0 0 0).g = true ∧ (two 0 0).refuses (.aadd (af 2 1 1 0 0 0)) = none ∧ (two 0 0).refuses (.aaddi (af 2 1 0 0 0 (-1))) = none ∧
     (two 0 0).refuses (.amov (af 2 1 0 0 0 0)) = none ∧ (two 0 0).refuses (.aset (af 2 0 1 0 0 0)) = none ∧ (two 0 0).refuses (.ascl (af 2 1 1 0 0 0 15)) = none ∧
     (two 0 0).refuses (.aget (af 3 1 0 0 0 0)) = none ∧ (af 3 1 0 0 0 0).mod = 0 ∧ (af 3 1 0 0 0 0 1).mod = 1) ∧
    (let s := tk fun c => { c with shapes := c.shapes.set 15 ⟨5, #v[1, 1, 1, 1, 0xFFFFFFFF]⟩ }
     let o := sr 3 1 0 (15 + 4 * 16)
     s.core.active o.g = true ∧ o.fn.toNat / 16 % 8 = 4 ∧ (s.core.shapes[o.fn.toNat % 16]'(Nat.mod_lt _ (by decide))).dims = 5 ∧
       ∀ i, (hi : i < 5) → 1 ≤ ((s.core.shapes[o.fn.toNat % 16]'(Nat.mod_lt _ (by decide))).sizes[i]).toNat) ∧
    (let s := tk fun c => { c with shapes := c.shapes.set 0 ⟨2, #v[3, 4, 1, 1, 1]⟩ }
     s.core.active (sr 3 1 0 32).g = true ∧ s.core.shapes[0].dims ≤ (sr 3 1 0 32).fn.toNat / 16 % 8) := by decide +kernel

/-- A check of every dome is a check of the four. -/
theorem everyDome (v : Device) (P : Dome → Prop) (h : ∀ k : Fin 4, P v.domes[k]) (d : Nat) : P (v.dome d) := h ⟨d % 4, Nat.mod_lt _ (by decide)⟩

/-- A check of every cluster is a check of the eight. -/
theorem everyCluster (v : Device) (P : Cluster → Prop) (h : ∀ k : Fin 8, P v.clusters[k]) (d : Nat) : P (v.cluster d) := h ⟨d % 8, Nat.mod_lt _ (by decide)⟩

theorem wit_ScalarLoadsReadTheirBytes :
    (let s := spd fun c => c.setA 1 0x7FFF8 none
     let o := af 3 1 0 1 3 0
     s.core.active o.g = true ∧ o.size.toNat ≤ 3 ∧ accessOk s o (effectiveAddress s o (o.mod.getLsbD 0)) 8 .load true false (.own, 0x7FFF8) ∧
     s.refuses (.ld o) = none ∧ s.refuses (.ldc o) = none ∧ o.as ≠ 0) ∧
    (let s := world mapped fun c => c.setA 1 0xFFFFFFF none
     let o := af 3 1 0 0 0 0 0 5
     accessOk s o (effectiveAddress s o (o.mod.getLsbD 0)) 1 .load true false (.phys, 0xFFFFFFF) ∧ ¬ (o.scope = 0 ∨ o.as = 1) ∧ s.dev.hist = [] ∧ s.core.dirty = [] ∧
     s.core.landing = [] ∧ s.core.seg = none) ∧
    (let q (b : Bool) : State := { outs (.load (.s 31 7 none) none) with ev := { ok := b, space := 4 } }
     (q true).ev.ok = true ∧ (q true).ev.bus = none ∧ (q true).core.mer = false ∧ (q true).ev.late = 0 ∧ (q false).ev.ok = false ∧ (q false).ev.bus = none ∧
     (q false).core.outst[(q false).ev.index]? = some (.load (.s 31 7 none) none)) ∧
    (outs (.load (.s 31 7 none) none)).core.outst[(outs (.load (.s 31 7 none) none)).ev.index]? = some (.load (.s 31 7 none) none) :=
  ⟨⟨by decide +kernel, by decide +kernel, ⟨by decide +kernel, by decide +kernel, by decide +kernel⟩, by decide +kernel, by decide +kernel, by decide +kernel⟩,
    ⟨⟨by decide +kernel, by decide +kernel, by decide +kernel⟩, by decide +kernel⟩, by decide +kernel, by decide +kernel⟩

/-- Where no phase of a buffer has begun and the task's began no later than now, none has. -/
theorem phasesPast (s : State) (hb : s.core.bufs = []) (hp : s.core.phase ≤ s.dev.stamp) (a : Nat) : s.core.phaseOf a ≤ s.dev.stamp := by
  simp [Core.phaseOf, hb, hp]

/-- The member 1 of its gang holds this scratchpad offset in K space. -/
def inPair (f : Core → Core) : State :=
  let s := pair { ti with gsize := 2 } 0 0
  { s with core := f (s.core.setA 1 0x80008 none) }

theorem wit_ScalarStoreWritesItsBytes :
    (let s := spd fun c => c.setA 1 0x7FFF8 none
     let o := af 3 1 0 1 3 0
     s.refuses (.st o) = none ∧ s.core.active o.g = true ∧ o.size.toNat ≤ 3 ∧
     accessOk s o (effectiveAddress s o (o.mod.getLsbD 0)) 8 .store false true (.own, 0x7FFF8) ∧ quietMemory s ∧ homePlace .own) ∧
    (let s := inPair id
     let o := af 3 1 0 2 3 0
     s.refuses (.st o) = none ∧ s.core.active o.g = true ∧ accessOk s o (effectiveAddress s o (o.mod.getLsbD 0)) 8 .store false true (.spad 0 1, 8) ∧
     s.core.seg = none) ∧
    (let s := spd fun c => { c.openSeg with seg := c.openSeg.seg.map fun g => { g with stores := [⟨[], 63⟩] } }
     let o := af 3 1 0 1 3 0
     s.refuses (.st o) = none ∧ accessOk s o (effectiveAddress s o (o.mod.getLsbD 0)) 8 .store false true (.own, 0) ∧ o.as.toNat ≠ 2 ∧
     s.core.seg.map (fun g => g.used + 1) = some 64) :=
  ⟨⟨by decide +kernel, by decide +kernel, by decide +kernel, ⟨by decide +kernel, by decide +kernel, by decide +kernel⟩,
      ⟨by decide +kernel, by decide +kernel, phasesPast _ (by decide +kernel) (by decide +kernel), by decide +kernel, by decide +kernel, everyDome _ (fun x => memWf x.spad = true) (by decide +kernel)⟩, trivial⟩,
    ⟨by decide +kernel, by decide +kernel, ⟨by decide +kernel, by decide +kernel, by decide +kernel⟩, by decide +kernel⟩,
    ⟨by decide +kernel, ⟨by decide +kernel, by decide +kernel, by decide +kernel⟩, by decide +kernel, by decide +kernel⟩⟩

/-- The places of one row, or of sixteen, from the start of the scratchpad. -/
def rowsAt (x n : Nat) : List (Place × Nat) := (List.range (4 * n)).map fun j => (.own, x + 64 * j)

/-- Core 0 with a task, in a guard whose only active lane is the last. -/
def last1 (f : Core → Core) : State := tk fun c => f { c with pstack := [⟨BitVec.ofNat 1024 (2 ^ 1023), true, 0⟩] }

/-- No watchpoint is consulted outside G space. -/
theorem noWatch (s : State) (as : Nat) (h : as ≠ 0) (l t : Bool) (rs : List (Int × Nat)) : s.watchHit as l t rs = none := by
  simp [State.watchHit, h]

theorem wit_VectorLoadsReadTheirRows :
    (let s := tk id
     let o := af 16 0 0 1 4 (-256 + 0x80000)
     s.refuses (.vld o) = none ∧
     (∀ x ∈ (List.range (o.mod.toNat + 1)).map (fun k => addrIn o.as.toNat (s.ea o false + 256 * k)), x % 64 = 0) ∧
     s.rowPlaces o.as.toNat .load ((List.range (o.mod.toNat + 1)).map fun k => addrIn o.as.toNat (s.ea o false + 256 * k)) = .ok (rowsAt 0x7FF00 1) ∧
     ∀ m, s.watchHit o.as.toNat true false (laneRanges m ((List.range (o.mod.toNat + 1)).map fun k => addrIn o.as.toNat (s.ea o false + 256 * k))) = none) ∧
    (let s := tk fun c => c.setS 2 64 none
     let o := af 16 0 2 1 4 0 1
     s.refuses (.vlds o) = none ∧ (s.core.sreg o.idx).toNat % 64 = 0 ∧
     s.rowPlaces o.as.toNat .load ((List.range (o.mod.toNat + 1)).map fun k => addrIn o.as.toNat (s.eaBase o + (s.core.sreg o.idx).toInt * k)) =
       .ok (rowsAt 0 1 ++ rowsAt 64 1)) ∧
    (let s := last1 id
     let o := af 16 0 5 1 2 0 0 0 0 true
     s.refuses (.vgath o) = none ∧ o.size.toNat ≤ 2 ∧ s.lanePlaces o .load = .ok [(1023, .own, 0)] ∧ ∀ rs, s.watchHit o.as.toNat true false rs = none) ∧
    (let s := tk id
     let o := af 16 0 0 4 2 252
     s.refuses (.lsld o) = none ∧ o.size.toNat ≤ 2 ∧
     ((s.core.sreg o.idx).toNat : Int) * (if o.mod.getLsbD 0 then 2 ^ o.size.toNat else 1) + o.off.toInt = ((252 : Nat) : Int) ∧ 252 % 2 ^ o.size.toNat = 0 ∧
     252 + 2 ^ o.size.toNat ≤ 256) :=
  ⟨⟨by decide +kernel, by decide +kernel, by decide +kernel, fun _ => noWatch _ _ (by decide) _ _ _⟩, by decide +kernel,
    ⟨by decide +kernel, by decide +kernel, by decide +kernel, fun _ => noWatch _ _ (by decide) _ _ _⟩, by decide +kernel⟩

/-- A queue entry of zeros, `n` of its quarters popped. -/
def zeroEntry (n : Nat) : QEntry := ⟨Vector.replicate 4096 0, Vector.replicate 4096 0, 0, 0, n⟩

theorem wit_VectorStoresWriteActiveLanes :
    (let s := tk id
     let o := af 16 0 0 1 4 0 15
     let xs := (List.range 16).map fun k => addrIn o.as.toNat (s.ea o false + 256 * k)
     o.tid = 0 ∧ 16 = o.mod.toNat + 1 ∧ s.refuses (.vst o) = none ∧ (∀ x ∈ xs, x % 64 = 0) ∧ s.rowPlaces o.as.toNat .store xs = .ok (rowsAt 0 16) ∧
     s.watchHit o.as.toNat false true (laneRanges (BitVec.allOnes 1024 &&& rowMask 16) xs) = none) ∧
    (let s := tk fun c => { c with mat := { c.mat with queues := c.mat.queues.set 3 [zeroEntry 3] } }
     let o := af 16 0 0 1 4 0 3
     s.refuses (.vstQueue o) = none ∧ s.core.mat.queue (o.mod.setWidth 2) = [zeroEntry 3]) ∧
    (let s := tk id
     let o := af 16 0 0 1 4 0 0
     let xs := (List.range 16).map fun k => addrIn o.as.toNat (s.ea o false + 256 * k)
     o.tid = 0 ∧ s.refuses (.vstQueue o) = none ∧ (s.core.mat.queue (o.mod.setWidth 2)).isEmpty = true ∧ s.core.mat.inFlight (o.mod.setWidth 2) = [] ∧
     (∀ x ∈ xs, x % 64 = 0) ∧ s.rowPlaces o.as.toNat .store xs = .ok (rowsAt 0 16) ∧ ∀ m, s.watchHit o.as.toNat false true (laneRanges m xs) = none) ∧
    (let s := last1 id
     let o := af 16 0 5 1 2 0 0 0 0 true
     s.refuses (.vscat o) = none ∧ o.size.toNat ≤ 2 ∧ s.lanePlaces o .store = .ok [(1023, .own, 0)] ∧ ∀ rs, s.watchHit o.as.toNat false true rs = none) ∧
    (let s := tk id
     let o := af 16 0 0 4 2 252
     o.tid = 0 ∧ s.refuses (.lsst o) = none ∧ 252 % 2 ^ o.size.toNat = 0 ∧ 252 + 2 ^ o.size.toNat ≤ 256) :=
  ⟨⟨by decide +kernel, by decide +kernel, by decide +kernel, by decide +kernel, by decide +kernel, noWatch _ _ (by decide) _ _ _⟩, ⟨by decide +kernel, rfl⟩,
    ⟨by decide +kernel, by decide +kernel, by decide +kernel, by decide +kernel, by decide +kernel, by decide +kernel, fun _ => noWatch _ _ (by decide) _ _ _⟩,
    ⟨by decide +kernel, by decide +kernel, by decide +kernel, fun _ => noWatch _ _ (by decide) _ _ _⟩, by decide +kernel⟩

theorem wit_MemoryAccessFaults :
    (let s := tk fun c => c.setA 1 0x7FFFD none
     let o := af 3 1 0 1 2 0
     s.core.active o.g = true ∧ o.size.toNat ≤ 3 ∧ s.refuses (.ld o) = none ∧ effectiveAddress s o (o.mod.getLsbD 0) % (2 ^ o.size.toNat : Nat) ≠ 0) ∧
    (let s := tk fun c => c.setA 1 0x80000 none
     let o := af 3 1 0 1 3 0
     s.refuses (.st o) = none ∧ s.refuses (.amo o) = none ∧ o.as ≠ 0 ∧ effectiveAddress s o (o.mod.getLsbD 0) % (2 ^ o.size.toNat : Nat) = 0 ∧
     s.place o.as.toNat (effectiveAddress s o (o.mod.getLsbD 0)) 8 .store = .error 5) ∧
    ((0 : Int) ≤ 0x7FFFF ∧ (0x7FFFF : Int) + (1 : Nat) ≤ 0x80000) ∧ ¬ ((0 : Int) ≤ 0x80000 ∧ (0x80000 : Int) + (1 : Nat) ≤ 0x80000) ∧ ¬ ((0 : Int) ≤ -1) ∧
    (let t : TaskInfo := { ti with gsize := 2 }
     let s (g : Gang) : State := { world (fun v => { v with gangs := [g] }) fun c => { c with task := some t } with last := .issued }
     (s gang0).core.task = some t ∧ t.spawned = false ∧ (s gang0).dev.gangOf t.gang = some gang0 ∧
     (0x1FF8 / 0x80000 < t.gsize.toNat ∧ 0x1FF8 % 0x80000 + 8 ≤ t.foot ∧ 0x1FF8 / 0x80000 = t.cidx.toNat) ∧
     (0x81FF8 / 0x80000 < t.gsize.toNat ∧ 0x81FF8 % 0x80000 + 8 ≤ t.foot ∧ 0x81FF8 / 0x80000 ≠ t.cidx.toNat ∧ gang0.slots.getD 1 0 ∉ gang0.ended) ∧
     (0x100000 / 0x80000 ≥ t.gsize.toNat) ∧ (0x1FF9 % 0x80000 + 8 > t.foot) ∧
     (s { gang0 with ended := [1] }).dev.gangOf t.gang = some { gang0 with ended := [1] } ∧ gang0.slots.getD (0x80000 / 0x80000) 0 ∈ [1]) := by
  refine ⟨⟨?_, ?_, ?_, ?_⟩, ⟨?_, ?_, ?_, ?_, ?_⟩, ?_, ?_, ?_, ?_⟩ <;> decide +kernel

theorem wit_LineAndPinOperations :
    (let s := world mapped fun c => c.setA 1 0x1FFFF none
     let o := af 0 1 0 0 0 0
     s.core.active o.g = true ∧ o.as = 0 ∧ s.refuses (.pref o) = none ∧ s.refuses (.wbl o) = none ∧ s.refuses (.invl o) = none ∧ s.refuses (.lpin o) = none ∧
     s.refuses (.lpinLine o) = none ∧ s.refuses (.lunpinLine o) = none ∧ s.place 0 (s.ea o false) 1 .any = .ok (.phys, 0x1FFFF) ∧
     s.place 0 (s.ea o (o.mod.getLsbD 0)) 1 .any = .ok (.phys, 0x1FFFF) ∧ ((s.dev.dome (l2Home 0x1FFFF)).linePins.filter fun q => q.1 == s.ctx).length < 4096) ∧
    (let w : Window := ⟨63, 0, 0, 1, 0, [0x40000000], [0x1A8F]⟩
     let s := world fun v => (mapped v).updDome 3 fun d => { d with windows := [w] }
     s.place 0 0 1 .any = .ok (.phys, windowPa 3 0) ∧ inWindow (windowPa 3 0) = true ∧ inWindow 0x1FFFF = false) ∧
    (tk id).place 0 ((tk id).ea (af 0 1 0 0 0 0) false) 1 .any = .error 5 ∧
    (let s := world fun v => { mapped v with pins := [(0, 4, 0, 65535), (0, 5, 4096, 1)] }
     let o := af 0 1 0 0 0 0
     s.refuses (.lunpin o) = none ∧ (∀ e ∈ s.dev.pins, 1 ≤ e.2.2.2 ∧ e.2.2.2 ≤ 65535) ∧ s.dev.pins.Pairwise (fun e f => ¬ (e.1 = f.1 ∧ e.2.1 = f.2.1 ∧ e.2.2.1 = f.2.2.1)) ∧
     s.commitSeg.dev.pageOf s.ctx 0 = (4, 0) ∧ s.dev.pageOf s.ctx 0x10000000 = (5, 4096)) ∧
    (let s := world fun v => (mapped v).updDome 0 fun d => { d with linePins := (List.range 4096).map fun k => (0, k) }
     s.core.seg = none ∧ ((s.dev.dome 0).linePins.filter fun q => q.1 == s.ctx).length ≥ 4096) := by decide +kernel

theorem wit_AtomicsReadModifyWrite :
    (let s := spd fun c => c.setA 1 0x7FFFC none
     let o := af 3 1 2 1 2 0 8
     s.core.active o.g = true ∧ o.size = 2 ∧ s.core.seg = none ∧ accessOk s o (s.eaBase o) 4 .atomic true true (.own, 0x7FFFC) ∧ s.refuses (.amo o) = none ∧
     s.refuses (.amos o) = none ∧ s.refuses (.cas o) = none ∧ s.core.mer = false) ∧
    (let s := spd fun c => { c with task := some { ti with mer := true }, tflags := 0x1000000 }
     let o := af 3 1 2 1 3 0 11
     s.core.active o.g = true ∧ o.size = 3 ∧ s.core.seg = none ∧ accessOk s o (s.eaBase o) 8 .atomic true true (.own, 0) ∧ s.core.mer = true ∧
     9 ≤ o.mod.toNat ∧ o.mod.toNat ≤ 11 ∧ s.refuses (.amo o) = none) ∧
    (let s := outs (.atomic .own 0x7FFFC 4 12 0xFFFFFFFF 0 (some 31) 1 0 [])
     quietMemory s ∧ s.dev.poison = [] ∧ (31 : Reg) ≠ 0 ∧ (0xFFFFFFFF : Word).toNat < 2 ^ (8 * 4) ∧ (0 : Word).toNat < 2 ^ (8 * 4) ∧
     s.core.outst[s.ev.index]? = some (.atomic .own 0x7FFFC 4 12 0xFFFFFFFF 0 (some 31) 1 0 [])) ∧
    (let s := outs (.atomic .phys 0x7FFFC 8 8 5 0 (some 31) 3 0 [])
     quietMemory s ∧ s.dev.hist = [] ∧ s.core.dirty = [] ∧ memWf s.dev.mem = true ∧
     s.core.outst[s.ev.index]? = some (.atomic .phys 0x7FFFC 8 8 5 0 (some 31) 3 0 [])) :=
  ⟨⟨by decide +kernel, by decide +kernel, by decide +kernel, ⟨by decide +kernel, by decide +kernel, by decide +kernel⟩, by decide +kernel⟩,
    ⟨by decide +kernel, by decide +kernel, by decide +kernel, ⟨by decide +kernel, by decide +kernel, by decide +kernel⟩, by decide +kernel⟩,
    ⟨⟨by decide +kernel, by decide +kernel, phasesPast _ (by decide +kernel) (by decide +kernel), by decide +kernel, by decide +kernel, everyDome _ (fun x => memWf x.spad = true) (by decide +kernel)⟩,
      by decide +kernel⟩,
    ⟨⟨by decide +kernel, by decide +kernel, phasesPast _ (by decide +kernel) (by decide +kernel), by decide +kernel, by decide +kernel, everyDome _ (fun x => memWf x.spad = true) (by decide +kernel)⟩,
      by decide +kernel⟩⟩

theorem wit_VectorIntegerArithmetic : (vf 3 1 2 1 0x10 2 (-1)).fn.toNat % 4 ≤ 2 ∧ (vf 3 1 2 1 0x10 2 (-1)).ty = 0x10 ∧ (vf 3 1 2 1 0x0F 0).ty = 0x0F ∧
    (vf 3 1 2 1 0x0F 0).sat = false := by decide +kernel

theorem wit_VectorFloatArithmetic : (vf 3 1 2 1 0 2 (-1) 4 true).ty = 0 ∧ (vf 3 1 2 1 0 2 (-1) 4 true).fn.toNat % 4 ≤ 2 := by decide +kernel

theorem wit_RoundingOfRationals :
    (4 ≤ 4 ∧ rationalOf (f32Val 0x40400000) = some 3 ∧ rationalOf (f32Val 0x3F800000) = some 1 ∧ rationalOf (f32Val 0x40000000) = some 2 ∧
      (1 : ℚ) + 2 = 3 ∧ (3 : ℚ) ≠ 0 ∧ (1 : ℚ) * 2 + 1 = 3 ∧ (1 : ℚ) * 3 = 3) ∧ rationalOf (f32Val 0) = some 0 ∧ 0 < 1 ∧ 5 ≤ 5 := by
  have v (x : Lane) (s : Bool) (m : Nat) (e : Int) (h : f32Val x = .fin s m e) : rationalOf (f32Val x) = some ((if s then -1 else 1) * m * (2 : ℚ) ^ e) := by
    rw [h]; rfl
  refine ⟨⟨by decide, ?_, ?_, ?_, by norm_num, by norm_num, by norm_num, by norm_num⟩, ?_, by decide, by decide⟩
  · rw [v _ false 12582912 (-22) (by decide +kernel)]; norm_num
  · rw [v _ false 8388608 (-23) (by decide +kernel)]; norm_num
  · rw [v _ false 8388608 (-22) (by decide +kernel)]; norm_num
  · rw [v _ false 0 (-149) (by decide +kernel)]; norm_num

theorem wit_ComparesPushLaneMasks : (vf 0 1 2 0 0 36).fn.toNat % 4 ≤ 2 ∧ (vf 0 1 2 0 0x0F 38).fn.toNat % 4 ≤ 2 ∧ (vf 0 1 2 0 0x0F 38).fn.toNat / 4 = 9 ∧
    (vf 0 1 0 0 0 1).fn = 1 ∧ (vf 0 1 0 0 0 0).fn = 0 ∧ (vf 0 1 0 0 0 0).ty = 0 := by decide +kernel

theorem wit_RegisterMovesPermuteLanes : (vf 3 1 0 0 0 0).fn = 0 ∧ (vf 3 1 0 0 0 1).fn = 1 ∧ (vf 3 1 0 0 0 2).fn.toNat ≤ 2 ∧
    (let s := tk fun c => { c with shapes := c.shapes.set 15 ⟨5, #v[1, 1, 1, 1, 0xFFFFFFFF]⟩ }
     let o := vf 3 1 0 0 0 15 4
     o.imm8.toNat % 8 = 4 ∧ (s.core.shapes[o.fn.toNat % 16]'(Nat.mod_lt _ (by decide))).dims = 5 ∧
       ∀ i, (hi : i < 5) → 1 ≤ ((s.core.shapes[o.fn.toNat % 16]'(Nat.mod_lt _ (by decide))).sizes[i]).toNat) ∧
    ((tk id).core.shapes[(vf 3 1 0 0 0 15 0).fn.toNat % 16]'(Nat.mod_lt _ (by decide))).dims ≤ (vf 3 1 0 0 0 15 0).imm8.toNat % 8 := by decide +kernel

theorem wit_IntegerReductionsAndScans : (vf 3 1 0 0 0x0F 8).ty = 0x0F ∧ (vf 3 1 0 0 0x10 0).ty = 0x10 ∧ (vf 3 1 0 0 0x0F 8).fn.toNat % 8 = 0 ∧ (vf 3 1 0 0 0x0F 8).sat = false := by
  decide +kernel

theorem wit_ConversionsAndPacking : (vf 3 1 0 0 1 0 0 4).tid = 0 ∧ (vf 3 1 0 0 1 0 0 4).rm ≠ 5 ∧ (vf 3 1 0 0 1 0 0 4).fn.toNat % 4 ≤ 2 ∧
    (let o := vf 3 1 0 0 0x0E 15
     formatBits o.ty.toNat = 2 ∧ 2 * formatBits o.ty.toNat * (o.fn.toNat % 16 + 1) ≤ 64) ∧
    (let o := vf 3 1 0 0 1 1
     formatBits o.ty.toNat = 16 ∧ 2 * formatBits o.ty.toNat * (o.fn.toNat % 16 + 1) = 64) ∧
    ((vf 3 1 0 0 1 0 0 5).rm = 5 ∧ (tk id).core.word = none ∧ (tk id).core.rbq = []) ∧
    (let s := tk fun c => { c with rbq := [7, 8] }
     s.core.word = none ∧ s.core.seg = none ∧ s.core.rbq = [7, 8]) ∧
    (let s := tk fun c => { c with word := some 0xFFFFFFFFFFFFFFFF }
     (vf 3 1 0 0 1 0 0 5).rm = 5 ∧ s.core.word = some (BitVec.ofNat 64 (2 ^ 64 - 1)) ∧ 2 ^ 64 - 1 < 2 ^ 64) ∧
    (let s := tk fun c => { c.openSeg with rbq := [7] }
     s.core.rbq = [7] ∧ (s.core.seg.map fun g => g.words.length) = some 0) := by decide +kernel

theorem wit_StreamsAndResultQueuesPop :
    (let s := tk id
     s.core.seg = none ∧ (∀ g, (h : g < 4) → (s.core.streams[g] ++ List.replicate 512 (0 : Lane)).length ≤ 512) ∧ (vf 0 1 0 0 0 0).fn.getLsbD 0 = false) ∧
    (let s := tk fun c => { c with streams := c.streams.set 3 (List.replicate 512 0) }
     let new := ((List.range 256).filter fun i => (guardLanes s (vf 0 1 0 0 0 0)).getLsbD (256 * 3 + i)).flatMap fun i => [laneAt (s.core.vreg 1) (256 * 3 + i)]
     s.core.seg = none ∧ 512 < (s.core.streams[3] ++ new).length) ∧
    (let s := tk fun c => { c with mat := { c.mat with queues := c.mat.queues.set 3 [zeroEntry 3] } }
     s.core.seg = none ∧ s.core.mat.queues[3] = [zeroEntry 3] ∧ (zeroEntry 0).popped < 4) ∧
    ((tk id).core.mat.queues[0].isEmpty = true ∧ ∀ d ∈ (tk id).core.mat.drains, d.q ≠ 0) ∧
    (let d : Drain := ⟨9, 2, zeroEntry 0, 0, 0, false⟩
     let s := tk fun c => { c with mat := { c.mat with drains := [d] } }
     s.core.mat.queues[2].isEmpty = true ∧ d ∈ s.core.mat.drains ∧ d.q = 2 ∧ ∀ x ∈ s.core.mat.drains, x.q = 2 → d.left ≤ x.left) :=
  ⟨by decide +kernel, by decide +kernel, ⟨by decide +kernel, rfl, by decide +kernel⟩, ⟨by decide +kernel, by decide +kernel⟩, ⟨by decide +kernel, List.mem_singleton.mpr rfl, rfl,
    fun _ hx _ => by cases List.mem_singleton.mp hx; exact Nat.le_refl _⟩⟩

theorem wit_BoundChecksFlagClampAndTrap :
    let s := last1 fun c => { c with bounds := c.bounds.set 15 ⟨0x3F800000, 0x40000000, 0, 2⟩ }
    let o := vf 3 1 0 0 0 (p := true) (tid := 15)
    o.tid ≠ 0 ∧ o.ty = 0 ∧ s.core.bounds[15].fmt = 0 ∧ rationalOf (f32Val s.core.bounds[15].lo) = some 1 ∧ rationalOf (f32Val s.core.bounds[15].hi) = some 2 ∧
    (1 : ℚ) ≤ 2 ∧ s.core.bounds[15].lo.toNat ≠ 2 ^ 31 ∧ s.core.bounds[15].hi.toNat ≠ 2 ^ 31 ∧ guardLanes s o = BitVec.ofNat 1024 (2 ^ 1023) ∧
    ∃ x, rationalOf (f32Val ((s.core.vreg o.a)[1023])) = some x := by
  have v (x : Lane) (s : Bool) (m : Nat) (e : Int) (h : f32Val x = .fin s m e) : rationalOf (f32Val x) = some ((if s then -1 else 1) * m * (2 : ℚ) ^ e) := by
    rw [h]; rfl
  refine ⟨by decide +kernel, by decide +kernel, by decide +kernel, ?_, ?_, by norm_num, by decide +kernel, by decide +kernel, by decide +kernel, ?_⟩
  · rw [v _ false 8388608 (-23) (by decide +kernel)]; norm_num
  · rw [v _ false 8388608 (-22) (by decide +kernel)]; norm_num
  · exact ⟨_, v _ false 0 (-149) (by decide +kernel)⟩

/-! Witnesses for the statements about the matrix unit and the X slot. -/

/-- A feeder descriptor of no rows in the scratchpad. -/
def fdNone : List Byte := List.replicate 8 0 ++ [1] ++ List.replicate 55 0

theorem inTaskOf (s : State) (h : s.focus = .core 0) (m : s.core.mon.mode = false) : inTask s := ⟨⟨0, h⟩, m⟩

theorem readyOf (s : State) (h : s.focus = .core 0) (m : s.core.mon.mode = false) (n : s.core.hnd = false) : matrixReady s := ⟨inTaskOf s h m, .inl n⟩

/-- Core 0 with a task, and its matrix context changed as given. -/
def mx (f : MatCtx → MatCtx) : State := tk fun c => { c with mat := f c.mat }

theorem wit_MatrixPointersAndTiles :
    (matrixReady (tk id) ∧ (mf 3 0 15 0 0 0 15 0).flags.getLsbD 4 = false ∧ (tk id).core.mat.feeder.desc.isNone = true ∧ beatsLanded (tk id) 3 ∧
      tilesNamed (tk id).core.weightWidth 3 = some [3] ∧ (mf 3 0 15 16 0 0 15 0).flags.getLsbD 4 = true ∧ (∀ k ∈ [3], beatsLanded (tk id) k) ∧
      ∀ e, Outstanding.engine e ∈ (tk id).core.outst → e.kind ≠ 7) ∧
    (let s := mx fun m => { m with feeder := { m.feeder with desc := some fdNone } }
     s.latchRow = .row { s.core.mat.feeder with pos := 1, pre := [] } 0 ∧ s.core.mat.feeder.desc = some fdNone ∧
     fdRefuses fdNone (s.core.fmt.cur.extractLsb' 0 5).toNat = false ∧ fdZeroRow fdNone s.core.mat.feeder.pos = true) ∧
    (let s := tk fun c => { c with fmt := { c.fmt with cur := 0x0E0B } }
     s.core.weightWidth = 2 ∧ tilesNamed s.core.weightWidth 1 = none) ∧
    (let s := mx fun m => { m with ckstat := 7, beats := [⟨1, 8, false, [], 0⟩] }
     s.core.mat.ckstat.getLsbD 0 = true ∧ s.core.mat.ckstat.extractLsb' 1 2 = 3 ∧
     ∃ b ∈ s.core.mat.beats, b.tiles.getLsbD 3 = true ∧ 0 < b.left) := by
  refine ⟨⟨readyOf _ (by decide +kernel) (by decide +kernel) (by decide +kernel), by decide +kernel, by decide +kernel, fun b hb => ?_, by decide +kernel, by decide +kernel,
    fun k _ b hb => ?_, fun e he => ?_⟩, ⟨rfl, rfl, by decide +kernel, by decide +kernel⟩, by decide +kernel, ⟨by decide +kernel, by decide +kernel, ⟨_, .head _, by decide, by decide⟩⟩⟩
  · exact nomatch (hb : b ∈ ([] : List Beat))
  · exact nomatch (hb : b ∈ ([] : List Beat))
  · exact nomatch (he : Outstanding.engine e ∈ ([] : List Outstanding))

theorem wit_MatrixBeatsAccumulateAndLand :
    (let s := mx fun m => { m with feeder := { m.feeder with lrow := { m.feeder.lrow with mags := m.feeder.lrow.mags.set 0 1 } } }
     let o := mf 3 0 15 9 0 0 0 0
     matrixReady s ∧ beatMayIssue s o [3] ∧ s.core.mat.feeder.lrow.finite = true ∧ (s.beatIn o).split.all (fun n => n == 0) = true ∧ s.core.fmt.cur.getLsbD 28 = false ∧
     (∀ q, q < 4 → ∀ g, g < 16 → (s.beatIn o).scale q g = 0) ∧ s.core.mat.tiles[3].data.elems[256 * 15 + 255] = 0) ∧
    (let s := mx fun m => { m with feeder := { m.feeder with lrow := { m.feeder.lrow with finite := false } } }
     let o := mf 0 0 0 8 0 0 0 0
     matrixReady s ∧ beatMayIssue s o [0] ∧ s.core.mat.feeder.lrow.finite = false) := by
  refine ⟨⟨readyOf _ (by decide +kernel) (by decide +kernel) (by decide +kernel), ⟨by decide +kernel, fun f h => ?_, by decide +kernel, by decide +kernel, by decide +kernel, by decide +kernel, by decide +kernel⟩,
      by decide +kernel, by decide +kernel, by decide +kernel, by decide +kernel, by decide +kernel⟩,
    ⟨readyOf _ (by decide +kernel) (by decide +kernel) (by decide +kernel), ⟨by decide +kernel, fun f h => ?_, by decide +kernel, by decide +kernel, by decide +kernel, by decide +kernel, by decide +kernel⟩,
      by decide +kernel⟩⟩
  · exact nomatch (h : (none : Option (BitVec 5)) = some f)
  · exact nomatch (h : (none : Option (BitVec 5)) = some f)

/-- A core whose checksum fault is pending, its drain served. -/
def faulted (ck : Word) (f : CkFault) : State := tk fun c => { c with served := true, mat := { c.mat with ckstat := ck, fault := some f } }

/-- A tile whose element (0, 0) is 1, with no checksum of it. -/
def oneTile : TileData := { TileData.reset with elems := TileData.reset.elems.set 0 0x3F800000 }

/-- Core 0 with that tile as tile 3, its drain served. -/
def oneDrain : State := tk fun c => { c with served := true, mat := { c.mat with tiles := c.mat.tiles.set 3 { Tile.reset with data := oneTile } } }

theorem oneCompared : ckSkips oneTile = false := by
  have a : oneTile.elems.any isNaN = false := Vector.any_eq_false.mpr fun i hi => by
    simp only [oneTile, TileData.reset, Vector.getElem_set, Vector.getElem_replicate]
    split <;> decide
  have b : oneTile.sides.any (fun x => x == 0x7F800000) = false := Vector.any_eq_false.mpr fun i hi => by
    simp only [oneTile, TileData.reset, Vector.getElem_replicate]
    decide
  unfold ckSkips
  rw [a, b]
  rfl

/-- A row that mismatches makes the comparison fail. -/
theorem badRow (k : CkData) (d : TileData) (r : Nat) (hr : r < 16) (h : k.rowBad d r = true) : k.bad d ≠ ([], []) := fun e =>
  List.ne_nil_of_mem (List.mem_filter.mpr ⟨List.mem_range.mpr hr, h⟩) (congrArg Prod.fst e)

theorem wit_DrainsAndChecksums :
    (matrixReady (tk id) ∧ beatsLanded (tk id) 3 ∧ (mf 3 31 0 0 2 0 0 0).flags.getLsbD 2 = false ∧ (tk id).core.mat.isFixed = false ∧ (tk id).core.mat.pend = false) ∧
    (let s := mx fun m => { m with queues := m.queues.set 2 [zeroEntry 0, zeroEntry 0, zeroEntry 0] }
     s.core.queueUse 2 < 4 ∧ s.core.queueUse 2 = 3) ∧
    (let s := mx fun m => { m with queues := m.queues.set 2 [zeroEntry 0, zeroEntry 0, zeroEntry 0, zeroEntry 0] }
     4 ≤ s.core.queueUse 2) ∧
    (let s := mx fun m => { m with ckstat := 0x80006 }
     s.core.mat.isFixed = true ∧ s.core.mat.ckTile = 3 ∧ (mf 3 0 0 4 0 0 0 0).flags.getLsbD 2 = true ∧ ({ s.core with served := true } : Core).mat.isFixed = true) ∧
    (let o := mf 3 0 0 4 0 0 0 0
     o.flags.getLsbD 2 = true ∧ (tk id).core.served = false) ∧
    (let s := tk fun c => { c with served := true, mat := { c.mat with tiles := c.mat.tiles.set 3 { Tile.reset with data := { TileData.reset with ovc := 1 } } } }
     s.core.served = true ∧ ckSkips (s.core.mat.tile 3).data = true ∧ s.core.queueUse 0 < 4) ∧
    (let s := faulted 1 ⟨0, 0, 1, 0x8000000000000000000000000000000000000000000000000000000000000001⟩
     s.core.mat.pend = true ∧ s.core.served = true ∧ s.core.mat.fault.isSome = true ∧
     (0x8000000000000000000000000000000000000000000000000000000000000001 : BitVec 256).getLsbD 255 = true) ∧
    (let s := faulted 0x40001 ⟨0, 0, 3, 1⟩
     s.core.mat.pend = true ∧ s.core.mat.loc = true ∧ s.core.served = true ∧ beatsLanded s s.core.mat.ckTile.toNat ∧ s.core.correction = none) ∧
    (oneDrain.core.served = true ∧ oneDrain.core.mat.isFixed = false ∧ oneDrain.core.queueUse 0 < 4 ∧ ckSkips (oneDrain.core.mat.tile 3).data = false ∧
     (oneDrain.core.ckData 3 (oneDrain.core.mat.tile 3).data).bad (oneDrain.core.mat.tile 3).data ≠ ([], [])) ∧
    (let c : Core := { oneDrain.core with tol := Vector.replicate 56 0x7F800000, mat := { oneDrain.core.mat with ckstat := 0x40007, fault := some ⟨0, 0, 1, 1⟩ } }
     c.mat.pend = true ∧ c.served = true ∧ c.mat.ckTile = 3 ∧ c.mat.fault = some ⟨0, 0, 1, 1⟩ ∧ (c.correction.map fun y => (y.1, y.2.1)) = some (0, 0) ∧ c.queueUse 0 < 4 ∧
     4 ≤ ({ c with mat := { c.mat with queues := c.mat.queues.set 0 (List.replicate 4 (zeroEntry 0)) } } : Core).queueUse 0) ∧
    (let s := tk fun c => { c with mat := { c.mat with ckstat := 1, fault := some ⟨0, 0, 1, 1⟩ } }
     s.core.mat.pend = true ∧ s.core.served = false ∧ s.core.mat.loc = false) := by
  refine ⟨⟨readyOf _ (by decide +kernel) (by decide +kernel) (by decide +kernel), fun b hb => ?_, by decide +kernel⟩, by decide +kernel, by decide +kernel, by decide +kernel, by decide +kernel,
    ⟨rfl, by decide +kernel, by decide +kernel⟩, by decide +kernel, ⟨by decide +kernel, by decide +kernel, by decide +kernel, fun b hb => ?_, by decide +kernel⟩,
    ⟨by decide +kernel, by decide +kernel, by decide +kernel, oneCompared, badRow _ _ 0 (by decide) (by decide +kernel)⟩, by decide +kernel, by decide +kernel⟩
  · exact nomatch (hb : b ∈ ([] : List Beat))
  · exact nomatch (hb : b ∈ ([] : List Beat))

/-- Core 0 in its handler. -/
def inHnd (f : Core → Core) : State := tk fun c => f (c.setHnd true)

theorem wit_CalibrationInjectionAndMatrixContext :
    (matrixReady (tk id) ∧ (mf 3 0xFFF 15 0 0 15 1 4 true).mac.toNat ≤ 4 ∧ (∀ x ∈ (tk id).core.mat.beats, x.bank = true → x.left = 0) ∧ (tk id).core.wloadBusy = false ∧
      beatsLanded (tk id) 3 ∧ (mf 0 0 0 0 0 0 0 3).mac.toNat < 4 ∧ 0 ≤ ((tk id).core.bank 1).ck[1023] ∧ ((tk id).core.bank 1).ck[1023] < 2 ^ 23) ∧
    (let s := tk fun c => { c with mat := { c.mat with beats := [⟨1, 8, true, [], 0⟩] }, arrays := c.arrays.set 4 { c.arrays[4] with queued := true } }
     (∃ x ∈ s.core.mat.beats, x.bank = true ∧ x.left ≠ 0) ∧ s.core.arrays[4].queued = true ∧ s.core.calFree (4 / 4) = false ∧
     ({ s.core with mat := { s.core.mat with beats := [] } } : Core).calFree (4 / 4) = true) ∧
    (let s : State := { tk (fun c => { c with arrays := c.arrays.set 7 ⟨none, some 0, false, false, none⟩ }) with ev := { arr := 7 } }
     s.ev.arr < 8 ∧ s.core.arrays[7].busy = some 0 ∧ 0 ≤ s.core.wall ∧ s.focus = .core s.ev.core ∧ s.core.task.isSome = true ∧
     ({ s.core with wall := 0, arrays := s.core.arrays.set 7 ⟨none, some 1, false, false, none⟩ } : Core).arrays[7].busy = some 1) ∧
    (let s : State := { State.reset with core := { Core.reset with mon := { Mon.reset with calper := 1 } }, ev := { arr := 7 } }
     s.ev.arr < 8 ∧ s.focus = .core s.ev.core ∧ s.core.task.isNone = true ∧ s.core.stopped = false ∧ s.core.mon.calper ≠ 0 ∧ s.core.arrays[7].busy = none ∧ s.core.arrays[7].queued = false ∧
       s.core.arrays[7].monAt = none ∧ s.core.mon.mcode = 0 ∧ ({ s.core.mon with mcode := 1 } : Mon).mcode ≠ 0 ∧
       (let c := { s.core with arrays := s.core.arrays.set 7 ⟨none, none, false, false, some 5⟩, wall := 5 }
        c.arrays[7].monAt = some 5 ∧ c.wall < 5 + c.mon.calper.toNat ∧ ¬ { c with wall := 6 }.wall < 5 + c.mon.calper.toNat)) ∧
    (inTask (tk id) ∧ (tk id).core.hnd = false) ∧
    (inTask (inHnd id) ∧ (inHnd id).core.hnd = true ∧ (inHnd id).core.msaved = false ∧ (inHnd id).core.mcopy.isNone = true) ∧
    (let s := inHnd fun c => { c with msaved := true, mcopy := some MatCtx.reset }
     inTask s ∧ s.core.hnd = true ∧ s.core.msaved = true ∧ s.core.mcopy = some MatCtx.reset ∧ s.dev.usable s.ctx (s.core.mon.csave + 0x160000) matPages = false ∧
       (mapped s.dev).usable s.ctx (s.core.mon.csave + 0x160000) matPages = true ∧ { s.core with mcopy := none }.mcopy.isNone = true) ∧
    (let s := inHnd fun c => { c with mat := { c.mat with beats := [⟨1, 8, false, [], 0⟩] } }
     inTask s ∧ s.core.hnd = true ∧ s.core.msaved = false ∧ ∃ b ∈ s.core.mat.beats, b.tiles.getLsbD 3 = true ∧ b.left ≠ 0) := by
  refine ⟨⟨readyOf _ (by decide +kernel) (by decide +kernel) (by decide +kernel), by decide +kernel, fun b hb _ => ?_, by decide +kernel, fun b hb => ?_, by decide +kernel, by decide +kernel, by decide +kernel⟩,
    ⟨⟨_, .head _, rfl, by decide⟩, by decide +kernel, by decide +kernel, by decide +kernel⟩, by decide +kernel, by decide +kernel, ⟨inTaskOf _ (by decide +kernel) (by decide +kernel), by decide +kernel⟩, ⟨inTaskOf _ (by decide +kernel) (by decide +kernel), by decide +kernel⟩,
    ⟨inTaskOf _ (by decide +kernel) (by decide +kernel), by decide +kernel, by decide +kernel, rfl, by decide +kernel, by decide +kernel, by decide +kernel⟩,
    ⟨inTaskOf _ (by decide +kernel) (by decide +kernel), by decide +kernel, by decide +kernel, ⟨_, .head _, by decide, by decide⟩⟩⟩
  · exact nomatch (hb : b ∈ ([] : List Beat))
  · exact nomatch (hb : b ∈ ([] : List Beat))

theorem wit_SetupRegistersReadAndWrite :
    (inTask (two 0 0) ∧ (two 0 0).core.active (xf 3 1 2 0 0 0).g = true) ∧
    (let w : Word := 0x1511_0E0E
     w.toNat / 2 ^ 5 % 8 = 0 ∧ w.toNat / 2 ^ 13 % 8 = 0 ∧ w.toNat / 2 ^ 21 % 8 = 0 ∧ w.toNat / 2 ^ 30 % 2 ^ 34 = 0 ∧ w.toNat % 32 = 0xE ∧ w.toNat / 2 ^ 8 % 32 = 0xE ∧
     w.toNat / 2 ^ 16 % 32 = 0x11 ∧ w.toNat / 2 ^ 24 % 8 = 5 ∧ w.toNat / 2 ^ 28 % 4 = 1) ∧
    ((0x20 : Word).toNat / 2 ^ 5 % 8 ≠ 0 ∧ (0x0100 : Word).toNat % 32 = 0) ∧
    ((tk id).core.fmt.pend = [] ∧ (tk fun c => { c with fmt := ⟨0, [(4, 1), (5, 2)]⟩ }).core.fmt.pend = [(4, 1)] ++ [(5, 2)]) ∧
    ((elemVal 0 0x7FC00000).isNan = true ∧ (elemVal 0 0x7F800000).isNan = false) ∧ (xf 3 1 2 0 0 55).imm.toNat % 64 < 56 ∧
    ((tk id).core.rbq = [] ∧ (tk id).core.task.isSome = true ∧ (tk id).core.rbq.length < 16 ∧ (tk id).core.seg = none) ∧
    (16 ≤ (tk fun c => { c with rbq := List.replicate 16 0 }).core.rbq.length ∧ (tk fun c => { c with rbq := List.replicate 15 0 }).core.rbq.length < 16) ∧
    (let s := tk fun c => { c with fmt := ⟨0, [(0, 9), (1, 8)]⟩ }
     s.core.fmt.pend = (0, 9) :: [(1, 8)] ∧ ∀ p ∈ [((1 : Nat), (8 : Word))], p.1 ≠ 0) := by
  refine ⟨⟨inTaskOf _ (by decide +kernel) (by decide +kernel), by decide +kernel⟩, ?_⟩; decide +kernel

/-- A nest of one dimension of no iterations with no slots. -/
def nest0 (n : Nat) : Nest := ⟨[n], []⟩

/-- A replay in its iteration `it`. -/
def replay0 (slots : List (BitVec 4 × Nat × List Int)) (a0 : List Addr) (it : Nat) : Replay :=
  ⟨⟨[3, 4], slots⟩, a0, 12, it, 0, false, 0, 1, [], [], [], 0, false⟩

/-- Core 0 with a task and a loaded bundle. -/
def withCode (f : Core → Core) : State :=
  let s := (two 0 0).withFetchWord 384 0
  { s with core := f s.core }

theorem wit_FeederAndLoopNestConfigure :
    (inTask (two 1 0) ∧ (two 1 0).core.active (xf 3 1 0 0 0 0).g = true ∧ (two 1 0).core.task = some ti ∧ ((two 1 0).core.sreg 1).toNat % 64 ≠ 0) ∧
    (let s := two (8192 - 64) 0
     (s.core.sreg 1).toNat % 64 = 0 ∧ (s.core.sreg 1).toNat + 64 ≤ ti.foot ∧ (∀ q ∈ s.dev.poison, q.1 ≠ .spad ti.part ti.slot) ∧ fdValid (s.bytesAt .own (s.core.sreg 1).toNat 64) = false) ∧
    (let s := tk fun c => { c with spad := pad [(8, 1, 1)] }
     (s.core.sreg 1).toNat % 64 = 0 ∧ (s.core.sreg 1).toNat + 64 ≤ ti.foot ∧ fdValid (s.bytesAt .own 0 64) = true) ∧
    (let s := tk fun c => { c with spad := pad [(0, 1, 6), (1, 1, 4), (3, 1, 1), (4, 1, 2), (5, 1, 3), (6, 2, 0xFFF)] }
     s.core.frozenReplay = false ∧ (s.core.sreg 1).toNat + 128 ≤ ti.foot ∧ nestValid (s.bytesAt .own 0 128) = true) ∧
    (nestValid ((tk id).bytesAt .own 0 128) = false ∧ (tk id).core.nest = none ∧ (tk id).core.replay = none) ∧
    (let s := withCode fun c => { c with nest := some (nest0 0) }
     s.core.nest = some (nest0 0) ∧ s.core.replay = none ∧ s.core.frozenReplay = false ∧ (nest0 0).total = 0 ∧
     s.afterBundles s.core.code ((xf 0 1 2 0 0 0).fn.toNat % 32 + 1) s.core.seqPos = some 25) ∧
    (nest0 7).total ≠ 0 ∧
    (let s := tk fun c => { c with replay := some (replay0 [(15, 7, [1, -2])] [5] 11) }
     s.core.replay = some (replay0 [(15, 7, [1, -2])] [5] 11) ∧ (xf 3 0 0 0 7 0).fn.toNat % 16 = 7 ∧ (xf 3 0 0 0 1 0).fn.toNat % 16 = 1 ∧
     (replay0 [(15, 7, [1, -2])] [5] 11).nest.counts = 3 :: [4] ∧ (replay0 [(15, 7, [1, -2])] [5] 11).nest.slots = [(15, 7, [1, -2])] ∧
     (replay0 [(15, 7, [1, -2])] [5] 11).a0 = [5]) := by
  refine ⟨⟨inTaskOf _ (by decide +kernel) (by decide +kernel), by decide +kernel⟩, ?_⟩; decide +kernel

/-- An engine operation with nothing to move. -/
def eng (kind st : Nat) (f : EngineOp → EngineOp := id) : EngineOp :=
  f { kind := kind, tok := 31, ctr := some 7, scope := 4, pieces := [], status := st, bytes := 0, flags := 0, trapOn := true, desc := [], va := 0, image := [],
      handle := 0, pos := 0, group := 0, node := 0, carry := [] }

/-- A descriptor of one row of elements, its spaces given. -/
def cpyPad (src q dst : Nat) : Mem := pad [(0xA, 1, src), (0xB, 1, q), (0xF, 1, 1), (0x1A, 1, dst), (0x1E, 1, 2), (0x30, 4, 4), (0x34, 6, 4), (0x3A, 6, 4)]

theorem wit_EngineOperationsStart :
    (inTask (tk id) ∧ (tk id).core.active (xf 3 1 0 0 0 0).g = true ∧ copyDescOk (tk id) (xf 3 1 0 0 0 0) ti ∧ (tk id).core.engineCount < 16 ∧
      copyValid 1 ((tk id).bytesAt .own 0 256) = false) ∧
    (let s := two (8192 - 256) 0
     copyDescOk s (xf 3 1 0 0 0 0) ti) ∧
    (let s := tk fun c => { c with outst := List.replicate 16 (.engine (eng 1 0)) }
     16 ≤ s.core.engineCount) ∧
    (let s := tk fun c => { c with spad := cpyPad 1 0 1, outst := List.replicate 15 (.engine (eng 1 0)) }
     s.core.engineCount < 16 ∧ copyValid 1 (s.bytesAt .own 0 256) = true ∧ (copyOf false (s.bytesAt .own 0 256)).srcSp ≠ 4) ∧
    (let s := tk fun c => { c with spad := memWrite (memWrite (cpyPad 4 3 1) 0x30 (bytesOfNat 4 1024)) 0x34 [0] }
     copyValid 1 (s.bytesAt .own 0 256) = true ∧ (copyOf false (s.bytesAt .own 0 256)).aligned = true ∧ (copyOf false (s.bytesAt .own 0 256)).srcSp = 4 ∧
     (s.core.mat.queue (copyOf false (s.bytesAt .own 0 256)).q).isEmpty = true ∧ s.core.mat.drains.length = 0) ∧
    (copyValid 3 ((tk fun c => { c with spad := cpyPad 1 0 5 }).bytesAt .own 0 256) = true ∧ copyValid 4 ((tk fun c => { c with spad := cpyPad 5 0 1 }).bytesAt .own 0 256) = true) ∧
    (let cd : CopyDesc := { copyOf false [] with srcSp := 1, dstSp := 1, dims := [(1, 1, 1)], ssz := 1, dsz := 1, conv := none, start := 0, src := 0x7FFFF, dst := 0x7FFFF }
     cd.srcSp = 1 ∧ cd.dstSp = 1 ∧ cd.dims = [(1, 1, 1)] ∧ cd.ssz = 1 ∧ cd.dsz = 1 ∧ cd.conv.isNone = true ∧ cd.start = 0 ∧ cd.src + 1 ≤ 0x80000 ∧ cd.dst + 1 ≤ 0x80000) ∧
    (let s := tk fun c => c.setA 1 1 none
     s.core.wloadBusy = false ∧ s.core.bankBusy (1 - s.core.bankNo) = false ∧ s.core.mat.beats.length = 0 ∧ s.dev.promised (s.core.aTaint (xf 3 0 0 1 0 0).base) = [] ∧
     s.wloadCheck [] (s.core.areg (xf 3 0 0 1 0 0).base) = .error (0x15, none) ∧ 0x15 ≠ 0) ∧
    (outs (.engine (eng 7 0))).core.wloadBusy = true := by
  refine ⟨⟨inTaskOf _ (by decide +kernel) (by decide +kernel), by decide +kernel, ⟨by decide +kernel, by decide +kernel, by decide +kernel, fun q hq => ?_⟩, by decide +kernel, by decide +kernel⟩,
    ⟨by decide +kernel, by decide +kernel, by decide +kernel, fun q hq => ?_⟩, ?_⟩
  · exact nomatch (hq : q ∈ ([] : List (Place × Nat × Nat)))
  · exact nomatch (hq : q ∈ ([] : List (Place × Nat × Nat)))
  · decide +kernel

theorem wit_EngineOperationsComplete :
    (let e := eng 1 0 fun e => { e with pieces := [⟨.own, 0x7FFFF, [1]⟩] }
     (outs (.engine e)).core.outst[(outs (.engine e)).ev.index]? = some (.engine e) ∧ (e.kind = 1 ∨ e.kind = 2) ∧ (∀ p ∈ e.pieces, p.place = .own) ∧ e.carry = [] ∧
     (outs (.engine e)).core.mer = false ∧ (outs (.engine e)).ev.late = 0) ∧
    (let e := eng 2 0 fun e => { e with pieces := [⟨.phys, 0x7FFFF, [1]⟩] }
     (outs (.engine e)).core.outst[(outs (.engine e)).ev.index]? = some (.engine e) ∧ (e.kind = 1 ∨ e.kind = 2) ∧ e.pieces = [⟨.phys, 0x7FFFF, [1]⟩] ∧ e.carry = []) ∧
    ((outs (.engine (eng 7 0))).core.outst[0]? = some (.engine (eng 7 0)) ∧ (eng 7 0).kind = 7 ∧ (eng 7 0).status = 0 ∧ (eng 7 0x16).status ≠ 0) ∧
    ((eng 3 7).status = 7 ∧ (eng 4 2).status = 2) ∧
    (let e := eng 3 0 fun e => { e with node := 9 }
     let s := outs (.engine e)
     e.status ≠ 2 ∧ e.status ≠ 7 ∧ e.node ≠ s.dev.node ∧ ∀ r ∈ s.dev.routes, r.node = e.node → s.dev.vports.getLsbD r.vport = false) ∧
    (let e := eng 3 0 fun e => { e with node := 9 }
     let s : State := { outs (.engine e) with dev := { Device.reset with routes := [⟨9, 15⟩], vports := 0x8000 }, ev := { ok := true } }
     e.node ≠ s.dev.node ∧ (∃ r ∈ s.dev.routes, r.node = e.node ∧ s.dev.vports.getLsbD r.vport = true) ∧ s.ev.ok = true ∧ e.kind = 3 ∧ e.status ≠ 8 ∧ e.carry = []) ∧
    ((eng 4 0).kind = 4 ∧ (∀ p ∈ (eng 4 0).pieces, p.place = .own) ∧ fabricStatus 3 9 = true ∧ fabricStatus 4 8 = true ∧ fabricStatus 3 0x0F = false ∧
     (eng 3 0).node = (tk id).dev.node ∧
     ({ ok := false, value := 0x0F } : EventData).ok = false ∧ ({ ok := false, value := 9 } : EventData).ok = false) ∧
    (let s := tk fun c => { c with counters := c.counters.set 7 (65535, 4) }
     inTask s ∧ s.core.active (xf 3 0 0 0 7 65535).g = true ∧ (s.core.counter (BitVec.ofNat 3 (xf 3 0 0 0 7 65535).fn.toNat)).1 ≤ (xf 3 0 0 0 7 65535).imm.toNat % 65536 ∧
     (xf 3 0 0 0 7 65534).imm.toNat % 65536 < (s.core.counter 7).1) := by
  refine ⟨by decide +kernel, by decide +kernel, by decide +kernel, by decide +kernel, by decide +kernel, by decide +kernel, by decide +kernel, ⟨inTaskOf _ (by decide +kernel) (by decide +kernel), by decide +kernel⟩⟩

/-! Witnesses for the statements about queues, gangs, combine buffers, collectives, firmware and the dispatcher. -/

/-- Hardware queue 3 of partition 0. -/
def hq (cap : Nat) (xs : List Word) (ws : List Nat) : HwQueue := ⟨0, 3, cap, 0, xs, ws⟩

/-- Core 0 with a task and queue 3. -/
def queued (q : HwQueue) (f : Core → Core := id) : State := world (fun v => { v with queues := [q] }) f

theorem wit_QueueInstructionsMoveItems :
    (let s := tk id
     inTask s ∧ s.core.active (xf 3 1 0 0 0 3).g = true ∧ s.core.task = some ti ∧ s.dev.hwq 0 3 = none) ∧
    (let s := queued (hq 1 [] [])
     s.dev.hwq 0 3 = some (hq 1 [] []) ∧ s.commitSeg.dev.hwq 0 3 = some (hq 1 [] []) ∧ (hq 1 [] []).items.length < (hq 1 [] []).cap ∧
     s.core.tflags.getLsbD 24 = false ∧ s.core.deqtAt = none ∧ (xf 3 1 0 0 0 3).imm.toNat / 256 = 0 ∧ (xf 3 1 0 0 0 0x103).imm.toNat / 256 ≠ 0) ∧
    (let s := queued (hq 1 [7] [])
     s.commitSeg.dev.hwq 0 3 = some (hq 1 [7] []) ∧ (hq 1 [7] []).cap ≤ (hq 1 [7] []).items.length ∧ s.commitSeg.dev.combines = [] ∧
     s.givenItem 3 = none ∧ s.commitSeg.givenItem 3 = none ∧ s.core.late = false ∧ (xf 3 1 3 0 1 0).fn.getLsbD 0 = true) ∧
    (let s := world (fun v => { v with queues := [hq 1 [] [1, 2]], slots := [slot 1 2 (some Core.reset)] }) id
     (hq 1 [] [1, 2]).waiters = 1 :: [2] ∧ (s.commitSeg.dev.slotOf 0 1).map (fun y => (y.st, y.qnum, y.kept.isSome, y.dreg)) = some (2, 3, true, 5)) ∧
    (let s := world fun v => { mapped v with queues := [hq 65536 [] [9]], slots := [slot 0 1] }
     s.core.late = false ∧ s.suspendCheck .x = none ∧ s.core.outst = [] ∧ s.core.seg = none ∧ s.core.results = [] ∧ s.core.landing = [] ∧ s.core.dirty = [] ∧
     s.dev.slotOf ti.part ti.slot = some (slot 0 1) ∧ s.givenItem 3 = none ∧ ti.slot ∉ (hq 65536 [] [9]).waiters ∧ (slot 0 1).deqtQ = none ∧ (slot 0 1).deqtGot = none) ∧
    (let y := { slot 1 1 with deqtQ := some 3 }
     let s := world fun v => { v with queues := [hq 1 [] [1]], slots := [y] }
     s.commitSeg.dev.slotOf 0 1 = some y ∧ y.st ≠ 2 ∧ y.deqtQ = some 3) ∧
    (let y := { slot 0 1 with deqtGot := some (3, 9) }
     let s := world fun v => { v with queues := [hq 1 [] []], slots := [y] }
     s.givenItem 3 = some 9 ∧ s.commitSeg.givenItem 3 = some 9) ∧
    ((tk fun c => { c with deqtAt := some (0, false) }).core.deqtAt = some (0, false) ∧ (tk fun c => { c with deqtAt := some (0, true) }).core.deqtAt = some (0, true) ∧ (tk fun c => { c with tflags := 0x1000000 }).core.tflags.getLsbD 24 = true) ∧
    (let s := outs (.queue 3 7 (some 3) 1)
     s.core.outst[s.ev.index]? = some (.queue 3 7 (some 3) 1) ∧ (3 : Reg) ≠ 0) := by
  refine ⟨⟨inTaskOf _ (by decide +kernel) (by decide +kernel), by decide +kernel⟩, ?_⟩; decide +kernel

/-- A scheduler entry of partition 0 with a record. -/
def entry (lid st : Nat) (r : List Byte) : SchedEntry :=
  { part := 0, lid := lid, counter := 0, set := true, record := r, va := 0, failed := false, state := st, started := 0, gangs := 1, tasksLeft := 1, owed := 2,
    triggered := false, failCause := none, burst := 0, age := 0, dome := none }

theorem wit_BarriersPhasesTriggersAndSpawn :
    (let s := pair { ti with gsize := 2 } 0x3FFFFFFF 0x40000000
     inTask s ∧ s.core.active (xf 3 1 0 0 0 1).g = true ∧ s.core.task = some { ti with gsize := 2 } ∧ s.core.amosLeft = false ∧ s.core.owesTrig = false ∧
     s.dev.gangOf ti.gang = some gang0 ∧ 1 < ti.barriers ∧ gang0.bars[1]? = some (4, [1]) ∧ ti.barriers ≤ (xf 3 1 0 0 0 2).imm.toNat % 64 ∧
     (∀ a ∈ s.core.arrivals, a ≠ (1, 4)) ∧ (∀ k, k < gang0.slots.length → k = ti.cidx.toNat ∨ k ∈ [1] ∨ gang0.slots.getD k 0 ∈ gang0.ended) ∧
     (1 < gang0.slots.length ∧ 1 ≠ ti.cidx.toNat ∧ 1 ∉ ([] : List Nat) ∧ gang0.slots.getD 1 0 ∉ gang0.ended) ∧
     (s.core.sreg (xf 3 1 0 0 0 0).a).toNat < 2 ^ 30 ∧ 2 ^ 30 ≤ (s.core.sreg (xf 3 2 0 0 0 0).a).toNat ∧ s.commitSeg.dev.freeSlots 0 = []) ∧
    (let s := pair { ti with gsize := 2 } 0 0
     let s : State := { s with core := { s.core with arrivals := [(0, 0)], owesTrig := true, outst := [.atomic .own 0 4 0 0 0 none 0 0 []] } }
     (0, 0) ∈ s.core.arrivals ∧ gang0.bars[0]? = some (0, []) ∧ s.core.amosLeft = true ∧ s.core.owesTrig = true ∧ ti.spawned = false ∧
     s.dev.holdFull ti.part (s.dev.triggerSignals ti.part ti.lid) = false) ∧
    (let v := ({ Device.reset with entries := [entry1] } : Device).updDome 0 fun d => { d with hold := true, held := List.replicate 4096 (.trigger 0 1) }
     v.holdFull ti.part (v.triggerSignals ti.part ti.lid) = true) ∧
    (let w : GStore := ⟨0, .unit (.core 0), 0, 0x1000, [7, 8], [], none⟩
     let s := tk fun c => { c with dirty := [w] }
     s.core.dirty = [w] ∧ w.pubs = [] ∧ s.core.landing = [] ∧ s.memOk = true) ∧
    (let v : Device := { Device.reset with entries := [entry 1 2 []] }
     (v.entryOf ti.part ti.lid) = some (entry 1 2 []) ∧ 1 < (entry 1 2 []).owed) ∧
    (let s := world fun v => v.updPart 0 fun q => { q with tableSize := 2, spawnedLive := 4095 }
     (s.commitSeg.dev.part ti.part).spawnedLive < 4096 ∧ s.commitSeg.dev.freeSlots ti.part ≠ []) := by
  refine ⟨⟨inTaskOf _ (by decide +kernel) (by decide +kernel), by decide +kernel⟩, ?_⟩; decide +kernel

/-- A combine buffer of context 0 in dome 0 of two slots for two rows of 64 bytes, releasing into queue 3. -/
def comb (xs : List CmbSlot) : Combine :=
  { ctx := 0, dome := 0, part := 0, word := 0x0000001808010002, off := 0, slots := xs, discards := 0, seq := 255, opens := 0, stalled := false }

/-- A combine slot of two rows in a state. -/
def cs (st : Nat) (f : CmbSlot → CmbSlot := id) : CmbSlot := f { CmbSlot.reset with state := st, k := 2, gen := 0x3FFF }

theorem wit_CombineBuffersOpenReceiveAndRelease :
    (let s := world (fun v => { v with combines := [comb [cs 1, cs 0]] }) fun c => (c.setS 2 15 none)
     inTask s ∧ s.core.active (xf 3 1 2 0 0 0).g = true ∧ s.core.task = some ti ∧ s.dev.combineOf s.ctx s.focus.dome = some (comb [cs 1, cs 0]) ∧
     s.commitSeg.dev.combineOf s.ctx s.focus.dome = some (comb [cs 1, cs 0]) ∧ cmbSlots (comb []).word ≠ 0 ∧ (s.core.sreg 1).toNat % 64 = 0 ∧
     (s.core.sreg 1).toNat + 128 ≤ ti.foot ∧ (∀ q ∈ s.dev.poison, q.1 ≠ .spad ti.part ti.slot) ∧ openValid (comb []).word (s.bytesAt .own 0 128) = false ∧
     (s.core.sreg 2).toNat < 16 ∧ s.core.engineCount < 16) ∧
    (let s := world (fun v => { v with combines := [comb [cs 1, cs 0]] }) fun c => { c.setS 2 16 none with spad := pad [(4, 1, 1)] }
     openValid (comb []).word (s.bytesAt .own 0 128) = true ∧ [cs 1, cs 0][1]? = some (cs 0) ∧ (cs 1).state ≠ 0 ∧ s.core.tflags.getLsbD 24 = false ∧
     16 ≤ (s.core.sreg 2).toNat) ∧
    ((tk id).dev.combineOf (tk id).ctx (tk id).focus.dome = none ∧ ∀ y ∈ (comb [cs 1, cs 2]).slots, y.state ≠ 0) ∧
    ((outs (.engine (eng 6 0x0B))).core.outst[0]? = some (.engine (eng 6 0x0B)) ∧ (eng 6 0).kind = 6 ∧ (eng 6 0).handle = 0) ∧
    ([cs 1][0]? = some (cs 1) ∧ (cs 1).state = 1 ∧ (cs 1).gen.toNat = 0x3FFF ∧ (cs 1).k ≤ 2 ∧ 1 < (cs 1).k ∧ (cs 1).bitmap.getLsbD 1 = false ∧
      (cs 1 fun y => { y with bitmap := 2 }).bitmap.getLsbD 1 = true) ∧
    (let x := cs 1 fun y => { y with deadline := 5 }
     let s : State := { world (fun v => { v with combines := [comb [x]], time := 5 }) with ev := {} }
     s.dev.combineOf s.ev.ctx s.ev.dome = some (comb [x]) ∧ [x][s.ev.slot]? = some x ∧ x.state = 1 ∧ x.deadline ≠ 0 ∧ x.deadline ≤ s.dev.time ∧ x.mer = false) ∧
    (let s := world fun v => { v with combines := [comb [cs 2]], queues := [hq 1 [] []] }
     s.dev.combineOf s.ev.ctx s.ev.dome = some (comb [cs 2]) ∧ (comb [cs 2]).nextRelease = some 0 ∧ (comb [cs 0]).nextRelease = none ∧
     s.dev.hwq (comb []).part (cmbQueue (comb []).word) = some (hq 1 [] [])) ∧
    (let h : Word := handleOf 1 0x3FFF 0 0
     let s := world (fun v => { v with combines := [comb [cs 0, cs 1]] }) fun c => c.setS 1 h none
     s.core.sreg 1 = h ∧ h ≠ 0 ∧ handleNode h = s.dev.node ∧ s.dev.combineOf s.ctx (handleDome h) = some (comb [cs 0, cs 1]) ∧ [cs 0, cs 1][handleSlot h]? = some (cs 1) ∧
     (cs 1).gen.toNat = handleGen h ∧ handleGen h ≠ 0 ∧ (cs 1).mer = false ∧ (cs 1 fun y => { y with mer := true }).mer = true) ∧
    (let h : Word := handleOf 1 0x3FFF 0 9
     h ≠ 0 ∧ handleNode h ≠ (tk id).dev.node) ∧
    (let e := eng 6 0 fun e => { e with node := 9, handle := handleOf 1 1 0 9 }
     let s : State := { outs (.engine e) with dev := { Device.reset with routes := [⟨9, 15⟩], vports := 0x8000 }, ev := { ok := true } }
     e.status = 0 ∧ e.handle ≠ 0 ∧ e.node ≠ s.dev.node ∧ s.dev.reaches e.node = true ∧ (outs (.engine e)).dev.reaches e.node = false ∧ e.carry = [] ∧ s.ev.ok = true) ∧
    ((cs 2).state = 2 ∧ (cs 2).gen.toNat = 0x3FFF ∧ 1 < (cs 2).k ∧ (cs 2).bitmap.getLsbD 1 = false) := by
  refine ⟨⟨inTaskOf _ (by decide +kernel) (by decide +kernel), by decide +kernel⟩, ?_⟩; decide +kernel

theorem wit_CollectivesBurstsAndPower :
    (let s := two 0 1
     inTask s ∧ s.core.active (xf 3 1 2 0 0 31).g = true ∧ s.core.task = some ti ∧ (s.core.sreg 1).toNat % 64 = 0 ∧ (s.core.sreg 1).toNat + 64 ≤ ti.foot ∧
     (∀ q ∈ s.dev.poison, q.1 ≠ .spad ti.part ti.slot) ∧ s.core.engineCount < 16 ∧ s.commitSeg.dev.groups = [] ∧ collForm (s.bytesAt .own 0 64) = true ∧ collValid (s.bytesAt .own 0 64) 1 = true ∧
     (s.core.sreg 2).toNat ≠ 0 ∧ (s.core.sreg 3).toNat = 0 ∧ s.core.wall / 256 ≤ s.core.window ∧ s.core.phint = none) ∧
    (let g : CollGroup := ⟨0, [⟨9, 1, 0⟩, ⟨0, 1, 0⟩], []⟩
     let s := world fun v => { v with groups := [g] }
     s.commitSeg.dev.group (collGroup (s.bytesAt .own 0 64)) = some g ∧ s.commitSeg.dev.rankIn g ti = some 1 ∧ collValid (s.bytesAt .own 0 64) g.members.length = true ∧
     s.core.outst[s.ev.index]? = none ∧ (s.collParts g 0 g.members s.ev.data).isNone = true) ∧
    (let g : CollGroup := ⟨0, [⟨9, 1, 0⟩, ⟨9, 2, 0⟩], []⟩
     let s : State := { world fun v => { v with groups := [g] } with ev := { data := List.replicate 10 0 ++ [1] } }
     (s.collParts g 0 g.members s.ev.data).map (fun ps => ps.any fun y => !collAgree y.desc (sliceOf s.ev.data 0 64)) = some true ∧ g.joined = []) ∧
    ((outs (.engine (eng 5 0x0B))).core.outst[0]? = some (.engine (eng 5 0x0B)) ∧ (eng 5 0x0B).status ≠ 0) ∧
    (let d := memRun (pad [(0x10, 8, 0x1000), (0x1A, 1, 2)]) 0 64
     let e := eng 5 0 fun e => { e with desc := d, image := [7, 8] }
     let g : CollGroup := ⟨0, [⟨0, 1, 0⟩], [(0, 0, 0, d)]⟩
     let s := world (fun v => { mapped v with groups := [g] }) fun c => { c with outst := [.load (.s 1 0 none) none, .engine e] }
     s.core.outst[s.ev.index]? ≠ none ∧ s.dev.group s.ev.group = some g ∧ (s.collParts g 0 g.members s.ev.data).map (fun ps => ps.map fun y => (y.status, collKind y.desc, y.sent)) = some [(0, 2, [7, 8])] ∧
     s.collUnit g 0 = some s.focus ∧ s.core.collOp g.group = some (1, e) ∧ e.carry = [] ∧
     (match s.collPieces (collRecv d) [(0, [7, 8])] with | .ok ps => ps.length | .error _ => 0) = 2 ∧ ({ s with ev := { index := 2 } } : State).core.outst[2]? = none) ∧
    (let s := tk fun c => { c with wall := 256, burstBeats := 33, burstPaid := false }
     s.core.window < s.core.wall / 256 ∧ s.core.allowance s.core.window < s.core.burstBeats) ∧
    (let s := evt { value := 1901, count := 0 }
     s.dev.powerLimit < s.ev.value ∧ 95 * s.dev.powerLimit ≤ 100 * 1805 ∧ 100 * 1804 < 95 * s.dev.powerLimit) := by
  refine ⟨⟨inTaskOf _ (by decide +kernel) (by decide +kernel), by decide +kernel⟩, ?_⟩; decide +kernel

/-- The record of a launch of one gang of one task, with its kernel at 0x200000. -/
def rec1 : List Byte := memRun (pad [(0, 4, 0x200000), (0xA, 2, 2), (0xC, 4, 1), (0x10, 1, 1), (0x14, 4, 1), (0x18, 4, 1), (0x1C, 4, 1)]) 0 128

/-- That record at 0, its kernel, and the tables. -/
def kernelFields : List (Nat × Nat × Nat) :=
  [(0, 4, 0x200000), (0xA, 2, 2), (0xC, 4, 1), (0x10, 1, 1), (0x14, 4, 1), (0x18, 4, 1), (0x1C, 4, 1), (0x200000, 4, 0x424F4B46), (0x200006, 2, 1),
    (0x200020, 4, 0x5654414E), (0x200024, 2, 2), (0x200028, 8, 64), (0x200030, 8, 4096)]

/-- Memory with them and the tables. -/
def kernelMem : Mem :=
  [(2, 0x20), (0xA, 2), (0xC, 1), (0x10, 1), (0x14, 1), (0x18, 1), (0x1C, 1), (0x200000, 0x46), (0x200001, 0x4B), (0x200002, 0x4F), (0x200003, 0x42),
    (0x200006, 1), (0x200020, 0x4E), (0x200021, 0x41), (0x200022, 0x54), (0x200023, 0x56), (0x200024, 2), (0x200028, 0x40), (0x200031, 0x10),
    (0xFF00000, 1), (0xFF00003, 0x10), (0xFF00004, 0xFF), (0xFF10000, 1), (0xFF10003, 0x20), (0xFF10004, 0xFF), (0xFF20000, 1), (0xFF20003, 0x30),
    (0xFF20004, 0xFF), (0xFF30000, 1), (0xFF30003, 0x40), (0xFF30004, 0xFF), (0xFF40000, 0x8F), (0xFF40001, 0x1A)]

theorem kernelMem_holds_the_kernel : pad (kernelFields ++ tables) = kernelMem := by decide +kernel

/-- Partition 0 on cluster 0, ONLINE. -/
def online (v : Device) : Device :=
  v.updPart 0 fun q => { q with state := 1, clusters := 1, tableSize := 4, shares := [4096, 0, 0, 0], freeAreas := [0], taskArea := 0x300000 }

/-- The queue processor of that partition, whose own context has the same tables. -/
def fw (d : Device → Device) (c : Core → Core := id) : State :=
  let s := qp c
  let v := mapped s.dev
  { s with dev := d (online { v with mem := kernelMem, contexts := v.contexts ++ [(8, bytesOfNat 8 0xFF00000 ++ [1, 8] ++ List.replicate 54 0)] }) }

/-- Its leaf, as its translation cache holds it. -/
def cachedLeaf : List Cached := [⟨8, 0, 4, 0x1A8F⟩]

theorem wit_FirmwareInstructionsAct :
    (let s := fw id fun c => { c with tlb := cachedLeaf }
     s.focus = .qp 0 0 ∧ s.mayName 0 = true ∧ s.mayName 7 = false ∧ (s.core.areg (xf 3 1 2 0 0 0).base) = 0 ∧
     (match s.chunks 0 .load 1 0 128 with | .ok ps => ps.length == 128 && (s.poisoned 1 ps).isNone | .error _ => false) = true ∧
     s.place 0 (addrIn 0 (0 + 0x13)) 1 .store = .ok (.phys, 0x13) ∧ (s.dev.part 0).ready = [] ∧
     (let t := (s.touch 0 0 128 .load).touch 0 (addrIn 0 (0 + 0x13)) 1 .store
      let r := s.dev.readVa s.ctx 0 128
      recFlag r 7 = false ∧ t.dev.noEntry 0 (recLid r) = false ∧ (t.atomicWrite .phys 0x13 [BitVec.ofNat 8 (fieldAt r 0x13 1 + 0x80)] 5).dev.recordRejects 0 0 r = none)) ∧
    (let s := fw (fun v => { v with poison := [(.phys, 64, 8)] }) fun c => { c with tlb := cachedLeaf }
     (match s.chunks 0 .load 1 0 128 with | .ok ps => (s.poisoned 1 ps).isSome | .error _ => false) = true) ∧
    (match (qp id).recordAt 0 with | .error x => x | .ok _ => (9, 9)) = (5, 0) ∧
    (fw fun v => { v with entries := List.replicate 4096 (entry 9 0 []) }).dev.noEntry 0 1 = true ∧ (fw id).dev.noEntry 0 1 = false ∧
    (∀ b ∈ (fw fun v => { v with combines := [comb []] }).dev.combines, b.part = 0 → cmbQueue b.word ≠ 4) ∧
    (let s := fw id
     (match s.dev.walk 0 0 with | .ok x => (x.1, s.dev.pinned 0 0 x.2) | .error _ => (9, false)) = (4, true)) ∧
    (let s := fw fun v => { v with mem := memWrite v.mem 0xFF40000 (bytesOfNat 8 0x188F) }
     (match s.dev.walk 0 0 with | .ok x => (x.1, s.dev.pinned 0 0 x.2) | .error _ => (9, true)) = (4, false)) ∧
    (fw fun v => { v with entries := [entry 1 2 []] }).dev.recordRejects 0 (0x10000 : Addr) rec1 = some 3 ∧
    (let e := { entry 0 0 [] with counter := 1 }
     let s := fw fun v => { v with entries := [e] }
     s.dev.entryOf 0 ((s.core.sreg 1).toNat % 2 ^ 31) = some e ∧ e.state < 2 ∧ -32768 < e.counter ∧ e.state = 0 ∧ e.counter = 1 ∧ e.set = true) ∧
    (let e := { entry 0 0 [] with counter := -32767, set := false }
     let s := fw fun v => { v with entries := [e] }
     s.dev.entryOf 0 ((s.core.sreg 1).toNat % 2 ^ 31) = some e ∧ -32768 < e.counter ∧ e.set = false ∧ (s.dev.part 0).state = 1) ∧
    (let s := fw fun v => { v with entries := [entry 1 1 rec1] }.updPart 0 fun q => { q with ready := [1] }
     (s.dev.part 0).ready = 1 :: [] ∧ s.dev.entryOf 0 1 = some (entry 1 1 rec1) ∧ s.dev.gangsOf 0 rec1 ≠ 0) ∧
    (fw id).coresOf 0 0 = [] ∧
    (let s : State := { fw id with parked := [(.core 0, { Core.reset with task := some ti })] }
     s.coresOf 0 1 = [0]) ∧
    (let s := fw id fun c => c.setS 1 65536 none
     s.mayName ((xf 3 1 2 0 0 3).imm.toNat / 2 ^ 8 % 8) = true ∧ (s.core.sreg 1).toNat % 2 ^ 17 = 65536 ∧ s.dev.usable s.ctx 0 ((8 * 65536 + 65535) / 65536) = true ∧
     s.dev.hwq 0 3 = none ∧ s.dev.combines = []) ∧
    ((fw fun v => { v with queues := [hq 1 [7] []] }).dev.hwq 0 3 = some (hq 1 [7] []) ∧ (hq 1 [7] []).items ≠ []) ∧
    (let s := fw fun v => { v with contexts := [(0, bytesOfNat 8 0x400000 ++ [1] ++ List.replicate 55 0)], mem := memWrite (memWrite v.mem 0x400000 (bytesOfNat 8 (1 + 0x50 * 2 ^ 28))) 0x500000 (bytesOfNat 8 (1 + 0x60 * 2 ^ 28)) }
     (match s.dev.walk 0 0 with | .error e => e.1 | .ok _ => 9) = 2) ∧
    ((xf 3 1 2 0 2 0).fn.toNat % 4 < 3 ∧ (xf 3 1 2 0 0 0x7FFF).imm.toNat % 2 ^ 16 < 0x8000 ∧ 0x8000 ≤ (xf 3 1 2 0 0 0x8000).imm.toNat % 2 ^ 16 ∧
      0x800 ≤ (xf 3 1 2 0 0 0xBFF).imm.toNat % 2 ^ 12 ∧ (xf 3 1 2 0 0 0xBFF).imm.toNat % 2 ^ 12 ≤ 0xBFF ∧ ((fw id).core.sreg 2).toNat % 8 ≤ 4) := by
  refine ⟨?_, ?_, ?_, ?_, ?_, ?_, ?_, ?_, ?_, ?_, ?_, ?_, ?_, ?_, ?_, ?_, ?_, ?_⟩ <;> decide +kernel

/-- Core 0 in monitor mode after a trap. -/
def trapped (saved : Bool) (d : Device → Device) (f : Core → Core := id) : State :=
  world d fun c => f { c with mon := { c.mon with mode := true, tvalid := true, saved := saved } }

/-- Core 0 in monitor mode with its task saved to area 0, which memory maps. -/
def ctxSaved (d : Device → Device) : State := trapped true fun v => d (online { mapped v with slots := [{ slot 0 1 with area := some 0 }] })

/-- The task that the area holds. -/
def ctxHeld (s : State) : Core := s.dev.readCtx (s.dev.part 0).ctx s.core.mon.csave ((s.dev.slotOf 0 0).bind TaskSlot.kept).toList

theorem wit_ContextSaveAndLoad :
    ((mon id).focus = .core 0 ∧ (mon id).core.mon.mode = true ∧ (mon id).core.task = some ti ∧ (mon id).core.mon.tvalid = false) ∧
    (let s := trapped false (fun v => online { mapped v with slots := [slot 0 1] }) id
     s.core.mon.tvalid = true ∧ s.core.mon.saved = false ∧ s.core.outst = [] ∧ (s.dev.part ti.part).freeAreas ≠ [] ∧
     s.dev.areaUsable (s.dev.part ti.part).ctx s.core.mon.csave = true ∧ s.dev.slotOf ti.part ti.slot = some (slot 0 1)) ∧
    (let s := trapped false id fun c => { c with outst := [.queue 3 0 none 0] }
     (.queue 3 0 none 0) ∈ s.core.outst ∧ (Outstanding.queue 3 0 none 0).isCopy = false ∧ (s.dev.part ti.part).freeAreas = []) ∧
    (let s := trapped true id id
     s.core.mon.tvalid = true ∧ s.core.mon.saved = true ∧ s.dev.areaUsable (s.dev.part ti.part).ctx s.core.mon.csave = false) ∧
    (let s := ctxSaved id
     s.core.mon.saved = true ∧ s.dev.areaUsable (s.dev.part ti.part).ctx s.core.mon.csave = true ∧ ((ctxHeld s).bank 0).va = some 0 ∧
     ({ s with core := s.core.underMonitor (ctxHeld s) } : State).wloadCheck [] 0 = .error (0x13, none) ∧ (s.dev.slotOf 0 0).map TaskSlot.area = some (some 0)) ∧
    (let s := ctxSaved fun v => { v with mem := memWrite (memWrite v.mem 0x70008 (List.replicate 10 255)) 0x70018 (List.replicate 10 255) }
     s.dev.areaUsable (s.dev.part ti.part).ctx s.core.mon.csave = true ∧ ((ctxHeld s).bank 0).va = none ∧ ((ctxHeld s).bank 1).va = none) := by
  refine ⟨?_, ?_, ?_, ?_, ?_, ?_⟩ <;> decide +kernel

/-- What a choice of the dispatcher names: the launch and the cores of a gang, or the slot and the core of a task. -/
def choice : Option Placed → Option (Nat × List Nat)
  | some (.gang e _ cores _) => some (e.lid, cores)
  | some (.task t p) => some (t.slot + 1000, [p])
  | none => none

/-- The launch or the slot of work. -/
def workOn : Option Work → Option Nat
  | some (.gang e) => some e.lid
  | some (.task t) => some (t.slot + 1000)
  | none => none

/-- The dispatcher's world with a device, no task on core 0. -/
def disp (d : Device → Device) (e : EventData := {}) : State := { State.reset with dev := d (online { mapped Device.reset with mem := kernelMem }), ev := e }

/-- A suspended task, and memory with its record. -/
def suspended (t : TaskSlot) (v : Device) : Device :=
  { v with slots := [t], mem := memWrite v.mem (0x300000 + 64 * t.slot) (contRecord t (t.kept.getD Core.reset)) }

/-- What the dispatcher starts next in the event's partition. -/
def nextUp (s : State) : Option (Nat × List Nat) := choice (s.nextStart s.ev.part)

/-- Cluster 0 with no core on line. -/
def noCore (v : Device) : Device := v.updCluster 0 fun k => { k with offline := BitVec.allOnes 128 }

/-- Cluster 0 with core 0 alone on line. -/
def oneCore (v : Device) : Device := v.updCluster 0 fun k => { k with offline := BitVec.allOnes 128 &&& ~~~1 }

/-- The ready tasks of the gang of task 0 that lack a core. -/
def lacking (s : State) : Option Work := s.dev.firstWork 0 ((s.dev.slots.filter fun y =>
  y.part == 0 && y.info.gang == 0 && !y.info.spawned && y.ready && y.slot != 0).map Work.task)

theorem wit_SchedulerStartsResumesAndStopsTasks :
    (nextUp (disp id) = none) ∧
    (let s := disp fun v => { v with entries := [entry 1 2 rec1] }
     nextUp s = some (1, [0]) ∧ (s.dev.kernelOf (s.dev.part 0).ctx (recKernel rec1)).isSome = true ∧ s.dev.entryOf 0 1 = some (entry 1 2 rec1) ∧
     recGang rec1 = 1 ∧ s.dev.freeSlots 0 ≠ []) ∧
    (let c : Core := { Core.reset with task := some ti }
     let t := { slot 0 4 (some c) with lastCore := some 5 }
     let s := disp fun v => { suspended t v with gangs := [gang0] }
     nextUp s = some (1000, [5]) ∧ s.dev.recordIntact t = true ∧ t.ckpt = false ∧ t.area = none ∧ t.fresh = false) ∧
    (let c : Core := { Core.reset with task := some { ti with spawned := true } }
     let t := { slot 0 0 (some c) with info := { ti with spawned := true } }
     let s := disp fun v => suspended t v
     nextUp s = some (1000, [0]) ∧ s.dev.recordIntact t = true ∧ t.fresh = true) ∧
    (let s := disp fun v => { v with slots := [slot 0 2 (some Core.reset)] }
     (s.dev.slotOf 0 s.ev.slot).map (fun t => (t.kept.isSome, t.foot)) = some (true, false) ∧ s.residentOf 0 0 = none) ∧
    (let s := disp fun v => { v with entries := [entry 1 2 rec1], time := 16777216 }
     (Work.gang (entry 1 2 rec1)).since.1 + (s.dev.part 0).aging ≤ s.dev.time ∧ s.dev.reserved = [] ∧ recMer rec1 = false ∧
     workOn (s.dev.firstWork 0 (s.dev.workOf 0)) = some 1 ∧ (s.mostIdle (s.dev.launchClusters 0 (entry 1 2 rec1))).map Prod.fst = some 0 ∧
     (disp id).dev.workOf 0 = []) ∧
    (let e := entry 1 2 (rec1.set 0x13 1)
     let s := disp fun v => { v with entries := [e], time := 16777216 }
     recMer e.record = true ∧ (s.meridianGang 0 e).map Prod.fst = some 0 ∧ workOn (s.dev.firstWork 0 (s.dev.workOf 0)) = some 1) ∧
    (let y := slot 0 4 (some Core.reset)
     let s := disp fun v => { v with slots := [y], gangs := [gang0], time := 16777216 }
     workOn (s.dev.firstWork 0 (s.dev.workOf 0)) = some 1000 ∧ y.info.mer = false ∧ s.dev.homeCluster y = some 0 ∧
     (s.meridianCore { y with info := { y.info with mer := true } }).isSome = true) ∧
    (let q (n : Nat) (d : Bool) (r : List Byte) : State :=
       { world (fun v => online { mapped v with slots := [slot 0 1], entries := [entry 1 2 r] }) (fun c => { c with draining := d }) with ev := { count := n } }
     let s := q 0 true rec1
     s.focus = .core 0 ∧ s.ev.core = 0 ∧ s.core.mon.mode = false ∧ s.core.task = some ti ∧ s.core.outst = [] ∧ s.core.seg = none ∧ s.core.landing = [] ∧
     s.dev.slotOf ti.part ti.slot = some (slot 0 1) ∧ s.core.draining = true ∧ s.canCheckpoint = true ∧ s.dev.time < (slot 0 1).age + (s.dev.part 0).drainWindow ∧
     (let z := { s with dev := { s.dev with time := (s.dev.part 0).drainWindow } }
      (slot 0 1).age + (z.dev.part 0).drainWindow ≤ z.dev.time) ∧
     (let z := q 0 false (rec1.set 0x40 1)
      recEstimate z.taskRecord ≠ 0 ∧ recEstimate z.taskRecord ≤ z.core.cycle.toNat + (z.dev.part z.partition).drainWindow) ∧
     (let z := q 65536 false (rec1.set 0x13 4)
      recEstimate z.taskRecord = 0 ∧ (z.dev.part z.partition).killAt ≤ z.ev.count ∧ recIdem z.taskRecord = true) ∧
     (let z := q 65536 false (rec1.set 0x47 1)
      z.core.cycle.toNat + (z.dev.part z.partition).drainWindow < recEstimate z.taskRecord ∧ recIdem z.taskRecord = false ∧ z.canCheckpoint = true)) ∧
    ((tk id).canCheckpoint = false ∧ recEstimate (tk id).taskRecord = 0 ∧ recIdem (tk id).taskRecord = false ∧ (tk id).core.draining = false ∧
      (tk id).core.barFrom = none ∧ ti.mer = false ∧ ti.spawned = false) ∧
    (let s := pair { ti with gsize := 2 } 0 0
     let c := { s.core with barFrom := some 0, wall := 65536 }
     let s : State := { s with core := c, dev := oneCore (online { mapped s.dev with slots := [slot 0 1, slot 1 4 (some Core.reset)] }) }
     s.core.barFrom = some 0 ∧ 0 + 65536 ≤ s.core.wall ∧ s.canCheckpoint = true ∧ s.idleIn 0 = [] ∧ workOn (lacking s) = some 1001) ∧
    (let s := pair { ti with gsize := 2 } 0 0
     let c := { s.core with barFrom := some 0, wall := 65536 }
     let s : State := { s with core := c, dev := noCore (online { mapped s.dev with slots := [slot 0 1, slot 1 4 (some Core.reset)] }) }
     s.canCheckpoint = true ∧ s.idleIn 0 = [] ∧ (lacking s).isSome = true) ∧
    (let e := entry 2 2 (rec1.set 0x12 7)
     let s := world fun v => noCore (online { mapped v with entries := [e], time := 65536, slots := [slot 0 1] })
     workOn (dueForRoom s) = some 2 ∧ s.roomFor s.ev.part e = [0] ∧ e.age + (s.dev.part 0).waitMax ≤ s.dev.time) ∧
    (let y := { slot 1 4 (some Core.reset) with info := { ti with slot := 1, gang := 0 } }
     let e := entry 1 2 (rec1.set 0x12 7)
     let s := world (fun v => noCore (online { mapped v with entries := [e, entry 9 2 rec1], slots := [slot 0 1, y], gangs := [gang0] })) fun c => { c with task := some { ti with lid := 9 } }
     workOn (dueForRoom s) = some 1001 ∧ s.dev.homeCluster y = some 0 ∧ s.dev.entryOf 0 y.info.lid = some e ∧ s.victims (recClass e.record) (s.roomCores y) = [(0, 0, 0)]) ∧
    workOn (dueForRoom (disp id)) = none := by
  refine ⟨?_, ?_, ?_, ?_, ?_, ?_, ?_, ?_, ?_, ?_, ?_, ?_, ?_, ?_, ?_⟩ <;> decide +kernel

/-! Witnesses for the statements about the host's commands, the device's events and a step. -/

/-- A partition that port 1 owns, in a state. -/
def owned (st : Nat) (v : Device) : Device := v.updPart 7 fun q => { q with state := st, port := 1, clusters := 0x80 }

/-- An event of port 1 and partition 7. -/
def byPort (d : Device → Device) (e : EventData → EventData := id) : State := let s := evt (e { port := 1, part := 7 }); { s with dev := d s.dev }

/-- A command that port 1 gives for partition 7. -/
def cmd (i : Instr) (d : Device → Device) (e : EventData → EventData := id) : State := request i (byPort d e)

/-- What a command that creates partition 7 carries. -/
def newPart : PartCreate :=
  { port := 0, p := 7, clusters := 0x80, taskArea := 0, spillPool := 0x10000, spillStride := 0x10000, savePool := 0x20000, saveCount := 128, streamTable := 0,
    shares := [0, 0, 0, 50331648], tableSize := 65536 }

theorem wit_PartitionCommandsAct :
    ((byPort id).dev.mbxTurn 1 = false ∧ (submitted (byPort id) []).dev.mbxTurn 1 = true ∧
      (let p := (submitted (byPort id) []).dev.port 1
       mbxFormOk p.reqOp p.reqBytes = false) ∧
      (let s := cmd .partDestroy id
       s.dev.mbxTurn 1 = true ∧ mbxFormOk (s.dev.port 1).reqOp (s.dev.port 1).reqBytes = true ∧ (s.dev.port 1).asks .gradeClear s.ev = false)) ∧
    (∀ i ∈ [Instr.partStateOnline, .partStateDrain, .partStateFence, .partStateReset, .partDestroy, .partCtx, .dispParam, .gradeClear, .monitorLoad, .collGroup],
      let s := cmd i id fun e => { e with params := [0, 0, 0, 0xFFFFFFFF], group := 0xFFFFFFFF, members := [⟨0xFFFF, 1, 2⟩] }
      s.mbxDue i = true ∧ s.ev.part < 8 ∧ (s.dev.part s.ev.part).state = 0 ∧
      (let z := cmd i id fun e => { e with part := 8, params := [0, 0, 0, 0] }
       z.mbxDue i = true ∧ 8 ≤ z.ev.part)) ∧
    (let s := cmd .partCreate id fun e => { e with create := newPart }
     s.mbxDue .partCreate = true ∧ s.ev.create.p < 8 ∧ (s.dev.part 7).state = 0 ∧ partCreateOk s.ev.create = true ∧ s.dev.sharesFit s.ev.create = true ∧
     (∀ k, k < 8 → s.ev.create.clusters.getLsbD k = true → s.dev.partOfCluster k = none) ∧ partCreateOk { newPart with saveCount := 127 } = false ∧
     partCreateOk { newPart with shares := [1, 0, 0, 0] } = false ∧ 8 ≤ { newPart with p := 8 }.p ∧
     (s.dev.updPart 7 fun q => { q with state := 3 }).part s.ev.create.p ≠ Partition.absent) ∧
    (∀ i ∈ [Instr.partStateOnline, .partStateDrain, .partStateReset, .partDestroy, .dispParam, .partCtx],
      let s := cmd i (owned 3) fun e => { e with params := [1, 2, 3, 4] }
      s.mbxDue i = true ∧ s.ev.part < 8 ∧ (s.dev.part 7).state = 3 ∧ (s.dev.part 7).port = s.ev.port % 2 ∧ s.ev.params = [1, 2, 3, 4] ∧ s.unitsOf 7 = []) ∧
    (∀ i ∈ [Instr.partStateOnline, .partStateDrain, .partStateFence, .partStateReset, .partDestroy, .gradeClear],
      let s := cmd i (owned 1)
      s.mbxDue i = true ∧ (s.dev.part 7).state = 1 ∧ s.dev.entries = [] ∧ s.dev.slots = [] ∧ (s.dev.dome (s.dev.homeDome 7)).held = []) ∧
    (let s := cmd .partStateDrain fun v => { owned 1 v with entries := [{ entry 1 1 [] with part := 7 }] }
     s.mbxDue .partStateDrain = true ∧ ∃ e ∈ s.dev.entries, e.part = s.ev.part ∧ e.set = true) ∧
    (let s := cmd .partStateReset fun v => { owned 4 v with entries := [{ entry 1 1 [] with part := 7, set := false }] }
     s.mbxDue .partStateReset = true ∧ (s.dev.part 7).state = 4 ∧ (∀ t ∈ s.dev.slots, t.part ≠ 7) ∧ ∀ e ∈ s.dev.entries, e.part = 7 → e.set = false) ∧
    (let s := cmd .partCtx (fun v => { owned 3 v with contexts := [(0xFFF, List.replicate 8 0 ++ [1, 7] ++ List.replicate 54 0)] }) fun e => { e with ctx := 0xFFF }
     s.mbxDue .partCtx = true ∧ s.dev.ctxOwner s.ev.ctx = some 7) ∧
    (let s : State := { cmd .partCtx (owned 1) with core := { Core.reset with task := some { ti with part := 7 } } }
     s.mbxDue .partCtx = true ∧ s.unitsOf 7 ≠ []) := by
  refine ⟨?_, ?_, ?_, ?_, ?_, ?_, ?_, ?_, ?_⟩ <;> decide +kernel

/-- A context entry of partition 7. -/
def ctxOf (o : Nat) : List Byte := bytesOfNat 8 0x10000 ++ [1, BitVec.ofNat 8 o] ++ List.replicate 54 0

theorem wit_CustodianCommandsAct :
    (let s := cmd .ctxSet (owned 1) fun e => { e with data := ctxOf 7, ctx := 0xFFF }
     s.mbxDue .ctxSet = true ∧ contextEntryOk s.ev.data = true ∧ fieldAt s.ev.data 9 1 = 7 ∧ (s.dev.part 7).state ≠ 0 ∧
     (s.dev.part 7).port = s.ev.port % 2 ∧ (∀ y ∈ s.dev.contexts, y.1 ≠ s.ev.ctx) ∧
     (let z := cmd .ctxSet (owned 1) fun e => { e with data := ctxOf 8 }
      z.mbxDue .ctxSet = true ∧ fieldAt z.ev.data 9 1 = 8 ∧ contextEntryOk z.ev.data = true) ∧
     (let z := cmd .ctxSet (owned 1) fun e => { e with data := List.replicate 64 255 }
      z.mbxDue .ctxSet = true ∧ contextEntryOk z.ev.data = false) ∧
     (let z := cmd .ctxSet (owned 1) fun e => { e with data := ctxOf 0 }
      z.mbxDue .ctxSet = true ∧ contextEntryOk z.ev.data = true ∧ fieldAt z.ev.data 9 1 = 0 ∧ (z.dev.part 0).state = 0)) ∧
    (let y : BitVec 12 × List Byte := (0xFFF, ctxOf 0)
     let s := cmd .ctxSet (fun v => { owned 1 v with contexts := [y] }) fun e => { e with data := ctxOf 7, ctx := 0xFFF }
     s.mbxDue .ctxSet = true ∧ contextEntryOk s.ev.data = true ∧ s.dev.contexts.find? (fun y => y.1 == s.ev.ctx) = some y ∧ fieldAt y.2 8 1 % 2 = 1 ∧ fieldAt y.2 9 1 < 8 ∧
     (s.dev.part 0).state = 0) ∧
    (let y : BitVec 12 × List Byte := (0xFFF, ctxOf 7)
     let s := cmd .ctxSet (fun v => { owned 1 v with contexts := [y], pins := [(0xFFF, 5, 1, 1)] }) fun e => { e with data := ctxOf 7, ctx := 0xFFF }
     s.mbxDue .ctxSet = true ∧ fieldAt y.2 9 1 = 7 ∧ (y.2.take 10 == s.ev.data.take 10 && fieldAt y.2 8 1 % 2 == 1) = true ∧
     (y.2.take 10 == (ctxOf 8).take 10) = false) ∧
    (let e (e : EventData) : EventData := { e with ctx := 0xFFF, dome := 3, value := 0x1804010002 }
     let s := cmd .cmbCfg (fun v => { owned 1 v with contexts := [(0xFFF, ctxOf 7)] }.updPart 7 fun q => { q with shares := [0, 0, 0, 768] }) e
     s.mbxDue .cmbCfg = true ∧ s.dev.ctxOwner s.ev.ctx = some 7 ∧ s.ev.dome < 4 ∧ s.ev.value < 2 ^ 43 ∧ (s.dev.combineOf s.ev.ctx s.ev.dome).isNone = true ∧
     cmbSlots (BitVec.ofNat 64 s.ev.value) ≠ 0 ∧ cmbWordOk (BitVec.ofNat 64 s.ev.value) = true ∧
     s.ev.addr + cmbBytes (BitVec.ofNat 64 s.ev.value) ≤ (s.dev.part 7).shares.getD s.ev.dome 0 ∧ s.dev.takenIn s.ev.dome = [] ∧
     (let z := cmd .cmbCfg (owned 1) e
      z.mbxDue .cmbCfg = true ∧ z.dev.ctxOwner z.ev.ctx = none) ∧
     (let z := cmd .cmbCfg (fun v => { owned 1 v with contexts := [(0xFFF, ctxOf 7)] }) fun y => { e y with value := 0 }
      z.mbxDue .cmbCfg = true ∧ z.dev.ctxOwner z.ev.ctx = some 7 ∧ cmbSlots (BitVec.ofNat 64 z.ev.value) = 0)) ∧
    (let b := { comb [cs 1] with ctx := 0xFFF, dome := 3 }
     let s := cmd .cmbCfg (fun v => { owned 1 v with contexts := [(0xFFF, ctxOf 7)], combines := [b] }) fun e => { e with ctx := 0xFFF, dome := 3 }
     s.mbxDue .cmbCfg = true ∧ s.dev.combineOf s.ev.ctx s.ev.dome = some b ∧ ∃ y ∈ b.slots, y.state ≠ 0) ∧
    (∀ n ∈ [1, 255],
      let s := cmd .keyLoad (fun v => { owned 1 v with contexts := [(0xFFF, ctxOf 7)] }) fun e => { e with ctx := 0xFFF, value := n, data := [1, 2, 3] }
      s.mbxDue .keyLoad = true ∧ 1 ≤ s.ev.value ∧ s.ev.value ≤ 255 ∧ s.dev.ctxOwner s.ev.ctx = some 7) ∧
    (∀ n ∈ [0, 256],
      let s := cmd .keyLoad id fun e => { e with value := n }
      s.mbxDue .keyLoad = true ∧ (s.ev.value < 1 ∨ 255 < s.ev.value)) ∧
    (let s := cmd .collGroup (owned 1) fun e => { e with members := [⟨0, 1, 0⟩], group := 65535 }
     s.mbxDue .collGroup = true ∧ s.ev.members ≠ [] ∧ s.ev.group < 65536 ∧ s.dev.groups = [] ∧
     (let z := cmd .collGroup (owned 1)
      z.mbxDue .collGroup = true ∧ z.ev.members = [])) ∧
    (let s := cmd .nodeSet id fun e => { e with node := 0xFFFF, routes := [⟨9, 15⟩] }
     s.mbxDue .nodeSet = true ∧ (∀ q, q < 8 → s.unitsOf q = []) ∧ (∀ r ∈ s.ev.routes, r.vport < 16) ∧
     (let z : State := { cmd .nodeSet (owned 1) with core := { Core.reset with task := some { ti with part := 7 } } }
      z.mbxDue .nodeSet = true ∧ ∃ q, q < 8 ∧ z.unitsOf q ≠ [])) ∧
    (let s := cmd .monitorLoad (fun v => { mapped (owned 3 v) with mem := memWrite tableMem 0 [2] })
     s.mbxDue .monitorLoad = true ∧ (s.dev.part 7).state = 3 ∧ fieldAt (s.dev.readVa (s.dev.part 7).ctx s.ev.va 64) 0 2 = 2 ∧
     fieldAt ((cmd .monitorLoad (owned 3)).dev.readVa 0 0 64) 0 2 ≠ 2 ∧ ((cmd .monitorLoad (owned 1)).dev.part 7).state ≠ 3) ∧
    (let s := cmd .memAssign (fun v => v.updPort 0 fun p => { p with units := [5] }) fun e => { e with value := 1, addr := 5, count := 1 }
     s.mbxDue .memAssign = true ∧ s.ev.value < 2 ∧ ∃ j, j < s.ev.count ∧ s.ev.addr + j ∈ (s.dev.port (s.ev.value + 1)).units) ∧
    (let s := cmd .memAssign id fun e => { e with value := 1, addr := 5, count := 1 }
     s.mbxDue .memAssign = true ∧ (∀ j, j < s.ev.count → s.ev.addr + j ∉ (s.dev.port (s.ev.value + 1)).units) ∧
     (let z := cmd .memAssign id fun e => { e with value := 2 }
      z.mbxDue .memAssign = true ∧ 2 ≤ z.ev.value)) ∧
    (let s := cmd .logRead (fun v => v.log 3 1 0 2 0 0 0 0 0xFF) fun e => { e with dome := 3, value := 2 * 2 ^ 48, count := 1 }
     s.mbxDue .logRead = true ∧ s.ev.dome < 4 ∧ (s.ev.port % 2 + 1) * 2 ^ 48 ≤ s.ev.value ∧ s.ev.value + 48 * s.ev.count ≤ (s.ev.port % 2 + 1) * 2 ^ 48 + 2 ^ 48 ∧
     (s.dev.dome 3).log.length = 1 ∧
     (let z := cmd .logRead id fun e => { e with dome := 4 }
      z.mbxDue .logRead = true ∧ 4 ≤ z.ev.dome)) ∧
    (cmd .attest id fun e => { e with nonce := BitVec.allOnes 256 }).mbxDue .attest = true ∧
    (∀ n ∈ [599, 600, 1900, 1901], (cmd .powerLimit id fun e => { e with value := n }).mbxDue .powerLimit = true) := by
  refine ⟨?_, ?_, ?_, ?_, ?_, ?_, ?_, ?_, ?_, ?_, ?_, ?_, ?_, ?_, ?_⟩ <;> decide +kernel

theorem wit_HostPortsAndFabricAct :
    (let s := byPort (owned 1) fun e => { e with value := 7 * 256 + 255 }
     (s.dev.port 1).ready = true ∧ s.ev.value / 2 ^ 11 % 2 ^ 21 = 0 ∧ (s.dev.part (s.ev.value / 2 ^ 8 % 8)).state ≠ 0 ∧ (s.dev.part (s.ev.value / 2 ^ 8 % 8)).port = 1 % 2) ∧
    ((byPort id fun e => { e with value := 2 ^ 11 }).ev.value / 2 ^ 11 % 2 ^ 21 ≠ 0 ∧ ((byPort fun v => v.updPort 1 fun p => { p with ready := false }).dev.port 1).ready = false) ∧
    (let s := byPort (fun v => v.updPort 1 fun p => { p with units := [0] }) fun e => { e with addr := 2 ^ 28 - 1, count := 1, data := [5] }
     s.ev.addr < 2 ^ 36 ∧ inDevice ((s.dev.port 1).barPa s.ev.addr) s.ev.count = true ∧ inDevice ((s.dev.port 1).barPa s.ev.addr) s.ev.data.length = true ∧
     (s.dev.port 1).barPa s.ev.addr / 2 ^ 28 ∈ (s.dev.port 1).units ∧ ((s.dev.port 1).barPa s.ev.addr + s.ev.data.length - 1) / 2 ^ 28 ∈ (s.dev.port 1).units ∧
     ∀ j, j < s.ev.data.length → s.dev.homeOf ((s.dev.port 1).barPa s.ev.addr + j) = (.phys, (s.dev.port 1).barPa s.ev.addr + j)) ∧
    (let s := byPort id fun e => { e with addr := 2 ^ 36 - 1 }
     s.ev.addr < 2 ^ 36 ∧ (s.dev.port 1).barPa s.ev.addr / 2 ^ 28 ∉ (s.dev.port 1).units ∧ 2 ^ 36 ≤ (byPort id fun e => { e with addr := 2 ^ 36 }).ev.addr) ∧
    (let s := byPort id fun e => { e with addr := 0x2FFF, count := 1 }
     0x2000 ≤ s.ev.addr ∧ s.ev.addr + s.ev.count ≤ 0x3000) ∧
    (let s := byPort id fun e => { e with addr := 0x4000, value := 1 }
     s.ev.addr = 0x4000 ∧ s.ev.value % 2 = 1 ∧ (s.dev.port 1).ready = true ∧ (s.dev.port 1).busy = false ∧
     ((byPort fun v => v.updPort 1 fun p => { p with busy := true }).dev.port 1).busy = true) ∧
    (0x8000 ≤ 0x83FC ∧ 0x83FC + 4 ≤ 0x8400 ∧ 0x5000 ≤ 0x7FFF ∧ 0x7FFF < 0x8000 ∧ (0x3000 ≤ 0x3FFF ∧ 0x3FFF < 0x4000) ∧ (0x9000 ≤ 0x9007 ∧ 0x9007 < 0x9008)) ∧
    (let s := byPort (fun v => { v with checks := [(0xFFFFFC0, 1)], poison := [(.phys, 2 ^ 28 - 8, 8)] }) fun e => { e with addr := 2 ^ 28 - 1, count := 1, ok := true }
     let pa := (s.dev.port 1).barPa s.ev.addr
     s.ev.ok = true ∧ s.dev.failing pa s.ev.count = [0xFFFFFC0] ∧ (byPort id).dev.failing 0 64 = [] ∧
     (∃ x ∈ s.dev.poison, x.1 = Place.phys ∧ pa < x.2.1 + x.2.2 ∧ x.2.1 < pa + s.ev.count) ∧ (byPort id fun e => { e with ok := false }).ev.ok = false ∧
     inDevice (0x4000000000 + 0x40000000000) 1 = false) ∧
    (let g : Ingress := { ctx := 0, va := 0xFFFFFFF, put := true, data := [1, 2], len := 2, src := 9 }
     let s := byPort mapped fun e => { e with ingress := g }
     g.row = none ∧ g.put = true ∧ (s.dev.places 0 .store g.va g.data.length).length = 1 ∧ (s.dev.places 0 .store 0xFFFFFFE g.data.length).length = g.data.length ∧
     (match s.dev.locate g.ctx (g.va + BitVec.ofNat 80 1) .store with | .error c => faultStatus c false | .ok _ => 0) ≠ 0 ∧
     (s.dev.places 0 .load g.va g.len).length = 1 ∧ (s.dev.places 0 .load 0xFFFFFFE g.len).length = g.len ∧ s.dev.poison = [] ∧ s.dev.checks = [] ∧
     (match s.dev.locate g.ctx (g.va + BitVec.ofNat 80 1) .load with | .error c => faultStatus c true ≠ 0 && faultStatus c true ≠ 8 | .ok _ => false) = true) ∧
    (let s := byPort fun v => { mapped v with poison := [(.phys, 64, 8)], checks := [(0, 5)] }
     let bad (va : Addr) : Prop := ∃ q ∈ s.dev.poison, ∃ p ∈ s.dev.places 0 .load va 1, p.1 = q.1 ∧ p.2 < q.2.1 + q.2.2 ∧ q.2.1 < p.2 + 1
     bad 71 ∧ ¬ bad 63 ∧ ¬ bad 72 ∧ ∃ c ∈ s.dev.checks, ∃ p ∈ s.dev.places 0 .load 63 1, p.1 = .phys ∧ overlaps p.2 1 c.1 64 = true) ∧
    ({ ctx := 0, va := 0, put := true, data := [], len := 0, src := 9, row := some (1, 0) } : Ingress).row = some (1, 0) := by
  refine ⟨?_, ?_, ?_, ?_, ?_, ?_, ?_, ?_, ?_, ?_, ?_⟩ <;> decide +kernel

/-- The heartbeat of queue processor 0 of dome 3 is late. -/
def lateQp (d : Device → Device) : State :=
  let s : State := { State.reset with dev := d Device.reset, ev := { dome := 3 } }
  s.setCore (.qp 3 0) (let c := s.getCore (.qp 3 0); { c with stopped := false, wall := c.mon.qhbAt + 3 * 2 ^ 20 })

theorem wit_ReliabilityEventsAct :
    (let s := lateQp id
     let c := s.getCore (.qp 3 0)
     s.ev.dome < 4 ∧ c.mon.active = true ∧ c.stopped = false ∧ c.mon.qhbAt + 3 * 2 ^ 20 ≤ c.wall ∧ (s.dev.dome 3).standby = true ∧ (s.dev.dome 3).takeAt = none) ∧
    (let s := lateQp fun v => v.updDome 3 fun x => { x with standby := false, takeAt := some 0 }
     (s.dev.dome s.ev.dome).standby = false ∧ (s.getCore (.qp 3 0)).mon.active = true) ∧
    (lateQp fun v => { v with time := 2 ^ 30 }).dev.time - 0 ≥ 2 ^ 30 ∧
    (let s := evt { dome := 3, value := 1, index := 2, count := 1, addr := 0x7F }
     s.ev.dome < 4 ∧ s.ev.bus = none ∧ (s.dev.dome 3).scrub.toArray.getD s.ev.index 0 ≠ 0 ∧ (s.dev.dome 3).tagScan = none ∧ s.ev.value = 1 ∧ s.ev.ok = true ∧
     s.ev.index < 3 ∧ s.ev.count = 1 ∧ (s.dev.dome 3).scrub.toArray.getD 3 0 = 0) ∧
    (2 ≤ (evt { value := 2, ok := false }).ev.value ∧ (evt { value := 2, ok := false }).ev.ok = false ∧ (evt {}).ev.count ≠ 1) ∧
    (let s : State := { evt { addr := 0x3F } with dev := { mapped Device.reset with mem := memWrite tableMem 0xFF40002 [1] } }
     s.ev.addr / 64 % 1024 = 0 ∧ s.dev.encrypted 0 s.ev.va 0 = true) ∧
    (∀ k ∈ [1, 4], let s := evt { addr := 0xFFFF }
     let v : Device := { s.dev.updDome 0 fun x => { x with tagScan := some (0, 0, k) } with tags := [(0, 1)] }
     s.ev.addr / 64 % 1024 = 1023 ∧ (v.dome 0).tagScan = some (0, 0, k) ∧ v.writtenSince 0 0 = false ∧ v.tagDiff 0 ≠ 0 ∧ { v with tags := [] }.tagDiff 0 = 0 ∧
     (v.publish 0xFFFF [1]).writtenSince 0 0 = true) ∧
    (let s : State := { evt { addr := 3 } with dev := Device.reset.updDome 0 fun x => { x with spares := [(3, 1)] } }
     (s.dev.dome 0).sparesUsed s.ev.addr < 2 ∧ (s.dev.dome 0).sparesUsed s.ev.addr = 1) ∧
    (let s : State := { evt { addr := 3 } with dev := Device.reset.updDome 0 fun x => { x with spares := [(3, 2)] } }
     2 ≤ (s.dev.dome 0).sparesUsed s.ev.addr) ∧
    (let s := evt { sensor := ⟨7, 15, 2400, 100⟩ }
     ((s.dev.cluster 7).sensors[15]?).isSome = true ∧ s.ev.sensor.cluster < 8 ∧ ¬ (s.ev.sensor.reading < -640 ∨ 2400 < s.ev.sensor.reading) ∧
     ((s.dev.cluster 7).sensors[15]?).map Sensor.span = some none) ∧
    (let s := byPort (owned 1) fun e => { e with sensor := ⟨7, 15, 1840, 100⟩ }
     1840 ≤ s.ev.sensor.reading ∧ (s.dev.cluster 7).rate ≠ 2 ∧ s.dev.partOfCluster 7 = some 7) ∧
    (let s := evt {}
     s.dev.ready = true ∧ (State.reset.dev.ready = false ∧ State.reset.dev.bootFailed = false ∧ State.reset.ev.ok = true)) := by
  refine ⟨?_, ?_, ?_, ?_, ?_, ?_, ?_, ?_, ?_, ?_, ?_, ?_⟩ <;> decide +kernel

/-! A sensor that has moved by a sixteenth of a degree over an interval while the power rose by more than a tenth is stuck (R459). The
interval must be over, and the readings within a quarter of a degree. -/

theorem test_sensor_stuck : (let x : Sensor := { reading := 800, state := 0, span := some (0, 800, 801, 100) }
    ((x.after 12000000 800 111).state, (x.after 12000000 800 110).state, (x.after 11999999 800 111).state, (x.after 12000000 804 111).state)) = (2, 0, 0, 0) := by
  decide +kernel

/-- Tables at 0x10000 to 0x60000 that map one page of tier 2 at physical address 0x40000000. -/
def pagedMem : Mem :=
  [(0x10000, 1), (0x10003, 0x20), (0x20000, 1), (0x20003, 0x30), (0x30000, 1), (0x30003, 0x40), (0x40000, 1), (0x40003, 0x50), (0x50000, 1), (0x50003, 0x60),
    (0x60000, 0x8F), (0x60005, 4)]

theorem pagedMem_holds_the_tables :
    pad [(0x10000, 8, 1 + 2 * 2 ^ 28), (0x20000, 8, 1 + 3 * 2 ^ 28), (0x30000, 8, 1 + 4 * 2 ^ 28), (0x40000, 8, 1 + 5 * 2 ^ 28), (0x50000, 8, 1 + 6 * 2 ^ 28),
      (0x60000, 8, 0x8F + 0x4000 * 2 ^ 28)] = pagedMem := by decide +kernel

/-- Context 0 with them. -/
def paged (v : Device) : Device := { v with contexts := [(0, bytesOfNat 8 0x10000 ++ [1, 0] ++ List.replicate 54 0)], mem := pagedMem }

theorem wit_MigrationAndWindowsAct :
    (let s : State := { State.reset with dev := paged Device.reset, ev := { addr := 0x4000000000 } }
     (¬ ∃ c ∈ s.allCores, c.inFlight 0x40000000 65536 = true) ∧ s.ev.ok = true ∧
     s.dev.leafEntry 0 0 = some 0x60000 ∧ s.dev.walk 0 0 = .ok (5, 0x8F + 0x4000 * 2 ^ 28) ∧ s.dev.pointRead64 0x60000 = 0x8F + 0x4000 * 2 ^ 28 ∧
     (s.dev.publishAs .device 3 0x60000 [0x8D]).walk 0 0 = .ok (5, 0x8F + 0x4000 * 2 ^ 28) ∧
     (s.dev.publishAs .device 3 0x60000 [0x8D]).pointRead64 0x60000 = 0x8D + 0x4000 * 2 ^ 28 ∧
     (let w := 0x8F + 0x4000 * 2 ^ 28
      pteTier w = 2 ∧ pteMH w ≠ 3 ∧ pteCG w = false ∧ s.dev.pinned 0 0 w = false ∧ s.dev.windowOf 0 0 = none ∧ s.dev.images = [] ∧ s.ev.addr % 65536 = 0 ∧
      tierOf (ptePA w) ≤ 1 ∧ tierOf s.ev.addr = 1 - tierOf (ptePA w) ∧ physRange s.ev.addr = some (0x4000000000, 0xA000000000) ∧ s.ev.addr + 65536 ≤ 0xA000000000)) ∧
    (let c := { Core.reset with outst := [.atomic .phys 0x4000FFFC 4 0 0 0 none 0 0 []] }
     let s : State := { State.reset with dev := paged Device.reset, core := c, ev := { addr := 0x4000000000, ok := false } }
     (∃ c ∈ s.allCores, c.inFlight 0x40000000 65536 = true) ∧ s.ev.ok = false) ∧
    (let s : State := { State.reset with dev := { paged Device.reset with pins := [(0, 5, 0, 1)] } }
     s.dev.pinned 0 0 (0x8F + 0x4000 * 2 ^ 28) = true ∧ s.dev.ctxDome 0 < 4) ∧
    (let s : State := { State.reset with dev := Device.reset.updDome 0 fun d => { d with migq := [(0, 0xFFFF, 1)] } }
     s.dev.leafEntry 0 0 = none ∧ (∃ x ∈ (s.dev.dome (s.dev.ctxDome 0)).migq, x.1 = 0 ∧ x.2.1.toNat / 65536 = 0) ∧ (Device.reset.dome 0).migq = []) ∧
    (let w : Window := ⟨63, 0, 0, 1, 65536, [0x40000000], [0x8F]⟩
     let s : State := { State.reset with dev := Device.reset.updDome 0 fun d => { d with windows := [w] }, ev := { win := 63 } }
     (∃ w ∈ (s.dev.dome s.focus.dome).windows, w.win = s.ev.win) ∧ (s.dev.dome s.focus.dome).windows.find? (fun w => w.win.toNat == s.ev.win.toNat) = some w ∧
     (∀ f ∈ w.frames 0, s.frameBusy f.2 = false) ∧ s.dev.windowOf 0 0xFFFF ≠ none ∧
     (let z : State := { s with core := { s.core with outst := [.atomic .phys (windowPa 0 65536) 4 0 0 0 none 0 0 []] } }
      ∃ f ∈ w.frames 0, z.frameBusy f.2 = true)) ∧
    ((State.reset).readG .load State.reset.core.mon.dwdesc.toNat 32 = .error (5, 0) ∧ (State.reset.dev.dome State.reset.focus.dome).windows = []) ∧
    (let v := (paged Device.reset).updPart 0 fun q => { q with state := 1, clusters := 1, shares := [65536, 0, 0, 0] }
     let s : State := { State.reset with dev := { v with mem := v.mem ++ [(0x4000000C, 1), (0x40000100, 7)] },
                                             core := { Core.reset with tlb := [⟨0, 0, 5, 0x8F + 0x4000 * 2 ^ 28⟩], mon := { Mon.reset with dwdesc := 0 } } }
     s.core.mon.dwdesc.toNat % 32 = 0 ∧ s.readG .load s.core.mon.dwdesc.toNat 32 = .ok (List.replicate 12 0 ++ [1] ++ List.replicate 19 0) ∧
     s.dev.windowOfDesc s.partition 0 s.ev.win.toNat (List.replicate 12 0 ++ [1] ++ List.replicate 19 0) = some ⟨0, 0, 0, 1, 0, [0x40000000], [0x8F + 0x4000 * 2 ^ 28]⟩ ∧
     s.dev.windowOfDesc s.partition 0 s.ev.win.toNat (List.replicate 32 0) = none ∧ memWf s.dev.mem = true ∧ s.frameBusy 0x40000000 = false ∧
     ({ s with core := { s.core with outst := [.atomic .phys 0x40000000 4 0 0 0 none 0 0 []] } } : State).frameBusy 0x40000000 = true) := by
  refine ⟨?_, ?_, ?_, ?_, ?_, ?_, ?_⟩ <;> decide +kernel

theorem wit_MemoryAndWritebackEventsAct :
    (let s := tk fun c => { c with landing := [⟨[⟨.spad 0 1, 8, [1]⟩]⟩] }
     s.core.landing = [⟨[⟨.spad 0 1, 8, [1]⟩]⟩] ∧ (tk id).core.landing = []) ∧
    (let s : State := { State.reset with dev := paged Device.reset }
     s.dev.walk s.ev.walk.ctx s.ev.walk.va = .ok (5, 0x8F + 0x4000 * 2 ^ 28) ∧ s.nodes = [] ∧ memWf s.dev.mem = true ∧ s.dev.leafEntry 0 0 = some 0x60000) ∧
    ((match State.reset.dev.walk 0 0 with | .error e => pteV e.2 | .ok _ => true) = false) ∧
    (let s : State := { State.reset with dev := { Device.reset with forwards := [⟨0, 0, 0, 0⟩, ⟨0, 0, 1, 1⟩] } }
     (s.dev.forwards[0]?).map Forward.till = some 0 ∧ (s.dev.forwards[1]?).map Forward.till = some 1 ∧ s.dev.time = 0) ∧
    (let r : Result := { w := .s 31 7 none, flags := 1, due := 0 }
     let s := tk fun c => { c with results := [r] }
     s.core.results = [r] ∧ s.ev.ok = true ∧ r.due ≤ s.core.tau ∧ ¬ s.core.tau < r.due) ∧
    (let h : Header := { sig := 0, blk := false, rdv := true, seg := false, pop := 3, st := 31 }
     let s := tk fun c => { c with pstack := List.replicate 3 ⟨0, false, 0⟩ }
     h.seg = false ∧ s.rendezvous = false ∧ h.pop.toNat ≤ s.core.pstack.length ∧ s.core.seg.isNone = true ∧ s.core.replay.isNone = true ∧ s.core.results.isEmpty = true ∧
     s.core.mat.beats.isEmpty = true ∧ s.core.mat.drains.isEmpty = true) := by decide +kernel

/-- One bundle of one operation, loaded, and what its fetch gives. -/
def bundleOf (i : Instr) : State := (two 5 2).withFetchWord 384 ((encode ⟨0, false, false, false, 0, 0⟩ i).getD 0)

/-- The bits of the next bundle. -/
def nextBits (s : State) : Option Nat := match s.fetch with | .ok f => some f.bits | .error _ => none

/-- The next bundle as it issues. -/
def nextReady (s : State) : Ready := match s.fetch with | .ok f => { bits := f.bits, feed := f.feed, next := f.next } | .error _ => { bits := 0, feed := [], next := 0 }

/-- What the fetch leaves. -/
def fetched (s : State) : State := ({ s with last := .issued } : State).fetchTouch

/-- The state in which the bundle's operation acts. -/
def issuing (s : State) (i : Instr) : State :=
  let q := fetched s
  q.rdvDone.upd fun c => c.prepare (Header.ofNat (nextReady s).bits) (nextReady s).next (q.core.uses i).pushes

/-- What the operation of the bundle answers. -/
def acted (s : State) (i : Instr) : State := (next? (exec i { issuing s i with last := .issued })).getD s

/-- What the statement asks of the state in which a bundle of one operation is fetched. -/
def clear (s : State) (sl : Slot) (i : Instr) : Bool :=
  let r := nextReady s
  let h := Header.ofNat r.bits
  let q := fetched s
  s.agenda.isEmpty && !s.held && s.core.preempt.isNone && s.owedNow.isNone && s.core.badDue.isNone && !s.core.reraise && s.core.replay.isNone && (nextBits s).isSome
    && (q.sigTrap r).isNone && s.core.boundDue.isEmpty && (q.breakHit (some r)).isNone && r.bits / 2 ^ 10 % 2 ^ 6 == 0 && !h.rdv && !h.seg && s.core.seg.isNone
    && s.core.tokens.isEmpty && slotOrder.contains sl && (slotOrder.all fun y => y == sl || slotWord r.bits y == 0)
    && decide (decodeSlot sl (slotWord r.bits sl) = .ok (some i)) && (q.refuses i).isNone && (q.sprRefuses i).isNone && (!mhndStops i || !q.core.hnd || q.core.msaved)
    && decide (q.core.structural h [i] ≤ q.core.tau) && !q.core.scoreboard [i] && !q.atomicAhead [i] && ((issuing s i).bundleTrap (issuing s i) [i]).isNone

/-- What a verdict is: 0 issued, 1 a trap before its bundle, 2 a trap after it, 3 a wait. -/
def verdict (o : Host.Outcome State Fault Refusal) : Nat :=
  match next? o with
  | some t => (match t.last with | .issued => 0 | .trapped y => if y.after then 2 else 1 | _ => 3)
  | none => 9

theorem wit_StepRunsTheDecodedBundle :
    (let s : State := { State.reset with agenda := [.event .doorbell {}] }
     s.agenda = .event .doorbell {} :: [] ∧ isEvent .doorbell = true) ∧
    ({ State.reset with agenda := [.focus (.core 1)] } : State).agenda = .focus (.core 1) :: [] ∧
    ((∀ d, d < 4 → (State.reset.dev.dome d).fenceDue = false) ∧ State.reset.merNow = [] ∧ State.reset.dev.merWaits = []) ∧
    (∀ i ∈ [Instr.mepoch (mf 2 0 0 0 0 0 0 0), .fmtr (xf 3 0 0 0 0 0), .st (af 1 0 0 1 2 0)],
     let s := bundleOf i
     clear s (slotOfOp i) i = true ∧ verdict (exec i { issuing s i with last := .issued }) = 0 ∧ (issuing s i).actsLate i = false ∧ isTransfer i = false ∧
     ((issuing s i).bundleTrap (acted s i) [i]).isNone = true) ∧
    (let s := (two 5 2).withFetchWord 384 0
     s.agenda = [] ∧ s.held = false ∧ nextBits s = some 0 ∧ (∀ y ∈ slotOrder, slotWord 0 y = 0) ∧ (s.sigTrap (nextReady s)).isNone = true ∧ s.core.tokens = [] ∧
     (let p := (fetched s).rdvDone.upd fun c => c.prepare (Header.ofNat 0) (nextReady s).next 0
      (p.bundleTrap p []).isNone = true)) ∧
    (let i := Instr.add (sr 3 1 2)
     let s := bundleOf i
     clear s .s i = true ∧ verdict (exec i { issuing s i with last := .issued }) = 0 ∧ (issuing s i).actsLate i = false ∧ isTransfer i = false ∧
     ((issuing s i).bundleTrap (acted s i) [i]).isNone = true) ∧
    (let i := Instr.jmp (sb 0 0 0 4)
     let s := bundleOf i
     clear s .s i = true ∧ verdict (exec i { issuing s i with last := .issued }) = 0 ∧ (issuing s i).actsLate i = false ∧ isTransfer i = true ∧
     ((issuing s i).bundleTrap (acted s i) [i]).isNone = true ∧ ((acted s i).core.sig.feed (Header.ofNat (nextReady s).bits) (nextReady s).feed).bad = false) ∧
    (let i := Instr.jr (sr 0 1 0)
     let s := (two 0x40000000 0).withFetchWord 384 ((encode ⟨0, false, false, false, 0, 0⟩ i).getD 0)
     clear s .s i = true ∧ verdict (exec i { issuing s i with last := .issued }) = 1) ∧
    (let i := Instr.trap (si 0 0 7)
     let s := bundleOf i
     clear s .s i = true ∧ (issuing s i).actsLate i = true ∧ (issuing s i).core.takes i = true ∧ verdict (exec i { issuing s i with last := .issued }) = 2 ∧
     (let p := issuing s i
      let used := (p.core.uses i).reads ++ (p.core.uses i).writes.map Prod.fst
      let x := (p.upd fun c => c.finishBundle (nextReady s) (Header.ofNat (nextReady s).bits) used (isTransfer i) (endsBlock i || p.suspends i)).clock
      verdict (exec (p.resolve i) { x with core := { x.core with late := true, owed := none }, last := .issued }) = 2)) := by
  refine ⟨?_, ?_, ?_, ?_, ?_, ?_, ?_, ?_, ?_⟩ <;> decide +kernel

/-- The check value of R442 over the reference string of CRC-32C. -/
theorem test_crc32c : crc32c ([0x31, 0x32, 0x33, 0x34, 0x35, 0x36, 0x37, 0x38, 0x39] : List Byte) = 0xE3069283 := by decide +kernel

theorem wit_DecodeReadsBackWhatIsEncoded : (Instr.add (sr 31 31 31 0 true)).wellFormed = true ∧
    isEvent (.add (sr 31 31 31 0 true)) = false ∧ (Instr.cktol (xf 0 31 31 0 0 55)).wellFormed = true := by decide +kernel

theorem wit_EveryStepKeepsTheMemoryForm : State.reset.memOk = true ∧ ((two 5 2).withFetchWord 384 3).memOk = true := by decide +kernel

end Sys2Proof.Tests
end

section
/-! A step issues the bundle at the position: what its fetch leaves, its decoding, its slots, its end, and the operations that act late
(R16, R18, R146, R214, R367). -/

namespace Sys2Proof.Machine

/-! A fetch, and the end of a rendezvous wait, leave alone what decides how the fetched bundle issues. -/

/-- The parts of a state that the issue of a bundle reads and that neither a walk nor a log entry changes: the task, its segment, tokens,
replay, due bounds and rendezvous number, the other units, and the verdict. -/
structure SameIssue (s t : State) : Prop where
  task : t.core.task = s.core.task
  seg : t.core.seg = s.core.seg
  tokens : t.core.tokens = s.core.tokens
  replay : t.core.replay = s.core.replay
  boundDue : t.core.boundDue = s.core.boundDue
  rdvseq : t.core.rdvseq = s.core.rdvseq
  parked : t.parked = s.parked
  last : t.last = s.last

theorem SameIssue.refl (s : State) : SameIssue s s := ⟨rfl, rfl, rfl, rfl, rfl, rfl, rfl, rfl⟩

theorem SameIssue.trans {s t u : State} (h : SameIssue s t) (k : SameIssue t u) : SameIssue s u :=
  ⟨k.task.trans h.task, k.seg.trans h.seg, k.tokens.trans h.tokens, k.replay.trans h.replay, k.boundDue.trans h.boundDue,
    k.rdvseq.trans h.rdvseq, k.parked.trans h.parked, k.last.trans h.last⟩

theorem SameIssue.foldl {α : Type} {f : State → α → State} (h : ∀ s x, SameIssue s (f s x)) (xs : List α) (s : State) :
    SameIssue s (xs.foldl f s) := by
  induction xs generalizing s with
  | nil => exact .refl s
  | cons x xs ih => exact (h s x).trans (ih _)

theorem updDev_sameIssue (s : State) (f : Device → Device) : SameIssue s (s.updDev f) :=
  ⟨rfl, rfl, rfl, rfl, rfl, rfl, rfl, rfl⟩

theorem uncache_sameIssue (s : State) (ctx : BitVec 12) (va : Addr) : SameIssue s (s.uncache ctx va) := by
  simp only [State.uncache]
  split <;> exact ⟨rfl, rfl, rfl, rfl, rfl, rfl, rfl, rfl⟩

theorem cacheLeaf_sameIssue (s : State) (c : Cached) (ns : List CachedNode) : SameIssue s (s.cacheLeaf c ns) := by
  simp only [State.cacheLeaf]
  split <;> exact ⟨rfl, rfl, rfl, rfl, rfl, rfl, rfl, rfl⟩

theorem fill_sameIssue (s : State) (ctx : BitVec 12) (va : Addr) (k : Kind) : SameIssue s (s.fill ctx va k) := by
  simp only [State.fill]
  split
  · exact match judge s.dev.keys k (s.dev.answer (s.dev.pathFrom s.nodes ctx va) va) with
      | .ok _ => .refl s
      | .error _ => uncache_sameIssue ..
  · refine .trans ?_ ((updDev_sameIssue ..).trans (cacheLeaf_sameIssue ..))
    split
    · exact .refl s
    · exact uncache_sameIssue ..

theorem touchPage_sameIssue (s : State) (ctx : BitVec 12) (va : Addr) (k : Kind) : SameIssue s (s.touchPage ctx va k) := by
  simp only [State.touchPage]
  split
  · exact fill_sameIssue ..
  · split
    · exact (uncache_sameIssue ..).trans (fill_sameIssue ..)
    · split <;> exact ⟨rfl, rfl, rfl, rfl, rfl, rfl, rfl, rfl⟩

theorem touch_sameIssue (s : State) (as : Nat) (x : Int) (n : Nat) (k : Kind) : SameIssue s (s.touch as x n k) := by
  simp only [State.touch]
  split
  · split
    · exact (touchPage_sameIssue ..).trans (touchPage_sameIssue ..)
    · exact touchPage_sameIssue ..
  · exact .refl s

theorem failWalk_sameIssue (s : State) (as : Nat) (x : Int) (code : Nat) : SameIssue s (s.failWalk as x code) := by
  simp only [State.failWalk]
  split
  · exact .refl s
  · split
    · exact (uncache_sameIssue ..).trans (updDev_sameIssue ..)
    · split
      · exact (uncache_sameIssue ..).trans (fill_sameIssue ..)
      · exact .refl s

theorem fetchTouch_sameIssue (s : State) : SameIssue s s.fetchTouch := by
  refine SameIssue.foldl (fun s x => ?_) _ s
  split
  · exact failWalk_sameIssue ..
  · exact touch_sameIssue ..

theorem rdvDone_sameIssue (s : State) : SameIssue s s.rdvDone := by
  simp only [State.rdvDone]
  split
  · exact .refl s
  · split <;> exact ⟨rfl, rfl, rfl, rfl, rfl, rfl, rfl, rfl⟩

/-- A rendezvous waits for the same partners. -/
theorem SameIssue.rendezvous {s t : State} (h : SameIssue s t) : t.rendezvous = s.rendezvous := by
  simp only [State.rendezvous, h.task, h.parked, h.rdvseq]

/-! The bundle at the position: the verdict of the last step plays no part in a read of global memory, and so none in its fetch. -/

theorem chunks_last (s : State) (v : Verdict) (as : Nat) (k : Kind) (c : Nat) (x : Int) (n : Nat) :
    ({ s with last := v } : State).chunks as k c x n = s.chunks as k c x n := by
  induction n generalizing x with
  | zero => rfl
  | succ n ih =>
    simp only [State.chunks, ih]
    rfl

theorem bytesFrom_last (s : State) (v : Verdict) (fl : List Nat) (pl : Place) (x n k m : Nat) :
    ({ s with last := v } : State).bytesFrom fl pl x n k m = s.bytesFrom fl pl x n k m := by
  induction m generalizing k with
  | zero => rfl
  | succ m ih =>
    simp only [State.bytesFrom, ih]
    rfl

theorem readG_last (s : State) (v : Verdict) (k : Kind) (va : Int) (n : Nat) : ({ s with last := v } : State).readG k va n = s.readG k va n := by
  simp only [State.readG, chunks_last, State.readChunks, State.readVia, State.bytesVia, bytesFrom_last]

theorem codeSrc_last (s : State) (v : Verdict) : ({ s with last := v } : State).codeSrc = s.codeSrc := by
  simp only [State.codeSrc, readG_last]
  rfl

theorem codeBytes_last (s : State) (v : Verdict) (va : Addr) (n : Nat) : ({ s with last := v } : State).codeBytes va n = s.codeBytes va n := by
  simp only [State.codeBytes, readG_last]
  rfl

theorem fetchAt_last (s : State) (v : Verdict) (src : CodeSrc) (pos : Nat) : ({ s with last := v } : State).fetchAt src pos = s.fetchAt src pos := by
  simp only [State.fetchAt, codeBytes_last]

theorem fetch_last (s : State) (v : Verdict) : ({ s with last := v } : State).fetch = s.fetch := by
  simp only [State.fetch, codeSrc_last, fetchAt_last]

/-- Every fetched bundle feeds a halfword to the signature (R149). -/
theorem fetch_feeds {s : State} {f : Fetch} (h : s.fetch = .ok f) : f.feed.isEmpty = false := by
  simp only [State.fetch, State.fetchAt] at h
  repeat' split at h
  all_goals cases h
  all_goals rfl

/-- A fetched bundle as it issues outside a loop body. -/
def Fetch.ready (f : Fetch) : Ready := { bits := f.bits, feed := f.feed, next := f.next }

theorem nextBundle_of_fetch {s : State} {f : Fetch} (hr : s.core.replay = none) (hf : s.fetch = .ok f) : s.nextBundle = .ok f.ready := by
  simp only [State.nextBundle, hr, hf]
  rfl

/-! Decoding a bundle of no operation or of one (R142, R143). -/

/-- What `decodeSlot` checks of the word of an operation (R143). -/
theorem decodeSlot_some {sl : Slot} {w : Nat} {i : Instr} (h : decodeSlot sl w = .ok (some i)) :
    w ≠ 0 ∧ opcodeField sl w ≠ 0 ∧ buildSlot sl w = some i ∧ encodeSlot i = some (sl, w) ∧ zerosOk i = true ∧ legalOk i = true := by
  simp only [decodeSlot] at h
  split at h
  · cases h
  next hw =>
    split at h
    · cases h
    next ho =>
      split at h
      · cases h
      next j hb =>
        split at h
        · cases h
        next he =>
          split at h
          · cases h
          next hl =>
            cases h
            obtain ⟨hword, hzero⟩ := not_or.mp he
            exact ⟨hw, ho, hb, not_not.mp hword, by simpa using hzero, by simpa using hl⟩

/-- An empty slot decodes to nothing (R142). -/
theorem decodeHere_empty (s : State) (b : Bool) {bits : Nat} {sl : Slot} (h : slotWord bits sl = 0) : s.decodeHere b bits sl = .ok none := by
  simp only [State.decodeHere, h, if_true]

/-- A word that decodes to an operation which the unit accepts in its mode is that operation (R143, R266). -/
theorem decodeHere_accepted {s : State} {bits : Nat} {sl : Slot} {i : Instr} (h : decodeSlot sl (slotWord bits sl) = .ok (some i))
    (hm : s.refuses i = none) (hs : s.sprRefuses i = none) (hh : mhndStops i = true → s.core.hnd = true → s.core.msaved = true) :
    s.decodeHere false bits sl = .ok (some i) := by
  obtain ⟨hw, ho, hb, he, hz, hl⟩ := decodeSlot_some h
  have hstop : (mhndStops i && s.core.hnd && !s.core.msaved) = false := by
    cases h1 : mhndStops i <;> cases h2 : s.core.hnd <;> simp_all
  simp [State.decodeHere, hw, ho, hb, hm, he, hz, hl, hs, hstop]

/-- Slots that are all empty decode to no operation. -/
theorem decodeAll_empty (s : State) (b : Bool) (bits : Nat) {l : List Slot} (h : ∀ y ∈ l, slotWord bits y = 0) : s.decodeAll b bits l = .ok [] := by
  induction l with
  | nil => rfl
  | cons z l ih =>
    simp only [State.decodeAll, decodeHere_empty s b (h z List.mem_cons_self), ih fun y hy => h y (List.mem_cons_of_mem _ hy)]

/-- Slots of which one is not empty decode to its operation. -/
theorem decodeAll_single {s : State} {b : Bool} {bits : Nat} {sl : Slot} {i : Instr} {l : List Slot} (hd : s.decodeHere b bits sl = .ok (some i))
    (hn : l.Nodup) (hm : sl ∈ l) (h : ∀ y ∈ l, y ≠ sl → slotWord bits y = 0) : s.decodeAll b bits l = .ok [i] := by
  induction l with
  | nil => cases hm
  | cons z l ih =>
    obtain ⟨hz, hl⟩ := List.nodup_cons.mp hn
    have htail : ∀ y ∈ l, y ≠ sl → slotWord bits y = 0 := fun y hy => h y (List.mem_cons_of_mem _ hy)
    by_cases e : z = sl
    · subst e
      have hrest := decodeAll_empty s b bits fun y hy => htail y hy fun e => hz (e ▸ hy)
      simp only [State.decodeAll, hd, hrest]
    · have hrest := ih hl ((List.mem_cons.mp hm).resolve_left (Ne.symm e)) htail
      simp only [State.decodeAll, decodeHere_empty s b (h z List.mem_cons_self e), hrest]

/-! What one slot operation does in its bundle (R18, R115, R290). -/

theorem commitSeg_closed {s : State} (h : s.core.seg = none) : s.commitSeg = s := by
  simp only [State.commitSeg, h]

theorem upd_of_eq {s : State} {f : Core → Core} (h : f s.core = s.core) : s.upd f = s := by
  simp only [State.upd, h]

theorem queuesOf_self (c : Core) : c.queuesOf c = c := rfl

theorem queuesOf_queuesOf (c d e : Core) : (c.queuesOf d).queuesOf e = c.queuesOf e := rfl

theorem drainsOf_self (c : Core) : c.drainsOf c = c := rfl

theorem clipsOf_self (c : Core) : c.clipsOf c = c := by
  have h : Vector.ofFn (fun t : Fin 4 => c.mat.tiles[t]) = c.mat.tiles := Vector.ext fun i hi => by simp
  exact congrArg (fun ts => { c with mat := { c.mat with tiles := ts } }) h

/-- A store never acts late. -/
theorem actsLate_of_isStore (s : State) {i : Instr} (h : isStore i = true) : s.actsLate i = false := by
  unfold isStore at h
  split at h <;> simp_all [State.actsLate, State.suspends]

/-- Nor does a control transfer. -/
theorem actsLate_of_isTransfer (s : State) {i : Instr} (h : isTransfer i = true) : s.actsLate i = false := by
  unfold isTransfer at h
  split at h <;> simp_all [State.actsLate, State.suspends]

section Run
variable {r : Slots} {i : Instr} {t : State} {y : Trap}

theorem run_issued (hl : r.st.actsLate i = false) (he : exec i { r.st with last := .issued } = .next t) (ht : t.last = .issued) :
    r.run i = { r with st := t } := by
  simp [Slots.run, hl, he, stateOf, ht]

theorem run_trapped (hl : r.st.actsLate i = false ∨ y.after = false) (he : exec i { r.st with last := .issued } = .next t)
    (ht : t.last = .trapped y) : r.run i = { r with traps := r.traps ++ [(i, y)] } := by
  cases h : r.st.actsLate i
  · simp [Slots.run, h, he, stateOf, ht]
  · have hy : y.after = false := hl.resolve_left (by simp [h])
    simp [Slots.run, h, he, stateOf, ht, hy]

theorem run_late (hl : r.st.actsLate i = true) (he : exec i { r.st with last := .issued } = .next t)
    (ht : ∀ y, t.last = .trapped y → y.after = true) : r.run i = r := by
  cases h : t.last <;> simp_all [Slots.run, stateOf]

end Run

/-- What a bundle keeps of the core `d` at its issue when its operation `i` leaves the core `c`: a store keeps the bound registers and
result queues, an epoch the CLIPMASK words, an X-slot operation the drains in flight (R18, R285, R290). -/
def Core.keptBy (d : Core) (i : Instr) (c : Core) : Core :=
  if isStore i = true then { c.queuesOf d with bounds := d.bounds }
  else if takesEpoch i = true then c.clipsOf d
  else if slotOfOp i = .x then c.drainsOf d
  else c

/-- The same, where a VST of a queue entry has its quarter popped (R290). -/
def Core.keptAt (d : Core) (i : Instr) (c : Core) : Core :=
  match i with
  | .vstQueue _ => { c with bounds := d.bounds }
  | i => d.keptBy i c

theorem keptAt_other (d c : Core) {i : Instr} (hq : ∀ o, i ≠ .vstQueue o) : d.keptAt i c = d.keptBy i c := by
  unfold Core.keptAt
  split
  · exact absurd rfl (hq _)
  · rfl

theorem keptBy_store (d : Core) {i : Instr} (h : isStore i = true) : d.keptBy i = fun c => { c.queuesOf d with bounds := d.bounds } :=
  funext fun _ => if_pos h

theorem keptBy_epoch (d : Core) {i : Instr} (h : isStore i = false) (he : takesEpoch i = true) : d.keptBy i = fun c => c.clipsOf d := by
  funext c
  simp [Core.keptBy, h, he]

theorem keptBy_x (d : Core) {i : Instr} (h : isStore i = false) (he : takesEpoch i = false) (hx : slotOfOp i = .x) :
    d.keptBy i = fun c => c.drainsOf d := by
  funext c
  simp [Core.keptBy, h, he, hx]

theorem keptBy_rest (d : Core) {i : Instr} (h : isStore i = false) (he : takesEpoch i = false) (hx : slotOfOp i ≠ .x) : d.keptBy i = id := by
  funext c
  simp [Core.keptBy, h, he, hx]

theorem keptBy_self (c : Core) (i : Instr) : c.keptBy i c = c := by
  simp only [Core.keptBy, clipsOf_self]
  repeat' split
  all_goals rfl

@[simp] theorem keptAt_sig (d c : Core) (i : Instr) : (d.keptAt i c).sig = c.sig := by
  unfold Core.keptAt Core.keptBy
  repeat' split
  all_goals rfl

theorem popFirst_other (r : Slots) {i : Instr} (hq : ∀ o, i ≠ .vstQueue o) : r.popFirst i = r := by
  unfold Slots.popFirst
  split
  · exact absurd rfl (hq _)
  · rfl

section One
variable {p t : State} {i : Instr} {y : Trap}

theorem popFirst_vstQueue {o : AForm} (hs : p.core.seg = none) (he : exec (.vstQueue o) { p with last := .issued } = .next t)
    (ht : t.last = .issued) : Slots.popFirst { st := p } (.vstQueue o) = { st := p.upd fun c => c.queuesOf t.core } := by
  simp [Slots.popFirst, he, stateOf, ht, commitSeg_closed hs]

theorem popFirst_trapped (he : exec i { p with last := .issued } = .next t) (ht : t.last = .trapped y) : Slots.popFirst { st := p } i = { st := p } := by
  unfold Slots.popFirst
  split
  · simp [he, stateOf, ht]
  · rfl

/-- A bundle of one store. -/
theorem runSlots_store (h : isStore i = true) : p.runSlots [i] = Slots.store p (Slots.popFirst { st := p } i) i := by
  simp [State.runSlots, actsLate_of_isStore p h, h]

/-- A bundle of one operation that stores nothing and does not act late. -/
theorem runSlots_act (hl : p.actsLate i = false) (h : isStore i = false) : p.runSlots [i] = Slots.act p { st := p } i := by
  simp [State.runSlots, hl, h]

/-- A bundle of one operation that does not act late and pops no queue entry first. -/
theorem runSlots_unpopped (hl : p.actsLate i = false) (hp : Slots.popFirst { st := p } i = { st := p }) :
    p.runSlots [i] = { Slots.run { st := p } i with st := (Slots.run { st := p } i).st.upd (p.core.keptBy i) } := by
  cases h : isStore i
  · rw [runSlots_act hl h]
    cases he : takesEpoch i
    · by_cases hx : slotOfOp i = .x
      · have hdrain : (p.upd fun c => c.drainsOf p.core) = p := upd_of_eq (drainsOf_self _)
        simp [Slots.act, he, hx, hdrain, keptBy_x p.core h he hx]
      · simp [Slots.act, he, hx, keptBy_rest p.core h he hx, State.upd]
    · have hclip : (p.upd fun c => c.clipsOf p.core) = p := upd_of_eq (clipsOf_self _)
      simp [Slots.act, he, hclip, keptBy_epoch p.core h he]
  · have hst : (p.upd fun c => { c.queuesOf p.core with bounds := p.core.bounds }) = p := upd_of_eq (by rw [queuesOf_self])
    rw [runSlots_store h, hp, keptBy_store p.core h]
    simp only [Slots.store, hst]

/-- A bundle of a VST of a queue entry that takes effect: its pop comes first (R290). -/
theorem runSlots_vstQueue {o : AForm} (hs : p.core.seg = none) (he : exec (.vstQueue o) { p with last := .issued } = .next t)
    (ht : t.last = .issued) : p.runSlots [.vstQueue o] = { st := t.upd (p.core.keptAt (.vstQueue o)) } := by
  have hst : ((p.upd fun c => c.queuesOf t.core).upd fun c => { c.queuesOf p.core with bounds := p.core.bounds }) = p :=
    upd_of_eq (f := fun c => { (c.queuesOf t.core).queuesOf p.core with bounds := p.core.bounds }) (by rw [queuesOf_queuesOf, queuesOf_self])
  rw [runSlots_store rfl, popFirst_vstQueue hs he ht]
  simp only [Slots.store, hst, run_issued (r := { st := p }) (actsLate_of_isStore p rfl) he ht]
  rfl

/-- A bundle of one operation that acts late. -/
theorem runSlots_late (hl : p.actsLate i = true) : p.runSlots [i] = { Slots.run { st := p } i with st := p } := by
  have h : isStore i = false := by
    cases h : isStore i
    · rfl
    · rw [actsLate_of_isStore p h] at hl; cases hl
  have hst : (p.upd fun c => c.queuesOf p.core) = p := upd_of_eq (queuesOf_self _)
  simp [State.runSlots, hl, h, hst]

/-- The slots of a bundle whose one operation takes effect (R18). -/
theorem runSlots_issued (hs : p.core.seg = none) (hl : p.actsLate i = false) (he : exec i { p with last := .issued } = .next t)
    (ht : t.last = .issued) : p.runSlots [i] = { st := t.upd (p.core.keptAt i) } := by
  by_cases hq : ∃ o, i = .vstQueue o
  · obtain ⟨o, rfl⟩ := hq
    exact runSlots_vstQueue hs he ht
  · have hq : ∀ o, i ≠ .vstQueue o := fun o e => hq ⟨o, e⟩
    simp only [runSlots_unpopped hl (popFirst_other _ hq), run_issued (r := { st := p }) hl he ht, State.upd, keptAt_other _ _ hq]

/-- The slots of a bundle whose one operation meets a trap before the bundle issues. -/
theorem runSlots_trapped (hl : p.actsLate i = false ∨ y.after = false) (he : exec i { p with last := .issued } = .next t)
    (ht : t.last = .trapped y) : p.runSlots [i] = { st := p, traps := [(i, y)] } := by
  have hrun := run_trapped (r := { st := p }) hl he ht
  cases hlate : p.actsLate i
  · simp only [runSlots_unpopped hlate (popFirst_trapped he ht), hrun, State.upd, keptBy_self]
    rfl
  · rw [runSlots_late hlate, hrun]
    rfl

/-- The slots of a bundle whose one operation acts late. -/
theorem runSlots_deferred (hl : p.actsLate i = true) (he : exec i { p with last := .issued } = .next t)
    (ht : ∀ y, t.last = .trapped y → y.after = true) : p.runSlots [i] = { st := p } := by
  rw [runSlots_late hl, run_late (r := { st := p }) hl he ht]

end One

/-! Issuing a bundle outside a segment whose reads no token holds back (R131, R367, R375). -/

theorem segmentFor_closed {s : State} {h : Header} (hh : h.seg = false) (hs : s.core.seg = none) (ops : List Instr) : s.segmentFor h ops = s := by
  simp [State.segmentFor, hh, commitSeg_closed hs]

theorem firstReads_nil {c : Core} (h : c.tokens = []) (ops : List Instr) : c.firstReads ops = [] := by
  simp [Core.firstReads, h]

theorem tokenTrap_nil {c : Core} (h : c.tokens = []) (ops : List Instr) : c.tokenTrap ops = none := by
  simp [Core.tokenTrap, h]

/-- The end of a bundle whose operations `ops`, decoded in `p`, leave `t` (R145, R152, R437). -/
def State.ended (p : State) (f : Ready) (ops : List Instr) (t : State) : State :=
  { (t.upd fun c => c.finishBundle f (Header.ofNat f.bits) (ops.flatMap fun i => (p.core.uses i).reads ++ (p.core.uses i).writes.map Prod.fst)
      (ops.any isTransfer) (ops.any fun i => endsBlock i || p.suspends i)).clock with last := .issued }

/-- No segment is open or opens, and no token is unread. -/
structure PlainIssue (p : State) (f : Ready) : Prop where
  noSeg : (Header.ofNat f.bits).seg = false
  seg : p.core.seg = none
  tokens : p.core.tokens = []

section Issue
variable {p : State} {f : Ready} {ops : List Instr} {r : Slots}

/-- The trap of the lowest slot is taken (R367). -/
theorem issueNow_traps {i : Instr} {y : Trap} (hp : PlainIssue p f) (hr : p.runSlots ops = r) (hw : r.wait = none) (hb : p.bundleTrap r.st ops = none)
    (ht : firstTrap r.traps = some (i, y)) : p.issueNow f (Header.ofNat f.bits) ops = p.slotTrap i y := by
  simp only [State.issueNow, segmentFor_closed hp.noSeg hp.seg, firstReads_nil hp.tokens, List.isEmpty_nil, if_true, hr, hw, hb,
    tokenTrap_nil hp.tokens, ht]

/-- With no trap the bundle ends, and its late operations act (R16, R152, R214). -/
theorem issueNow_ends (hp : PlainIssue p f) (hr : p.runSlots ops = r) (hw : r.wait = none) (hb : p.bundleTrap r.st ops = none)
    (ht : r.traps = []) (hc : (ops.any isTransfer && (r.st.core.sig.feed (Header.ofNat f.bits) f.feed).bad) = false) :
    p.issueNow f (Header.ofNat f.bits) ops =
      (p.ended f ops r.st).actAll ((ops.filter fun i => p.core.takes i && p.actsLate i).map p.resolve) := by
  simp only [State.issueNow, segmentFor_closed hp.noSeg hp.seg, firstReads_nil hp.tokens, List.isEmpty_nil, if_true, hr, hw, hb,
    tokenTrap_nil hp.tokens, ht, firstTrap, hc, Bool.false_eq_true, if_false, State.ended]

end Issue

/-- A late operation that does not wait has acted (R214). -/
theorem actAll_single {s w : State} {i : Instr} (he : exec i { s with core := { s.core with late := true, owed := none }, last := .issued } = .next w)
    (hw : w.last ≠ .waits) (hn : ∀ n, w.last ≠ .waitTau n) : s.actAll [i] = { w with core := { w.core with late := false } } := by
  have hact : s.actLate i = { w with core := { w.core with late := false } } := by
    simp only [State.actLate, he, stateOf]
  simp only [State.actAll, hact]
  split
  · split <;> rfl
  · rfl

/-! From a step to the issue of the fetched bundle (R16, R146, R367). -/

/-- The state that the fetch of the next bundle leaves. -/
def State.fetched (s : State) : State := ({ s with last := .issued } : State).fetchTouch

/-- The state in which the operations of a fetched bundle act, its fields set and its pushes counted (R189, R201, R208). -/
def State.begun (s : State) (f : Fetch) (pushes : Nat) : State :=
  s.fetched.rdvDone.upd fun c => c.prepare (Header.ofNat f.bits) f.next pushes

/-- The focused unit fetches bundle `f`, whose header is legal and opens no segment, and nothing precedes its operations. -/
structure Unhindered (s : State) (f : Fetch) : Prop where
  agenda : s.agenda = []
  held : s.held = false
  preempt : s.core.preempt = none
  owed : s.owedNow = none
  badDue : s.core.badDue = none
  reraise : s.core.reraise = false
  replay : s.core.replay = none
  fetch : s.fetch = .ok f
  sig : s.fetched.sigTrap f.ready = none
  bound : s.core.boundDue = []
  brk : s.fetched.breakHit (some f.ready) = none
  header : f.bits / 2 ^ 10 % 2 ^ 6 = 0
  rdv : (Header.ofNat f.bits).rdv = true → s.fetched.rendezvous = false
  noSeg : (Header.ofNat f.bits).seg = false
  seg : s.core.seg = none
  tokens : s.core.tokens = []

theorem fetched_sameIssue (s : State) : SameIssue { s with last := .issued } s.fetched := fetchTouch_sameIssue _

theorem begun_sameIssue (s : State) (f : Fetch) (n : Nat) : SameIssue { s with last := .issued } (s.begun f n) :=
  ((fetched_sameIssue s).trans (rdvDone_sameIssue _)).trans ⟨rfl, rfl, rfl, rfl, rfl, rfl, rfl, rfl⟩

/-- The end of a rendezvous wait changes no use of a register. -/
theorem uses_rdvDone (s : State) (i : Instr) : s.rdvDone.core.uses i = s.core.uses i := by
  have hw : ∃ w, s.rdvDone.core = { s.core with waitFrom := w } := by
    simp only [State.rdvDone]
    split
    · exact ⟨_, rfl⟩
    · split <;> exact ⟨_, rfl⟩
  obtain ⟨w, hw⟩ := hw
  rw [hw]
  rfl

section Step
variable {s : State} {f : Fetch} {ops : List Instr}

theorem begun_plain (H : Unhindered s f) (n : Nat) : PlainIssue (s.begun f n) f.ready :=
  ⟨H.noSeg, (begun_sameIssue s f n).seg.trans H.seg, (begun_sameIssue s f n).tokens.trans H.tokens⟩

theorem issue_fetches (H : Unhindered s f) : s.issue = s.fetched.issueBundle f.ready := by
  have hheld : ({ s with last := .issued } : State).held = false := H.held
  have hpre : ({ s with last := .issued } : State).preemptDue = none := by simp only [State.preemptDue, H.preempt]
  have howed : ({ s with last := .issued } : State).owedNow = none := H.owed
  have hnext : ({ s with last := .issued } : State).nextBundle = .ok f.ready := nextBundle_of_fetch H.replay (by rw [fetch_last, H.fetch])
  have hfeed : f.ready.feed.isEmpty = false := fetch_feeds H.fetch
  simp only [State.issue, hheld, hpre, howed, H.badDue, H.reraise, hnext, hfeed, Bool.false_and, Bool.false_eq_true, if_false]
  rfl

theorem issueBundle_decodes (H : Unhindered s f) (hd : s.fetched.decodeAll false f.bits slotOrder = .ok ops) :
    s.fetched.issueBundle f.ready = s.fetched.issueRun f.ready ops := by
  have hbound : s.fetched.core.firstBound = none := by
    simp only [Core.firstBound, (fetched_sameIssue s).boundDue, H.bound]
    rfl
  have hdec : s.fetched.decodeBits f.ready.capture f.ready.bits = .ok ops := by
    simpa only [State.decodeBits, Fetch.ready, H.header, ne_eq, not_true_eq_false, if_false] using hd
  have hruns : f.ready.runs = true := rfl
  simp only [State.issueBundle, H.sig, hbound, H.brk, hruns, hdec, Bool.not_true, Bool.false_eq_true, if_false]

theorem issueRun_begins (H : Unhindered s f) (ht : s.fetched.core.structural (Header.ofNat f.bits) ops ≤ s.fetched.core.tau)
    (hs : s.fetched.core.scoreboard ops = false) (ha : s.fetched.atomicAhead ops = false) :
    s.fetched.issueRun f.ready ops =
      (s.begun f ((ops.map fun i => (s.fetched.core.uses i).pushes).foldl (· + ·) 0)).issueNow f.ready (Header.ofNat f.bits) ops := by
  have htau : ¬ s.fetched.core.tau < s.fetched.core.structural (Header.ofNat f.ready.bits) ops := Nat.not_lt.mpr ht
  have hrdv : ((Header.ofNat f.ready.bits).rdv && s.fetched.rendezvous) = false := by
    cases h : (Header.ofNat f.ready.bits).rdv
    · rfl
    · exact H.rdv h
  simp only [State.issueRun, htau, hs, ha, hrdv, Bool.or_false, Bool.false_eq_true, if_false, State.begun, State.upd, uses_rdvDone]
  rfl

/-- A step issues the bundle that it fetches, once its slots decode and its registers, pipes and atomics hold nothing back. -/
theorem step_issues (H : Unhindered s f) (hd : s.fetched.decodeAll false f.bits slotOrder = .ok ops)
    (ht : s.fetched.core.structural (Header.ofNat f.bits) ops ≤ s.fetched.core.tau) (hs : s.fetched.core.scoreboard ops = false)
    (ha : s.fetched.atomicAhead ops = false) :
    step s = .next ((s.begun f ((ops.map fun i => (s.fetched.core.uses i).pushes).foldl (· + ·) 0)).issueNow f.ready (Header.ofNat f.bits) ops).tidy := by
  rw [← issueRun_begins H ht hs ha, ← issueBundle_decodes H hd, ← issue_fetches H]
  simp only [step, H.agenda, tidied]

end Step

/-! The all-zero bundle (R146, R142): its meaning is the end of a bundle of no operations. -/

theorem structural_nil {c : Core} {h : Header} (hh : h.seg = false) : c.structural h [] = 0 := by
  simp [Core.structural, hh]

theorem atomicAhead_nil (s : State) : s.atomicAhead [] = false := by
  simp only [State.atomicAhead, List.any_eq_false]
  intro x _
  split <;> simp

/-- Where the bundle holds no operation, its `pop` lies within the stack unless PSTACK is due (R145). -/
theorem bundleTrap_nil_pop {p r : State} (h : p.bundleTrap r [] = none) : p.core.curPop.toNat ≤ p.core.pstack.length + p.core.curPushes := by
  by_contra hle
  have htrap : p.bundleTrap r [] = some (PSTACK, p.core.pstackInfo) := by
    have hlt : p.core.pstack.length + p.core.curPushes < p.core.curPop.toNat := Nat.not_le.mp hle
    simp [State.bundleTrap, hlt]
  rw [htrap] at h
  cases h

/-- The bits and the feed of a bundle play no part in where it leads outside a loop body (R147, R319). -/
theorem advance_not_body (c : Core) {f g : Ready} (hf : f.body = false) (hg : g.body = false) : c.advance f = c.advance g := by
  simp only [Core.advance, hf, hg, Bool.false_eq_true, if_false]

/-- A bundle whose index has been fed to the signature ends as the bundle that feeds it (R149). -/
theorem finishBundle_fed (c : Core) (f : Fetch) (h : Header) (bits : Nat) :
    (({ c.prepare h f.next 0 with sig := c.sig.feed h f.feed } : Core).prepare h f.next 0).finishBundle
        { bits := bits, feed := [], next := f.next } h [] false false =
      (c.prepare h f.next 0).finishBundle f.ready h [] false false := by
  simp only [Core.finishBundle]
  rw [advance_not_body (f := { bits := bits, feed := [], next := f.next }) (g := f.ready) _ rfl rfl]
  rfl

/-- The all-zero bundle that neither waits nor overdraws the stack (R146). -/
theorem execAllZeroBundle_ends {s : State} {h : Header} (hh : h.seg = false) (hr : h.rdv = true → s.rendezvous = false)
    (hp : h.pop.toNat ≤ s.core.pstack.length) (hs : s.core.seg = none) :
    exec (.allZeroBundle h) s =
      .next (s.upd fun c => (c.prepare h c.seqPos 0).finishBundle { bits := h.toNat, feed := [], next := c.seqPos } h [] false false).clock := by
  have hrdv : (h.rdv && s.rendezvous) = false := by
    cases e : h.rdv
    · rfl
    · exact hr e
  have hpop : ¬ h.pop.toNat > (s.upd fun c => c.prepare h c.seqPos 0).core.pstack.length := Nat.not_lt.mpr hp
  have hseg : (s.upd fun c => c.prepare h c.seqPos 0).core.seg = none := hs
  show execAllZeroBundle h s = _
  simp only [execAllZeroBundle, hh, hrdv, hpop, segmentFor_closed hh hseg, Bool.false_and, Bool.false_eq_true, if_false]
  rfl

/-- The index of a fetched bundle has been fed to the signature (R149). -/
def State.fed (p : State) (f : Fetch) : State := p.upd fun c => { c with sig := c.sig.feed (Header.ofNat f.bits) f.feed }

theorem setLast_self {t : State} {v : Verdict} (h : t.last = v) : ({ t with last := v } : State) = t := by
  subst h
  rfl

section Step
variable {s : State} {f : Fetch}

/-- The meaning of an all-zero bundle is the end of a bundle of no operations. -/
theorem execAllZeroBundle_fed (H : Unhindered s f) (hb : (s.begun f 0).bundleTrap (s.begun f 0) [] = none) :
    exec (.allZeroBundle (Header.ofNat f.bits)) ((s.begun f 0).fed f) = .next ((s.begun f 0).ended f.ready [] (s.begun f 0)) := by
  have hsame := begun_sameIssue s f 0
  have hplain := begun_plain H 0
  have hpop : (Header.ofNat f.bits).pop.toNat ≤ (s.begun f 0).core.pstack.length := bundleTrap_nil_pop hb
  have hrdv : (Header.ofNat f.bits).rdv = true → ((s.begun f 0).fed f).rendezvous = false := fun h => by
    have hsig : ((s.begun f 0).fed f).rendezvous = (s.begun f 0).rendezvous := rfl
    rw [hsig, hsame.rendezvous, ← (fetched_sameIssue s).rendezvous, H.rdv h]
  have hend : ((s.begun f 0).fed f).upd (fun c => (c.prepare (Header.ofNat f.bits) c.seqPos 0).finishBundle
        { bits := (Header.ofNat f.bits).toNat, feed := [], next := c.seqPos } (Header.ofNat f.bits) [] false false) =
      (s.begun f 0).upd fun c => c.finishBundle f.ready (Header.ofNat f.bits) [] false false :=
    congrArg (fun c => { s.begun f 0 with core := c }) (finishBundle_fed s.fetched.rdvDone.core f _ _)
  have hlast : ((s.begun f 0).upd fun c => c.finishBundle f.ready (Header.ofNat f.bits) [] false false).clock.last = .issued := hsame.last
  rw [execAllZeroBundle_ends H.noSeg hrdv hpop hplain.seg, hend]
  exact congrArg Host.Outcome.next (setLast_self hlast).symm

/-- A step at an all-zero bundle (R146). -/
theorem step_allZero (H : Unhindered s f) (hz : ∀ y ∈ slotOrder, slotWord f.bits y = 0) (hb : (s.begun f 0).bundleTrap (s.begun f 0) [] = none) :
    step s = tidied (exec (.allZeroBundle (Header.ofNat f.bits)) ((s.begun f 0).fed f)) := by
  have htau : s.fetched.core.structural (Header.ofNat f.bits) [] ≤ s.fetched.core.tau := by
    rw [structural_nil H.noSeg]
    exact Nat.zero_le _
  rw [step_issues H (decodeAll_empty _ _ _ hz) htau rfl (atomicAhead_nil _), execAllZeroBundle_fed H hb]
  exact congrArg (fun t => Host.Outcome.next (State.tidy t)) (issueNow_ends (begun_plain H 0) rfl rfl hb rfl rfl)

variable {sl : Slot} {i : Instr}

/-- The one operation of a fetched bundle decodes, and nothing holds it back. -/
structure HoldsOne (s : State) (f : Fetch) (sl : Slot) (i : Instr) : Prop where
  slot : sl ∈ slotOrder
  rest : ∀ y ∈ slotOrder, y ≠ sl → slotWord f.bits y = 0
  decode : decodeSlot sl (slotWord f.bits sl) = .ok (some i)
  mode : s.fetched.refuses i = none
  spr : s.fetched.sprRefuses i = none
  mhnd : mhndStops i = true → s.fetched.core.hnd = true → s.fetched.core.msaved = true
  tau : s.fetched.core.structural (Header.ofNat f.bits) [i] ≤ s.fetched.core.tau
  board : s.fetched.core.scoreboard [i] = false
  atomic : s.fetched.atomicAhead [i] = false

/-- The state in which the one operation of a bundle acts. -/
def State.begunFor (s : State) (f : Fetch) (i : Instr) : State := s.begun f (s.fetched.core.uses i).pushes

theorem begunFor_plain (H : Unhindered s f) (i : Instr) : PlainIssue (s.begunFor f i) f.ready := begun_plain H _

theorem step_single {u : State} (H : Unhindered s f) (D : HoldsOne s f sl i)
    (hu : (s.begunFor f i).issueNow f.ready (Header.ofNat f.bits) [i] = u) : step s = .next u.tidy := by
  have hdec := decodeAll_single (decodeHere_accepted D.decode D.mode D.spr D.mhnd) (by decide) D.slot D.rest
  have hpushes : (([i].map fun i => (s.fetched.core.uses i).pushes).foldl (· + ·) 0) = (s.fetched.core.uses i).pushes := by simp
  rw [step_issues H hdec D.tau D.board D.atomic, hpushes, ← hu, State.begunFor]

variable {t : State} {y : Trap}

/-- A step at an operation that takes effect (R16). -/
theorem step_effect (H : Unhindered s f) (D : HoldsOne s f sl i) (he : exec i { s.begunFor f i with last := .issued } = .next t)
    (ht : t.last = .issued) (hl : (s.begunFor f i).actsLate i = false)
    (hb : (s.begunFor f i).bundleTrap (t.upd ((s.begunFor f i).core.keptAt i)) [i] = none)
    (hc : isTransfer i = true → (t.core.sig.feed (Header.ofNat f.bits) f.feed).bad = false) :
    step s = .next ((s.begunFor f i).ended f.ready [i] (t.upd ((s.begunFor f i).core.keptAt i))).tidy := by
  have hplain := begunFor_plain H i
  have hsig : ([i].any isTransfer && ((t.upd ((s.begunFor f i).core.keptAt i)).core.sig.feed (Header.ofNat f.bits) f.feed).bad) = false := by
    cases e : isTransfer i
    · simp [e]
    · simp [hc e]
  refine step_single H D ((issueNow_ends hplain (runSlots_issued hplain.seg hl he ht) rfl hb rfl hsig).trans ?_)
  simp [hl, State.actAll]

/-- A step at an operation that traps before its bundle issues: the trap, in the state before the bundle (R16, R367). -/
theorem step_trap (H : Unhindered s f) (D : HoldsOne s f sl i) (he : exec i { s.begunFor f i with last := .issued } = .next t)
    (ht : t.last = .trapped y) (hl : (s.begunFor f i).actsLate i = false ∨ y.after = false)
    (hb : (s.begunFor f i).bundleTrap (s.begunFor f i) [i] = none) : step s = .next t.tidy := by
  have htrap : (s.begunFor f i).slotTrap i y = t := by simp only [State.slotTrap, he, stateOf, ht]
  exact step_single H D ((issueNow_traps (begunFor_plain H i) (runSlots_trapped hl he ht) rfl hb rfl).trans htrap)

/-- A step at an operation that acts once its bundle has issued (R214, R221, R223, R373). -/
theorem step_late {w : State} (H : Unhindered s f) (D : HoldsOne s f sl i) (hl : (s.begunFor f i).actsLate i = true)
    (hg : (s.begunFor f i).core.takes i = true) (he : exec i { s.begunFor f i with last := .issued } = .next t)
    (ht : ∀ y, t.last = .trapped y → y.after = true) (hb : (s.begunFor f i).bundleTrap (s.begunFor f i) [i] = none)
    (hx : let x := (s.begunFor f i).ended f.ready [i] (s.begunFor f i)
      exec ((s.begunFor f i).resolve i) { x with core := { x.core with late := true, owed := none }, last := .issued } = .next w)
    (hw : w.last ≠ .waits) (hn : ∀ n, w.last ≠ .waitTau n) : step s = .next ({ w with core := { w.core with late := false } } : State).tidy := by
  have htransfer : isTransfer i = false := by
    cases e : isTransfer i
    · rfl
    · rw [actsLate_of_isTransfer _ e] at hl; cases hl
  refine step_single H D ((issueNow_ends (begunFor_plain H i) (runSlots_deferred hl he ht) rfl hb rfl (by simp [htransfer])).trans ?_)
  simp only [List.filter_cons, List.filter_nil, hg, hl, Bool.and_self, if_true, List.map_cons, List.map_nil]
  exact actAll_single hx hw hn

end Step

/-- Where no fence is due and no Meridian work waits, nothing follows a step (R56, R408). -/
theorem tidy_nothing_due {s : State} (hf : ∀ d, d < 4 → (s.dev.dome d).fenceDue = false) (hm : s.merNow = []) (hw : s.dev.merWaits = []) :
    s.tidy = s := by
  have hfence : s.fenceDomes = s := by
    simp [State.fenceDomes, List.range_succ, hf]
  simp only [State.tidy, hfence, State.merNote, hm, hw, List.isEmpty_nil, Bool.and_self, if_true]

/-- The end of a bundle of one operation. -/
theorem ended_single (p : State) (f : Ready) (i : Instr) (t : State) :
    p.ended f [i] t =
      { (t.upd fun c => c.finishBundle f (Header.ofNat f.bits) ((p.core.uses i).reads ++ (p.core.uses i).writes.map Prod.fst) (isTransfer i)
          (endsBlock i || p.suspends i)).clock with last := .issued } := by
  simp only [State.ended, List.flatMap_cons, List.flatMap_nil, List.append_nil, List.any_cons, List.any_nil, Bool.or_false]

/-- Settles O56: the agenda by the two equations of `step`; a bundle by its issue with no operation (`step_allZero`), or with one that takes
effect, traps, or acts late (`step_effect`, `step_trap`, `step_late`). -/
theorem stepRunsTheDecodedBundle : Obligations.StepRunsTheDecodedBundle := by
  unfold Obligations.StepRunsTheDecodedBundle
  intro s
  refine ⟨fun i d rest ha hi => ?_, fun u rest ha => ?_, tidy_nothing_due, ?_⟩
  · simp only [step, ha, hi, if_true]
  · simp only [step, ha, tidied]
  · intro f h r q begun ha hheld hpre howed hbad hre hrep hf hsig hbound hbrk hhead hrdv hnoSeg hseg htok
    have H : Unhindered s f :=
      ⟨ha, hheld, hpre, howed, hbad, hre, hrep, hf, hsig, hbound, hbrk, hhead, hrdv, hnoSeg, hseg, htok⟩
    refine ⟨step_allZero H, ?_⟩
    intro sl i hsl hrest hdec hmode hspr hmh htau hboard hatom p used finish settled
    have D : HoldsOne s f sl i := ⟨hsl, hrest, hdec, hmode, hspr, hmh, htau, hboard, hatom⟩
    have hfinish : ∀ t, finish t = (s.begunFor f i).ended f.ready [i] t := fun t => (ended_single _ _ i t).symm
    refine ⟨fun t he ht hl hb hc => ?_, fun t y he ht hl hb => step_trap H D he ht hl hb, fun t w hl hg he ht hb hx hw hn => ?_⟩
    · rw [hfinish]
      exact step_effect H D he ht hl hb hc
    · rw [hfinish] at hx
      exact step_late H D hl hg he ht hb hx hw hn

end Sys2Proof.Machine
end

section
/-! O60: every step answers a next state and keeps the canonical form of memory (log 4, R41, R122, R413). Each function of the model that
answers a state, a device or an outcome has one lemma, named after it: it keeps the form (`_memOk`), or answers a state that has it
(`_answers`). The lemmas follow the model's files, and each rests on those of the functions called. Here: what the forms mean, and the
choices and folds that all of them use. -/

namespace Sys2Proof.Machine

/-- An outcome answers a next state whose memories have the canonical form. -/
def Answers (x : Host.Outcome State Fault Refusal) : Prop := ∃ t, x = .next t ∧ t.dev.memOk

/-- A device with the same memories has the form. -/
theorem Device.memOk.same {v u : Device} (h : v.memOk) (hm : u.mem = v.mem) (hb : u.base = v.base) : u.memOk := ⟨hm ▸ h.1, hb ▸ h.2⟩

theorem ite_memOk {c : Prop} [Decidable c] {v u : Device} (h : v.memOk) (k : u.memOk) : (if c then v else u).memOk := by
  split <;> assumption

theorem ite_dev_memOk {c : Prop} [Decidable c] {s t : State} (h : s.dev.memOk) (k : t.dev.memOk) : (if c then s else t).dev.memOk := by
  split <;> assumption

theorem ite_answers {c : Prop} [Decidable c] {x y : Host.Outcome State Fault Refusal} (h : Answers x) (k : Answers y) :
    Answers (if c then x else y) := by
  split <;> assumption

theorem foldl_memOk {α : Type} {f : Device → α → Device} (hf : ∀ v x, v.memOk → (f v x).memOk) {v : Device} (h : v.memOk) (xs : List α) :
    (xs.foldl f v).memOk := by
  induction xs generalizing v with
  | nil => exact h
  | cons x xs ih => exact ih (hf _ _ h)

theorem foldl_dev_memOk {α : Type} {f : State → α → State} (hf : ∀ s x, s.dev.memOk → (f s x).dev.memOk) {s : State} (h : s.dev.memOk)
    (xs : List α) : (xs.foldl f s).dev.memOk := by
  induction xs generalizing s with
  | nil => exact h
  | cons x xs ih => exact ih (hf _ _ h)

/-- A reply of the custodian to a request leaves memories of the canonical form where it grants the request. -/
def Replies (r : Reply) : Prop :=
  match r with
  | .ok x => x.1.dev.memOk
  | .error _ => True

theorem ite_replies {c : Prop} [Decidable c] {x y : Reply} (h : Replies x) (k : Replies y) : Replies (if c then x else y) := by
  split <;> assumption

theorem Answers.memOk {t : State} (h : Answers (.next t)) : t.dev.memOk := by
  obtain ⟨u, hu, hk⟩ := h
  cases hu
  exact hk

theorem history_memOk {v : Device} (h : v.memOk) (xs : List GStore) (t : Nat) : (v.withHist xs t).memOk := withHist_memOk v xs t h.1 h.2

theorem ok_replies {t : State} (h : t.dev.memOk) {bs : List Byte} : Replies (.ok (t, bs)) := h

theorem error_replies {n : ℕ} : Replies (.error n) := trivial

theorem memOk_iff {s : State} : s.memOk = true ↔ s.dev.memOk := by
  simp only [State.memOk, Device.memOk, Bool.and_eq_true]

end Sys2Proof.Machine
end

section
/-! O60: memory keeps its form through Checks.lean. -/

namespace Sys2Proof.Machine

theorem updDome_memOk {v : Device} (h : v.memOk) (d : ℕ) (f : Dome → Dome) : (v.updDome d f).memOk := h

theorem updCluster_memOk {v : Device} (h : v.memOk) (c : ℕ) (f : Cluster → Cluster) : (v.updCluster c f).memOk := h

theorem updPart_memOk {v : Device} (h : v.memOk) (p : ℕ) (f : Partition → Partition) : (v.updPart p f).memOk := h

theorem msix_memOk {v : Device} (h : v.memOk) (port k : ℕ) : (v.msix port k).memOk := h

theorem log_memOk {v : Device} (h : v.memOk) (d code grade unit index : ℕ) (p0 p1 : Word) (ctx part : ℕ) :
    (v.log d code grade unit index p0 p1 ctx part).memOk := by
  unfold Device.log
  exact (ite_memOk (ite_memOk (msix_memOk (ite_memOk (updPart_memOk h ..) h) ..) (msix_memOk (msix_memOk (ite_memOk (updPart_memOk h ..) h) ..) ..))
    (ite_memOk (updPart_memOk h ..) h)).same rfl rfl

theorem markPoison_memOk {v : Device} (h : v.memOk) (pl : Place) (x n : ℕ) : (v.markPoison pl x n).memOk := by
  unfold Device.markPoison
  exact ite_memOk h h

theorem busError_memOk {v : Device} (h : v.memOk) (d pa : ℕ) (b : Option (ℕ × ℕ × ℕ)) : (v.busError d pa b).memOk := by
  dsimp only [Device.busError]
  split
  · exact h
  · exact ite_memOk (log_memOk h ..) (ite_memOk (updDome_memOk (log_memOk h ..) ..)
      (ite_memOk (markPoison_memOk (log_memOk h ..) ..) (markPoison_memOk (log_memOk h ..) ..)))

theorem logE2e_memOk {v : Device} (h : v.memOk) (unit index pa p : ℕ) : (v.logE2e unit index pa p).memOk := log_memOk h ..

theorem logFails_memOk {v : Device} (h : v.memOk) (unit index p : ℕ) (as : List ℕ) : (v.logFails unit index p as).memOk := by
  unfold Device.logFails
  exact foldl_memOk (fun _ _ h1 => logE2e_memOk h1 ..) h _

theorem madeAt_memOk {v : Device} (h : v.memOk) (p pa n : ℕ) : (v.madeAt p pa n).memOk := (madeAt_mem v p pa n).memOk h

theorem carry_memOk {v : Device} (h : v.memOk) (a : ℕ) (bs : List Byte) (k : BitVec 32) : (v.carry a bs k).memOk := h

end Sys2Proof.Machine
end

section
/-! O60: memory keeps its form through Coherence.lean. -/

namespace Sys2Proof.Machine

theorem toHome_memOk {v : Device} (h : v.memOk) (X : ℕ) (xs : List GStore) : (v.toHome X xs).memOk := by
  unfold Device.toHome
  exact ite_memOk h (foldl_memOk (fun _ _ h1 => ite_memOk h1 (madeAt_memOk h1 ..)) h _)

theorem publish_memOk {v : Device} (h : v.memOk) (pa : ℕ) (bs : List Byte) : (v.publish pa bs).memOk := publishAs_memOk h ..

theorem carried_memOk {v : Device} (h : v.memOk) (p : ℕ) (x : ℕ × BitVec 32) : (v.carried p x).memOk := by
  unfold Device.carried
  exact ite_memOk (ite_memOk h (markPoison_memOk (logE2e_memOk h ..) ..)) (carry_memOk h ..)

theorem carryLines_memOk {v : Device} (h : v.memOk) (p : ℕ) (ps : List (Place × ℕ)) (ks : List (BitVec 32)) : (v.carryLines p ps ks).memOk := by
  unfold Device.carryLines
  exact foldl_memOk (fun _ _ h1 => carried_memOk h1 ..) h _

end Sys2Proof.Machine
end

section
/-! O60: memory keeps its form through Access.lean. -/

namespace Sys2Proof.Machine

theorem setCore_memOk {s : State} (h : s.dev.memOk) (u : Agent) (c : Core) : (s.setCore u c).dev.memOk := by
  unfold State.setCore
  exact ite_dev_memOk h h

theorem upd_memOk {s : State} (h : s.dev.memOk) (f : Core → Core) : (s.upd f).dev.memOk := h

theorem updDev_memOk {s : State} {f : Device → Device} (h : s.dev.memOk) (hf : ∀ u : Device, u.memOk → (f u).memOk) : (s.updDev f).dev.memOk := hf _ h

theorem orEntry_memOk {v : Device} (h : v.memOk) (pa bits : ℕ) : (v.orEntry pa bits).memOk := by
  unfold Device.orEntry
  exact ite_memOk h (publish_memOk h ..)

theorem markEntry_memOk {v : Device} (h : v.memOk) (ctx : BitVec 12) (va : Addr) (store : Bool) : (v.markEntry ctx va store).memOk := by
  dsimp only [Device.markEntry]
  split
  · exact h
  · exact orEntry_memOk h ..

theorem cacheLeaf_memOk {s : State} (h : s.dev.memOk) (c : Cached) (ns : List CachedNode) : (s.cacheLeaf c ns).dev.memOk := by
  unfold State.cacheLeaf
  exact ite_dev_memOk (updDev_memOk (upd_memOk h ..) (fun _ h1 => h1)) (updDev_memOk (updDev_memOk (upd_memOk h ..) (fun _ h2 => h2))
    (fun _ h3 => updCluster_memOk h3 ..))

theorem uncache_memOk {s : State} (h : s.dev.memOk) (ctx : BitVec 12) (va : Addr) : (s.uncache ctx va).dev.memOk := by
  unfold State.uncache
  exact ite_dev_memOk (upd_memOk h ..) (updDev_memOk (upd_memOk h ..) (fun _ h1 => updCluster_memOk h1 ..))

theorem fill_memOk {s : State} (h : s.dev.memOk) (ctx : BitVec 12) (va : Addr) (k : Kind) : (s.fill ctx va k).dev.memOk := by
  dsimp only [State.fill]
  split <;> split
  · exact h
  · exact uncache_memOk h ..
  · refine cacheLeaf_memOk (updDev_memOk h fun v hv => ?_) ..
    exact (orEntry_memOk hv ..).same rfl rfl
  · refine cacheLeaf_memOk (updDev_memOk (uncache_memOk h ..) fun v hv => ?_) ..
    exact (orEntry_memOk hv ..).same rfl rfl

theorem touchPage_memOk {s : State} (h : s.dev.memOk) (ctx : BitVec 12) (va : Addr) (k : Kind) : (s.touchPage ctx va k).dev.memOk := by
  dsimp only [State.touchPage]
  split
  · exact fill_memOk h ..
  · exact ite_dev_memOk (fill_memOk (uncache_memOk h ..) ..) (ite_dev_memOk h (upd_memOk h ..))

theorem updSlot_memOk {v : Device} (h : v.memOk) (p i : ℕ) (f : TaskSlot → TaskSlot) : (v.updSlot p i f).memOk := h

theorem writeVa_memOk {v : Device} (h : v.memOk) (ctx : BitVec 12) (va : Addr) (bs : List Byte) : (v.writeVa ctx va bs).memOk := writeAs_memOk h ..

theorem readied_memOk {v : Device} (h : v.memOk) (p slot : ℕ) : (v.readied p slot).memOk := h

theorem storeSpad_memOk {s : State} (h : s.dev.memOk) (p i x : ℕ) (bs : List Byte) : (s.storeSpad p i x bs).dev.memOk := by
  dsimp only [State.storeSpad]
  split
  · exact setCore_memOk h ..
  · split
    · exact h
    · exact ite_dev_memOk (updDev_memOk h (fun _ h1 => writeVa_memOk h1 ..)) (updDev_memOk h (fun _ h2 => updSlot_memOk h2 ..))

theorem saw_memOk {s : State} (h : s.dev.memOk) (fl : List ℕ) (n : ℕ) (ps : List (Place × ℕ)) : (s.saw fl n ps).dev.memOk := by
  dsimp only [State.saw]
  split
  · exact h
  · exact h

theorem l1Fill_memOk {s : State} (h : s.dev.memOk) (pa n : ℕ) : (s.l1Fill pa n).dev.memOk := by
  unfold State.l1Fill
  exact ite_dev_memOk h (ite_dev_memOk h (updDev_memOk (upd_memOk h ..) (fun _ h1 => updDome_memOk h1 ..)))

theorem l1Read_memOk {s : State} (h : s.dev.memOk) (n : ℕ) (ps : List (Place × ℕ)) : (s.l1Read n ps).dev.memOk := by
  unfold State.l1Read
  exact foldl_dev_memOk (fun _ _ h1 => ite_dev_memOk (l1Fill_memOk h1 ..) h1) h _

theorem landed_memOk {v : Device} (h : v.memOk) (u : Agent) (pl : Place) (x n : ℕ) : (v.landed u pl x n).memOk := h

theorem ownStore_memOk {s : State} (h : s.dev.memOk) (x n : ℕ) : (s.ownStore x n).dev.memOk := by
  dsimp only [State.ownStore]
  split
  · exact ite_dev_memOk h (updDev_memOk h (fun _ h1 => h1))
  · exact h

theorem perform_memOk {s : State} (h : s.dev.memOk) (p : Piece) : (s.perform p).dev.memOk := by
  dsimp only [State.perform]
  split
  · exact updDev_memOk (upd_memOk h ..) (fun _ h1 => h1)
  · exact upd_memOk (ownStore_memOk h ..) ..
  · exact updDev_memOk (storeSpad_memOk h ..) (fun _ h2 => landed_memOk h2 ..)
  · exact updDev_memOk h (fun _ h3 => landed_memOk (updDome_memOk h3 ..) ..)
  · exact upd_memOk h ..

theorem performAll_memOk {s : State} (h : s.dev.memOk) (ps : List Piece) : (s.performAll ps).dev.memOk := by
  unfold State.performAll
  exact foldl_dev_memOk (fun _ _ h1 => perform_memOk h1 ..) h _

theorem landAll_memOk {s : State} (h : s.dev.memOk) : s.landAll.dev.memOk := performAll_memOk (upd_memOk h ..) ..

theorem backLines_memOk {s : State} (h : s.dev.memOk) (scope : ℕ) (ls : List ℕ) : (s.backLines scope ls).dev.memOk := by
  unfold State.backLines
  exact ite_dev_memOk h (updDome_memOk h ..)

theorem writeBack_memOk {s : State} (h : s.dev.memOk) (scope : ℕ) (p : ℕ → Bool) : (s.writeBack scope p).dev.memOk := by
  unfold State.writeBack
  exact ite_dev_memOk (backLines_memOk h ..) (updDev_memOk (backLines_memOk h ..) (fun _ h1 => updDome_memOk h1 ..))

theorem invalidate_memOk {s : State} (h : s.dev.memOk) (d scope : ℕ) (p : ℕ → Bool) : (s.invalidate d scope p).dev.memOk := by
  unfold State.invalidate
  exact ite_dev_memOk (upd_memOk h ..) (updDev_memOk (upd_memOk h ..) (fun _ h1 => updDome_memOk h1 ..))

theorem release_memOk {s : State} (h : s.dev.memOk) (scope : ℕ) : (s.release scope).dev.memOk := by
  have hl := landAll_memOk h
  have hw := writeBack_memOk hl scope fun _ => true
  unfold State.release
  exact ite_dev_memOk hl (ite_dev_memOk hw ((history_memOk (toHome_memOk hw ..) _ 0).same rfl rfl))

theorem acquireAt_memOk {s : State} (h : s.dev.memOk) (u : Agent) (scope : ℕ) : (s.acquireAt u scope).dev.memOk := by
  unfold State.acquireAt
  exact ite_dev_memOk (invalidate_memOk (upd_memOk h ..) ..) ((invalidate_memOk (upd_memOk h ..) ..).same rfl rfl)

theorem acquire_memOk {s : State} (h : s.dev.memOk) (scope : ℕ) : (s.acquire scope).dev.memOk := acquireAt_memOk h ..

theorem acquireBytes_memOk {s : State} (h : s.dev.memOk) (scope : ℕ) (rs : List (ℕ × ℕ)) : (s.acquireBytes scope rs).dev.memOk := by
  unfold State.acquireBytes
  exact ite_dev_memOk (invalidate_memOk (upd_memOk h ..) ..) ((invalidate_memOk (upd_memOk h ..) ..).same rfl rfl)

theorem mapCores_memOk {s : State} (h : s.dev.memOk) (f : Core → Core) : (s.mapCores f).dev.memOk := h

theorem splitAt_memOk {s : State} (h : s.dev.memOk) (lo n : ℕ) : (s.splitAt lo n).dev.memOk := by
  dsimp only [State.splitAt]
  exact ite_dev_memOk h h

theorem releaseBytes_memOk {s : State} (h : s.dev.memOk) (scope : ℕ) (rs : List (ℕ × ℕ)) : (s.releaseBytes scope rs).dev.memOk := by
  have hs := foldl_dev_memOk (fun (t : State) (r : ℕ × ℕ) ht => splitAt_memOk ht r.1 r.2) (writeBack_memOk (landAll_memOk h) scope (lineIn rs)) rs
  unfold State.releaseBytes
  exact ite_dev_memOk hs ((history_memOk (toHome_memOk hs ..) _ 0).same rfl rfl)

end Sys2Proof.Machine
end

section
/-! O60: memory keeps its form through Registers.lean. -/

namespace Sys2Proof.Machine

theorem wS_memOk {s : State} (h : s.dev.memOk) (lat : ℕ) (d : Reg) (v : Word) (t : Option Taint) (flags : BitVec 11) :
    (s.wS lat d v t flags).dev.memOk := upd_memOk h ..

theorem wA_memOk {s : State} (h : s.dev.memOk) (lat : ℕ) (d : Reg) (v : Addr) (t : Option Taint) : (s.wA lat d v t).dev.memOk := upd_memOk h ..

theorem wV_memOk {s : State} (h : s.dev.memOk) (lat : ℕ) (d : Reg) (m : LaneMask) (v : VReg) (flags : BitVec 11) (can : Bool) :
    (s.wV lat d m v flags can).dev.memOk := upd_memOk h ..

theorem wBytes_memOk {s : State} (h : s.dev.memOk) (lat : ℕ) (d : Reg) (off : ℕ) (rows : List (List Byte)) (flags : BitVec 11) (can : Bool) :
    (s.wBytes lat d off rows flags can).dev.memOk := wV_memOk h ..

theorem freeVal_memOk {s : State} (h : s.dev.memOk) : s.freeVal.2.dev.memOk := h

theorem whenActive_answers {s : State} {f : State → State} (h : s.dev.memOk) (hf : ∀ t : State, t.dev.memOk → (f t).dev.memOk) (g : Bool) : Answers
    (s.whenActive g f) := by
  unfold State.whenActive
  exact ⟨_, rfl, ite_dev_memOk (hf _ h) h⟩

theorem wait_memOk {s : State} (h : s.dev.memOk) : s.wait.dev.memOk := h

theorem waitTau_memOk {s : State} (h : s.dev.memOk) (t : ℕ) : (s.waitTau t).dev.memOk := h

theorem commitSeg_memOk {s : State} (h : s.dev.memOk) : s.commitSeg.dev.memOk := by
  dsimp only [State.commitSeg]
  split
  · exact h
  · exact performAll_memOk (upd_memOk h ..) ..

theorem syncPoint_memOk {s : State} (h : s.dev.memOk) : s.syncPoint.dev.memOk := upd_memOk (commitSeg_memOk h) ..

end Sys2Proof.Machine
end

section
/-! O60: memory keeps its form through Launch.lean. -/

namespace Sys2Proof.Machine

theorem logEvent_memOk {s : State} (h : s.dev.memOk) (code grade : ℕ) (p0 p1 : Word) : (s.logEvent code grade p0 p1).dev.memOk := by
  unfold State.logEvent
  exact updDev_memOk h (fun _ h1 => log_memOk h1 ..)

theorem updEntry_memOk {v : Device} (h : v.memOk) (p lid : ℕ) (f : SchedEntry → SchedEntry) : (v.updEntry p lid f).memOk := h

theorem freeEntry_memOk {v : Device} (h : v.memOk) (p lid : ℕ) : (v.freeEntry p lid).memOk := h

theorem needEntry_memOk {v : Device} (h : v.memOk) (p lid : ℕ) : (v.needEntry p lid).memOk := by
  dsimp only [Device.needEntry]
  split
  · exact h
  · exact ite_memOk h h

theorem wakeQp_memOk {v : Device} (h : v.memOk) (p : ℕ) : (v.wakeQp p).memOk := updDome_memOk h ..

theorem setPartState_memOk {v : Device} (h : v.memOk) (p st : ℕ) : (v.setPartState p st).memOk :=
  wakeQp_memOk (msix_memOk (updPart_memOk (log_memOk h ..) ..) ..) ..

theorem ripen_memOk {v : Device} (h : v.memOk) (p lid : ℕ) : (v.ripen p lid).memOk := by
  dsimp only [Device.ripen]
  split
  · exact ite_memOk (wakeQp_memOk (updPart_memOk (updEntry_memOk h ..) ..) ..) h
  · exact h

theorem decrement_memOk {v : Device} (h : v.memOk) (p lid : ℕ) : (v.decrement p lid).memOk := by
  dsimp only [Device.decrement]
  split
  · exact needEntry_memOk h ..
  · exact ite_memOk (log_memOk (needEntry_memOk h ..) ..) (ite_memOk (log_memOk (needEntry_memOk h ..) ..)
      (ripen_memOk (updEntry_memOk (needEntry_memOk h ..) ..) ..))

theorem writeCompletion_memOk {v : Device} (h : v.memOk) (p : ℕ) (r : List Byte) (status grade burst : ℕ) :
    (v.writeCompletion p r status grade burst).memOk := by
  unfold Device.writeCompletion
  exact ite_memOk h (writeVa_memOk h ..)

theorem failAll_memOk {v : Device} (h : v.memOk) (p n : ℕ) (lids : List ℕ) : (v.failAll p n lids).memOk := by
  induction n generalizing v lids with
  | zero => exact h
  | succ n ih =>
    cases lids with
    | nil => exact h
    | cons lid rest =>
      have hv := updEntry_memOk (needEntry_memOk h p lid) p lid fun e => { e with failed := true }
      simp only [Device.failAll]
      split
      · exact ih hv _
      · split
        · exact ih (freeEntry_memOk (writeCompletion_memOk (updPart_memOk hv ..) ..) ..) _
        · exact ih hv _

theorem failSuccessors_memOk {v : Device} (h : v.memOk) (p : ℕ) (r : List Byte) : (v.failSuccessors p r).memOk := failAll_memOk h ..

theorem drainCheck_memOk {v : Device} (h : v.memOk) (p : ℕ) : (v.drainCheck p).memOk := by
  unfold Device.drainCheck
  exact ite_memOk ((setPartState_memOk h ..).same rfl rfl) h

theorem fireCompletion_memOk {v : Device} (h : v.memOk) (p lid status : ℕ) : (v.fireCompletion p lid status).memOk := by
  dsimp only [Device.fireCompletion]
  split
  · exact h
  · exact drainCheck_memOk (ite_memOk (foldl_memOk (fun _ _ h1 => ite_memOk h1 (decrement_memOk h1 ..))
      (freeEntry_memOk (updPart_memOk (writeCompletion_memOk h ..) ..) ..) _) (failSuccessors_memOk
        (freeEntry_memOk (updPart_memOk (writeCompletion_memOk h ..) ..) ..) ..)) ..

theorem endFenced_memOk {v : Device} (h : v.memOk) (p : ℕ) : (v.endFenced p).memOk := by
  unfold Device.endFenced
  exact foldl_memOk (fun _ _ h1 => failSuccessors_memOk (freeEntry_memOk (updPart_memOk (writeCompletion_memOk h1 ..) ..) ..) ..)
    (foldl_memOk (fun _ _ h2 => updEntry_memOk h2 ..) h _) _

theorem fireTrigger_memOk {v : Device} (h : v.memOk) (p lid : ℕ) : (v.fireTrigger p lid).memOk := by
  dsimp only [Device.fireTrigger]
  split
  · exact h
  · exact foldl_memOk (fun _ _ h1 => ite_memOk (decrement_memOk h1 ..) h1) h _

theorem fire_memOk {v : Device} (h : v.memOk) (x : Signal) : (v.fire x).memOk := by
  dsimp only [Device.fire]
  split
  · exact fireCompletion_memOk h ..
  · exact fireTrigger_memOk h ..

theorem signal_memOk {v : Device} (h : v.memOk) (x : Signal) : (v.signal x).memOk := by
  unfold Device.signal
  exact ite_memOk (updDome_memOk h ..) (fire_memOk h ..)

theorem endObligation_memOk {v : Device} (h : v.memOk) (p lid : ℕ) : (v.endObligation p lid).memOk := by
  dsimp only [Device.endObligation]
  split
  · exact updEntry_memOk h ..
  · exact ite_memOk (ite_memOk (signal_memOk (updEntry_memOk (updEntry_memOk h ..) ..) ..) (updEntry_memOk (updEntry_memOk h ..) ..))
      (updEntry_memOk h ..)

theorem endTaskOf_memOk {v : Device} (h : v.memOk) (p lid : ℕ) : (v.endTaskOf p lid).memOk := by
  dsimp only [Device.endTaskOf]
  split
  · exact updEntry_memOk h ..
  · exact ite_memOk (signal_memOk (updEntry_memOk (updEntry_memOk h ..) ..) ..) (updEntry_memOk h ..)

theorem leaveGang_memOk {v : Device} (h : v.memOk) (g slot : ℕ) : (v.leaveGang g slot).memOk := h

theorem unwait_memOk {v : Device} (h : v.memOk) (p slot : ℕ) : (v.unwait p slot).memOk := h

theorem leaveColl_memOk {v : Device} (h : v.memOk) (p : ℕ) (gone : ℕ → Bool) : (v.leaveColl p gone).memOk := h

theorem taskEnded_memOk {v : Device} (h : v.memOk) (t : TaskInfo) (owes : Bool) : (v.taskEnded t owes).memOk := by
  unfold Device.taskEnded
  extract_lets area left v1 v2 v3 v4
  have hleft : left.memOk := leaveColl_memOk (unwait_memOk h ..) ..
  have h1 : v2.memOk := ⟨hleft.1, hleft.2⟩
  have h2 : v3.memOk := ite_memOk h1 (leaveGang_memOk h1 ..)
  have h3 : v4.memOk := ite_memOk (endObligation_memOk h2 ..) h2
  exact drainCheck_memOk (endTaskOf_memOk h3 ..) ..

theorem vacate_memOk {s : State} (h : s.dev.memOk) : s.vacate.dev.memOk := upd_memOk h ..

theorem failLaunch_memOk {v : Device} (h : v.memOk) (p lid cause : ℕ) : (v.failLaunch p lid cause).memOk := updEntry_memOk h ..

theorem chargeBurst_memOk {v : Device} (h : v.memOk) (t : TaskInfo) (n : ℕ) : (v.chargeBurst t n).memOk := updEntry_memOk h ..

theorem endTask_memOk {s : State} (h : s.dev.memOk) : s.endTask.dev.memOk := by
  dsimp only [State.endTask]
  split
  · exact h
  · exact vacate_memOk (updDev_memOk (upd_memOk h ..) (fun _ h1 => taskEnded_memOk (chargeBurst_memOk h1 ..) ..))

end Sys2Proof.Machine
end

section
/-! O60: memory keeps its form through Ops.lean. -/

namespace Sys2Proof.Machine

theorem refocus_memOk {s : State} (h : s.dev.memOk) (u : Agent) : (s.refocus u).dev.memOk := by
  unfold State.refocus
  exact ite_dev_memOk h h

theorem onUnit_memOk {s : State} {f : State → State} (h : s.dev.memOk) (hf : ∀ t : State, t.dev.memOk → (f t).dev.memOk) (u : Agent) :
    (s.onUnit u f).dev.memOk := refocus_memOk (hf _ (refocus_memOk h ..)) ..

theorem tickWall_memOk {s : State} (h : s.dev.memOk) : s.tickWall.dev.memOk := h

theorem clock_memOk {s : State} (h : s.dev.memOk) : s.clock.dev.memOk := h

theorem slotState_memOk {s : State} (h : s.dev.memOk) (st : ℕ) : (s.slotState st).dev.memOk := by
  dsimp only [State.slotState]
  split
  · exact h
  · exact updDev_memOk h (fun _ h1 => updSlot_memOk h1 ..)

theorem publishAll_memOk {s : State} (h : s.dev.memOk) : s.publishAll.dev.memOk := release_memOk (commitSeg_memOk h) ..

theorem coreStop_memOk {s : State} (h : s.dev.memOk) : s.coreStop.dev.memOk := by
  dsimp only [State.coreStop]
  split
  · exact updCluster_memOk h ..
  · exact h

theorem monitorTrap_memOk {s : State} (h : s.dev.memOk) (code : ℕ) : (s.monitorTrap code).dev.memOk := by
  dsimp only [State.monitorTrap]
  split
  · exact coreStop_memOk (landAll_memOk (logEvent_memOk h ..))
  · exact upd_memOk (updDev_memOk (upd_memOk (logEvent_memOk (coreStop_memOk (landAll_memOk (logEvent_memOk h ..))) ..) ..)
      (fun _ h1 => taskEnded_memOk (chargeBurst_memOk (failLaunch_memOk h1 ..) ..) ..)) ..

theorem stopQp_memOk {s : State} (h : s.dev.memOk) (u : Agent) : (s.stopQp u).dev.memOk := setCore_memOk h ..

theorem takeover_memOk {s : State} (h : s.dev.memOk) (d k cause : ℕ) : (s.takeover d k cause).dev.memOk := by
  unfold State.takeover
  exact ite_dev_memOk (updDev_memOk (setCore_memOk (updDev_memOk (stopQp_memOk h ..)
    (fun _ h1 => msix_memOk (msix_memOk (log_memOk (updDome_memOk h1 ..) ..) ..) ..)) ..) (fun _ h2 => updDome_memOk h2 ..))
      (setCore_memOk (updDev_memOk (stopQp_memOk h ..) (fun _ h3 => msix_memOk (msix_memOk (log_memOk (updDome_memOk h3 ..) ..) ..) ..)) ..)

theorem qpTrap_memOk {s : State} (h : s.dev.memOk) (d k : ℕ) : (s.qpTrap d k).dev.memOk := by
  unfold State.qpTrap
  exact ite_dev_memOk (takeover_memOk h ..) (updDome_memOk (logEvent_memOk h ..) ..)

theorem leaveWait_memOk {v : Device} (h : v.memOk) (p slot : ℕ) : (v.leaveWait p slot).memOk := by
  dsimp only [Device.leaveWait]
  split
  · exact ite_memOk (updSlot_memOk (unwait_memOk h ..) ..) h
  · exact h

theorem state_leaveWait_memOk {s : State} (h : s.dev.memOk) : s.leaveWait.dev.memOk := by
  dsimp only [State.leaveWait]
  split
  · exact updDev_memOk h (fun _ h1 => leaveWait_memOk h1 ..)
  · exact h

theorem logLost_memOk {s : State} (h : s.dev.memOk) (code : ℕ) : (s.logLost code).dev.memOk := by
  dsimp only [State.logLost]
  split
  · exact ite_dev_memOk (logEvent_memOk h ..) h
  · exact h

theorem takeTrap_memOk {s : State} (h : s.dev.memOk) (code slot : ℕ) (info : Word) (after : Bool) : (s.takeTrap code slot info after).dev.memOk := by
  dsimp only [State.takeTrap]
  split
  · exact qpTrap_memOk h ..
  · exact ite_dev_memOk (monitorTrap_memOk h ..) (ite_dev_memOk (slotState_memOk (logLost_memOk
      (logEvent_memOk (state_leaveWait_memOk (commitSeg_memOk h)) ..) ..) ..) (state_leaveWait_memOk (commitSeg_memOk h)))

theorem trap_memOk {s : State} (h : s.dev.memOk) (code : ℕ) (sl : Slot) (info : ℕ) : (s.trap code sl info).dev.memOk := takeTrap_memOk h ..

theorem trapAfter_memOk {s : State} (h : s.dev.memOk) (code : ℕ) (sl : Slot) (info : ℕ) : (s.trapAfter code sl info).dev.memOk := takeTrap_memOk h ..

theorem trapOp_memOk {s : State} (h : s.dev.memOk) (code : ℕ) (i : Instr) : (s.trapOp code i).dev.memOk := trap_memOk h ..

theorem ifAllowed_answers {s : State} {f : State → State} (h : s.dev.memOk) (hf : ∀ t : State, t.dev.memOk → (f t).dev.memOk) (i : Instr) : Answers
    (s.ifAllowed i f) :=
  ⟨_, rfl, (by
      split
      · exact trapOp_memOk h ..
      · exact hf _ h)⟩

theorem ifAllowedG_answers {s : State} {f : State → State} (h : s.dev.memOk) (hf : ∀ t : State, t.dev.memOk → (f t).dev.memOk) (i : Instr)
    (g : Bool) : Answers (s.ifAllowedG i g f) := by
  unfold State.ifAllowedG
  exact ⟨_, rfl, (by
      split
      · exact trapOp_memOk h ..
      · exact ite_dev_memOk (hf _ h) h)⟩

end Sys2Proof.Machine
end

section
/-! O60: memory keeps its form through Operands.lean. -/

namespace Sys2Proof.Machine

theorem touch_memOk {s : State} (h : s.dev.memOk) (as : ℕ) (x : ℤ) (n : ℕ) (k : Kind) : (s.touch as x n k).dev.memOk := by
  unfold State.touch
  exact ite_dev_memOk (ite_dev_memOk (touchPage_memOk (touchPage_memOk h ..) ..) (touchPage_memOk h ..)) h

theorem logWalk_memOk {v : Device} (h : v.memOk) (d unit index p : ℕ) (ctx : BitVec 12) (va : Addr) : (v.logWalk d unit index p ctx va).memOk := by
  dsimp only [Device.logWalk]
  split
  · exact ite_memOk (log_memOk h ..) h
  · exact h

theorem state_logWalk_memOk {s : State} (h : s.dev.memOk) (ctx : BitVec 12) (va : Addr) : (s.logWalk ctx va).dev.memOk := by
  unfold State.logWalk
  exact updDev_memOk h (fun _ h1 => logWalk_memOk h1 ..)

theorem failWalk_memOk {s : State} (h : s.dev.memOk) (as : ℕ) (x : ℤ) (code : ℕ) : (s.failWalk as x code).dev.memOk := by
  unfold State.failWalk
  exact ite_dev_memOk h (ite_dev_memOk (state_logWalk_memOk (uncache_memOk h ..) ..) (ite_dev_memOk (fill_memOk (uncache_memOk h ..) ..) h))

theorem memTrap_memOk {s : State} (h : s.dev.memOk) (code as : ℕ) (x : ℤ) (sl : Slot) : (s.memTrap code as x sl).dev.memOk :=
  trap_memOk (failWalk_memOk h ..) ..

theorem vResult_memOk {s : State} (h : s.dev.memOk) (o : VForm) (lat : ℕ) (can : Bool) (f : ℕ → FRes) : (s.vResult o lat can f).dev.memOk :=
  wV_memOk h ..

theorem occupyV_memOk {s : State} (h : s.dev.memOk) (o : VForm) (n : ℕ) : (s.occupyV o n).dev.memOk := upd_memOk h ..

theorem occupyA_memOk {s : State} (h : s.dev.memOk) (n : ℕ) : (s.occupyA n).dev.memOk := upd_memOk h ..

end Sys2Proof.Machine
end

section
/-! O60: memory keeps its form through Task.lean. -/

namespace Sys2Proof.Machine

theorem writeRecord_memOk {v : Device} (h : v.memOk) (p slot : ℕ) : (v.writeRecord p slot).memOk := by
  dsimp only [Device.writeRecord]
  split
  · exact h
  · exact writeVa_memOk h ..

theorem forward_memOk {v : Device} (h : v.memOk) (u : Agent) (p slot : ℕ) : (v.forward u p slot).memOk := by
  dsimp only [Device.forward]
  split
  · exact h
  · exact h

theorem suspendTask_memOk {s : State} (h : s.dev.memOk) (st why qnum : ℕ) (dreg : Reg) (foot : Bool) :
    (s.suspendTask st why qnum dreg foot).dev.memOk := by
  dsimp only [State.suspendTask]
  split
  · exact h
  · exact vacate_memOk (by exact (writeRecord_memOk (readied_memOk (ite_memOk (forward_memOk
      (writeVa_memOk (writeVa_memOk (updSlot_memOk (release_memOk (upd_memOk (commitSeg_memOk h) ..) ..) ..) ..) ..) ..)
        (writeVa_memOk (updSlot_memOk (release_memOk (upd_memOk (commitSeg_memOk h) ..) ..) ..) ..)) ..) ..).same rfl rfl)

end Sys2Proof.Machine
end

section
/-! O60: memory keeps its form through Windows.lean. -/

namespace Sys2Proof.Machine

theorem flushRange_memOk {s : State} (h : s.dev.memOk) (pa n : ℕ) : (s.flushRange pa n).dev.memOk := by
  unfold State.flushRange
  exact ite_dev_memOk h (updDev_memOk (s := State.mapCores _ _) h fun _ h1 => history_memOk (toHome_memOk h1 ..) ..)

theorem dropPage_memOk {s : State} (h : s.dev.memOk) (c : Cached) : (s.dropPage c).dev.memOk := by
  unfold State.dropPage
  exact ite_dev_memOk (flushRange_memOk h ..) h

theorem dropPins_memOk {v : Device} (h : v.memOk) (x : XlScope) : (v.dropPins x).memOk := h

theorem logMig_memOk {v : Device} (h : v.memOk) (code : ℕ) (c : BitVec 12) (va : Addr) : (v.logMig code c va).memOk := log_memOk h ..

theorem deferMove_memOk {v : Device} (h : v.memOk) (c : BitVec 12) (va : Addr) : (v.deferMove c va).memOk := by
  unfold Device.deferMove
  exact updDome_memOk (by
      split
      · exact h
      · exact ite_memOk (logMig_memOk (updDome_memOk h ..) ..) h) ..

theorem retryDeferred_memOk {v : Device} (h : v.memOk) (covers : BitVec 12 → ℕ → Bool) : (v.retryDeferred covers).memOk := by
  unfold Device.retryDeferred
  exact foldl_memOk (fun _ _ h1 => updDome_memOk h1 ..) h _

theorem dropCached_memOk {s : State} (h : s.dev.memOk) (x : XlScope) : (s.dropCached x).dev.memOk := h

theorem xlinv_memOk {s : State} (h : s.dev.memOk) (x : XlScope) : (s.xlinv x).dev.memOk := by
  unfold State.xlinv
  extract_lets used ws t1 t2 t3
  have h1 : t1.dev.memOk := foldl_dev_memOk (fun _ _ h1 => dropPage_memOk h1 ..) (dropCached_memOk h ..) _
  have h2 : t2.dev.memOk := (dropPins_memOk h1 x).same rfl rfl
  exact upd_memOk (updDev_memOk h2 fun _ h3 => retryDeferred_memOk h3 ..) ..

theorem windowWalks_memOk {s : State} (h : s.dev.memOk) (d : ℕ) (bs : List Byte) : (s.windowWalks d bs).dev.memOk := by
  dsimp only [State.windowWalks]
  split
  · exact h
  · split
    · exact state_logWalk_memOk h ..
    · exact h

theorem moveFrame_memOk {s : State} (h : s.dev.memOk) (old new : ℕ) (leave : Bool) : (s.moveFrame old new leave).dev.memOk := by
  have hm : (s.mapCores fun c => c.moveFrame old new).dev.memOk := mapCores_memOk h ..
  refine updDev_memOk hm fun v hv => ⟨memWf_memCopy hv.1 .., ?_⟩
  dsimp only
  split
  · exact hv.2
  · exact memWf_memCopy hv.2 ..

theorem dropFrame_memOk {s : State} (h : s.dev.memOk) (c : BitVec 12) (old : ℕ) : (s.dropFrame c old).dev.memOk := by
  unfold State.dropFrame
  exact updDev_memOk (by exact h) (fun _ h1 => h1)

theorem moveUnit_memOk {s : State} (h : s.dev.memOk) (c : BitVec 12) (unit : List (ℕ × ℕ)) (pa : ℕ) : (s.moveUnit c unit pa).dev.memOk := by
  unfold State.moveUnit
  refine foldl_dev_memOk (fun t x ht => ?_) h _
  refine dropFrame_memOk (updDev_memOk (moveFrame_memOk ht ..) fun v hv => ?_) ..
  exact (publish_memOk hv x.1.1 _).same rfl rfl

theorem bindWindow_memOk {s : State} (h : s.dev.memOk) (win : ℕ) : (s.bindWindow win).dev.memOk := by
  dsimp only [State.bindWindow]
  split
  · exact upd_memOk h ..
  · split
    · exact upd_memOk h ..
    · split
      · exact upd_memOk (windowWalks_memOk h ..) ..
      · exact upd_memOk (updDev_memOk (foldl_dev_memOk (fun _ _ h1 => moveFrame_memOk h1 ..) h _) (fun _ h2 => updDome_memOk h2 ..)) ..

theorem clearFrame_memOk {v : Device} (h : v.memOk) (pa : ℕ) : (v.clearFrame pa).memOk := ⟨memWf_cellsOut h.1 .., memWf_cellsOut h.2 ..⟩

theorem unbind_memOk {s : State} (h : s.dev.memOk) (d : ℕ) (w : Window) : (s.unbind d w).dev.memOk := by
  unfold State.unbind
  exact updDev_memOk (foldl_dev_memOk (fun _ _ h1 => updDev_memOk (moveFrame_memOk h1 ..) (fun _ h2 => clearFrame_memOk h2 ..)) h _)
    (fun _ h3 => updDome_memOk h3 ..)

theorem revokeWindow_memOk {s : State} (h : s.dev.memOk) (win : ℕ) : (s.revokeWindow win).dev.memOk := by
  dsimp only [State.revokeWindow]
  split
  · exact upd_memOk h ..
  · exact upd_memOk (unbind_memOk h ..) ..

theorem dwinCommand_memOk {s : State} (h : s.dev.memOk) (op win : ℕ) : (s.dwinCommand op win).dev.memOk := by
  unfold State.dwinCommand
  exact ite_dev_memOk (bindWindow_memOk h ..) (ite_dev_memOk (revokeWindow_memOk h ..) h)

theorem execDwinBind_answers {s : State} (h : s.dev.memOk) : Answers (execDwinBind s) := by
  unfold execDwinBind
  exact ⟨_, rfl, ite_dev_memOk h (dwinCommand_memOk h ..)⟩

theorem execDwinRevoke_answers {s : State} (h : s.dev.memOk) : Answers (execDwinRevoke s) := by
  unfold execDwinRevoke
  exact ⟨_, rfl, ite_dev_memOk h (dwinCommand_memOk h ..)⟩

theorem execMigratePage_answers {s : State} (h : s.dev.memOk) : Answers (execMigratePage s) := by
  have hdrop : ∀ c : Prop, ∀ [Decidable c], ∀ (d : ℕ) (f : Dome → Dome) (x : BitVec 12) (va : Addr),
      (if c then (s.dev.updDome d f).logMig 0x0031 x va else s.dev).memOk :=
    fun c _ d f x va => ite_memOk (logMig_memOk (updDome_memOk h ..) ..) h
  refine ⟨_, rfl, ?_⟩
  dsimp only
  split
  · refine ite_dev_memOk (hdrop ..) ?_
    split
    · exact hdrop ..
    · refine ite_dev_memOk (deferMove_memOk (updDome_memOk h ..) ..) (ite_dev_memOk h (ite_dev_memOk h (ite_dev_memOk ?_ ?_)))
      · exact foldl_dev_memOk (fun _ _ h1 => dropFrame_memOk h1 ..) (by exact logMig_memOk (updDome_memOk h ..) ..) _
      · exact moveUnit_memOk (by exact h) ..
  · exact logWalk_memOk (hdrop ..) ..

end Sys2Proof.Machine
end

section
/-! O60: memory keeps its form through Spr.lean. -/

namespace Sys2Proof.Machine

theorem sprResult_memOk {s : State} (h : s.dev.memOk) (o : SS) (v : Addr) : (s.sprResult o v).dev.memOk := by
  unfold State.sprResult
  exact ite_dev_memOk (wA_memOk h ..) (wS_memOk h ..)

theorem execRdsr_answers {s : State} (h : s.dev.memOk) (o : SS) : Answers (execRdsr o s) := by
  unfold execRdsr
  exact ⟨_, rfl, (by
      split
      · exact trapOp_memOk h ..
      · exact ite_dev_memOk (sprResult_memOk h ..) h)⟩

theorem execWrsr_answers {s : State} (h : s.dev.memOk) (o : SS) : Answers (execWrsr o s) := by
  unfold execWrsr
  exact ⟨_, rfl, (by
      split
      · exact trapOp_memOk h ..
      · exact ite_dev_memOk (upd_memOk h ..) h)⟩

theorem execPrdsr_answers {s : State} (h : s.dev.memOk) (o : SS) : Answers (execPrdsr o s) := by
  unfold execPrdsr
  exact ifAllowed_answers h (fun _ h1 => by
      split
      · exact trapOp_memOk h1 ..
      · exact sprResult_memOk h1 ..) ..

theorem writeHigh_memOk {s : State} (h : s.dev.memOk) (n : ℕ) (x : Addr) : (s.writeHigh n x).dev.memOk := by
  dsimp only [State.writeHigh]
  split
  · exact upd_memOk h ..
  · exact upd_memOk h ..
  · exact upd_memOk h ..
  · exact upd_memOk h ..
  · exact upd_memOk h ..
  · exact upd_memOk h ..
  · exact upd_memOk h ..
  · exact upd_memOk h ..
  · exact ite_dev_memOk (wait_memOk h) (dwinCommand_memOk (upd_memOk h ..) ..)
  · exact upd_memOk h ..
  · exact ite_dev_memOk (upd_memOk h ..) (ite_dev_memOk (upd_memOk h ..) (ite_dev_memOk (upd_memOk h ..)
      (ite_dev_memOk (upd_memOk h ..) (ite_dev_memOk (upd_memOk h ..) h))))

theorem execPwrsr_answers {s : State} (h : s.dev.memOk) (o : SS) : Answers (execPwrsr o s) := by
  unfold execPwrsr
  exact ifAllowed_answers h (fun _ h1 => by
      dsimp only
      split
      · exact trapOp_memOk h1 ..
      · exact ite_dev_memOk (ite_dev_memOk (trapOp_memOk h1 ..) (writeHigh_memOk h1 ..)) (ite_dev_memOk h1 (upd_memOk h1 ..))) ..

theorem execQhbWrite_answers {s : State} (h : s.dev.memOk) : Answers (execQhbWrite s) := by
  unfold execQhbWrite
  exact ⟨_, rfl, ite_dev_memOk (upd_memOk h ..) h⟩

end Sys2Proof.Machine
end

section
/-! O60: memory keeps its form through Segment.lean. -/

namespace Sys2Proof.Machine

theorem rewind_memOk {s : State} (h : s.dev.memOk) (g : Segment) (src : BadSource) : (s.rewind g src).dev.memOk := upd_memOk (logEvent_memOk h ..) ..

theorem marked_memOk {s : State} (h : s.dev.memOk) (src : BadSource) : (s.marked src).dev.memOk := by
  dsimp only [State.marked]
  split
  · exact upd_memOk h ..
  · exact updDev_memOk (upd_memOk h ..) (fun _ h1 => markPoison_memOk h1 ..)
  · exact h

theorem consume_memOk {s : State} (h : s.dev.memOk) (src : BadSource) (info : ℕ) : (s.consume src info).dev.memOk := by
  dsimp only [State.consume]
  split
  · exact takeTrap_memOk (marked_memOk h ..) ..
  · exact ite_dev_memOk (takeTrap_memOk (upd_memOk (marked_memOk h ..) ..) ..) (ite_dev_memOk (takeTrap_memOk (upd_memOk (marked_memOk h ..) ..) ..)
      (ite_dev_memOk (takeTrap_memOk (upd_memOk (marked_memOk h ..) ..) ..) (rewind_memOk (marked_memOk h ..) ..)))

theorem consumeHere_memOk {s : State} (h : s.dev.memOk) (src : BadSource) (info : ℕ) : (s.consumeHere src info).dev.memOk := by
  dsimp only [State.consumeHere]
  split
  · exact consume_memOk h ..
  · exact consume_memOk h ..

theorem store_memOk {s : State} (h : s.dev.memOk) (as : ℕ) (ps : List Piece) (entries : ℕ) : (s.store as ps entries).dev.memOk := by
  dsimp only [State.store]
  split
  · exact upd_memOk (by
        split
        · exact ite_dev_memOk (commitSeg_memOk h) h
        · exact h) ..
  · split
    · exact performAll_memOk (ite_dev_memOk (landAll_memOk (by
          split
          · exact ite_dev_memOk (commitSeg_memOk h) h
          · exact h)) (by
          split
          · exact ite_dev_memOk (commitSeg_memOk h) h
          · exact h)) ..
    · exact upd_memOk (performAll_memOk (ite_dev_memOk (landAll_memOk (by
          split
          · exact ite_dev_memOk (commitSeg_memOk h) h
          · exact h)) (by
          split
          · exact ite_dev_memOk (commitSeg_memOk h) h
          · exact h)) ..) ..

theorem foundBad_memOk {s : State} (h : s.dev.memOk) : s.foundBad.1.dev.memOk := by
  unfold State.foundBad
  extract_lets x bus t at_
  have ht : t.dev.memOk := busError_memOk h ..
  have hat : ∀ p, (at_ p).1.dev.memOk := fun p =>
    updDev_memOk (ite_dev_memOk (updDev_memOk ht fun _ h1 => log_memOk h1 ..) ht) fun _ h2 => markPoison_memOk h2 ..
  split
  · exact ht
  · split
    · exact ht
    all_goals exact hat _

theorem merLate_memOk {s : State} (h : s.dev.memOk) : s.merLate.dev.memOk := by
  dsimp only [State.merLate]
  split
  · exact h
  · split
    · split
      · exact logEvent_memOk h ..
      · exact h
    · exact h

theorem execLoadReturn_answers {s : State} (h : s.dev.memOk) : Answers (execLoadReturn s) := by
  unfold execLoadReturn
  exact ⟨_, rfl, (by
      split
      · exact ite_dev_memOk (upd_memOk (updDev_memOk (merLate_memOk h) (fun _ h1 => busError_memOk h1 ..)) ..)
          (consume_memOk (upd_memOk (foundBad_memOk (merLate_memOk h)) ..) ..)
      · exact consume_memOk (upd_memOk (merLate_memOk h) ..) ..
      · exact merLate_memOk h)⟩

theorem execDivisionComplete_answers {s : State} (h : s.dev.memOk) : Answers (execDivisionComplete s) := by
  unfold execDivisionComplete
  exact ⟨_, rfl, (by
      split
      · exact ite_dev_memOk h (upd_memOk h ..)
      · exact h)⟩

theorem execKStoreLand_answers {s : State} (h : s.dev.memOk) : Answers (execKStoreLand s) :=
  ⟨_, rfl, (by
      split
      · exact h
      · exact performAll_memOk (upd_memOk h ..) ..)⟩

end Sys2Proof.Machine
end

section
/-! O60: memory keeps its form through Address.lean. -/

namespace Sys2Proof.Machine

theorem addrOp_answers {s : State} (h : s.dev.memOk) (i : Instr) (o : AForm) (v : Addr) (t : Option Taint) : Answers (s.addrOp i o v t) := by
  unfold State.addrOp
  exact ifAllowedG_answers h (fun _ h1 => wA_memOk h1 ..) ..

theorem execAget_answers {s : State} (h : s.dev.memOk) (o : AForm) : Answers (execAget o s) := by
  unfold execAget
  exact ifAllowedG_answers h (fun _ h1 => wS_memOk h1 ..) ..

theorem execAcmp_answers {s : State} (h : s.dev.memOk) (o : AForm) : Answers (execAcmp o s) := by
  unfold execAcmp
  exact ifAllowed_answers h (fun _ h1 => upd_memOk h1 ..) ..

end Sys2Proof.Machine
end

section
/-! O60: memory keeps its form through Scalar.lean. -/

namespace Sys2Proof.Machine

theorem scalar2_answers {s : State} (h : s.dev.memOk) (o : SR) (lat : ℕ) (f : Word → Word → Word) : Answers (s.scalar2 o lat f) := by
  unfold State.scalar2
  exact whenActive_answers h (fun _ h1 => wS_memOk h1 ..) ..

theorem scalar1_answers {s : State} (h : s.dev.memOk) (o : SR) (f : Word → Word) : Answers (s.scalar1 o f) := by
  unfold State.scalar1
  exact whenActive_answers h (fun _ h1 => wS_memOk h1 ..) ..

theorem scalarImm_answers {s : State} (h : s.dev.memOk) (o : SI) (f : Word → Word) : Answers (s.scalarImm o f) := by
  unfold State.scalarImm
  exact whenActive_answers h (fun _ h1 => wS_memOk h1 ..) ..

theorem startDivision_answers {s : State} (h : s.dev.memOk) (o : SR) (op : ℕ) : Answers (s.startDivision o op) := by
  unfold State.startDivision
  exact whenActive_answers h (fun _ h1 => upd_memOk h1 ..) ..

theorem execMulh_answers {s : State} (h : s.dev.memOk) (o : SR) : Answers (execMulh o s) := scalar2_answers h ..

theorem execMulhu_answers {s : State} (h : s.dev.memOk) (o : SR) : Answers (execMulhu o s) := scalar2_answers h ..

theorem execShl_answers {s : State} (h : s.dev.memOk) (o : SR) : Answers (execShl o s) := scalar2_answers h ..

theorem execShr_answers {s : State} (h : s.dev.memOk) (o : SR) : Answers (execShr o s) := scalar2_answers h ..

theorem execSra_answers {s : State} (h : s.dev.memOk) (o : SR) : Answers (execSra o s) := scalar2_answers h ..

theorem execMin_answers {s : State} (h : s.dev.memOk) (o : SR) : Answers (execMin o s) := scalar2_answers h ..

theorem execMax_answers {s : State} (h : s.dev.memOk) (o : SR) : Answers (execMax o s) := scalar2_answers h ..

theorem execMinu_answers {s : State} (h : s.dev.memOk) (o : SR) : Answers (execMinu o s) := scalar2_answers h ..

theorem execMaxu_answers {s : State} (h : s.dev.memOk) (o : SR) : Answers (execMaxu o s) := scalar2_answers h ..

theorem execSlt_answers {s : State} (h : s.dev.memOk) (o : SR) : Answers (execSlt o s) := scalar2_answers h ..

theorem execSltu_answers {s : State} (h : s.dev.memOk) (o : SR) : Answers (execSltu o s) := scalar2_answers h ..

theorem execSel_answers {s : State} (h : s.dev.memOk) (o : SR) : Answers (execSel o s) := by
  unfold execSel
  exact whenActive_answers h (fun _ h1 => wS_memOk h1 ..) ..

theorem execAddi_answers {s : State} (h : s.dev.memOk) (o : SI) : Answers (execAddi o s) := scalarImm_answers h ..

theorem execAndi_answers {s : State} (h : s.dev.memOk) (o : SI) : Answers (execAndi o s) := scalarImm_answers h ..

theorem execOri_answers {s : State} (h : s.dev.memOk) (o : SI) : Answers (execOri o s) := scalarImm_answers h ..

theorem execXori_answers {s : State} (h : s.dev.memOk) (o : SI) : Answers (execXori o s) := scalarImm_answers h ..

theorem execShli_answers {s : State} (h : s.dev.memOk) (o : SI) : Answers (execShli o s) := scalarImm_answers h ..

theorem execShri_answers {s : State} (h : s.dev.memOk) (o : SI) : Answers (execShri o s) := scalarImm_answers h ..

theorem execSrai_answers {s : State} (h : s.dev.memOk) (o : SI) : Answers (execSrai o s) := scalarImm_answers h ..

theorem execLi_answers {s : State} (h : s.dev.memOk) (o : SI) : Answers (execLi o s) := by
  unfold execLi
  exact whenActive_answers h (fun _ h1 => wS_memOk h1 ..) ..

theorem execLih_answers {s : State} (h : s.dev.memOk) (o : SI) : Answers (execLih o s) := scalarImm_answers h ..

theorem execClz_answers {s : State} (h : s.dev.memOk) (o : SR) : Answers (execClz o s) := scalar1_answers h ..

theorem execCtz_answers {s : State} (h : s.dev.memOk) (o : SR) : Answers (execCtz o s) := scalar1_answers h ..

theorem execPopc_answers {s : State} (h : s.dev.memOk) (o : SR) : Answers (execPopc o s) := scalar1_answers h ..

theorem execExts_answers {s : State} (h : s.dev.memOk) (o : SI) : Answers (execExts o s) := scalarImm_answers h ..

theorem execExtz_answers {s : State} (h : s.dev.memOk) (o : SI) : Answers (execExtz o s) := scalarImm_answers h ..

theorem execIns_answers {s : State} (h : s.dev.memOk) (o : SI) : Answers (execIns o s) := by
  unfold execIns
  exact whenActive_answers h (fun _ h1 => wS_memOk h1 ..) ..

theorem execPelse_answers {s : State} (h : s.dev.memOk) (a0 : SR) : Answers (execPelse a0 s) := by
  dsimp only [execPelse]
  split
  · exact ⟨_, rfl, trap_memOk h ..⟩
  · exact ite_answers ⟨_, rfl, waitTau_memOk h ..⟩ ⟨_, rfl, upd_memOk h ..⟩

theorem execPrd_answers {s : State} (h : s.dev.memOk) (o : SR) : Answers (execPrd o s) := by
  unfold execPrd
  exact whenActive_answers h (fun _ h1 => wS_memOk h1 ..) ..

theorem execPwr_answers {s : State} (h : s.dev.memOk) (o : SR) : Answers (execPwr o s) := by
  unfold execPwr
  exact whenActive_answers h (fun _ h1 => ite_dev_memOk (trap_memOk h1 ..) (upd_memOk h1 ..)) ..

theorem execTidx_answers {s : State} (h : s.dev.memOk) (o : SR) : Answers (execTidx o s) := by
  unfold execTidx
  exact whenActive_answers h (fun _ h1 => ite_dev_memOk (trapOp_memOk h1 ..) (wS_memOk h1 ..)) ..

end Sys2Proof.Machine
end

section
/-! O60: memory keeps its form through Control.lean. -/

namespace Sys2Proof.Machine

theorem execBr_answers {s : State} (h : s.dev.memOk) (o : SB) : Answers (execBr o s) := by
  unfold execBr
  exact whenActive_answers h (fun _ h1 => ite_dev_memOk (upd_memOk h1 ..) h1) ..

theorem execBri_answers {s : State} (h : s.dev.memOk) (o : SB) : Answers (execBri o s) := by
  unfold execBri
  exact whenActive_answers h (fun _ h1 => ite_dev_memOk (upd_memOk h1 ..) h1) ..

theorem execJmp_answers {s : State} (h : s.dev.memOk) (o : SB) : Answers (execJmp o s) := by
  unfold execJmp
  exact whenActive_answers h (fun _ h1 => upd_memOk h1 ..) ..

theorem execCall_answers {s : State} (h : s.dev.memOk) (o : SB) : Answers (execCall o s) := by
  unfold execCall
  exact whenActive_answers h (fun _ h1 => upd_memOk (wS_memOk h1 ..) ..) ..

theorem execDbnz_answers {s : State} (h : s.dev.memOk) (o : SB) : Answers (execDbnz o s) := by
  unfold execDbnz
  exact whenActive_answers h (fun _ h1 => ite_dev_memOk (upd_memOk (wS_memOk h1 ..) ..) (wS_memOk h1 ..)) ..

theorem goReg_memOk {s : State} {f : State → State} (h : s.dev.memOk) (hf : ∀ t : State, t.dev.memOk → (f t).dev.memOk) (i : Instr) (a : Reg) :
    (s.goReg i a f).dev.memOk := by
  unfold State.goReg
  exact ite_dev_memOk (trapOp_memOk h ..) (upd_memOk (hf _ h) ..)

theorem execRet_answers {s : State} (h : s.dev.memOk) (o : SR) : Answers (execRet o s) := by
  unfold execRet
  exact whenActive_answers h (fun _ h1 => goReg_memOk h1 (fun _ h2 => h2) ..) ..

theorem execJr_answers {s : State} (h : s.dev.memOk) (o : SR) : Answers (execJr o s) := by
  unfold execJr
  exact whenActive_answers h (fun _ h1 => goReg_memOk h1 (fun _ h2 => h2) ..) ..

theorem execCallr_answers {s : State} (h : s.dev.memOk) (o : SR) : Answers (execCallr o s) := by
  unfold execCallr
  exact whenActive_answers h (fun _ h1 => goReg_memOk h1 (fun _ h2 => wS_memOk h2 ..) ..) ..

theorem setEvent_memOk {s : State} (h : s.dev.memOk) (p slot : ℕ) : (s.setEvent p slot).dev.memOk := by
  dsimp only [State.setEvent]
  split
  · exact setCore_memOk h ..
  · split
    · exact h
    · exact updDev_memOk h (fun _ h1 => ite_memOk (writeRecord_memOk (readied_memOk (updSlot_memOk h1 ..) ..) ..)
        (writeRecord_memOk (updSlot_memOk h1 ..) ..))

theorem execSev_answers {s : State} (h : s.dev.memOk) (o : SR) : Answers (execSev o s) := by
  unfold execSev
  exact whenActive_answers h (fun _ h1 => by
      dsimp only
      split
      · exact trap_memOk h1 ..
      · split
        · exact trap_memOk h1 ..
        · split
          · exact upd_memOk (commitSeg_memOk h1) ..
          · split
            · exact commitSeg_memOk h1
            · exact ite_dev_memOk (commitSeg_memOk h1) (setEvent_memOk (commitSeg_memOk h1) ..)) ..

theorem execSevAll_answers {s : State} (h : s.dev.memOk) (o : SR) : Answers (execSevAll o s) := by
  unfold execSevAll
  exact whenActive_answers h (fun _ h1 => by
    have hc := commitSeg_memOk h1
    dsimp only
    split
    · exact hc
    · refine ite_dev_memOk hc ?_
      split
      · exact hc
      · exact foldl_dev_memOk (fun _ _ h2 => ite_dev_memOk h2 (setEvent_memOk h2 ..)) hc _) ..

theorem suspendPoint_memOk {s : State} {f : State → State} (h : s.dev.memOk) (hf : ∀ t : State, t.dev.memOk → (f t).dev.memOk) (i : Instr) :
    (s.suspendPoint i f).dev.memOk := by
  dsimp only [State.suspendPoint]
  split
  · exact trapOp_memOk h ..
  · split
    · exact trap_memOk h ..
    · exact ite_dev_memOk (hf _ h) (wait_memOk (commitSeg_memOk h))

theorem execWfe_answers {s : State} (h : s.dev.memOk) (o : SR) : Answers (execWfe o s) := by
  unfold execWfe
  exact whenActive_answers h (fun _ h1 => by
      split
      · exact ite_dev_memOk (updDev_memOk (syncPoint_memOk h1) (fun _ h2 => updDome_memOk h2 ..)) (wait_memOk h1)
      · exact ite_dev_memOk (upd_memOk (syncPoint_memOk h1) ..) (suspendPoint_memOk h1 (fun _ h3 => suspendTask_memOk h3 ..) ..)) ..

theorem execYield_answers {s : State} (h : s.dev.memOk) (o : SR) : Answers (execYield o s) := by
  unfold execYield
  exact whenActive_answers h (fun _ h1 => suspendPoint_memOk h1 (fun _ h2 => suspendTask_memOk h2 ..) ..) ..

theorem execSusp_answers {s : State} (h : s.dev.memOk) (o : SR) : Answers (execSusp o s) := by
  unfold execSusp
  exact whenActive_answers h (fun _ h1 => suspendPoint_memOk h1 (fun _ h2 => suspendTask_memOk h2 ..) ..) ..

theorem execExit_answers {s : State} (h : s.dev.memOk) (o : SR) : Answers (execExit o s) := by
  unfold execExit
  exact whenActive_answers h (fun _ h1 => ite_dev_memOk (trapOp_memOk h1 ..) (by
      dsimp only
      split
      · exact trap_memOk h1 ..
      · split
        · exact h1
        · exact ite_dev_memOk (wait_memOk (commitSeg_memOk h1)) (ite_dev_memOk (wait_memOk (commitSeg_memOk h1))
            (endTask_memOk (updDev_memOk (release_memOk (upd_memOk (commitSeg_memOk h1) ..) ..)
              (fun _ h2 => writeRecord_memOk (updSlot_memOk h2 ..) ..)))))) ..

theorem execTrap_answers {s : State} (h : s.dev.memOk) (o : SI) : Answers (execTrap o s) := by
  unfold execTrap
  exact whenActive_answers h (fun _ h1 => trapAfter_memOk (commitSeg_memOk h1) ..) ..

theorem execTrapf_answers {s : State} (h : s.dev.memOk) (o : SR) : Answers (execTrapf o s) := by
  unfold execTrapf
  exact whenActive_answers h (fun _ h1 => ite_dev_memOk (waitTau_memOk h1 ..) (ite_dev_memOk (wait_memOk h1)
    (ite_dev_memOk (trap_memOk h1 ..) (ite_dev_memOk (trap_memOk h1 ..) h1)))) ..

theorem execTret_answers {s : State} (h : s.dev.memOk) (o : SR) : Answers (execTret o s) := by
  unfold execTret
  exact whenActive_answers h (fun _ h1 => ite_dev_memOk (trapOp_memOk h1 ..) (ite_dev_memOk (trap_memOk h1 ..) (upd_memOk h1 ..))) ..

end Sys2Proof.Machine
end

section
/-! O60: memory keeps its form through Queue.lean. -/

namespace Sys2Proof.Machine

theorem withHead_memOk {s : State} {f : QEntry → State → State} (h : s.dev.memOk) (hf : ∀ (x0 : QEntry) (x1 : State), x1.dev.memOk →
    (f x0 x1).dev.memOk) (q : BitVec 2) (sl : Slot) : (s.withHead q sl f).dev.memOk := by
  dsimp only [State.withHead]
  split
  · exact trap_memOk h ..
  · exact waitTau_memOk h ..
  · exact hf _ _ (commitSeg_memOk h)

end Sys2Proof.Machine
end

section
/-! O60: memory keeps its form through VectorArith.lean. -/

namespace Sys2Proof.Machine

theorem vElem_answers {s : State} (h : s.dev.memOk) (o : VForm) (lat : ℕ) (can : Bool) (f : ℕ → FRes) : Answers (s.vElem o lat can f) :=
  ⟨_, rfl, occupyV_memOk (vResult_memOk h ..) ..⟩

theorem vArith_answers {s : State} (h : s.dev.memOk) (o : VForm) (fl : Lane → Lane → Lane → FRes) (int : Lane → Lane → Lane → Lane) : Answers
    (s.vArith o fl int) := by
  unfold State.vArith
  exact ite_answers (vElem_answers h ..) (vElem_answers h ..)

theorem vInt_answers {s : State} (h : s.dev.memOk) (o : VForm) (f : Lane → Lane → FRes) (can : Bool) : Answers (s.vInt o f can) := vElem_answers h ..

theorem execVadd_answers {s : State} (h : s.dev.memOk) (o : VForm) : Answers (execVadd o s) := vArith_answers h ..

theorem execVsub_answers {s : State} (h : s.dev.memOk) (o : VForm) : Answers (execVsub o s) := vArith_answers h ..

theorem execVmul_answers {s : State} (h : s.dev.memOk) (o : VForm) : Answers (execVmul o s) := vArith_answers h ..

theorem execVfma_answers {s : State} (h : s.dev.memOk) (o : VForm) : Answers (execVfma o s) := vArith_answers h ..

theorem execVfms_answers {s : State} (h : s.dev.memOk) (o : VForm) : Answers (execVfms o s) := vArith_answers h ..

theorem execVfnma_answers {s : State} (h : s.dev.memOk) (o : VForm) : Answers (execVfnma o s) := vArith_answers h ..

theorem execVmin_answers {s : State} (h : s.dev.memOk) (o : VForm) : Answers (execVmin o s) := vInt_answers h ..

theorem execVmax_answers {s : State} (h : s.dev.memOk) (o : VForm) : Answers (execVmax o s) := vInt_answers h ..

theorem vUnary_answers {s : State} (h : s.dev.memOk) (o : VForm) (f : Lane → FRes) : Answers (s.vUnary o f) := vElem_answers h ..

theorem execVand_answers {s : State} (h : s.dev.memOk) (o : VForm) : Answers (execVand o s) := vInt_answers h ..

theorem execVor_answers {s : State} (h : s.dev.memOk) (o : VForm) : Answers (execVor o s) := vInt_answers h ..

theorem execVxor_answers {s : State} (h : s.dev.memOk) (o : VForm) : Answers (execVxor o s) := vInt_answers h ..

theorem execVnot_answers {s : State} (h : s.dev.memOk) (o : VForm) : Answers (execVnot o s) := vUnary_answers h ..

theorem execVshl_answers {s : State} (h : s.dev.memOk) (o : VForm) : Answers (execVshl o s) := vInt_answers h ..

theorem execVshr_answers {s : State} (h : s.dev.memOk) (o : VForm) : Answers (execVshr o s) := vInt_answers h ..

theorem execVsra_answers {s : State} (h : s.dev.memOk) (o : VForm) : Answers (execVsra o s) := vInt_answers h ..

theorem execVmulh_answers {s : State} (h : s.dev.memOk) (o : VForm) : Answers (execVmulh o s) := vInt_answers h ..

theorem execVadds_answers {s : State} (h : s.dev.memOk) (o : VForm) : Answers (execVadds o s) := vInt_answers h ..

theorem execVsubs_answers {s : State} (h : s.dev.memOk) (o : VForm) : Answers (execVsubs o s) := vInt_answers h ..

theorem vSpecial_answers {s : State} (h : s.dev.memOk) (o : VForm) (f : ℕ → Bool → Bool → Lane → FRes) : Answers (s.vSpecial o f) :=
  vElem_answers h ..

theorem pushMask_memOk {s : State} (h : s.dev.memOk) (o : VForm) (lat : ℕ) (m : LaneMask) (fl : Flags) (can : Bool) :
    (s.pushMask o lat m fl can).dev.memOk := occupyV_memOk (upd_memOk h ..) ..

end Sys2Proof.Machine
end

section
/-! O60: memory keeps its form through VectorMove.lean. -/

namespace Sys2Proof.Machine

theorem vMove_answers {s : State} (h : s.dev.memOk) (o : VForm) (lat : ℕ) (f : ℕ → Lane) : Answers (s.vMove o lat f) :=
  ⟨_, rfl, occupyV_memOk (wV_memOk h ..) ..⟩

theorem execVtidx_answers {s : State} (h : s.dev.memOk) (o : VForm) : Answers (execVtidx o s) := by
  unfold execVtidx
  exact ite_answers ⟨_, rfl, trapOp_memOk h ..⟩ (vMove_answers h ..)

end Sys2Proof.Machine
end

section
/-! O60: memory keeps its form through VectorConv.lean. -/

namespace Sys2Proof.Machine

theorem popWord_memOk {s t : State} (h : s.dev.memOk) {w : Word} (e : s.popWord = some (w, t)) : t.dev.memOk := by
  unfold State.popWord at e
  split at e
  · cases e
  · cases e
    refine upd_memOk ?_ ..
    split
    · exact ite_dev_memOk (commitSeg_memOk h) h
    · exact h

theorem withWord_memOk {s : State} {f : ℕ → State → State} (h : s.dev.memOk) (hf : ∀ (x0 : ℕ) (x1 : State), x1.dev.memOk → (f x0 x1).dev.memOk)
    (rm : BitVec 3) : (s.withWord rm f).dev.memOk := by
  dsimp only [State.withWord]
  split
  · exact hf _ _ h
  · split
    · exact hf _ _ h
    · split
      · exact wait_memOk h
      · rename_i _ t e1
        exact hf _ _ (upd_memOk (popWord_memOk h e1) ..)

theorem trapLater_memOk {s : State} (h : s.dev.memOk) (o : VForm) (lat : ℕ) (out : Bool) : (s.trapLater o lat out).dev.memOk := by
  unfold State.trapLater
  exact ite_dev_memOk (upd_memOk h ..) h

theorem vConv_memOk {s : State} (h : s.dev.memOk) (o : VForm) (lat f : ℕ) (conv : ℕ → ℕ × Flags) : (s.vConv o lat f conv).dev.memOk :=
  occupyV_memOk (trapLater_memOk (wV_memOk h ..) ..) ..

theorem execVcvt_answers {s : State} (h : s.dev.memOk) (o : VForm) : Answers (execVcvt o s) := by
  unfold execVcvt
  exact ⟨_, rfl, withWord_memOk h (fun _ _ h1 => vConv_memOk h1 ..) ..⟩

theorem execVscl_answers {s : State} (h : s.dev.memOk) (o : VForm) : Answers (execVscl o s) := by
  unfold execVscl
  exact ⟨_, rfl, withWord_memOk h (fun _ _ h1 => vConv_memOk h1 ..) ..⟩

theorem execVqnt_answers {s : State} (h : s.dev.memOk) (o : VForm) : Answers (execVqnt o s) := by
  unfold execVqnt
  exact ⟨_, rfl, withWord_memOk h (fun _ _ h1 => occupyV_memOk (trapLater_memOk (wBytes_memOk (wBytes_memOk h1 ..) ..) ..) ..) ..⟩

theorem execVdqt_answers {s : State} (h : s.dev.memOk) (o : VForm) : Answers (execVdqt o s) := by
  unfold execVdqt
  exact ⟨_, rfl, withWord_memOk h (fun _ _ h1 => vConv_memOk h1 ..) ..⟩

end Sys2Proof.Machine
end

section
/-! O60: memory keeps its form through VectorStream.lean. -/

namespace Sys2Proof.Machine

theorem execVspush_answers {s : State} (h : s.dev.memOk) (o : VForm) : Answers (execVspush o s) := by
  unfold execVspush
  exact ite_answers ⟨_, rfl, trap_memOk h ..⟩ ⟨_, rfl, occupyV_memOk (upd_memOk (commitSeg_memOk h) ..) ..⟩

theorem execVspop_answers {s : State} (h : s.dev.memOk) (o : VForm) : Answers (execVspop o s) := by
  unfold execVspop
  exact ⟨_, rfl, pushMask_memOk (upd_memOk (ite_dev_memOk (wV_memOk (wV_memOk (commitSeg_memOk h) ..) ..) (wV_memOk (commitSeg_memOk h) ..)) ..) ..⟩

theorem execVqpop_answers {s : State} (h : s.dev.memOk) (o : VForm) : Answers (execVqpop o s) := by
  unfold execVqpop
  exact ⟨_, rfl, withHead_memOk h (fun _ _ h1 => occupyV_memOk (upd_memOk (wV_memOk h1 ..) ..) ..) ..⟩

theorem execVqpopSide_answers {s : State} (h : s.dev.memOk) (o : VForm) : Answers (execVqpopSide o s) := by
  unfold execVqpopSide
  exact ⟨_, rfl, withHead_memOk h (fun _ _ h1 => occupyV_memOk (wV_memOk h1 ..) ..) ..⟩

theorem execVqpopInfo_answers {s : State} (h : s.dev.memOk) (o : VForm) : Answers (execVqpopInfo o s) := by
  unfold execVqpopInfo
  exact ⟨_, rfl, withHead_memOk h (fun _ _ h1 => occupyV_memOk (wV_memOk h1 ..) ..) ..⟩

end Sys2Proof.Machine
end

section
/-! O60: memory keeps its form through MatrixRow.lean. -/

namespace Sys2Proof.Machine

theorem rowFault_memOk {s : State} (h : s.dev.memOk) (code off : ℕ) : (s.rowFault code off).dev.memOk := by
  dsimp only [State.rowFault]
  split
  · split
    · split
      · exact consumeHere_memOk h ..
      · exact trap_memOk h ..
    · exact trap_memOk h ..
  · exact trap_memOk h ..

theorem execFeedcfg_answers {s : State} (h : s.dev.memOk) (o : XForm) : Answers (execFeedcfg o s) := by
  unfold execFeedcfg
  exact ifAllowedG_answers h (fun _ h1 => ite_dev_memOk (trap_memOk h1 ..) (ite_dev_memOk (trap_memOk h1 ..)
    (ite_dev_memOk (consumeHere_memOk h1 ..) (ite_dev_memOk (trapOp_memOk h1 ..) (upd_memOk h1 ..))))) ..

end Sys2Proof.Machine
end

section
/-! O60: memory keeps its form through MatrixImage.lean. -/

namespace Sys2Proof.Machine

theorem writeBlock_memOk {v : Device} (h : v.memOk) (ctx : BitVec 12) (n : ℕ) (va : Addr) (bs : List Byte) : (v.writeBlock ctx n va bs).memOk := by
  induction n generalizing v va bs with
  | zero => exact h
  | succ n ih =>
    simp only [Device.writeBlock]
    split
    · exact h
    · refine ih ?_ _ _
      split
      · exact publish_memOk h ..
      · exact updDome_memOk h ..
      · exact h

theorem writePieces_memOk {v : Device} (h : v.memOk) (ctx : BitVec 12) (base : Addr) (ps : List (ℕ × List Byte)) :
    (v.writePieces ctx base ps).memOk := by
  unfold Device.writePieces
  exact foldl_memOk (fun _ _ h1 => writeBlock_memOk h1 ..) h _

end Sys2Proof.Machine
end

section
/-! O60: memory keeps its form through Matrix.lean. -/

namespace Sys2Proof.Machine

theorem mOp_answers {s : State} {f : State → State} (h : s.dev.memOk) (hf : ∀ t : State, t.dev.memOk → (f t).dev.memOk) (i : Instr) (legal : Bool) :
    Answers (s.mOp i legal f) := by
  unfold State.mOp
  exact ifAllowed_answers h (fun _ h1 => ite_dev_memOk (trapOp_memOk h1 ..) (ite_dev_memOk (trap_memOk h1 ..) (hf _ h1))) ..

theorem afterBeats_memOk {s : State} {f : State → State} (h : s.dev.memOk) (hf : ∀ t : State, t.dev.memOk → (f t).dev.memOk) (m : BitVec 4) :
    (s.afterBeats m f).dev.memOk := by
  unfold State.afterBeats
  exact ite_dev_memOk (hf _ h) (waitTau_memOk h ..)

theorem withEp_memOk {s : State} {f : State → State} (h : s.dev.memOk) (hf : ∀ t : State, t.dev.memOk → (f t).dev.memOk) (ep : Bool) (ts : List ℕ) :
    (s.withEp ep ts f).dev.memOk := by
  unfold State.withEp
  exact ite_dev_memOk (afterBeats_memOk h (fun _ h1 => hf _ (upd_memOk h1 ..)) ..) (hf _ h)

theorem withLatch_memOk {s : State} {f : Feeder → Flags → State → State} (h : s.dev.memOk)
    (hf : ∀ (x0 : Feeder) (x1 : Flags) (x2 : State), x2.dev.memOk → (f x0 x1 x2).dev.memOk) (i : Instr) : (s.withLatch i f).dev.memOk := by
  dsimp only [State.withLatch]
  split
  · exact trapOp_memOk h ..
  · exact rowFault_memOk h ..
  · exact wait_memOk h
  · exact hf _ _ _ h

theorem execMpush_answers {s : State} (h : s.dev.memOk) (o : MForm) : Answers (execMpush o s) := by
  unfold execMpush
  exact mOp_answers h (fun _ h1 => withLatch_memOk h1 (fun _ _ _ h2 => withEp_memOk h2 (fun _ h3 => upd_memOk h3 ..) ..) ..) ..

theorem beat_memOk {s : State} (h : s.dev.memOk) (o : MForm) (ts : List ℕ) : (s.beat o ts).dev.memOk := upd_memOk (by exact h) ..

theorem execMbeat_answers {s : State} (h : s.dev.memOk) (o : MForm) : Answers (execMbeat o s) := by
  unfold execMbeat
  exact mOp_answers h (fun _ h1 => ite_dev_memOk (wait_memOk h1) (by
      dsimp only
      split
      · exact wait_memOk h1
      · split
        · exact withLatch_memOk (by exact h1) (fun _ _ _ h2 => withEp_memOk h2 (fun _ h3 => upd_memOk (ite_dev_memOk h3 (beat_memOk h3 ..)) ..) ..) ..
        · exact withEp_memOk (by exact h1) (fun _ h4 => upd_memOk (ite_dev_memOk h4 (beat_memOk h4 ..)) ..) ..)) ..

theorem execMshift_answers {s : State} (h : s.dev.memOk) (o : MForm) : Answers (execMshift o s) := by
  unfold execMshift
  exact mOp_answers h (fun _ h1 => withEp_memOk h1 (fun _ h2 => upd_memOk h2 ..) ..) ..

theorem execMzero_answers {s : State} (h : s.dev.memOk) (o : MForm) : Answers (execMzero o s) := by
  unfold execMzero
  exact mOp_answers h (fun _ h1 => afterBeats_memOk h1 (fun _ h2 => upd_memOk h2 ..) ..) ..

theorem execMepoch_answers {s : State} (h : s.dev.memOk) (o : MForm) : Answers (execMepoch o s) := by
  unfold execMepoch
  exact mOp_answers h (fun _ h1 => afterBeats_memOk h1 (fun _ h2 => upd_memOk h2 ..) ..) ..

theorem execMswap_answers {s : State} (h : s.dev.memOk) (o : MForm) : Answers (execMswap o s) := by
  unfold execMswap
  exact mOp_answers h (fun _ h1 => ite_dev_memOk (wait_memOk h1) (upd_memOk (commitSeg_memOk h1) ..)) ..

theorem execMretry_answers {s : State} (h : s.dev.memOk) (o : MForm) : Answers (execMretry o s) := by
  unfold execMretry
  exact mOp_answers h (fun _ h1 => afterBeats_memOk h1 (fun _ h2 => upd_memOk (commitSeg_memOk h2) ..) ..) ..

theorem serve_memOk {s : State} {f : State → State} (h : s.dev.memOk) (hf : ∀ t : State, t.dev.memOk → (f t).dev.memOk) (n : ℕ) :
    (s.serve n f).dev.memOk := by
  unfold State.serve
  exact ite_dev_memOk (hf _ h) (waitTau_memOk (upd_memOk h ..) ..)

theorem mdrain_memOk {s : State} (h : s.dev.memOk) (o : MForm) : (s.mdrain o).dev.memOk := by
  unfold State.mdrain
  exact ite_dev_memOk (upd_memOk (commitSeg_memOk h) ..) (ite_dev_memOk (trap_memOk h ..)
    (ite_dev_memOk (ite_dev_memOk (upd_memOk (upd_memOk (commitSeg_memOk h) ..) ..)
      (ite_dev_memOk (upd_memOk (upd_memOk (commitSeg_memOk h) ..) ..) h)) (upd_memOk (commitSeg_memOk h) ..)))

theorem execMdrain_answers {s : State} (h : s.dev.memOk) (o : MForm) : Answers (execMdrain o s) := by
  unfold execMdrain
  exact mOp_answers h (fun _ h1 => afterBeats_memOk h1 (fun _ h2 => ite_dev_memOk (ite_dev_memOk (mdrain_memOk h2 ..)
    (serve_memOk (upd_memOk h2 ..) (fun _ h3 => mdrain_memOk h3 ..) ..)) (mdrain_memOk h2 ..)) ..) ..

theorem execMckloc_answers {s : State} (h : s.dev.memOk) (o : MForm) : Answers (execMckloc o s) := by
  unfold execMckloc
  exact mOp_answers h (fun _ h1 => ite_dev_memOk (serve_memOk h1 (fun _ h2 => upd_memOk h2 ..) ..) h1) ..

theorem execMckfix_answers {s : State} (h : s.dev.memOk) (o : MForm) : Answers (execMckfix o s) := by
  unfold execMckfix
  exact mOp_answers h (fun _ h1 => ite_dev_memOk (commitSeg_memOk h1) (afterBeats_memOk h1 (fun _ h2 => serve_memOk h2 (fun _ h3 => by
      dsimp only
      split
      · exact ite_dev_memOk (trap_memOk h3 ..) (upd_memOk (ite_dev_memOk (commitSeg_memOk h3) (upd_memOk (commitSeg_memOk h3) ..)) ..)
      · exact upd_memOk (ite_dev_memOk (commitSeg_memOk h3) (upd_memOk (commitSeg_memOk h3) ..)) ..) ..) ..)) ..

theorem execMcal_answers {s : State} (h : s.dev.memOk) (o : MForm) : Answers (execMcal o s) := by
  unfold execMcal
  exact mOp_answers h (fun _ h1 => upd_memOk (commitSeg_memOk h1) ..) ..

theorem execMfbk_answers {s : State} (h : s.dev.memOk) (o : MForm) : Answers (execMfbk o s) := by
  unfold execMfbk
  exact mOp_answers h (fun _ h1 => upd_memOk (commitSeg_memOk h1) ..) ..

theorem execMonitorCalibration_answers {s : State} (h : s.dev.memOk) : Answers (execMonitorCalibration s) := by
  unfold execMonitorCalibration
  exact ⟨_, rfl, ite_dev_memOk h (setCore_memOk h ..)⟩

theorem mctx_answers {s : State} {f : State → State} (h : s.dev.memOk) (hf : ∀ t : State, t.dev.memOk → (f t).dev.memOk) (i : Instr) : Answers
    (s.mctx i f) := by
  unfold State.mctx
  exact ifAllowed_answers h (fun _ h1 => ite_dev_memOk (trapOp_memOk h1 ..) (hf _ h1)) ..

theorem execMctxSave_answers {s : State} (h : s.dev.memOk) (o : MForm) : Answers (execMctxSave o s) := by
  unfold execMctxSave
  exact mctx_answers h (fun _ h1 => ite_dev_memOk (trapOp_memOk h1 ..) (afterBeats_memOk h1
    (fun _ h2 => upd_memOk (updDev_memOk (commitSeg_memOk h2) (fun _ h3 => writePieces_memOk (writeBlock_memOk h3 ..) ..)) ..) ..)) ..

theorem execMctxRestore_answers {s : State} (h : s.dev.memOk) (o : MForm) : Answers (execMctxRestore o s) := by
  unfold execMctxRestore
  exact mctx_answers h (fun _ h1 => ite_dev_memOk (trap_memOk h1 ..) (afterBeats_memOk h1 (fun _ h2 => upd_memOk (commitSeg_memOk h2) ..) ..)) ..

theorem execMctxKeep_answers {s : State} (h : s.dev.memOk) (o : MForm) : Answers (execMctxKeep o s) := by
  unfold execMctxKeep
  exact mctx_answers h (fun _ h1 => ite_dev_memOk (trap_memOk h1 ..) (afterBeats_memOk h1 (fun _ h2 => upd_memOk (commitSeg_memOk h2) ..) ..)) ..

theorem execMinjAcc_answers {s : State} (h : s.dev.memOk) (o : MForm) : Answers (execMinjAcc o s) := by
  unfold execMinjAcc
  exact mOp_answers h (fun _ h1 => afterBeats_memOk h1 (fun _ h2 => upd_memOk (commitSeg_memOk h2) ..) ..) ..

theorem execMinjCks_answers {s : State} (h : s.dev.memOk) (o : MForm) : Answers (execMinjCks o s) := by
  unfold execMinjCks
  exact mOp_answers h (fun _ h1 => upd_memOk (commitSeg_memOk h1) ..) ..

theorem execMinjPar_answers {s : State} (h : s.dev.memOk) (o : MForm) : Answers (execMinjPar o s) := by
  unfold execMinjPar
  exact mOp_answers h (fun _ h1 => upd_memOk (commitSeg_memOk h1) ..) ..

theorem execFixedResultWriteback_answers {s : State} (h : s.dev.memOk) : Answers (execFixedResultWriteback s) := by
  unfold execFixedResultWriteback
  exact ⟨_, rfl, ite_dev_memOk (upd_memOk h ..) (consume_memOk (upd_memOk h ..) ..)⟩

end Sys2Proof.Machine
end

section
/-! O60: memory keeps its form through Fetch.lean. -/

namespace Sys2Proof.Machine

theorem fetchTouch_memOk {s : State} (h : s.dev.memOk) : s.fetchTouch.dev.memOk := by
  unfold State.fetchTouch
  exact foldl_dev_memOk (fun _ _ h1 => by
      split
      · exact failWalk_memOk h1 ..
      · exact touch_memOk h1 ..) h _

end Sys2Proof.Machine
end

section
/-! O60: memory keeps its form through Setup.lean. -/

namespace Sys2Proof.Machine

theorem execFmtw_answers {s : State} (h : s.dev.memOk) (o : XForm) : Answers (execFmtw o s) := by
  unfold execFmtw
  exact ifAllowedG_answers h (fun _ h1 => by
      dsimp only
      split
      · exact trapOp_memOk h1 ..
      · exact upd_memOk h1 ..) ..

theorem execFmtr_answers {s : State} (h : s.dev.memOk) (o : XForm) : Answers (execFmtr o s) := by
  unfold execFmtr
  exact ifAllowedG_answers h (fun _ h1 => wS_memOk h1 ..) ..

theorem execFmtrPend_answers {s : State} (h : s.dev.memOk) (o : XForm) : Answers (execFmtrPend o s) := by
  unfold execFmtrPend
  exact ifAllowedG_answers h (fun _ h1 => wS_memOk h1 ..) ..

theorem execBndw_answers {s : State} (h : s.dev.memOk) (o : XForm) : Answers (execBndw o s) := by
  unfold execBndw
  exact ifAllowedG_answers h (fun _ h1 => ite_dev_memOk (trapOp_memOk h1 ..) (upd_memOk h1 ..)) ..

theorem execBndr_answers {s : State} (h : s.dev.memOk) (o : XForm) : Answers (execBndr o s) := by
  unfold execBndr
  exact ifAllowedG_answers h (fun _ h1 => wS_memOk h1 ..) ..

theorem execBndrFa_answers {s : State} (h : s.dev.memOk) (o : XForm) : Answers (execBndrFa o s) := by
  unfold execBndrFa
  exact ifAllowedG_answers h (fun _ h1 => wS_memOk h1 ..) ..

theorem execShpw_answers {s : State} (h : s.dev.memOk) (o : XForm) : Answers (execShpw o s) := by
  unfold execShpw
  exact ifAllowedG_answers h (fun _ h1 => ite_dev_memOk (trapOp_memOk h1 ..) (upd_memOk h1 ..)) ..

theorem execCktol_answers {s : State} (h : s.dev.memOk) (o : XForm) : Answers (execCktol o s) := by
  unfold execCktol
  exact ifAllowedG_answers h (fun _ h1 => upd_memOk h1 ..) ..

theorem execCktolRd_answers {s : State} (h : s.dev.memOk) (o : XForm) : Answers (execCktolRd o s) := by
  unfold execCktolRd
  exact ifAllowedG_answers h (fun _ h1 => wS_memOk h1 ..) ..

theorem execRbcfg_answers {s : State} (h : s.dev.memOk) (o : XForm) : Answers (execRbcfg o s) := by
  unfold execRbcfg
  exact ifAllowedG_answers h (fun _ h1 => upd_memOk (commitSeg_memOk h1) ..) ..

theorem execRbpop_answers {s : State} (h : s.dev.memOk) (o : XForm) : Answers (execRbpop o s) := by
  unfold execRbpop
  exact ifAllowedG_answers h (fun _ h1 => by
      split
      · exact wait_memOk h1
      · rename_i _ t e1
        exact wS_memOk (popWord_memOk h1 e1) ..) ..

end Sys2Proof.Machine
end

section
/-! O60: memory keeps its form through Loops.lean. -/

namespace Sys2Proof.Machine

theorem withDesc_memOk {s : State} {f : List Byte → State} (h : s.dev.memOk) (hf : ∀ (x0 : List Byte), (f x0).dev.memOk) (x n : ℕ) :
    (s.withDesc x n f).dev.memOk := by
  dsimp only [State.withDesc]
  split
  · exact trap_memOk h ..
  · split
    · exact trap_memOk h ..
    · split
      · exact consumeHere_memOk h ..
      · exact hf _

theorem execLnest_answers {s : State} (h : s.dev.memOk) (o : XForm) : Answers (execLnest o s) := by
  unfold execLnest
  exact ifAllowedG_answers h (fun _ h1 => ite_dev_memOk (trapOp_memOk h1 ..) (withDesc_memOk h1
    (fun _ => ite_dev_memOk (trapOp_memOk h1 ..) (upd_memOk h1 ..)) ..)) ..

theorem execLbody_answers {s : State} (h : s.dev.memOk) (o : XForm) : Answers (execLbody o s) := by
  unfold execLbody
  exact ifAllowed_answers h (fun _ h1 => by
      dsimp only
      split
      · split
        · exact trapOp_memOk h1 ..
        · split
          · exact trapOp_memOk h1 ..
          · exact ite_dev_memOk (upd_memOk h1 ..) (upd_memOk h1 ..)
      · exact trapOp_memOk h1 ..) ..

theorem execLbrk_answers {s : State} (h : s.dev.memOk) (o : XForm) : Answers (execLbrk o s) := by
  unfold execLbrk
  exact ifAllowedG_answers h (fun _ h1 => by
      split
      · exact trapOp_memOk h1 ..
      · exact upd_memOk h1 ..) ..

theorem execLbrkDrain_answers {s : State} (h : s.dev.memOk) (o : XForm) : Answers (execLbrkDrain o s) := by
  unfold execLbrkDrain
  exact ifAllowedG_answers h (fun _ h1 => by
      split
      · exact trapOp_memOk h1 ..
      · exact upd_memOk h1 ..) ..

theorem execLstat_answers {s : State} (h : s.dev.memOk) (o : XForm) : Answers (execLstat o s) := by
  unfold execLstat
  exact ifAllowedG_answers h (fun _ h1 => wS_memOk h1 ..) ..

end Sys2Proof.Machine
end

section
/-! O60: memory keeps its form through Memory.lean. -/

namespace Sys2Proof.Machine

theorem checked_memOk {s : State} {f : Place × ℕ → State} (h : s.dev.memOk) (hf : ∀ (x0 : Place × ℕ), (f x0).dev.memOk) (as : ℕ) (x : ℤ) (n : ℕ)
    (k : Kind) (ld st : Bool) : (s.checked as x n k ld st f).dev.memOk := by
  dsimp only [State.checked]
  split
  · exact trap_memOk h ..
  · split
    · exact memTrap_memOk h ..
    · split
      · exact trap_memOk h ..
      · exact hf _

theorem startLoad_memOk {s : State} (h : s.dev.memOk) (w : Write) (bad : Option (BadSource × ℕ)) : (s.startLoad w bad).dev.memOk := upd_memOk h ..

theorem hasRead_memOk {s : State} (h : s.dev.memOk) (fl : List ℕ) (n : ℕ) (ps : List (Place × ℕ)) : (s.hasRead fl n ps).dev.memOk :=
  l1Read_memOk (saw_memOk h ..) ..

theorem loadScalar_memOk {s : State} (h : s.dev.memOk) (o : AForm) : (s.loadScalar o).dev.memOk := by
  unfold State.loadScalar
  exact checked_memOk h (fun _ => startLoad_memOk (touch_memOk (hasRead_memOk h ..) ..) ..) ..

theorem loadConsume_memOk {s : State} (h : s.dev.memOk) (o : AForm) : (s.loadConsume o).dev.memOk := by
  unfold State.loadConsume
  exact ite_dev_memOk (loadScalar_memOk h ..) (checked_memOk h (fun _ => startLoad_memOk (upd_memOk (l1Read_memOk (touch_memOk h ..) ..) ..) ..) ..)

theorem execLd_answers {s : State} (h : s.dev.memOk) (o : AForm) : Answers (execLd o s) := by
  unfold execLd
  exact ifAllowedG_answers h (fun _ h1 => loadScalar_memOk h1 ..) ..

theorem execLdc_answers {s : State} (h : s.dev.memOk) (o : AForm) : Answers (execLdc o s) := by
  unfold execLdc
  exact ifAllowedG_answers h (fun _ h1 => loadConsume_memOk h1 ..) ..

theorem execSt_answers {s : State} (h : s.dev.memOk) (o : AForm) : Answers (execSt o s) := by
  unfold execSt
  exact ifAllowedG_answers h (fun _ h1 => checked_memOk h1 (fun _ => store_memOk (touch_memOk h1 ..) ..) ..) ..

theorem checkedRows_memOk {s : State} {f : List (Place × ℕ) → State} (h : s.dev.memOk) (hf : ∀ (x0 : List (Place × ℕ)), (f x0).dev.memOk) (as : ℕ)
    (m : LaneMask) (xs : List ℤ) (k : Kind) (ld st : Bool) : (s.checkedRows as m xs k ld st f).dev.memOk := by
  dsimp only [State.checkedRows]
  split
  · exact trap_memOk h ..
  · split
    · exact memTrap_memOk h ..
    · split
      · exact trap_memOk h ..
      · exact hf _

theorem loadRows_memOk {s : State} (h : s.dev.memOk) (o : AForm) (xs : List ℤ) : (s.loadRows o xs).dev.memOk := by
  unfold State.loadRows
  exact checkedRows_memOk h (fun _ => occupyA_memOk (upd_memOk (startLoad_memOk (foldl_dev_memOk (fun _ _ h1 => touch_memOk h1 ..)
    (hasRead_memOk h ..) _) ..) ..) ..) ..

theorem execVld_answers {s : State} (h : s.dev.memOk) (o : AForm) : Answers (execVld o s) := by
  unfold execVld
  exact ifAllowed_answers h (fun _ h1 => loadRows_memOk h1 ..) ..

theorem execVlds_answers {s : State} (h : s.dev.memOk) (o : AForm) : Answers (execVlds o s) := by
  unfold execVlds
  exact ifAllowed_answers h (fun _ h1 => ite_dev_memOk (trap_memOk h1 ..) (loadRows_memOk h1 ..)) ..

theorem boundEffect_memOk {s : State} (h : s.dev.memOk) (tid : BitVec 4) (out : Bool) : (s.boundEffect tid out).dev.memOk := by
  unfold State.boundEffect
  exact ite_dev_memOk h (upd_memOk h ..)

theorem storeRows_memOk {s : State} {f : State → State} (h : s.dev.memOk) (hf : ∀ t : State, t.dev.memOk → (f t).dev.memOk) (o : AForm) (n : ℕ)
    (v : VReg) : (s.storeRows o n v f).dev.memOk := by
  unfold State.storeRows
  exact checkedRows_memOk h (fun _ => occupyA_memOk (boundEffect_memOk (hf _ (store_memOk
    (foldl_dev_memOk (fun _ _ h1 => touch_memOk h1 ..) h _) ..)) ..) ..) ..

theorem execVst_answers {s : State} (h : s.dev.memOk) (o : AForm) : Answers (execVst o s) := by
  unfold execVst
  exact ifAllowed_answers h (fun _ h1 => storeRows_memOk h1 (fun _ h2 => h2) ..) ..

theorem execVstQueue_answers {s : State} (h : s.dev.memOk) (o : AForm) : Answers (execVstQueue o s) := by
  unfold execVstQueue
  exact ifAllowed_answers h (fun _ h1 => by
      dsimp only
      split
      · exact waitTau_memOk h1 ..
      · exact checkedRows_memOk h1 (fun _ => trap_memOk h1 ..) ..
      · exact storeRows_memOk h1 (fun _ h2 => upd_memOk (commitSeg_memOk h2) ..) ..) ..

theorem checkedLanes_memOk {s : State} {f : List (ℕ × Place × ℕ) → State} (h : s.dev.memOk) (hf : ∀ (x0 : List (ℕ × Place × ℕ)), (f x0).dev.memOk)
    (o : AForm) (k : Kind) (ld st : Bool) : (s.checkedLanes o k ld st f).dev.memOk := by
  dsimp only [State.checkedLanes]
  split
  · exact memTrap_memOk h ..
  · split
    · exact trap_memOk h ..
    · exact hf _

theorem execVgath_answers {s : State} (h : s.dev.memOk) (o : AForm) : Answers (execVgath o s) := by
  unfold execVgath
  exact ifAllowed_answers h (fun _ h1 => checkedLanes_memOk h1 (fun _ => occupyA_memOk
    (upd_memOk (startLoad_memOk (foldl_dev_memOk (fun _ _ h2 => touch_memOk h2 ..) (hasRead_memOk h1 ..) _) ..) ..) ..) ..) ..

theorem execVscat_answers {s : State} (h : s.dev.memOk) (o : AForm) : Answers (execVscat o s) := by
  unfold execVscat
  exact ifAllowed_answers h (fun _ h1 => checkedLanes_memOk h1 (fun _ => occupyA_memOk
    (boundEffect_memOk (store_memOk (foldl_dev_memOk (fun _ _ h2 => touch_memOk h2 ..) h1 _) ..) ..) ..) ..) ..

theorem checkedSlice_memOk {s : State} {f : ℕ → State} (h : s.dev.memOk) (hf : ∀ (x0 : ℕ), (f x0).dev.memOk) (o : AForm) :
    (s.checkedSlice o f).dev.memOk := by
  unfold State.checkedSlice
  exact ite_dev_memOk (trap_memOk h ..) (ite_dev_memOk (trap_memOk h ..) (hf _))

theorem execLsld_answers {s : State} (h : s.dev.memOk) (o : AForm) : Answers (execLsld o s) := by
  unfold execLsld
  exact ifAllowed_answers h (fun _ h1 => checkedSlice_memOk h1 (fun _ => occupyA_memOk (upd_memOk (startLoad_memOk h1 ..) ..) ..) ..) ..

theorem execLsst_answers {s : State} (h : s.dev.memOk) (o : AForm) : Answers (execLsst o s) := by
  unfold execLsst
  exact ifAllowed_answers h (fun _ h1 => checkedSlice_memOk h1 (fun _ => occupyA_memOk (store_memOk h1 ..) ..) ..) ..

theorem lineOp_answers {s : State} {f : State → ℕ → State} (h : s.dev.memOk) (hf : ∀ (x0 : State) (x1 : ℕ), x0.dev.memOk → (f x0 x1).dev.memOk)
    (i : Instr) (o : AForm) : Answers (s.lineOp i o f) := by
  unfold State.lineOp
  exact ifAllowedG_answers h (fun _ h1 => by
    dsimp only
    split
    · exact failWalk_memOk h1 ..
    · exact ite_dev_memOk (hf _ _ (touch_memOk h1 ..)) (touch_memOk h1 ..)) ..

theorem execPref_answers {s : State} (h : s.dev.memOk) (o : AForm) : Answers (execPref o s) := by
  unfold execPref
  exact lineOp_answers h (fun _ _ h1 => l1Fill_memOk h1 ..) ..

theorem lineBack_memOk {s : State} (h : s.dev.memOk) (scope line : ℕ) : (s.lineBack scope line).dev.memOk := by
  unfold State.lineBack
  exact ite_dev_memOk (writeBack_memOk h ..) h

theorem execWbl_answers {s : State} (h : s.dev.memOk) (o : AForm) : Answers (execWbl o s) := by
  unfold execWbl
  exact lineOp_answers h (fun _ _ h1 => lineBack_memOk h1 ..) ..

theorem execInvl_answers {s : State} (h : s.dev.memOk) (o : AForm) : Answers (execInvl o s) := by
  unfold execInvl
  exact lineOp_answers h (fun _ _ h1 => upd_memOk (lineBack_memOk h1 ..) ..) ..

theorem pin_memOk {v : Device} (h : v.memOk) (ctx : BitVec 12) (page : ℕ × ℕ) : (v.pin ctx page).memOk := by
  unfold Device.pin
  exact ite_memOk h h

theorem unpin_memOk {v : Device} (h : v.memOk) (ctx : BitVec 12) (page : ℕ × ℕ) : (v.unpin ctx page).memOk := by
  unfold Device.unpin
  extract_lets u
  have hu : u.memOk := ⟨h.1, h.2⟩
  exact ite_memOk (retryDeferred_memOk hu ..) hu

theorem execLpin_answers {s : State} (h : s.dev.memOk) (o : AForm) : Answers (execLpin o s) := by
  unfold execLpin
  exact ifAllowedG_answers h (fun _ h1 => by
      dsimp only
      split
      · exact memTrap_memOk h1 ..
      · exact updDev_memOk (touch_memOk (commitSeg_memOk h1) ..) (fun _ h2 => pin_memOk h2 ..)) ..

theorem execLunpin_answers {s : State} (h : s.dev.memOk) (o : AForm) : Answers (execLunpin o s) := by
  unfold execLunpin
  exact ifAllowedG_answers h (fun _ h1 => updDev_memOk (commitSeg_memOk h1) (fun _ h2 => unpin_memOk h2 ..)) ..

theorem execLpinLine_answers {s : State} (h : s.dev.memOk) (o : AForm) : Answers (execLpinLine o s) := by
  unfold execLpinLine
  exact ifAllowedG_answers h (fun _ h1 => by
    dsimp only
    split
    · exact failWalk_memOk (commitSeg_memOk h1) ..
    · exact updDev_memOk (touch_memOk (commitSeg_memOk h1) ..) fun _ h2 => updDome_memOk h2 ..) ..

theorem execLunpinLine_answers {s : State} (h : s.dev.memOk) (o : AForm) : Answers (execLunpinLine o s) := by
  unfold execLunpinLine
  refine ifAllowedG_answers h (fun s hs => ?_) ..
  exact commitSeg_memOk hs

theorem startAtomic_answers {s : State} (h : s.dev.memOk) (i : Instr) (o : AForm) (op : ℕ) (d : Option Reg) (e : Word) : Answers
    (s.startAtomic i o op d e) := by
  unfold State.startAtomic
  exact ifAllowedG_answers h (fun _ h1 => checked_memOk h1 (fun _ => ite_dev_memOk (trap_memOk h1 ..)
    (upd_memOk (touch_memOk (commitSeg_memOk h1) ..) ..)) ..) ..

theorem atomicWrite_memOk {s : State} (h : s.dev.memOk) (pl : Place) (x : ℕ) (bs : List Byte) (scope : ℕ) :
    (s.atomicWrite pl x bs scope).dev.memOk := by
  dsimp only [State.atomicWrite]
  split
  · exact ite_dev_memOk (perform_memOk h ..) (updDev_memOk (upd_memOk h ..) (fun _ h1 => publishAs_memOk h1 ..))
  · exact perform_memOk h ..

theorem execAtomicPerformed_answers {s : State} (h : s.dev.memOk) : Answers (execAtomicPerformed s) := by
  unfold execAtomicPerformed
  exact ⟨_, rfl, (by
      dsimp only
      split
      · split
        · exact consume_memOk (upd_memOk (landAll_memOk (merLate_memOk h)) ..) ..
        · exact upd_memOk (ite_dev_memOk (ite_dev_memOk (hasRead_memOk (landAll_memOk (merLate_memOk h)) ..)
            (upd_memOk (landAll_memOk (merLate_memOk h)) ..)) (atomicWrite_memOk (ite_dev_memOk (hasRead_memOk (landAll_memOk (merLate_memOk h)) ..)
              (upd_memOk (landAll_memOk (merLate_memOk h)) ..)) ..)) ..
      · exact merLate_memOk h)⟩

end Sys2Proof.Machine
end

section
/-! O60: memory keeps its form through Engines.lean. -/

namespace Sys2Proof.Machine

theorem engineSlot_memOk {s : State} {f : State → State} (h : s.dev.memOk) (hf : ∀ t : State, t.dev.memOk → (f t).dev.memOk) :
    (s.engineSlot f).dev.memOk := by
  unfold State.engineSlot
  exact ite_dev_memOk (wait_memOk h) (hf _ (commitSeg_memOk h))

theorem copyTouch_memOk {s : State} (h : s.dev.memOk) (c : CopyDesc) (n : ℕ) (fault : Option (ℕ × ℤ × ℕ)) : (s.copyTouch c n fault).dev.memOk := by
  dsimp only [State.copyTouch]
  split
  · exact failWalk_memOk (foldl_dev_memOk (fun _ _ h1 => touch_memOk (touch_memOk h1 ..) ..) (saw_memOk h ..) _) ..
  · exact foldl_dev_memOk (fun _ _ h2 => touch_memOk (touch_memOk h2 ..) ..) (saw_memOk h ..) _

theorem askRemote_memOk {s : State} (h : s.dev.memOk) (kind : ℕ) (c : CopyDesc) (r : CopyRun) : (s.askRemote kind c r).dev.memOk := by
  unfold State.askRemote
  exact ite_dev_memOk h (updDev_memOk h (fun _ h1 => h1))

theorem startCopy_memOk {s : State} (h : s.dev.memOk) (kind : ℕ) (o : XForm) (scope : BitVec 3) : (s.startCopy kind o scope).dev.memOk := by
  unfold State.startCopy
  exact withDesc_memOk h (fun _ => engineSlot_memOk h (fun _ h1 => ite_dev_memOk (withHead_memOk h1
    (fun _ _ h2 => upd_memOk (upd_memOk (ite_dev_memOk (askRemote_memOk (copyTouch_memOk h2 ..) ..) h2) ..) ..) ..)
      (upd_memOk (ite_dev_memOk (askRemote_memOk (copyTouch_memOk h1 ..) ..) h1) ..))) ..

theorem execCpy_answers {s : State} (h : s.dev.memOk) (o : XForm) : Answers (execCpy o s) := by
  unfold execCpy
  exact ifAllowedG_answers h (fun _ h1 => startCopy_memOk h1 ..) ..

theorem execCpyx_answers {s : State} (h : s.dev.memOk) (o : XForm) : Answers (execCpyx o s) := by
  unfold execCpyx
  exact ifAllowedG_answers h (fun _ h1 => startCopy_memOk h1 ..) ..

theorem execFput_answers {s : State} (h : s.dev.memOk) (o : XForm) : Answers (execFput o s) := by
  unfold execFput
  exact ifAllowedG_answers h (fun _ h1 => startCopy_memOk h1 ..) ..

theorem execFget_answers {s : State} (h : s.dev.memOk) (o : XForm) : Answers (execFget o s) := by
  unfold execFget
  exact ifAllowedG_answers h (fun _ h1 => startCopy_memOk h1 ..) ..

theorem publishPiece_memOk {s : State} (h : s.dev.memOk) (scope : ℕ) (p : Piece) : (s.publishPiece scope p).dev.memOk := by
  dsimp only [State.publishPiece]
  split
  · exact updDev_memOk h (fun _ h1 => publishAs_memOk h1 ..)
  · exact perform_memOk h ..

theorem engineWrites_memOk {s : State} (h : s.dev.memOk) (scope : ℕ) (ps : List Piece) (carry : List (ℕ × BitVec 32)) :
    (s.engineWrites scope ps carry).dev.memOk := by
  unfold State.engineWrites
  exact updDev_memOk (foldl_dev_memOk (fun _ _ h1 => publishPiece_memOk h1 ..) h _) (fun _ h2 => foldl_memOk (fun _ _ h3 => carried_memOk h3 ..) h2 _)

theorem execCopyComplete_answers {s : State} (h : s.dev.memOk) : Answers (execCopyComplete s) := by
  unfold execCopyComplete
  exact ⟨_, rfl, (by
      split
      · exact ite_dev_memOk (upd_memOk (engineWrites_memOk (merLate_memOk h) ..) ..) (merLate_memOk h)
      · exact merLate_memOk h)⟩

theorem fabricLocal_memOk {s : State} (h : s.dev.memOk) (e : EngineOp) : (s.fabricLocal e).1.dev.memOk := by
  unfold State.fabricLocal
  refine List.foldlRecOn (motive := fun x : State × ℕ × ℕ => x.1.dev.memOk) _ _ h fun x hx p _ => ?_
  obtain ⟨t, st, n⟩ := x
  dsimp only
  split
  · exact hx
  · split
    · exact state_logWalk_memOk hx ..
    · split
      · exact updDev_memOk hx fun _ h1 => put_memOk (markEntry_memOk h1 ..) ..
      · split
        · exact hx
        · exact publishPiece_memOk (updDev_memOk hx fun _ h1 => markEntry_memOk h1 ..) ..

theorem getArrives_memOk {s : State} (h : s.dev.memOk) (ps : List Piece) : (s.getArrives ps).dev.memOk := by
  unfold State.getArrives
  exact updDev_memOk (engineWrites_memOk h ..) (fun _ h1 => carryLines_memOk h1 ..)

theorem sendPut_memOk {s : State} (h : s.dev.memOk) (node : BitVec 16) (ps : List Piece) : (s.sendPut node ps).dev.memOk := by
  unfold State.sendPut
  exact ite_dev_memOk h (updDev_memOk h (fun _ h1 => h1))

theorem execFabricCopyComplete_answers {s : State} (h : s.dev.memOk) : Answers (execFabricCopyComplete s) := by
  unfold execFabricCopyComplete
  exact ⟨_, rfl, (by
      dsimp only
      split
      · exact ite_dev_memOk (ite_dev_memOk (upd_memOk (updDev_memOk (merLate_memOk h) (fun _ h1 => logFails_memOk h1 ..)) ..)
          (ite_dev_memOk (upd_memOk (updDev_memOk (merLate_memOk h) (fun _ h2 => logFails_memOk h2 ..)) ..)
            (ite_dev_memOk (upd_memOk (updDev_memOk (updDev_memOk (fabricLocal_memOk (merLate_memOk h) ..)
              (fun _ h3 => foldl_memOk (fun _ _ h4 => carried_memOk h4 ..) h3 _)) (fun _ h5 => logFails_memOk h5 ..)) ..)
                (ite_dev_memOk (ite_dev_memOk (upd_memOk (updDev_memOk (sendPut_memOk (merLate_memOk h) ..) (fun _ h6 => logFails_memOk h6 ..)) ..)
                  (upd_memOk (updDev_memOk (getArrives_memOk (merLate_memOk h) ..) (fun _ h7 => logFails_memOk h7 ..)) ..))
                    (ite_dev_memOk (merLate_memOk h) (ite_dev_memOk (upd_memOk (updDev_memOk (sendPut_memOk (merLate_memOk h) ..)
                      (fun _ h8 => logFails_memOk h8 ..)) ..) (upd_memOk (updDev_memOk (getArrives_memOk (merLate_memOk h) ..)
                        (fun _ h9 => logFails_memOk h9 ..)) ..))))))) (merLate_memOk h)
      · exact merLate_memOk h)⟩

theorem stopCopy_memOk {s : State} (h : s.dev.memOk) (k : ℕ) : (s.stopCopy k).dev.memOk := by
  dsimp only [State.stopCopy]
  split
  · exact ite_dev_memOk h (ite_dev_memOk (upd_memOk (engineWrites_memOk (freeVal_memOk h) ..) ..)
      (ite_dev_memOk (upd_memOk (updDev_memOk (fabricLocal_memOk (freeVal_memOk h) ..)
        (fun _ h1 => foldl_memOk (fun _ _ h2 => carried_memOk h2 ..) h1 _)) ..) (upd_memOk
          (updDev_memOk (sendPut_memOk (freeVal_memOk h) ..) (fun _ h3 => logFails_memOk h3 ..)) ..)))
  · exact h

theorem stopCopies_memOk {s : State} (h : s.dev.memOk) : s.stopCopies.dev.memOk := by
  unfold State.stopCopies
  exact foldl_dev_memOk (fun _ _ h1 => stopCopy_memOk h1 ..) h _

theorem reissueOne_memOk {s : State} (h : s.dev.memOk) (k : ℕ) : (s.reissueOne k).dev.memOk := by
  dsimp only [State.reissueOne]
  split
  · exact ite_dev_memOk h (upd_memOk (askRemote_memOk (copyTouch_memOk h ..) ..) ..)
  · exact h

theorem reissue_memOk {s : State} (h : s.dev.memOk) : s.reissue.dev.memOk := by
  unfold State.reissue
  exact foldl_dev_memOk (fun _ _ h1 => reissueOne_memOk h1 ..) h _

theorem execWload_answers {s : State} (h : s.dev.memOk) (o : XForm) : Answers (execWload o s) := by
  unfold execWload
  exact ifAllowedG_answers h (fun _ h1 => ite_dev_memOk (wait_memOk h1) (ite_dev_memOk (waitTau_memOk h1 ..)
    (engineSlot_memOk h1 (fun _ h2 => upd_memOk (foldl_dev_memOk (fun _ _ h3 => ite_dev_memOk (touch_memOk h3 ..) h3) (by
      split
      · exact saw_memOk h2 ..
      · exact failWalk_memOk h2 ..
      · exact h2) _) ..)))) ..

theorem noteImage_memOk {v : Device} (h : v.memOk) (ctx : BitVec 12) (va : Addr) (d : ℕ) : (v.noteImage ctx va d).memOk := h

theorem execWloadComplete_answers {s : State} (h : s.dev.memOk) : Answers (execWloadComplete s) := by
  unfold execWloadComplete
  exact ⟨_, rfl, (by
      dsimp only
      split
      · exact ite_dev_memOk (ite_dev_memOk (upd_memOk (updDev_memOk (merLate_memOk h) (fun _ h1 => noteImage_memOk h1 ..)) ..)
          (upd_memOk (merLate_memOk h) ..)) (merLate_memOk h)
      · exact merLate_memOk h)⟩

theorem execScwait_answers {s : State} (h : s.dev.memOk) (o : XForm) : Answers (execScwait o s) := by
  unfold execScwait
  exact ifAllowedG_answers h (fun _ h1 => ite_dev_memOk (wait_memOk h1) (acquire_memOk (commitSeg_memOk h1) ..)) ..

theorem execScrd_answers {s : State} (h : s.dev.memOk) (o : XForm) : Answers (execScrd o s) := by
  unfold execScrd
  exact ifAllowedG_answers h (fun _ h1 => wS_memOk h1 ..) ..

end Sys2Proof.Machine
end

section
/-! O60: memory keeps its form through Hwq.lean. -/

namespace Sys2Proof.Machine

theorem updHwq_memOk {v : Device} (h : v.memOk) (p q : ℕ) (f : HwQueue → HwQueue) : (v.updHwq p q f).memOk := h

theorem giveItem_memOk {v : Device} (h : v.memOk) (p q slot : ℕ) (x : Word) : (v.giveItem p q slot x).memOk := by
  dsimp only [Device.giveItem]
  split
  · exact h
  · exact ite_memOk (writeRecord_memOk (readied_memOk (updSlot_memOk h ..) ..) ..) (updSlot_memOk h ..)

theorem joinWait_memOk {v : Device} (h : v.memOk) (p q slot : ℕ) : (v.joinWait p q slot).memOk := updSlot_memOk (updHwq_memOk h ..) ..

theorem enqueue_memOk {v t : Device} (h : v.memOk) {p q : ℕ} {x : Word} (e : v.enqueue p q x = some t) : t.memOk := by
  unfold Device.enqueue at e
  split at e
  · cases e
  · split at e
    · cases e
      exact giveItem_memOk (updHwq_memOk h ..) ..
    · split at e
      · cases e
        exact updHwq_memOk h ..
      · cases e

theorem updCombine_memOk {v : Device} (h : v.memOk) (ctx : BitVec 12) (d : ℕ) (f : Combine → Combine) : (v.updCombine ctx d f).memOk := h

theorem cmbStall_memOk {v : Device} (h : v.memOk) (c : Combine) (i : ℕ) : (v.cmbStall c i).memOk := by
  unfold Device.cmbStall
  exact ite_memOk h (log_memOk (updCombine_memOk h ..) ..)

theorem cmbDrain_memOk {v : Device} (h : v.memOk) (ctx : BitVec 12) (d n : ℕ) : (v.cmbDrain ctx d n).memOk := by
  induction n generalizing v with
  | zero => exact h
  | succ n ih =>
    simp only [Device.cmbDrain]
    split
    · exact h
    · split
      · exact h
      · split
        · exact cmbStall_memOk h ..
        · rename_i t e
          exact ih (updCombine_memOk (enqueue_memOk h e) ..)

theorem cmbRelease_memOk {v : Device} (h : v.memOk) (p q : ℕ) : (v.cmbRelease p q).memOk := by
  unfold Device.cmbRelease
  exact foldl_memOk (fun _ _ h1 => cmbDrain_memOk h1 ..) h _

theorem dequeue_memOk {v t : Device} (h : v.memOk) {p q : ℕ} {x : Word} (e : v.dequeue p q = some (x, t)) : t.memOk := by
  unfold Device.dequeue at e
  split at e
  · cases e
  · split at e
    · cases e
    · cases e
      exact cmbRelease_memOk (updHwq_memOk h ..) ..

theorem logRow_memOk {v : Device} (h : v.memOk) (ctx : BitVec 12) (d : ℕ) (va : Addr) (n : ℕ) : (v.logRow ctx d va n).memOk := by
  dsimp only [Device.logRow]
  split
  · exact logWalk_memOk h ..
  · exact h

theorem writeRow_memOk {v : Device} (h : v.memOk) (ctx : BitVec 12) (va : Addr) (row : List Byte) : (v.writeRow ctx va row).memOk :=
  writeAs_memOk (markEntry_memOk (markEntry_memOk h ..) ..) ..

theorem cmbComplete_memOk {v : Device} (h : v.memOk) (ctx : BitVec 12) (d i : ℕ) (late : Bool) : (v.cmbComplete ctx d i late).memOk := by
  dsimp only [Device.cmbComplete]
  split
  · exact h
  · split
    · exact h
    · exact cmbDrain_memOk (updCombine_memOk (ite_memOk (writeRow_memOk h ..) (ite_memOk h (logRow_memOk h ..))) ..) ..

end Sys2Proof.Machine
end

section
/-! O60: memory keeps its form through Queues.lean. -/

namespace Sys2Proof.Machine

theorem withQueue_memOk {s : State} {f : HwQueue → State} (h : s.dev.memOk) (hf : ∀ (x0 : HwQueue), (f x0).dev.memOk) (i : Instr) (o : XForm) :
    (s.withQueue i o f).dev.memOk := by
  dsimp only [State.withQueue]
  split
  · exact trapOp_memOk h ..
  · exact hf _

theorem queueResult_memOk {s : State} (h : s.dev.memOk) (d : Reg) (v : Word) (a : Option Reg) (st : Word) : (s.queueResult d v a st).dev.memOk :=
  upd_memOk h ..

theorem execEnq_answers {s : State} (h : s.dev.memOk) (o : XForm) : Answers (execEnq o s) := by
  unfold execEnq
  exact ifAllowedG_answers h (fun _ h1 => withQueue_memOk h1 (fun _ => by
    dsimp only
    split
    · exact queueResult_memOk (commitSeg_memOk h1) ..
    · rename_i t e
      exact queueResult_memOk (by exact enqueue_memOk (commitSeg_memOk h1) e) ..) ..) ..

theorem takeItem_memOk (s : State) {v : Device} (hv : v.memOk) (x : Word) (d : Reg) (a : Option Reg) : (s.takeItem x v d a).dev.memOk :=
  queueResult_memOk (acquire_memOk (syncPoint_memOk (by exact hv)) ..) ..

theorem headItem_memOk {s : State} (h : s.dev.memOk) {q : HwQueue} {x : Word} {t : Device} (e : s.headItem q = some (x, t)) : t.memOk := by
  unfold State.headItem at e
  split at e
  · cases e
    exact updSlot_memOk h ..
  · exact dequeue_memOk h e

theorem joinQueue_memOk {s : State} (h : s.dev.memOk) (x : HwQueue) : (s.joinQueue x).dev.memOk := by
  dsimp only [State.joinQueue]
  split
  · exact h
  · split
    · exact ite_dev_memOk h (updDev_memOk h (fun _ h1 => joinWait_memOk h1 ..))
    · exact h

theorem suspendOnQueue_memOk {s : State} (h : s.dev.memOk) (i : Instr) (x : HwQueue) (d : Reg) : (s.suspendOnQueue i x d).dev.memOk := by
  unfold State.suspendOnQueue
  exact suspendPoint_memOk (ite_dev_memOk (joinQueue_memOk h ..) h) (fun _ h1 => suspendTask_memOk (joinQueue_memOk h1 ..) ..) ..

theorem deq_memOk {s : State} (h : s.dev.memOk) (i : Instr) (o : XForm) : (s.deq i o).dev.memOk := by
  unfold State.deq
  refine withQueue_memOk h (fun _ => ?_) ..
  dsimp only
  split
  · rename_i x t e
    split at e
    · cases e
    · exact takeItem_memOk _ (headItem_memOk (commitSeg_memOk h) e) ..
  · exact suspendOnQueue_memOk (commitSeg_memOk h) ..

theorem execDeq_answers {s : State} (h : s.dev.memOk) (o : XForm) : Answers (execDeq o s) := by
  unfold execDeq
  exact ifAllowedG_answers h (fun _ h1 => deq_memOk h1 ..) ..

theorem execDeqt_answers {s : State} (h : s.dev.memOk) (o : XForm) : Answers (execDeqt o s) := by
  unfold execDeqt
  refine ifAllowedG_answers h (fun s hs => ite_dev_memOk (withQueue_memOk hs (fun _ => deq_memOk (upd_memOk hs ..) ..) ..)
    (withQueue_memOk hs (fun q => ?_) ..)) ..
  have hgive : ((s.leaveWait.syncPoint.upd fun c => { c with deqtAt := none }).queueResult o.d 0 (some o.a) 0).dev.memOk :=
    queueResult_memOk (upd_memOk (syncPoint_memOk (state_leaveWait_memOk hs)) ..) ..
  dsimp only
  split
  · rename_i x t e
    exact takeItem_memOk _ (headItem_memOk hs e) ..
  · split
    · exact ite_dev_memOk hgive (wait_memOk (upd_memOk (joinQueue_memOk hs ..) ..))
    · exact hgive
    · exact wait_memOk hs

theorem execDeqtTimeout_answers {s : State} (h : s.dev.memOk) : Answers (execDeqtTimeout s) := by
  unfold execDeqtTimeout
  exact ⟨_, rfl, (by
      split
      · exact ite_dev_memOk (upd_memOk h ..) h
      · exact h)⟩

theorem execQstat_answers {s : State} (h : s.dev.memOk) (o : XForm) : Answers (execQstat o s) := by
  unfold execQstat
  exact ifAllowedG_answers h (fun _ h1 => withQueue_memOk h1 (fun _ => wS_memOk h1 ..) ..) ..

theorem execQueueResultReturn_answers {s : State} (h : s.dev.memOk) : Answers (execQueueResultReturn s) :=
  ⟨_, rfl, (by
      dsimp only
      split
      · exact upd_memOk (merLate_memOk h) ..
      · exact merLate_memOk h)⟩

end Sys2Proof.Machine
end

section
/-! O60: memory keeps its form through Sync.lean. -/

namespace Sys2Proof.Machine

theorem phaseRelease_memOk {s : State} {f : State → State} (h : s.dev.memOk) (hf : ∀ t : State, t.dev.memOk → (f t).dev.memOk) (scope : BitVec 3) :
    (s.phaseRelease scope f).dev.memOk := by
  unfold State.phaseRelease
  exact ite_dev_memOk (wait_memOk h) (hf _ (release_memOk (syncPoint_memOk h) ..))

theorem execPhase_answers {s : State} (h : s.dev.memOk) (o : XForm) : Answers (execPhase o s) := by
  unfold execPhase
  exact ifAllowedG_answers h (fun _ h1 => phaseRelease_memOk h1 (fun _ h2 => acquire_memOk h2 ..) ..) ..

theorem execTrig_answers {s : State} (h : s.dev.memOk) (o : XForm) : Answers (execTrig o s) := by
  unfold execTrig
  exact ifAllowedG_answers h (fun _ h1 => by
      split
      · exact phaseRelease_memOk h1 (fun _ h2 => h2) ..
      · exact ite_dev_memOk (wait_memOk h1) (phaseRelease_memOk h1 (fun _ h3 => ite_dev_memOk
          (updDev_memOk (upd_memOk h3 ..) (fun _ h4 => endObligation_memOk h4 ..)) h3) ..)) ..

theorem withBarrier_memOk {s : State} {f : TaskInfo → Gang → ℕ → State} (h : s.dev.memOk)
    (hf : ∀ (x0 : TaskInfo) (x1 : Gang) (x2 : ℕ), (f x0 x1 x2).dev.memOk) (i : Instr) (o : XForm) : (s.withBarrier i o f).dev.memOk := by
  dsimp only [State.withBarrier]
  split
  · exact trapOp_memOk h ..
  · split
    · exact trapOp_memOk h ..
    · exact ite_dev_memOk (trapOp_memOk h ..) (hf _ _ _)

theorem barrierWait_memOk {s : State} (h : s.dev.memOk) : s.barrierWait.dev.memOk := wait_memOk (upd_memOk h ..)

theorem execBarr_answers {s : State} (h : s.dev.memOk) (o : XForm) : Answers (execBarr o s) := by
  unfold execBarr
  refine ifAllowedG_answers h (fun s hs => withBarrier_memOk hs (fun t g n => ite_dev_memOk (barrierWait_memOk hs) ?_) ..) ..
  refine phaseRelease_memOk hs (fun u hu => ?_) ..
  exact hu

theorem execBarw_answers {s : State} (h : s.dev.memOk) (o : XForm) : Answers (execBarw o s) := by
  unfold execBarw
  exact ifAllowedG_answers h (fun _ h1 => withBarrier_memOk h1 (fun _ _ _ => ite_dev_memOk (barrierWait_memOk h1)
    (acquire_memOk (syncPoint_memOk h1) ..)) ..) ..

theorem execBarq_answers {s : State} (h : s.dev.memOk) (o : XForm) : Answers (execBarq o s) := by
  unfold execBarq
  exact ifAllowedG_answers h (fun _ h1 => withBarrier_memOk h1 (fun _ _ _ => ite_dev_memOk (wS_memOk (syncPoint_memOk h1) ..)
    (wS_memOk (acquire_memOk (syncPoint_memOk h1) ..) ..)) ..) ..

end Sys2Proof.Machine
end

section
/-! O60: memory keeps its form through Collective.lean. -/

namespace Sys2Proof.Machine

theorem updGroup_memOk {v : Device} (h : v.memOk) (g : ℕ) (f : CollGroup → CollGroup) : (v.updGroup g f).memOk := h

theorem touchAll_memOk {s : State} (h : s.dev.memOk) (x n : ℕ) (k : Kind) : (s.touchAll x n k).dev.memOk := by
  unfold State.touchAll
  exact ite_dev_memOk h (foldl_dev_memOk (fun _ _ h1 => touch_memOk h1 ..) h _)

theorem execColl_answers {s : State} (h : s.dev.memOk) (o : XForm) : Answers (execColl o s) := by
  unfold execColl
  exact ifAllowedG_answers h (fun _ h1 => withDesc_memOk h1 (fun _ => engineSlot_memOk h1 (fun _ h2 => by
      dsimp only
      split
      · split
        · exact upd_memOk h2 ..
        · split
          · exact upd_memOk h2 ..
          · split
            · exact upd_memOk (updDev_memOk (failWalk_memOk h2 ..) (fun _ h3 => updGroup_memOk h3 ..)) ..
            · exact upd_memOk (updDev_memOk (touchAll_memOk (saw_memOk h2 ..) ..) (fun _ h4 => updGroup_memOk h4 ..)) ..
      · exact upd_memOk h2 ..)) ..) ..

theorem collDone_memOk {s : State} (h : s.dev.memOk) (g status bytes : ℕ) (fl : Flags) : (s.collDone g status bytes fl).dev.memOk := by
  dsimp only [State.collDone]
  split
  · exact h
  · exact upd_memOk (updDev_memOk h (fun _ h1 => logFails_memOk h1 ..)) ..

theorem collFinish_memOk {s : State} (h : s.dev.memOk) (g : CollGroup) (ps : List CollPart) : (s.collFinish g ps).dev.memOk := by
  dsimp only [State.collFinish]
  split
  · exact updDev_memOk h (fun _ h1 => updGroup_memOk h1 ..)
  · split
    · exact updDev_memOk (foldl_dev_memOk (fun _ _ h2 => onUnit_memOk h2 (fun _ h3 => collDone_memOk h3 ..) ..)
        (foldl_dev_memOk (fun _ _ h4 => onUnit_memOk h4 (fun _ h5 => acquireBytes_memOk h5 ..) ..)
          (foldl_dev_memOk (fun _ _ h6 => onUnit_memOk h6 (fun _ h7 => releaseBytes_memOk (commitSeg_memOk h7) ..) ..) h _) _) _)
            (fun _ h8 => updGroup_memOk h8 ..)
    · split
      · exact updDev_memOk (foldl_dev_memOk (fun _ _ h9 => onUnit_memOk h9 (fun _ h10 => collDone_memOk h10 ..) ..)
          (foldl_dev_memOk (fun _ _ h11 => onUnit_memOk h11 (fun _ h12 => acquireBytes_memOk h12 ..) ..)
            (foldl_dev_memOk (fun _ _ h13 => onUnit_memOk h13 (fun _ h14 => releaseBytes_memOk (commitSeg_memOk h14) ..) ..) h _) _) _)
              (fun _ h15 => updGroup_memOk h15 ..)
      · split
        · exact updDev_memOk (foldl_dev_memOk (fun _ _ h16 => onUnit_memOk h16 (fun _ h17 => collDone_memOk h17 ..) ..)
            (foldl_dev_memOk (fun _ _ h18 => onUnit_memOk h18 (fun _ h19 => acquireBytes_memOk h19 ..) ..)
              (foldl_dev_memOk (fun _ _ h20 => onUnit_memOk h20 (fun _ h21 => releaseBytes_memOk (commitSeg_memOk h21) ..) ..)
                (onUnit_memOk h (fun _ h22 => failWalk_memOk h22 ..) ..) _) _) _) (fun _ h23 => updGroup_memOk h23 ..)
        · exact updDev_memOk (foldl_dev_memOk (fun _ _ h24 => onUnit_memOk h24 (fun _ h25 => collDone_memOk h25 ..) ..)
            (foldl_dev_memOk (fun _ _ h26 => onUnit_memOk h26 (fun _ h27 => acquireBytes_memOk h27 ..) ..) (foldl_dev_memOk (fun _ _ h28 => by
              split
              · exact h28
              · exact onUnit_memOk h28 (fun _ h29 => engineWrites_memOk (touchAll_memOk h29 ..) ..) ..)
                  (foldl_dev_memOk (fun _ _ h30 => onUnit_memOk h30 (fun _ h31 => releaseBytes_memOk (commitSeg_memOk h31) ..) ..) h _) _) _) _)
                    (fun _ h32 => updGroup_memOk h32 ..)

theorem execCollComplete_answers {s : State} (h : s.dev.memOk) : Answers (execCollComplete s) :=
  ⟨_, rfl, (by
      split
      · split
        · exact upd_memOk (merLate_memOk h) ..
        · split
          · exact merLate_memOk h
          · split
            · exact merLate_memOk h
            · exact collFinish_memOk (merLate_memOk h) ..
      · split
        · exact merLate_memOk h
        · split
          · exact merLate_memOk h
          · exact collFinish_memOk (merLate_memOk h) ..)⟩

end Sys2Proof.Machine
end

section
/-! O60: memory keeps its form through Combine.lean. -/

namespace Sys2Proof.Machine

theorem cmbOpen_memOk {s : State} (h : s.dev.memOk) (i : Instr) (o : XForm) (try_ : Bool) : (s.cmbOpen i o try_).dev.memOk := by
  dsimp only [State.cmbOpen]
  split
  · exact trapOp_memOk h ..
  · split
    · exact trapOp_memOk h ..
    · exact withDesc_memOk h (fun _ => ite_dev_memOk (trapOp_memOk h ..) (by
          split
          · exact ite_dev_memOk (queueResult_memOk (commitSeg_memOk h) ..) (wait_memOk h)
          · exact queueResult_memOk (updDev_memOk (commitSeg_memOk h) (fun _ h1 => updCombine_memOk h1 ..)) ..)) ..

theorem execCmbopen_answers {s : State} (h : s.dev.memOk) (o : XForm) : Answers (execCmbopen o s) := by
  unfold execCmbopen
  exact ifAllowedG_answers h (fun _ h1 => cmbOpen_memOk h1 ..) ..

theorem execCmbopenTry_answers {s : State} (h : s.dev.memOk) (o : XForm) : Answers (execCmbopenTry o s) := by
  unfold execCmbopenTry
  exact ifAllowedG_answers h (fun _ h1 => cmbOpen_memOk h1 ..) ..

theorem execCmbput_answers {s : State} (h : s.dev.memOk) (o : XForm) : Answers (execCmbput o s) := by
  unfold execCmbput
  exact ifAllowedG_answers h (fun _ h1 => ite_dev_memOk (trapOp_memOk h1 ..) (engineSlot_memOk h1 (fun _ h2 => by
      dsimp only
      split
      · exact upd_memOk (failWalk_memOk h2 ..) ..
      · exact upd_memOk (touchAll_memOk (saw_memOk h2 ..) ..) ..))) ..

theorem cmbReceive_memOk {v : Device} (h : v.memOk) (ctx : BitVec 12) (w : Word) (own pos : ℕ) (row : List Byte) :
    (v.cmbReceive ctx w own pos row).2.memOk := by
  dsimp only [Device.cmbReceive]
  split
  · exact h
  · split
    · exact updCombine_memOk h ..
    · exact ite_memOk (cmbComplete_memOk (updCombine_memOk h ..) ..) (updCombine_memOk h ..)

theorem execCmbputArrival_answers {s : State} (h : s.dev.memOk) : Answers (execCmbputArrival s) := by
  have hs := merLate_memOk h
  have hdone : ∀ (t : State) (st : ℕ) (as : List ℕ) (f : Core → Core), t.dev.memOk →
      ((if st = 8 then t.updDev fun v => v.logFails 2 0 t.partition as else t).upd f).dev.memOk :=
    fun t st as f ht => upd_memOk (ite_dev_memOk (updDev_memOk ht fun _ h1 => logFails_memOk h1 ..) ht) ..
  refine ⟨_, rfl, ?_⟩
  split
  · refine ite_dev_memOk (ite_dev_memOk (hdone _ _ _ _ hs) (ite_dev_memOk (hdone _ _ _ _ (cmbReceive_memOk hs ..)) (ite_dev_memOk (hdone _ _ _ _ hs)
      (ite_dev_memOk (hdone _ _ _ _ hs) (ite_dev_memOk (hdone _ _ _ _ hs) (ite_dev_memOk (hdone _ _ _ _ (ite_dev_memOk hs hs)) hs)))))) hs
  · exact hs

theorem execCmbDeadline_answers {s : State} (h : s.dev.memOk) : Answers (execCmbDeadline s) := by
  unfold execCmbDeadline
  exact ⟨_, rfl, (by
      split
      · exact h
      · split
        · exact h
        · exact ite_dev_memOk h (ite_dev_memOk (updDev_memOk h (fun _ h1 => log_memOk (updCombine_memOk h1 ..) ..))
            (updDev_memOk h (fun _ h2 => cmbComplete_memOk h2 ..))))⟩

theorem execCmbReleaseEnqueue_answers {s : State} (h : s.dev.memOk) : Answers (execCmbReleaseEnqueue s) := by
  unfold execCmbReleaseEnqueue
  exact ⟨_, rfl, updDev_memOk h (fun _ h1 => by
      split
      · exact h1
      · exact cmbDrain_memOk h1 ..)⟩

theorem cmbTell_memOk {s t : State} (h : s.dev.memOk) {w : Word} (e : s.cmbTell w = some t) : t.dev.memOk := by
  unfold State.cmbTell at e
  split at e
  · split at e
    · cases e
      exact updDev_memOk h fun _ h1 => updCombine_memOk h1 ..
    · cases e
  · cases e

theorem execCmbpoll_answers {s : State} (h : s.dev.memOk) (o : XForm) : Answers (execCmbpoll o s) := by
  unfold execCmbpoll
  exact ifAllowedG_answers h (fun _ h1 => ite_dev_memOk (wS_memOk (commitSeg_memOk h1) ..)
    (ite_dev_memOk (wS_memOk (freeVal_memOk (commitSeg_memOk h1)) ..) (by
      dsimp only
      split
      · rename_i t e1
        exact trap_memOk (cmbTell_memOk h1 e1) ..
      · split
        · exact wS_memOk (commitSeg_memOk h1) ..
        · exact wS_memOk (freeVal_memOk (commitSeg_memOk h1)) ..))) ..

theorem execCmbclose_answers {s : State} (h : s.dev.memOk) (o : XForm) : Answers (execCmbclose o s) := by
  unfold execCmbclose
  exact ifAllowedG_answers h (fun _ h1 => ite_dev_memOk (wS_memOk (commitSeg_memOk h1) ..)
    (ite_dev_memOk (wS_memOk (freeVal_memOk (commitSeg_memOk h1)) ..) (by
      dsimp only
      split
      · rename_i t e1
        exact trap_memOk (cmbTell_memOk h1 e1) ..
      · split
        · exact ite_dev_memOk (wS_memOk (commitSeg_memOk h1) ..) (ite_dev_memOk (trap_memOk h1 ..)
            (wS_memOk (updDev_memOk (commitSeg_memOk h1) (fun _ h2 => cmbComplete_memOk h2 ..)) ..))
        · exact wS_memOk (commitSeg_memOk h1) ..))) ..

theorem execPhint_answers {s : State} (h : s.dev.memOk) (o : XForm) : Answers (execPhint o s) := by
  unfold execPhint
  exact ifAllowedG_answers h (fun _ h1 => ite_dev_memOk (trapOp_memOk h1 ..) (upd_memOk h1 ..)) ..

theorem execPhclr_answers {s : State} (h : s.dev.memOk) (o : XForm) : Answers (execPhclr o s) := by
  unfold execPhclr
  exact ifAllowedG_answers h (fun _ h1 => upd_memOk h1 ..) ..

end Sys2Proof.Machine
end

section
/-! O60: memory keeps its form through Checkpoint.lean. -/

namespace Sys2Proof.Machine

theorem atEvent_memOk {s : State} {f : State → Host.Outcome State Fault Refusal} (h : s.dev.memOk)
    (hf : ∀ t : State, t.dev.memOk → Answers (f t)) (k : ℕ) : (s.atEvent k f).dev.memOk := by
  dsimp only [State.atEvent]
  split
  · rename_i t e
    refine Answers.memOk (t := t) ?_
    rw [← e]
    exact hf _ h
  · exact h

theorem completeOp_memOk {s : State} (h : s.dev.memOk) (k : ℕ) : (s.completeOp k).dev.memOk := by
  dsimp only [State.completeOp]
  split
  · exact atEvent_memOk h (fun _ h1 => execLoadReturn_answers h1) ..
  · exact atEvent_memOk h (fun _ h2 => execDivisionComplete_answers h2) ..
  · exact atEvent_memOk h (fun _ h3 => execAtomicPerformed_answers h3) ..
  · exact atEvent_memOk h (fun _ h4 => execQueueResultReturn_answers h4) ..
  · exact ite_dev_memOk (atEvent_memOk h (fun _ h5 => execCopyComplete_answers h5) ..)
      (ite_dev_memOk (atEvent_memOk h (fun _ h6 => execFabricCopyComplete_answers h6) ..)
        (ite_dev_memOk (atEvent_memOk h (fun _ h7 => execCollComplete_answers h7) ..)
          (ite_dev_memOk (atEvent_memOk h (fun _ h8 => execCmbputArrival_answers h8) ..)
            (atEvent_memOk h (fun _ h9 => execWloadComplete_answers h9) ..))))
  · exact h

theorem settleOps_memOk {s : State} (h : s.dev.memOk) (n : ℕ) : (s.settleOps n).dev.memOk := by
  induction n generalizing s with
  | zero => exact h
  | succ n ih =>
    simp only [State.settleOps]
    split
    · exact h
    · exact ih (completeOp_memOk h ..)

theorem writeCtx_memOk {v : Device} (h : v.memOk) (ctx : BitVec 12) (base : Addr) (c : Core) (es : List EngineOp) :
    (v.writeCtx ctx base c es).memOk := writePieces_memOk h ..

theorem takeArea_memOk {v : Device} (h : v.memOk) (p slot : ℕ) : (v.takeArea p slot).memOk := by
  dsimp only [Device.takeArea]
  split
  · exact h
  · exact updPart_memOk (updSlot_memOk h ..) ..

theorem giveArea_memOk {v : Device} (h : v.memOk) (p slot : ℕ) : (v.giveArea p slot).memOk := by
  dsimp only [Device.giveArea]
  split
  · exact h
  · exact updPart_memOk (updSlot_memOk h ..) ..

theorem handArea_memOk {s : State} (h : s.dev.memOk) (p slot : ℕ) : (s.handArea p slot).dev.memOk := by
  unfold State.handArea
  exact upd_memOk (updDev_memOk h (fun _ h1 => updSlot_memOk h1 ..)) ..

theorem stopped_memOk {s t : State} (h : s.dev.memOk) (e : s.stopped = some t) : t.dev.memOk := by
  unfold State.stopped at e
  dsimp only at e
  split at e
  · cases e
  · cases e
    exact settleOps_memOk (commitSeg_memOk h) ..

theorem checkpoint_memOk {s : State} (h : s.dev.memOk) (why : ℕ) : (s.checkpoint why).dev.memOk := by
  dsimp only [State.checkpoint]
  split
  · exact h
  · split
    · exact h
    · split
      · exact upd_memOk h ..
      · rename_i t e1
        exact ite_dev_memOk (stopped_memOk (stopCopies_memOk h) e1) (vacate_memOk (handArea_memOk
          (updDev_memOk (updDev_memOk (upd_memOk (landAll_memOk (updDev_memOk (stopped_memOk (stopCopies_memOk h) e1)
            (fun _ h1 => takeArea_memOk h1 ..))) ..) (fun _ h2 => updSlot_memOk (writeCtx_memOk h2 ..) ..))
              (fun _ h3 => writeRecord_memOk (readied_memOk h3 ..) ..)) ..))

theorem reloadBanks_memOk {s t : State} (h : s.dev.memOk) (e : s.reloadBanks = some t) : t.dev.memOk := by
  unfold State.reloadBanks at e
  obtain ⟨u, hu, ht⟩ := Option.bind_eq_some_iff.mp e
  have hk : u.dev.memOk := by
    dsimp only at hu
    split at hu
    · cases hu
      exact upd_memOk h ..
    · split at hu
      · cases hu
      · cases hu
        exact upd_memOk (saw_memOk h ..) ..
  dsimp only at ht
  split at ht
  · cases ht
    exact upd_memOk hk ..
  · split at ht
    · cases ht
    · cases ht
      exact upd_memOk (saw_memOk hk ..) ..

theorem execCtxsv_answers {s : State} (h : s.dev.memOk) (o : SR) : Answers (execCtxsv o s) := by
  unfold execCtxsv
  exact ifAllowed_answers h (fun _ h1 => by
      dsimp only
      split
      · exact trapOp_memOk h1 ..
      · exact ite_dev_memOk (trapOp_memOk h1 ..) (ite_dev_memOk (wait_memOk h1) (ite_dev_memOk (wS_memOk h1 ..)
          (wS_memOk (upd_memOk (updDev_memOk (stopCopies_memOk h1) (fun _ h2 => updSlot_memOk
            (writeCtx_memOk (takeArea_memOk h2 ..) ..) ..)) ..) ..)))) ..

theorem execCtxld_answers {s : State} (h : s.dev.memOk) (o : SR) : Answers (execCtxld o s) := by
  unfold execCtxld
  exact ifAllowed_answers h (fun _ h1 => by
      dsimp only
      split
      · exact trapOp_memOk h1 ..
      · split
        · exact trapOp_memOk h1 ..
        · split
          · exact wS_memOk h1 ..
          · split
            · exact wS_memOk h1 ..
            · rename_i t e1
              exact wS_memOk (updDev_memOk (upd_memOk (reissue_memOk (reloadBanks_memOk (upd_memOk h1 ..) e1)) ..)
                (fun _ h2 => updSlot_memOk (giveArea_memOk h2 ..) ..)) ..) ..

theorem stopTask_memOk {s : State} (h : s.dev.memOk) : s.stopTask.dev.memOk := by
  dsimp only [State.stopTask]
  split
  · exact h
  · exact upd_memOk (updDev_memOk (publishAll_memOk (upd_memOk (settleOps_memOk (commitSeg_memOk (stopCopies_memOk h)) ..) ..))
      (fun _ h1 => chargeBurst_memOk h1 ..)) ..

theorem fence_memOk {s : State} (h : s.dev.memOk) (p grade cause : ℕ) : (s.fence p grade cause).dev.memOk := by
  have hstop := foldl_dev_memOk (fun (t : State) (u : Agent) ht => onUnit_memOk ht (fun _ h1 => stopTask_memOk h1) u) h (s.unitsOf p)
  unfold State.fence
  refine ite_dev_memOk h ?_
  extract_lets t v1 v2 v3 v4 areas v5 v6 v7 v8 left v9
  have h2 : v3.memOk := setPartState_memOk (log_memOk (updPart_memOk hstop ..) ..) ..
  have h3 : v4.memOk := foldl_memOk (fun u x hu => by
    split
    · exact ite_memOk (chargeBurst_memOk hu ..) hu
    · exact hu) h2 _
  have h4 : v8.memOk := ⟨h3.1, h3.2⟩
  have hleft : left.memOk := leaveColl_memOk h4 ..
  have h5 : v9.memOk := ⟨hleft.1, hleft.2⟩
  exact endFenced_memOk h5 p

theorem fenceDomes_memOk {s : State} (h : s.dev.memOk) : s.fenceDomes.dev.memOk := by
  unfold State.fenceDomes
  exact foldl_dev_memOk (fun _ _ h1 => ite_dev_memOk (foldl_dev_memOk (fun _ _ h2 => fence_memOk h2 ..)
    (updDev_memOk h1 (fun _ h3 => updDome_memOk h3 ..)) _) h1) h _

end Sys2Proof.Machine
end

section
/-! O60: memory keeps its form through Privileged.lean. -/

namespace Sys2Proof.Machine

theorem execMret_answers {s : State} (h : s.dev.memOk) (o : SR) : Answers (execMret o s) := by
  unfold execMret
  exact ifAllowed_answers h (fun _ h1 => ite_dev_memOk (trapOp_memOk h1 ..) (upd_memOk (slotState_memOk h1 ..) ..)) ..

theorem execMretRequeue_answers {s : State} (h : s.dev.memOk) (o : SR) : Answers (execMretRequeue o s) := by
  unfold execMretRequeue
  exact ifAllowed_answers h (fun _ h1 => by
      dsimp only
      split
      · exact trapOp_memOk h1 ..
      · exact ite_dev_memOk (trapOp_memOk h1 ..) (ite_dev_memOk (wait_memOk h1) (vacate_memOk
          (handArea_memOk (updDev_memOk (landAll_memOk (commitSeg_memOk h1)) (fun _ h2 => writeRecord_memOk
            (readied_memOk (updSlot_memOk h2 ..) ..) ..)) ..)))) ..

theorem execMretEnd_answers {s : State} (h : s.dev.memOk) (o : SR) : Answers (execMretEnd o s) := by
  unfold execMretEnd
  exact ifAllowed_answers h (fun _ h1 => by
      dsimp only
      split
      · exact ite_dev_memOk (wait_memOk h1) (endTask_memOk (updDev_memOk (release_memOk (upd_memOk (commitSeg_memOk h1) ..) ..)
          (fun _ h2 => failLaunch_memOk (writeRecord_memOk (updSlot_memOk h2 ..) ..) ..)))
      · exact ite_dev_memOk (wait_memOk h1) (vacate_memOk (release_memOk (upd_memOk (commitSeg_memOk h1) ..) ..))) ..

theorem xlinvOver_memOk {s : State} (h : s.dev.memOk) (x : XlScope) : (s.xlinvOver x).dev.memOk := by
  unfold State.xlinvOver
  exact ite_dev_memOk (wait_memOk h) (xlinv_memOk h ..)

theorem execXlinvPage_answers {s : State} (h : s.dev.memOk) (o : SR) : Answers (execXlinvPage o s) := by
  unfold execXlinvPage
  exact ifAllowed_answers h (fun _ h1 => xlinvOver_memOk h1 ..) ..

theorem execXlinvCtx_answers {s : State} (h : s.dev.memOk) (o : SR) : Answers (execXlinvCtx o s) := by
  unfold execXlinvCtx
  exact ifAllowed_answers h (fun _ h1 => xlinvOver_memOk h1 ..) ..

theorem execXlinvPart_answers {s : State} (h : s.dev.memOk) (o : SR) : Answers (execXlinvPart o s) := by
  unfold execXlinvPart
  exact ifAllowed_answers h (fun _ h1 => xlinvOver_memOk h1 ..) ..

theorem execCorestop_answers {s : State} (h : s.dev.memOk) (o : SR) : Answers (execCorestop o s) := by
  unfold execCorestop
  exact ifAllowed_answers h (fun _ h1 => ite_dev_memOk (trapOp_memOk h1 ..) (coreStop_memOk (logEvent_memOk (commitSeg_memOk h1) ..))) ..

theorem execJrnl_answers {s : State} (h : s.dev.memOk) (o : SR) : Answers (execJrnl o s) := by
  unfold execJrnl
  exact ifAllowed_answers h (fun _ h1 => wS_memOk (updDev_memOk h1 (fun _ h2 => updDome_memOk (writeVa_memOk h2 ..) ..)) ..) ..

theorem execKickscan_answers {s : State} (h : s.dev.memOk) (o : SR) : Answers (execKickscan o s) := by
  unfold execKickscan
  exact ifAllowed_answers h (fun _ h1 => by
    dsimp only
    split
    · exact wS_memOk h1 ..
    · exact wS_memOk (updDev_memOk h1 fun _ h2 => updPart_memOk h2 ..) ..) ..

theorem execCmplholdHold_answers {s : State} (h : s.dev.memOk) (o : SR) : Answers (execCmplholdHold o s) := by
  unfold execCmplholdHold
  exact ifAllowed_answers h (fun _ h1 => updDev_memOk h1 (fun _ h2 => updDome_memOk h2 ..)) ..

theorem releaseHold_memOk {v : Device} (h : v.memOk) (d : ℕ) : (v.releaseHold d).memOk := by
  unfold Device.releaseHold
  exact foldl_memOk (fun _ _ h1 => fire_memOk h1 ..) (updDome_memOk h ..) _

theorem execCmplholdRelease_answers {s : State} (h : s.dev.memOk) (o : SR) : Answers (execCmplholdRelease o s) := by
  unfold execCmplholdRelease
  exact ifAllowed_answers h (fun _ h1 => ite_dev_memOk (updDev_memOk h1 (fun _ h2 => releaseHold_memOk h2 ..)) h1) ..

end Sys2Proof.Machine
end

section
/-! O60: memory keeps its form through Dispatcher.lean. -/

namespace Sys2Proof.Machine

theorem footOut_memOk {v : Device} (h : v.memOk) (t : TaskSlot) : (v.footOut t).memOk := by
  dsimp only [Device.footOut]
  split
  · exact h
  · split
    · exact h
    · split
      · exact forward_memOk (writeRecord_memOk (updSlot_memOk (writeVa_memOk h ..) ..) ..) ..
      · exact writeRecord_memOk (updSlot_memOk (writeVa_memOk h ..) ..) ..

theorem clearCore_memOk {s : State} (h : s.dev.memOk) (p part slot : ℕ) : (s.clearCore p part slot).dev.memOk := by
  unfold State.clearCore
  exact updDev_memOk h (fun _ h1 => foldl_memOk (fun _ _ h2 => footOut_memOk h2 ..) h1 _)

theorem putTask_memOk {s : State} (h : s.dev.memOk) (p : ℕ) (t : TaskInfo) (c : Core) : (s.putTask p t c).dev.memOk :=
  setCore_memOk (clearCore_memOk h ..) ..

theorem noteStart_memOk {v : Device} (h : v.memOk) (p k gang : ℕ) : (v.noteStart p k gang).memOk := by
  unfold Device.noteStart
  exact ite_memOk h (updCluster_memOk h ..)

theorem merEnd_memOk {v : Device} (h : v.memOk) (x : MerWait) : (v.merEnd x).memOk := by
  unfold Device.merEnd
  exact ite_memOk (log_memOk h ..) h

theorem merNote_memOk {s : State} (h : s.dev.memOk) : s.merNote.dev.memOk := by
  unfold State.merNote
  exact ite_dev_memOk h ((foldl_memOk (fun _ _ h1 => merEnd_memOk h1 ..) h _).same rfl rfl)

theorem tidy_memOk {s : State} (h : s.dev.memOk) : s.tidy.dev.memOk := merNote_memOk (fenceDomes_memOk h)

theorem started_memOk {v : Device} (h : v.memOk) (p lid : ℕ) (slot : Option ℕ) : (v.started p lid slot).memOk := h

theorem addSlot_memOk {v : Device} (h : v.memOk) (x : TaskSlot) : (v.addSlot x).memOk := h

theorem startGang_memOk {s : State} (h : s.dev.memOk) (p : ℕ) (e : SchedEntry) (k : ℕ) (cores : List ℕ) (dome : Option (ℕ × ℕ)) :
    (s.startGang p e k cores dome).dev.memOk := by
  unfold State.startGang
  split
  · exact h
  · refine foldl_dev_memOk (fun t x ht => ?_) (updDev_memOk h fun v hv => noteStart_memOk (updEntry_memOk ?_ ..) ..) _
    · exact onUnit_memOk (putTask_memOk (updDev_memOk ht fun _ h1 => writeRecord_memOk (readied_memOk (addSlot_memOk h1 ..) ..) ..) ..)
        (fun _ h2 => acquire_memOk h2 ..) ..
    · exact (started_memOk hv p e.lid none).same rfl rfl

theorem execGangStart_answers {s : State} (h : s.dev.memOk) : Answers (execGangStart s) :=
  ⟨_, rfl, (by
      split
      · exact startGang_memOk h ..
      · exact h)⟩

theorem execColdStartRelease_answers {s : State} (h : s.dev.memOk) : Answers (execColdStartRelease s) := by
  unfold execColdStartRelease
  exact ⟨_, rfl, updDev_memOk h (fun _ h1 => updCluster_memOk h1 ..)⟩

theorem moveGang_memOk {s : State} (h : s.dev.memOk) (t : TaskSlot) (k : ℕ) : (s.moveGang t k).dev.memOk := by
  dsimp only [State.moveGang]
  split
  · exact h
  · split
    · exact h
    · exact ite_dev_memOk h (updDev_memOk h (fun _ h1 => (foldl_memOk (fun _ _ h2 => footOut_memOk h2 ..) h1 _).same rfl rfl))

theorem resumeLost_memOk {s : State} (h : s.dev.memOk) (t : TaskSlot) : (s.resumeLost t).dev.memOk := takeTrap_memOk (upd_memOk h ..) ..

theorem resumeTask_memOk {s : State} (h : s.dev.memOk) (t : TaskSlot) (p : ℕ) : (s.resumeTask t p).dev.memOk := by
  unfold State.resumeTask
  split
  · exact h
  · rename_i kept _
    have hput : ((s.moveGang t (p / 128)).putTask p t.info ((s.moveGang t (p / 128)).dev.returning t kept)).dev.memOk :=
      putTask_memOk (moveGang_memOk h ..) ..
    dsimp only
    refine onUnit_memOk (updDev_memOk ?_ fun v hv => ?_) (fun u hu => ?_) ..
    · split
      · exact hput
      · exact updDev_memOk (setCore_memOk hput ..) fun _ h1 => updPart_memOk h1 ..
    · refine updSlot_memOk (started_memOk ?_ ..) ..
      split
      · exact ite_memOk (forward_memOk hv ..) hv
      · exact hv
    · have hacq : ((match t.lastCore with | some l => u.acquireAt (.core l) 5 | none => u).acquire 5).dev.memOk := by
        refine acquire_memOk ?_ ..
        split
        · exact acquireAt_memOk hu ..
        · exact hu
      refine ite_dev_memOk (resumeLost_memOk hacq ..) ?_
      split
      · exact resumeLost_memOk hacq ..
      · rename_i w e
        have hw : w.dev.memOk := by
          split at e
          · exact reloadBanks_memOk hacq e
          · cases e
            exact hacq
        exact updDev_memOk (reissue_memOk hw) fun _ h1 => writeRecord_memOk h1 ..

theorem execTaskResume_answers {s : State} (h : s.dev.memOk) : Answers (execTaskResume s) := by
  unfold execTaskResume
  exact ⟨_, rfl, (by
      split
      · exact ite_dev_memOk h (resumeTask_memOk h ..)
      · exact h)⟩

theorem execSpawnedTaskStart_answers {s : State} (h : s.dev.memOk) : Answers (execSpawnedTaskStart s) := by
  unfold execSpawnedTaskStart
  exact ⟨_, rfl, (by
      split
      · exact ite_dev_memOk (updDev_memOk (resumeTask_memOk h ..) (fun _ h1 => updSlot_memOk h1 ..)) h
      · exact h)⟩

theorem execFootprintMove_answers {s : State} (h : s.dev.memOk) : Answers (execFootprintMove s) := by
  unfold execFootprintMove
  exact ⟨_, rfl, (by
      split
      · exact ite_dev_memOk (updDev_memOk h (fun _ h1 => footOut_memOk h1 ..)) h
      · exact h)⟩

theorem execForwardExpire_answers {s : State} (h : s.dev.memOk) : Answers (execForwardExpire s) := by
  unfold execForwardExpire
  exact ⟨_, rfl, (by
      split
      · exact ite_dev_memOk (updDev_memOk h (fun _ h1 => h1)) h
      · exact h)⟩

theorem execSpawn_answers {s : State} (h : s.dev.memOk) (o : XForm) : Answers (execSpawn o s) := by
  unfold execSpawn
  exact ifAllowedG_answers h (fun _ h1 => by
      dsimp only
      split
      · exact trapOp_memOk h1 ..
      · split
        · exact trapOp_memOk h1 ..
        · split
          · exact wS_memOk (upd_memOk (commitSeg_memOk h1) ..) ..
          · split
            · exact wS_memOk (upd_memOk (commitSeg_memOk h1) ..) ..
            · exact wS_memOk (updDev_memOk (upd_memOk (commitSeg_memOk h1) ..) (fun _ h2 => writeRecord_memOk
                (readied_memOk (updEntry_memOk (updPart_memOk (addSlot_memOk h2 ..) ..) ..) ..) ..)) ..) ..

theorem killTask_memOk {s : State} (h : s.dev.memOk) : s.killTask.dev.memOk := by
  dsimp only [State.killTask]
  split
  · exact h
  · split
    · exact upd_memOk h ..
    · rename_i t e1
      exact ite_dev_memOk (stopped_memOk h e1) (vacate_memOk (updDev_memOk (upd_memOk (publishAll_memOk (stopped_memOk h e1)) ..)
        (fun _ h1 => writeRecord_memOk (readied_memOk (updSlot_memOk (unwait_memOk h1 ..) ..) ..) ..)))

theorem drainTask_memOk {s : State} (h : s.dev.memOk) : s.drainTask.dev.memOk := by
  dsimp only [State.drainTask]
  split
  · exact h
  · exact updDev_memOk (upd_memOk h ..) (fun _ h1 => updSlot_memOk h1 ..)

theorem preemptFocus_memOk {s : State} (h : s.dev.memOk) (pol tokens : ℕ) : (s.preemptFocus pol tokens).dev.memOk := by
  unfold State.preemptFocus
  exact ite_dev_memOk h (ite_dev_memOk (drainTask_memOk h) (ite_dev_memOk (killTask_memOk h)
    (ite_dev_memOk (checkpoint_memOk h ..) (drainTask_memOk h))))

theorem handOver_memOk {s : State} (h : s.dev.memOk) (t : TaskInfo) (p : ℕ) : (s.handOver t p).dev.memOk := by
  dsimp only [State.handOver]
  split
  · exact ite_dev_memOk (resumeTask_memOk h ..) h
  · exact h

theorem gangPreempt_memOk {s : State} (h : s.dev.memOk) (t : TaskInfo) (p : ℕ) : (s.gangPreempt t p).dev.memOk := by
  unfold State.gangPreempt
  exact ite_dev_memOk h (handOver_memOk (onUnit_memOk h (fun _ h1 => checkpoint_memOk h1 ..) ..) ..)

theorem preemptAgain_memOk {s : State} (h : s.dev.memOk) (pol why : ℕ) : (s.preemptAgain pol why).dev.memOk := by
  dsimp only [State.preemptAgain]
  split
  · exact killTask_memOk (upd_memOk h ..)
  · split
    · split
      · exact gangPreempt_memOk (upd_memOk h ..) ..
      · exact upd_memOk h ..
    · exact ite_dev_memOk (checkpoint_memOk (upd_memOk h ..) ..) (drainTask_memOk (upd_memOk h ..))

theorem preemptCore_memOk {s : State} (h : s.dev.memOk) (p pol tokens : ℕ) : (s.preemptCore p pol tokens).dev.memOk := by
  unfold State.preemptCore
  exact onUnit_memOk h (fun _ h1 => preemptFocus_memOk h1 ..) ..

theorem preemptChosen_memOk {s : State} (h : s.dev.memOk) (k : ℕ) : (s.preemptChosen k).dev.memOk := by
  unfold State.preemptChosen
  exact onUnit_memOk h (fun _ h1 => ite_dev_memOk (preemptFocus_memOk h1 ..) h1) ..

theorem execDrainWindowExpire_answers {s : State} (h : s.dev.memOk) : Answers (execDrainWindowExpire s) := by
  unfold execDrainWindowExpire
  exact ⟨_, rfl, onUnit_memOk h (fun _ h1 => by
      split
      · exact h1
      · split
        · exact h1
        · exact ite_dev_memOk (checkpoint_memOk h1 ..) h1) ..⟩

theorem execGangWaitPreempt_answers {s : State} (h : s.dev.memOk) : Answers (execGangWaitPreempt s) := by
  unfold execGangWaitPreempt
  exact ⟨_, rfl, (by
      split
      · exact h
      · exact ite_dev_memOk h (gangPreempt_memOk h ..))⟩

theorem execPreemptionWaitExpire_answers {s : State} (h : s.dev.memOk) : Answers (execPreemptionWaitExpire s) := by
  unfold execPreemptionWaitExpire
  exact ⟨_, rfl, (by
      dsimp only
      split
      · exact foldl_dev_memOk (fun _ _ h1 => preemptCore_memOk h1 ..) h _
      · exact h)⟩

theorem execAgingLimitExpire_answers {s : State} (h : s.dev.memOk) : Answers (execAgingLimitExpire s) := by
  unfold execAgingLimitExpire
  exact ⟨_, rfl, (by
      split
      · exact updDev_memOk h (fun _ h1 => h1)
      · exact h)⟩

end Sys2Proof.Machine
end

section
/-! O60: memory keeps its form through Firmware.lean. -/

namespace Sys2Proof.Machine

theorem rejectRecord_memOk {v : Device} (h : v.memOk) (p : ℕ) (r : List Byte) (c : ℕ) : (v.rejectRecord p r c).memOk := by
  unfold Device.rejectRecord
  exact drainCheck_memOk (failSuccessors_memOk (ite_memOk (freeEntry_memOk (writeCompletion_memOk h ..) ..) (writeCompletion_memOk h ..)) ..) ..

theorem acceptRecord_memOk {v : Device} (h : v.memOk) (p : ℕ) (va : Addr) (r : List Byte) : (v.acceptRecord p va r).memOk :=
  ripen_memOk (updPart_memOk (updEntry_memOk (needEntry_memOk h ..) ..) ..) ..

theorem withPart_answers {s : State} {f : State → State} (h : s.dev.memOk) (hf : ∀ t : State, t.dev.memOk → (f t).dev.memOk) (i : Instr) (p : ℕ) :
    Answers (s.withPart i p f) := by
  unfold State.withPart
  exact ifAllowed_answers h (fun _ h1 => ite_dev_memOk (hf _ h1) (trapOp_memOk h1 ..)) ..

theorem recordAt_memOk {s t : State} (h : s.dev.memOk) {va : Addr} {r : List Byte} {pl : Place} {a : ℕ} (e : s.recordAt va = .ok (t, r, pl, a)) :
    t.dev.memOk := by
  unfold State.recordAt at e
  dsimp only at e
  split at e
  · split at e
    · cases e
    · cases e
      exact touch_memOk (touch_memOk h ..) ..
  · cases e
  · cases e

theorem pcset_memOk {s : State} (h : s.dev.memOk) (p : ℕ) (va : Addr) : (s.pcset p va).1.dev.memOk := by
  unfold State.pcset
  split
  · exact failWalk_memOk h ..
  · rename_i t r pl a e
    have ht := recordAt_memOk h e
    dsimp only
    split
    · exact ht
    · split
      · exact ht
      · split
        · exact rejectRecord_memOk (atomicWrite_memOk ht ..) ..
        · exact acceptRecord_memOk (atomicWrite_memOk ht ..) ..

theorem execPcset_answers {s : State} (h : s.dev.memOk) (o : XForm) : Answers (execPcset o s) := by
  unfold execPcset
  exact withPart_answers h (fun _ h1 => wS_memOk (pcset_memOk h1 ..) ..) ..

theorem execPcdec_answers {s : State} (h : s.dev.memOk) (o : XForm) : Answers (execPcdec o s) := by
  unfold execPcdec
  exact withPart_answers h (fun _ h1 => ite_dev_memOk (wS_memOk h1 ..) (wS_memOk (by exact decrement_memOk h1 ..) ..)) ..

theorem execPcdecFail_answers {s : State} (h : s.dev.memOk) (o : XForm) : Answers (execPcdecFail o s) := by
  unfold execPcdecFail
  exact withPart_answers h (fun _ h1 => ite_dev_memOk (wS_memOk h1 ..) (wS_memOk (by exact drainCheck_memOk (failAll_memOk h1 ..) ..) ..)) ..

theorem submit_memOk {v : Device} (h : v.memOk) (p lid : ℕ) : (v.submit p lid).memOk := by
  unfold Device.submit
  split
  · exact h
  · rename_i e _
    have hv : ∀ n t, ({ v.updEntry p lid fun e => { e with state := 2, gangs := n, tasksLeft := t, owed := t, age := v.time, turn := v.turns }
        with turns := v.turns + 1 } : Device).memOk := fun _ _ => h
    exact ite_memOk (signal_memOk (updEntry_memOk (signal_memOk (updEntry_memOk (hv ..) ..) ..) ..) ..) (hv ..)

theorem execDisp_answers {s : State} (h : s.dev.memOk) (o : XForm) : Answers (execDisp o s) := by
  unfold execDisp
  exact withPart_answers h (fun _ h1 => by
      split
      · exact wS_memOk h1 ..
      · exact wS_memOk (updDev_memOk h1 (fun _ h2 => submit_memOk (updPart_memOk h2 ..) ..)) ..) ..

theorem execPreempt_answers {s : State} (h : s.dev.memOk) (o : XForm) : Answers (execPreempt o s) := by
  unfold execPreempt
  exact withPart_answers h (fun _ h1 => wS_memOk (foldl_dev_memOk (fun _ _ h2 => preemptCore_memOk h2 ..) h1 _) ..) ..

theorem execQcfgp_answers {s : State} (h : s.dev.memOk) (o : XForm) : Answers (execQcfgp o s) := by
  unfold execQcfgp
  refine withPart_answers h (fun s hs => ite_dev_memOk (wS_memOk hs ..) (ite_dev_memOk (wS_memOk hs ..)
    (wS_memOk (updDev_memOk hs fun v hv => ?_) ..))) ..
  have hq : ∀ qs, ({ v with queues := qs } : Device).memOk := fun _ => ⟨hv.1, hv.2⟩
  exact cmbRelease_memOk (hq _) ..

theorem execQcfgpOff_answers {s : State} (h : s.dev.memOk) (o : XForm) : Answers (execQcfgpOff o s) := by
  unfold execQcfgpOff
  refine withPart_answers h (fun s hs => ite_dev_memOk (wS_memOk hs ..) (wS_memOk (updDev_memOk hs fun v hv => ?_) ..)) ..
  have hq : ∀ qs, ({ v with queues := qs } : Device).memOk := fun _ => ⟨hv.1, hv.2⟩
  exact cmbRelease_memOk (hq _) ..

theorem execMigrate_answers {s : State} (h : s.dev.memOk) (o : XForm) : Answers (execMigrate o s) := by
  unfold execMigrate
  refine ifAllowed_answers h (fun s hs => ?_) ..
  dsimp only
  split
  · exact wS_memOk (state_logWalk_memOk hs ..) ..
  · exact ite_dev_memOk (wS_memOk (updDev_memOk hs fun _ h1 => deferMove_memOk h1 ..) ..)
      (wS_memOk (updDev_memOk hs fun _ h1 => updDome_memOk h1 ..) ..)

theorem execScrubcfg_answers {s : State} (h : s.dev.memOk) (o : XForm) : Answers (execScrubcfg o s) := by
  unfold execScrubcfg
  exact ifAllowed_answers h (fun _ h1 => wS_memOk (updDev_memOk h1 (fun _ h2 => updDome_memOk h2 ..)) ..) ..

theorem execObslog_answers {s : State} (h : s.dev.memOk) (o : XForm) : Answers (execObslog o s) := by
  unfold execObslog
  exact ifAllowed_answers h (fun _ h1 => ite_dev_memOk (trapOp_memOk h1 ..) (wS_memOk (logEvent_memOk h1 ..) ..)) ..

theorem execHealthw_answers {s : State} (h : s.dev.memOk) (o : XForm) : Answers (execHealthw o s) := by
  unfold execHealthw
  refine ifAllowed_answers h (fun s hs => ite_dev_memOk (wS_memOk hs ..) (wS_memOk (updDev_memOk hs fun v hv => ?_) ..)) ..
  exact ⟨hv.1, hv.2⟩

end Sys2Proof.Machine
end

section
/-! O60: memory keeps its form through Custodian.lean. -/

namespace Sys2Proof.Machine

theorem updPort_memOk {v : Device} (h : v.memOk) (k : ℕ) (f : Port → Port) : (v.updPort k f).memOk := h

theorem mbxAnswer_memOk {s : State} (h : s.dev.memOk) (k st : ℕ) (rs : List Byte) : (s.mbxAnswer k st rs).dev.memOk := h

theorem mailbox_answers {s : State} {f : State → Reply} (h : s.dev.memOk) (hf : ∀ t : State, t.dev.memOk → Replies (f t)) (i : Instr) :
    Answers (s.mailbox i f) := by
  refine ⟨_, rfl, ite_dev_memOk h (ite_dev_memOk (mbxAnswer_memOk h ..) (ite_dev_memOk h ?_))⟩
  have hs := hf s h
  split
  · rename_i t rs e
    rw [e] at hs
    exact mbxAnswer_memOk hs ..
  · exact mbxAnswer_memOk h ..

theorem ifOwner_replies {s : State} {r : Reply} (h : Replies r) (p : ℕ) : Replies (s.ifOwner p r) := by
  unfold State.ifOwner
  exact ite_replies trivial (ite_replies trivial h)

theorem updMon_memOk {s : State} (h : s.dev.memOk) (u : Agent) (f : Mon → Mon) : (s.updMon u f).dev.memOk := setCore_memOk h ..

theorem createPart_memOk {s : State} (h : s.dev.memOk) (c : PartCreate) : (s.createPart c).dev.memOk := by
  unfold State.createPart
  exact updDev_memOk (foldl_dev_memOk (fun _ _ h1 => updMon_memOk h1 ..) (ite_dev_memOk
    (updDev_memOk (foldl_dev_memOk (fun _ _ h2 => updMon_memOk h2 ..) (updDev_memOk (updDev_memOk h (fun _ h3 => updPart_memOk h3 ..))
      (fun _ h4 => updPart_memOk h4 ..)) _) (fun _ h5 => updDome_memOk h5 ..)) (foldl_dev_memOk (fun _ _ h6 => updMon_memOk h6 ..)
        (updDev_memOk (updDev_memOk h (fun _ h7 => updPart_memOk h7 ..)) (fun _ h8 => updPart_memOk h8 ..)) _)) _)
          (fun _ h9 => setPartState_memOk h9 ..)

theorem execPartCreate_answers {s : State} (h : s.dev.memOk) : Answers (execPartCreate s) := by
  unfold execPartCreate
  exact mailbox_answers h (fun _ h1 => ite_replies error_replies (ite_replies error_replies
    (ite_replies error_replies (ite_replies error_replies (ok_replies (createPart_memOk h1 ..)))))) ..

theorem execPartStateOnline_answers {s : State} (h : s.dev.memOk) : Answers (execPartStateOnline s) := by
  unfold execPartStateOnline
  exact mailbox_answers h (fun _ h1 => ifOwner_replies (ite_replies (ok_replies (updDev_memOk h1
    (fun _ h2 => setPartState_memOk h2 ..))) error_replies) ..) ..

theorem execPartStateDrain_answers {s : State} (h : s.dev.memOk) : Answers (execPartStateDrain s) := by
  unfold execPartStateDrain
  exact mailbox_answers h (fun _ h1 => ifOwner_replies (ite_replies (ok_replies (updDev_memOk h1
    (fun _ h2 => drainCheck_memOk (setPartState_memOk h2 ..) ..))) error_replies) ..) ..

theorem execPartStateFence_answers {s : State} (h : s.dev.memOk) : Answers (execPartStateFence s) := by
  unfold execPartStateFence
  exact mailbox_answers h (fun _ h1 => ifOwner_replies (ok_replies (fence_memOk h1 ..)) ..) ..

theorem resetPart_memOk {s : State} (h : s.dev.memOk) (p : ℕ) : (s.resetPart p).dev.memOk := by
  unfold State.resetPart
  extract_lets ks t1 t2
  have h1 : t1.dev.memOk := foldl_dev_memOk (fun _ _ h1 => ite_dev_memOk (setCore_memOk h1 ..) h1) h _
  have h2 : t2.dev.memOk := foldl_memOk (fun v k hv => updCluster_memOk hv k _) h1 _
  refine updDev_memOk h2 fun v hv => ?_
  have he : ∀ es, ({ v with entries := es } : Device).memOk := fun _ => ⟨hv.1, hv.2⟩
  exact setPartState_memOk (he _) ..

theorem execPartStateReset_answers {s : State} (h : s.dev.memOk) : Answers (execPartStateReset s) := by
  unfold execPartStateReset
  exact mailbox_answers h (fun _ h1 => ifOwner_replies (ite_replies error_replies (ok_replies (resetPart_memOk h1 ..))) ..) ..

theorem endPins_memOk {v : Device} (h : v.memOk) (p : BitVec 12 → Bool) : (v.endPins p).memOk := h

theorem execPartDestroy_answers {s : State} (h : s.dev.memOk) : Answers (execPartDestroy s) := by
  unfold execPartDestroy
  refine mailbox_answers h (fun t ht => ifOwner_replies (ite_replies error_replies (ok_replies (updDev_memOk
    (foldl_dev_memOk (fun _ _ h1 => updMon_memOk h1 ..) (foldl_dev_memOk (fun _ _ h1 => updMon_memOk h1 ..) ht _) _) fun v hv => ?_))) _) ..
  extract_lets u
  have hu : u.memOk := endPins_memOk (setPartState_memOk hv ..) ..
  exact ⟨hu.1, hu.2⟩

theorem execCtxSet_answers {s : State} (h : s.dev.memOk) : Answers (execCtxSet s) := by
  unfold execCtxSet
  refine mailbox_answers h (fun t ht => ite_replies error_replies (ite_replies error_replies (ok_replies (updDev_memOk ht fun v hv => ?_)))) ..
  have he : ∀ c : Prop, ∀ [Decidable c], (if c then v else v.endPins fun x => x == t.ev.ctx).memOk := fun _ _ => ite_memOk hv (endPins_memOk hv ..)
  exact (he _).same rfl rfl

theorem execPartCtx_answers {s : State} (h : s.dev.memOk) : Answers (execPartCtx s) := by
  unfold execPartCtx
  exact mailbox_answers h (fun _ h1 => ifOwner_replies (ite_replies error_replies (ite_replies error_replies
    (ok_replies (updDev_memOk h1 (fun _ h2 => updPart_memOk h2 ..))))) ..) ..

theorem execDispParam_answers {s : State} (h : s.dev.memOk) : Answers (execDispParam s) := by
  unfold execDispParam
  exact mailbox_answers h (fun _ h1 => ifOwner_replies (by
      split
      · exact ok_replies (updDev_memOk h1 (fun _ h2 => updPart_memOk h2 ..))
      · exact error_replies) ..) ..

theorem execCmbCfg_answers {s : State} (h : s.dev.memOk) : Answers (execCmbCfg s) := by
  unfold execCmbCfg
  refine mailbox_answers h (fun t ht => ?_) ..
  dsimp only
  split
  · exact error_replies
  · refine ifOwner_replies (ite_replies error_replies (ite_replies error_replies (ite_replies error_replies (ok_replies ?_)))) _
    exact ⟨ht.1, ht.2⟩

theorem execKeyLoad_answers {s : State} (h : s.dev.memOk) : Answers (execKeyLoad s) := by
  unfold execKeyLoad
  refine mailbox_answers h (fun t ht => ite_replies error_replies ?_) ..
  split
  · exact error_replies
  · refine ifOwner_replies (ok_replies (updDev_memOk ht fun v hv => ?_)) _
    exact ⟨hv.1, hv.2⟩

theorem execCollGroup_answers {s : State} (h : s.dev.memOk) : Answers (execCollGroup s) := by
  unfold execCollGroup
  refine mailbox_answers h (fun t ht => ifOwner_replies (ite_replies error_replies (ite_replies error_replies
    (ok_replies (updDev_memOk ht fun v hv => ?_)))) _) ..
  exact ⟨hv.1, hv.2⟩

theorem execNodeSet_answers {s : State} (h : s.dev.memOk) : Answers (execNodeSet s) := by
  unfold execNodeSet
  refine mailbox_answers h (fun t ht => ite_replies error_replies (ite_replies error_replies (ok_replies (updDev_memOk ht fun v hv => ?_)))) ..
  exact ⟨hv.1, hv.2⟩

theorem execMonitorLoad_answers {s : State} (h : s.dev.memOk) : Answers (execMonitorLoad s) := by
  unfold execMonitorLoad
  refine mailbox_answers h (fun t ht => ifOwner_replies (ite_replies error_replies (ite_replies error_replies
    (ok_replies (updDev_memOk (foldl_dev_memOk (fun _ _ h1 => updMon_memOk h1 ..) ht _) fun v hv => ?_)))) _) ..
  exact ⟨hv.1, hv.2⟩

theorem execMemAssign_answers {s : State} (h : s.dev.memOk) : Answers (execMemAssign s) := by
  unfold execMemAssign
  exact mailbox_answers h (fun _ h1 => ite_replies error_replies (ite_replies error_replies
    (ok_replies (updDev_memOk h1 (fun _ h2 => updPort_memOk h2 ..))))) ..

theorem execLogRead_answers {s : State} (h : s.dev.memOk) : Answers (execLogRead s) := by
  unfold execLogRead
  exact mailbox_answers h (fun _ h1 => ite_replies error_replies (ok_replies (updDev_memOk h1 (fun _ h2 => publish_memOk h2 ..)))) ..

theorem execAttest_answers {s : State} (h : s.dev.memOk) : Answers (execAttest s) := by
  unfold execAttest
  exact mailbox_answers h (fun _ h1 => ok_replies h1) ..

theorem decideHeadroom_memOk {v : Device} (h : v.memOk) : v.decideHeadroom.memOk := h

theorem execPowerLimit_answers {s : State} (h : s.dev.memOk) : Answers (execPowerLimit s) := by
  unfold execPowerLimit
  refine mailbox_answers h (fun t ht => ite_replies error_replies (ok_replies (updDev_memOk ht fun v hv => ?_))) ..
  have hl : ∀ n, ({ v with powerLimit := n } : Device).memOk := fun _ => ⟨hv.1, hv.2⟩
  exact decideHeadroom_memOk (hl _)

theorem execGradeClear_answers {s : State} (h : s.dev.memOk) : Answers (execGradeClear s) := by
  unfold execGradeClear
  exact mailbox_answers h (fun _ h1 => ifOwner_replies (ok_replies (updDev_memOk h1 (fun _ h2 => updPart_memOk h2 ..))) ..) ..

end Sys2Proof.Machine
end

section
/-! O60: memory keeps its form through Finish.lean. -/

namespace Sys2Proof.Machine

theorem segmentFor_memOk {s : State} (h : s.dev.memOk) (x : Header) (ops : List Instr) : (s.segmentFor x ops).dev.memOk := by
  unfold State.segmentFor
  exact ite_dev_memOk (upd_memOk (ite_dev_memOk h (commitSeg_memOk h)) ..) (ite_dev_memOk (commitSeg_memOk h) h)

theorem rdvWait_memOk {s : State} (h : s.dev.memOk) : s.rdvWait.dev.memOk := h

theorem execAllZeroBundle_answers {s : State} (h : s.dev.memOk) (x : Header) : Answers (execAllZeroBundle x s) := by
  unfold execAllZeroBundle
  exact ⟨_, rfl, ite_dev_memOk (waitTau_memOk h ..) (ite_dev_memOk (wait_memOk h) (ite_dev_memOk (trap_memOk (upd_memOk h ..) ..)
    (clock_memOk (upd_memOk (segmentFor_memOk (upd_memOk h ..) ..) ..))))⟩

end Sys2Proof.Machine
end

section
/-! O60: memory keeps its form through Ports.lean. -/

namespace Sys2Proof.Machine

theorem refuseHost_memOk {v : Device} (h : v.memOk) (k off : ℕ) : (v.refuseHost k off).memOk := log_memOk h ..

theorem doorbell_memOk {v : Device} (h : v.memOk) (k x : ℕ) : (v.doorbell k x).memOk := by
  unfold Device.doorbell
  exact ite_memOk h (ite_memOk (log_memOk h ..) (wakeQp_memOk (updPart_memOk h ..) ..))

theorem execDoorbell_answers {s : State} (h : s.dev.memOk) : Answers (execDoorbell s) := by
  unfold execDoorbell
  exact ⟨_, rfl, updDev_memOk h (fun _ h1 => doorbell_memOk h1 ..)⟩

theorem homeWrite_memOk {v : Device} (h : v.memOk) (pa : ℕ) (bs : List Byte) : (v.homeWrite pa bs).memOk := by
  unfold Device.homeWrite
  exact foldl_memOk (fun _ _ h1 => put_memOk h1 ..) h _

theorem answerRead_memOk {v : Device} (h : v.memOk) (k pa : ℕ) (a : Option (List Byte × Bool)) : (v.answerRead k pa a).memOk := updPort_memOk h ..

theorem execHostBar4Read_answers {s : State} (h : s.dev.memOk) : Answers (execHostBar4Read s) := by
  unfold execHostBar4Read
  exact ⟨_, rfl, updDev_memOk h (fun _ h1 => ite_memOk (answerRead_memOk (refuseHost_memOk h1 ..) ..) (answerRead_memOk (logFails_memOk h1 ..) ..))⟩

theorem execHostBar4Write_answers {s : State} (h : s.dev.memOk) : Answers (execHostBar4Write s) := by
  unfold execHostBar4Write
  exact ⟨_, rfl, updDev_memOk h (fun _ h1 => ite_memOk (refuseHost_memOk h1 ..) (homeWrite_memOk h1 ..))⟩

theorem mbxSubmit_memOk {v : Device} (h : v.memOk) (k : ℕ) : (v.mbxSubmit k).memOk := by
  unfold Device.mbxSubmit
  exact ite_memOk h h

theorem execHostRegisterWrite_answers {s : State} (h : s.dev.memOk) : Answers (execHostRegisterWrite s) := by
  unfold execHostRegisterWrite
  exact ⟨_, rfl, updDev_memOk h (fun _ h1 => ite_memOk (doorbell_memOk h1 ..) (ite_memOk (updPort_memOk h1 ..)
    (ite_memOk (ite_memOk (mbxSubmit_memOk h1 ..) h1) (ite_memOk (updPort_memOk h1 ..)
      (ite_memOk (updPort_memOk h1 ..) (ite_memOk h1 (refuseHost_memOk h1 ..)))))))⟩

theorem execPortLinkLoss_answers {s : State} (h : s.dev.memOk) : Answers (execPortLinkLoss s) := by
  refine ⟨_, rfl, foldl_dev_memOk (fun _ _ h1 => fence_memOk h1 ..) (updDev_memOk h fun v hv => updPort_memOk ?_ ..) _⟩
  have hlog := log_memOk hv 0 0x0070 2 5 (s.ev.port % 2) (BitVec.ofNat 64 (s.ev.port % 2)) 0 0xFFFF 0xFF
  exact hlog.same rfl rfl

theorem execVerbyLinkDown_answers {s : State} (h : s.dev.memOk) : Answers (execVerbyLinkDown s) := by
  refine ⟨_, rfl, updDev_memOk h fun v hv => ?_⟩
  have hlog := log_memOk hv 0 0x0070 2 6 (s.ev.port % 16) (BitVec.ofNat 64 (s.ev.port % 16)) 0 0xFFFF 0xFF
  exact hlog.same rfl rfl

theorem markPages_memOk {v : Device} (h : v.memOk) (ctx : BitVec 12) (va : Addr) (n : ℕ) (store : Bool) : (v.markPages ctx va n store).memOk := by
  unfold Device.markPages
  exact ite_memOk h (foldl_memOk (fun _ _ h1 => markEntry_memOk h1 ..) h _)

theorem logRemote_memOk {v : Device} (h : v.memOk) (ctx : BitVec 12) (va : Addr) (n m : ℕ) : (v.logRemote ctx va n m).memOk := by
  unfold Device.logRemote
  exact ite_memOk h (logWalk_memOk h ..)

theorem remotePut_memOk {v : Device} (h : v.memOk) (g : Ingress) : (v.remotePut g).memOk := by
  unfold Device.remotePut
  extract_lets ps v1 v2
  have h1 : v2.memOk := (logRemote_memOk h g.ctx g.va g.data.length ps.length).same rfl rfl
  exact carryLines_memOk (writeAs_memOk (markPages_memOk h1 ..) ..) ..

theorem remoteGet_memOk {v : Device} (h : v.memOk) (g : Ingress) : (v.remoteGet g).memOk := by
  unfold Device.remoteGet
  exact (markPages_memOk (ite_memOk (logRemote_memOk h ..) (logFails_memOk (logRemote_memOk h ..) ..)) ..).same rfl rfl

theorem execFabricIngress_answers {s : State} (h : s.dev.memOk) : Answers (execFabricIngress s) := by
  unfold execFabricIngress
  exact ⟨_, rfl, updDev_memOk h (fun _ h1 => by
      split
      · exact (cmbReceive_memOk h1 ..).same rfl rfl
      · exact ite_memOk (remotePut_memOk h1 ..) (remoteGet_memOk h1 ..))⟩

theorem execTranslationWalk_answers {s : State} (h : s.dev.memOk) : Answers (execTranslationWalk s) :=
  ⟨_, rfl, (by
      split
      · exact fill_memOk h ..
      · exact state_logWalk_memOk h ..)⟩

end Sys2Proof.Machine
end

section
/-! O60: memory keeps its form through Reliability.lean. -/

namespace Sys2Proof.Machine

theorem execHeartbeatExpire_answers {s : State} (h : s.dev.memOk) : Answers (execHeartbeatExpire s) := by
  unfold execHeartbeatExpire
  exact ⟨_, rfl, ite_dev_memOk (takeover_memOk h ..) (ite_dev_memOk (takeover_memOk h ..) h)⟩

theorem execStandbyRecovery_answers {s : State} (h : s.dev.memOk) : Answers (execStandbyRecovery s) := by
  unfold execStandbyRecovery
  exact ⟨_, rfl, ite_dev_memOk h (ite_dev_memOk (updDev_memOk (setCore_memOk h ..) (fun _ h1 => updDome_memOk h1 ..))
    (updDev_memOk (setCore_memOk h ..) (fun _ h2 => log_memOk h2 ..)))⟩

theorem tagStart_memOk {v : Device} (h : v.memOk) (d page k : ℕ) : (v.tagStart d page k).memOk := updDome_memOk h ..

theorem tagEnd_memOk {v : Device} (h : v.memOk) (d tier page p : ℕ) : (v.tagEnd d tier page p).memOk := by
  dsimp only [Device.tagEnd]
  split
  · exact h
  · exact ite_memOk h (ite_memOk (ite_memOk (tagStart_memOk h ..) (updDome_memOk h ..))
      (ite_memOk (updDome_memOk h ..) (markPoison_memOk (log_memOk (updDome_memOk h ..) ..) ..)))

theorem tagBreak_memOk {v : Device} (h : v.memOk) (page : ℕ) : (v.tagBreak page).memOk := by
  unfold Device.tagBreak
  exact ite_memOk h h

theorem scrubWord_memOk {v : Device} (h : v.memOk) (d tier : ℕ) (pl : Place) (x bits : ℕ) : (v.scrubWord d tier pl x bits).memOk := by
  unfold Device.scrubWord
  exact ite_memOk h (ite_memOk (log_memOk (updDome_memOk h ..) ..) (log_memOk (markPoison_memOk h ..) ..))

theorem execPatrolScrub_answers {s : State} (h : s.dev.memOk) : Answers (execPatrolScrub s) := by
  unfold execPatrolScrub
  exact ⟨_, rfl, ite_dev_memOk h (updDev_memOk h (fun _ h1 => ite_memOk (updDome_memOk
    (ite_memOk (tagEnd_memOk (ite_memOk (tagStart_memOk (ite_memOk (scrubWord_memOk (busError_memOk h1 ..) ..)
      (tagBreak_memOk (scrubWord_memOk (busError_memOk h1 ..) ..) ..)) ..) (ite_memOk (scrubWord_memOk (busError_memOk h1 ..) ..)
        (tagBreak_memOk (scrubWord_memOk (busError_memOk h1 ..) ..) ..))) ..) (ite_memOk
          (tagStart_memOk (ite_memOk (scrubWord_memOk (busError_memOk h1 ..) ..) (tagBreak_memOk (scrubWord_memOk (busError_memOk h1 ..) ..) ..)) ..)
            (ite_memOk (scrubWord_memOk (busError_memOk h1 ..) ..) (tagBreak_memOk (scrubWord_memOk (busError_memOk h1 ..) ..) ..)))) ..)
              (ite_memOk (tagEnd_memOk (ite_memOk (tagStart_memOk (ite_memOk (scrubWord_memOk (busError_memOk h1 ..) ..)
                (tagBreak_memOk (scrubWord_memOk (busError_memOk h1 ..) ..) ..)) ..)
                  (ite_memOk (scrubWord_memOk (busError_memOk h1 ..) ..) (tagBreak_memOk (scrubWord_memOk (busError_memOk h1 ..) ..) ..))) ..)
                    (ite_memOk (tagStart_memOk (ite_memOk (scrubWord_memOk (busError_memOk h1 ..) ..)
                      (tagBreak_memOk (scrubWord_memOk (busError_memOk h1 ..) ..) ..)) ..)
                        (ite_memOk (scrubWord_memOk (busError_memOk h1 ..) ..) (tagBreak_memOk (scrubWord_memOk (busError_memOk h1 ..) ..) ..))))))⟩

theorem execLaneRepair_answers {s : State} (h : s.dev.memOk) : Answers (execLaneRepair s) := by
  unfold execLaneRepair
  exact ⟨_, rfl, updDev_memOk h (fun _ h1 => ite_memOk (log_memOk (updDome_memOk h1 ..) ..) (log_memOk (updDome_memOk h1 ..) ..))⟩

theorem execSensorRead_answers {s : State} (h : s.dev.memOk) : Answers (execSensorRead s) := by
  unfold execSensorRead
  exact ⟨_, rfl, ite_dev_memOk (fence_memOk (updDev_memOk h (fun _ h1 => ite_memOk (log_memOk
    (ite_memOk (log_memOk (ite_memOk (log_memOk (updCluster_memOk h1 ..) ..) (ite_memOk (log_memOk (updCluster_memOk h1 ..) ..)
      (updCluster_memOk h1 ..))) ..) (ite_memOk (log_memOk (updCluster_memOk h1 ..) ..)
        (ite_memOk (log_memOk (updCluster_memOk h1 ..) ..) (updCluster_memOk h1 ..)))) ..)
          (ite_memOk (log_memOk (ite_memOk (log_memOk (updCluster_memOk h1 ..) ..) (ite_memOk (log_memOk (updCluster_memOk h1 ..) ..)
            (updCluster_memOk h1 ..))) ..) (ite_memOk (log_memOk (updCluster_memOk h1 ..) ..)
              (ite_memOk (log_memOk (updCluster_memOk h1 ..) ..) (updCluster_memOk h1 ..)))))) ..)
                (updDev_memOk h (fun _ h2 => ite_memOk (log_memOk (ite_memOk (log_memOk
                  (ite_memOk (log_memOk (updCluster_memOk h2 ..) ..) (ite_memOk (log_memOk (updCluster_memOk h2 ..) ..)
                    (updCluster_memOk h2 ..))) ..) (ite_memOk (log_memOk (updCluster_memOk h2 ..) ..)
                      (ite_memOk (log_memOk (updCluster_memOk h2 ..) ..) (updCluster_memOk h2 ..)))) ..)
                        (ite_memOk (log_memOk (ite_memOk (log_memOk (updCluster_memOk h2 ..) ..)
                          (ite_memOk (log_memOk (updCluster_memOk h2 ..) ..) (updCluster_memOk h2 ..))) ..)
                            (ite_memOk (log_memOk (updCluster_memOk h2 ..) ..) (ite_memOk (log_memOk (updCluster_memOk h2 ..) ..)
                              (updCluster_memOk h2 ..))))))⟩

theorem execPowerWindowEnd_answers {s : State} (h : s.dev.memOk) : Answers (execPowerWindowEnd s) := by
  refine ⟨_, rfl, updDev_memOk h fun v hv => ?_⟩
  extract_lets f u
  have hu : u.memOk := decideHeadroom_memOk (v := { v with powerAvg := _, powerSec := _, powerF := _ }) ⟨hv.1, hv.2⟩
  exact ite_memOk hu (log_memOk hu ..)

theorem startFirmware_memOk {s : State} (h : s.dev.memOk) : s.startFirmware.dev.memOk := by
  unfold State.startFirmware
  exact foldl_dev_memOk (fun _ _ h1 => setCore_memOk h1 ..) h _

theorem execAlmanacSnapshot_answers {s : State} (h : s.dev.memOk) : Answers (execAlmanacSnapshot s) := by
  unfold execAlmanacSnapshot
  exact ⟨_, rfl, updDev_memOk (ite_dev_memOk (startFirmware_memOk h) h) (fun _ h1 => ite_memOk h1 (ite_memOk h1 h1))⟩

theorem execDeviceReset_answers {s : State} (h : s.dev.memOk) : Answers (execDeviceReset s) := ⟨_, rfl, h.1, rfl⟩

end Sys2Proof.Machine
end

section
/-! O60: memory keeps its form through Dispatch.lean. -/

namespace Sys2Proof.Machine

/-- Every instruction and event answers a next state and keeps the canonical form. -/
theorem exec_answers {s : State} (h : s.dev.memOk) (i : Instr) : Answers (exec i s) := by
  cases i with
  | add _ => exact scalar2_answers h ..
  | sub _ => exact scalar2_answers h ..
  | mul _ => exact scalar2_answers h ..
  | mulh _ => exact execMulh_answers h ..
  | mulhu _ => exact execMulhu_answers h ..
  | div _ => exact startDivision_answers h ..
  | divu _ => exact startDivision_answers h ..
  | rem _ => exact startDivision_answers h ..
  | remu _ => exact startDivision_answers h ..
  | divisionComplete => exact execDivisionComplete_answers h
  | and _ => exact scalar2_answers h ..
  | or _ => exact scalar2_answers h ..
  | xor _ => exact scalar2_answers h ..
  | shl _ => exact execShl_answers h ..
  | shr _ => exact execShr_answers h ..
  | sra _ => exact execSra_answers h ..
  | min _ => exact execMin_answers h ..
  | max _ => exact execMax_answers h ..
  | minu _ => exact execMinu_answers h ..
  | maxu _ => exact execMaxu_answers h ..
  | slt _ => exact execSlt_answers h ..
  | sltu _ => exact execSltu_answers h ..
  | sel _ => exact execSel_answers h ..
  | addi _ => exact execAddi_answers h ..
  | andi _ => exact execAndi_answers h ..
  | ori _ => exact execOri_answers h ..
  | xori _ => exact execXori_answers h ..
  | shli _ => exact execShli_answers h ..
  | shri _ => exact execShri_answers h ..
  | srai _ => exact execSrai_answers h ..
  | li _ => exact execLi_answers h ..
  | lih _ => exact execLih_answers h ..
  | clz _ => exact execClz_answers h ..
  | ctz _ => exact execCtz_answers h ..
  | popc _ => exact execPopc_answers h ..
  | bswap _ => exact scalar1_answers h ..
  | exts _ => exact execExts_answers h ..
  | extz _ => exact execExtz_answers h ..
  | ins _ => exact execIns_answers h ..
  | cmp _ => exact ⟨_, rfl, upd_memOk h ..⟩
  | cmpi _ => exact ⟨_, rfl, upd_memOk h ..⟩
  | pelse o => exact execPelse_answers h o
  | prd _ => exact execPrd_answers h ..
  | pwr _ => exact execPwr_answers h ..
  | br _ => exact execBr_answers h ..
  | bri _ => exact execBri_answers h ..
  | jmp _ => exact execJmp_answers h ..
  | call _ => exact execCall_answers h ..
  | ret _ => exact execRet_answers h ..
  | jr _ => exact execJr_answers h ..
  | callr _ => exact execCallr_answers h ..
  | dbnz _ => exact execDbnz_answers h ..
  | wfe _ => exact execWfe_answers h ..
  | sev _ => exact execSev_answers h ..
  | sevAll _ => exact execSevAll_answers h ..
  | yield _ => exact execYield_answers h ..
  | susp _ => exact execSusp_answers h ..
  | exit _ => exact execExit_answers h ..
  | trap _ => exact execTrap_answers h ..
  | trapf _ => exact execTrapf_answers h ..
  | tret _ => exact execTret_answers h ..
  | rdsr _ => exact execRdsr_answers h ..
  | wrsr _ => exact execWrsr_answers h ..
  | tidx _ => exact execTidx_answers h ..
  | mret _ => exact execMret_answers h ..
  | mretRequeue _ => exact execMretRequeue_answers h ..
  | mretEnd _ => exact execMretEnd_answers h ..
  | prdsr _ => exact execPrdsr_answers h ..
  | pwrsr _ => exact execPwrsr_answers h ..
  | qhbWrite => exact execQhbWrite_answers h
  | xlinvPage _ => exact execXlinvPage_answers h ..
  | xlinvCtx _ => exact execXlinvCtx_answers h ..
  | xlinvPart _ => exact execXlinvPart_answers h ..
  | ctxsv _ => exact execCtxsv_answers h ..
  | ctxld _ => exact execCtxld_answers h ..
  | corestop _ => exact execCorestop_answers h ..
  | jrnl _ => exact execJrnl_answers h ..
  | kickscan _ => exact execKickscan_answers h ..
  | cmplholdHold _ => exact execCmplholdHold_answers h ..
  | cmplholdRelease _ => exact execCmplholdRelease_answers h ..
  | aadd _ => exact addrOp_answers h ..
  | aaddi _ => exact addrOp_answers h ..
  | amov _ => exact addrOp_answers h ..
  | aset _ => exact addrOp_answers h ..
  | aget _ => exact execAget_answers h ..
  | acmp _ => exact execAcmp_answers h ..
  | ascl _ => exact addrOp_answers h ..
  | ld _ => exact execLd_answers h ..
  | ldc _ => exact execLdc_answers h ..
  | loadReturn => exact execLoadReturn_answers h
  | st _ => exact execSt_answers h ..
  | kStoreLand => exact execKStoreLand_answers h
  | forwardExpire => exact execForwardExpire_answers h
  | vld _ => exact execVld_answers h ..
  | vst _ => exact execVst_answers h ..
  | vstQueue _ => exact execVstQueue_answers h ..
  | vlds _ => exact execVlds_answers h ..
  | vgath _ => exact execVgath_answers h ..
  | vscat _ => exact execVscat_answers h ..
  | lsld _ => exact execLsld_answers h ..
  | lsst _ => exact execLsst_answers h ..
  | pref _ => exact execPref_answers h ..
  | wbl _ => exact execWbl_answers h ..
  | invl _ => exact execInvl_answers h ..
  | lpin _ => exact execLpin_answers h ..
  | lpinLine _ => exact execLpinLine_answers h ..
  | lunpin _ => exact execLunpin_answers h ..
  | lunpinLine _ => exact execLunpinLine_answers h ..
  | amo _ => exact startAtomic_answers h ..
  | amos _ => exact startAtomic_answers h ..
  | cas _ => exact startAtomic_answers h ..
  | atomicPerformed => exact execAtomicPerformed_answers h
  | translationWalk => exact execTranslationWalk_answers h
  | vadd _ => exact execVadd_answers h ..
  | vsub _ => exact execVsub_answers h ..
  | vmul _ => exact execVmul_answers h ..
  | vfma _ => exact execVfma_answers h ..
  | vfms _ => exact execVfms_answers h ..
  | vfnma _ => exact execVfnma_answers h ..
  | vmin _ => exact execVmin_answers h ..
  | vmax _ => exact execVmax_answers h ..
  | vabs _ => exact vUnary_answers h ..
  | vneg _ => exact vUnary_answers h ..
  | vand _ => exact execVand_answers h ..
  | vor _ => exact execVor_answers h ..
  | vxor _ => exact execVxor_answers h ..
  | vnot _ => exact execVnot_answers h ..
  | vshl _ => exact execVshl_answers h ..
  | vshr _ => exact execVshr_answers h ..
  | vsra _ => exact execVsra_answers h ..
  | vmulh _ => exact execVmulh_answers h ..
  | vadds _ => exact execVadds_answers h ..
  | vsubs _ => exact execVsubs_answers h ..
  | vrcp _ => exact vSpecial_answers h ..
  | vrsq _ => exact vSpecial_answers h ..
  | vsqrt _ => exact vSpecial_answers h ..
  | vdiv _ => exact vElem_answers h ..
  | vexp2 _ => exact vSpecial_answers h ..
  | vlog2 _ => exact vSpecial_answers h ..
  | vtanh _ => exact vSpecial_answers h ..
  | vsigm _ => exact vSpecial_answers h ..
  | vsinp _ => exact vSpecial_answers h ..
  | verf _ => exact vSpecial_answers h ..
  | vcmp _ => exact ⟨_, rfl, pushMask_memOk h ..⟩
  | vcls _ => exact ⟨_, rfl, pushMask_memOk h ..⟩
  | vsel _ => exact ⟨_, rfl, occupyV_memOk (wV_memOk h ..) ..⟩
  | vmtov _ => exact ⟨_, rfl, occupyV_memOk (wV_memOk h ..) ..⟩
  | vvtom _ => exact ⟨_, rfl, pushMask_memOk h ..⟩
  | vmcnt _ => exact ⟨_, rfl, occupyV_memOk (wS_memOk h ..) ..⟩
  | vmov _ => exact vMove_answers h ..
  | vsplat _ => exact vMove_answers h ..
  | viota _ => exact vMove_answers h ..
  | vbcr _ => exact vMove_answers h ..
  | vbcc _ => exact vMove_answers h ..
  | vrotr _ => exact vMove_answers h ..
  | vrotc _ => exact vMove_answers h ..
  | vpermr _ => exact vMove_answers h ..
  | vext _ => exact ⟨_, rfl, occupyV_memOk (wS_memOk h ..) ..⟩
  | vins _ => exact ⟨_, rfl, occupyV_memOk (wV_memOk h ..) ..⟩
  | vtrn _ => exact vMove_answers h ..
  | vredr _ => exact ⟨_, rfl, occupyV_memOk (wV_memOk h ..) ..⟩
  | vredc _ => exact ⟨_, rfl, occupyV_memOk (wV_memOk h ..) ..⟩
  | vscanr _ => exact ⟨_, rfl, occupyV_memOk (wV_memOk h ..) ..⟩
  | vcvt _ => exact execVcvt_answers h ..
  | vqnt _ => exact execVqnt_answers h ..
  | vdqt _ => exact execVdqt_answers h ..
  | vscl _ => exact execVscl_answers h ..
  | vpack _ => exact ⟨_, rfl, occupyV_memOk (wV_memOk h ..) ..⟩
  | vunpk _ => exact ⟨_, rfl, occupyV_memOk (wV_memOk h ..) ..⟩
  | vspush _ => exact execVspush_answers h ..
  | vspop _ => exact execVspop_answers h ..
  | vsbal _ => exact ⟨_, rfl, occupyV_memOk (upd_memOk (commitSeg_memOk h) ..) ..⟩
  | vtidx _ => exact execVtidx_answers h ..
  | vbchk _ => exact ⟨_, rfl, vConv_memOk h ..⟩
  | vclmp _ => exact vElem_answers h ..
  | vqpop _ => exact execVqpop_answers h ..
  | vqpopSide _ => exact execVqpopSide_answers h ..
  | vqpopInfo _ => exact execVqpopInfo_answers h ..
  | fixedResultWriteback => exact execFixedResultWriteback_answers h
  | mpush _ => exact execMpush_answers h ..
  | mbeat _ => exact execMbeat_answers h ..
  | beatLand => exact ⟨_, rfl, upd_memOk h ..⟩
  | mshift _ => exact execMshift_answers h ..
  | mdrain _ => exact execMdrain_answers h ..
  | drainEnterQueue => exact ⟨_, rfl, upd_memOk h ..⟩
  | mzero _ => exact execMzero_answers h ..
  | mswap _ => exact execMswap_answers h ..
  | mepoch _ => exact execMepoch_answers h ..
  | mretry _ => exact execMretry_answers h ..
  | mckloc _ => exact execMckloc_answers h ..
  | mckfix _ => exact execMckfix_answers h ..
  | mcal _ => exact execMcal_answers h ..
  | mcalComplete => exact ⟨_, rfl, upd_memOk h ..⟩
  | monitorCalibration => exact execMonitorCalibration_answers h
  | mfbk _ => exact execMfbk_answers h ..
  | mctxSave _ => exact execMctxSave_answers h ..
  | mctxRestore _ => exact execMctxRestore_answers h ..
  | mctxKeep _ => exact execMctxKeep_answers h ..
  | minjAcc _ => exact execMinjAcc_answers h ..
  | minjCks _ => exact execMinjCks_answers h ..
  | minjPar _ => exact execMinjPar_answers h ..
  | fmtw _ => exact execFmtw_answers h ..
  | fmtTakeEffect => exact ⟨_, rfl, upd_memOk h ..⟩
  | fmtr _ => exact execFmtr_answers h ..
  | fmtrPend _ => exact execFmtrPend_answers h ..
  | bndw _ => exact execBndw_answers h ..
  | bndr _ => exact execBndr_answers h ..
  | bndrFa _ => exact execBndrFa_answers h ..
  | shpw _ => exact execShpw_answers h ..
  | feedcfg _ => exact execFeedcfg_answers h ..
  | feederRowArrive => exact ⟨_, rfl, upd_memOk h ..⟩
  | rbcfg _ => exact execRbcfg_answers h ..
  | rbpop _ => exact execRbpop_answers h ..
  | rbGenerate => exact ⟨_, rfl, upd_memOk h ..⟩
  | cktol _ => exact execCktol_answers h ..
  | cktolRd _ => exact execCktolRd_answers h ..
  | lnest _ => exact execLnest_answers h ..
  | lbody _ => exact execLbody_answers h ..
  | lbrk _ => exact execLbrk_answers h ..
  | lbrkDrain _ => exact execLbrkDrain_answers h ..
  | lstat _ => exact execLstat_answers h ..
  | cpy _ => exact execCpy_answers h ..
  | cpyx _ => exact execCpyx_answers h ..
  | copyComplete => exact execCopyComplete_answers h
  | wload _ => exact execWload_answers h ..
  | wloadComplete => exact execWloadComplete_answers h
  | scwait _ => exact execScwait_answers h ..
  | scrd _ => exact execScrd_answers h ..
  | enq _ => exact execEnq_answers h ..
  | deq _ => exact execDeq_answers h ..
  | deqt _ => exact execDeqt_answers h ..
  | deqtTimeout => exact execDeqtTimeout_answers h
  | qstat _ => exact execQstat_answers h ..
  | spawn _ => exact execSpawn_answers h ..
  | phase _ => exact execPhase_answers h ..
  | barr _ => exact execBarr_answers h ..
  | barw _ => exact execBarw_answers h ..
  | barq _ => exact execBarq_answers h ..
  | trig _ => exact execTrig_answers h ..
  | coll _ => exact execColl_answers h ..
  | collComplete => exact execCollComplete_answers h
  | fput _ => exact execFput_answers h ..
  | fget _ => exact execFget_answers h ..
  | fabricCopyComplete => exact execFabricCopyComplete_answers h
  | cmbopen _ => exact execCmbopen_answers h ..
  | cmbopenTry _ => exact execCmbopenTry_answers h ..
  | cmbput _ => exact execCmbput_answers h ..
  | cmbputArrival => exact execCmbputArrival_answers h
  | cmbDeadline => exact execCmbDeadline_answers h
  | cmbReleaseEnqueue => exact execCmbReleaseEnqueue_answers h
  | cmbpoll _ => exact execCmbpoll_answers h ..
  | cmbclose _ => exact execCmbclose_answers h ..
  | phint _ => exact execPhint_answers h ..
  | phclr _ => exact execPhclr_answers h ..
  | burstWindowEnd => exact ⟨_, rfl, upd_memOk h ..⟩
  | powerWindowEnd => exact execPowerWindowEnd_answers h
  | pcset _ => exact execPcset_answers h ..
  | pcdec _ => exact execPcdec_answers h ..
  | pcdecFail _ => exact execPcdecFail_answers h ..
  | disp _ => exact execDisp_answers h ..
  | preempt _ => exact execPreempt_answers h ..
  | qcfgp _ => exact execQcfgp_answers h ..
  | qcfgpOff _ => exact execQcfgpOff_answers h ..
  | migrate _ => exact execMigrate_answers h ..
  | scrubcfg _ => exact execScrubcfg_answers h ..
  | obslog _ => exact execObslog_answers h ..
  | healthw _ => exact execHealthw_answers h ..
  | gangStart => exact execGangStart_answers h
  | spawnedTaskStart => exact execSpawnedTaskStart_answers h
  | coldStartRelease => exact execColdStartRelease_answers h
  | taskResume => exact execTaskResume_answers h
  | footprintMove => exact execFootprintMove_answers h
  | gangWaitPreempt => exact execGangWaitPreempt_answers h
  | checkpointPreempt => exact ⟨_, rfl, preemptChosen_memOk h ..⟩
  | killPreempt => exact ⟨_, rfl, preemptChosen_memOk h ..⟩
  | drainPreempt => exact ⟨_, rfl, preemptChosen_memOk h ..⟩
  | drainWindowExpire => exact execDrainWindowExpire_answers h
  | preemptionWaitExpire => exact execPreemptionWaitExpire_answers h
  | agingLimitExpire => exact execAgingLimitExpire_answers h
  | doorbell => exact execDoorbell_answers h
  | heartbeatExpire => exact execHeartbeatExpire_answers h
  | standbyRecovery => exact execStandbyRecovery_answers h
  | migratePage => exact execMigratePage_answers h
  | dwinBind => exact execDwinBind_answers h
  | dwinRevoke => exact execDwinRevoke_answers h
  | patrolScrub => exact execPatrolScrub_answers h
  | laneRepair => exact execLaneRepair_answers h
  | sensorRead => exact execSensorRead_answers h
  | almanacSnapshot => exact execAlmanacSnapshot_answers h
  | hostBar4Read => exact execHostBar4Read_answers h
  | hostBar4Write => exact execHostBar4Write_answers h
  | hostRegisterWrite => exact execHostRegisterWrite_answers h
  | partCreate => exact execPartCreate_answers h
  | partStateOnline => exact execPartStateOnline_answers h
  | partStateDrain => exact execPartStateDrain_answers h
  | partStateFence => exact execPartStateFence_answers h
  | partStateReset => exact execPartStateReset_answers h
  | partDestroy => exact execPartDestroy_answers h
  | ctxSet => exact execCtxSet_answers h
  | partCtx => exact execPartCtx_answers h
  | dispParam => exact execDispParam_answers h
  | cmbCfg => exact execCmbCfg_answers h
  | keyLoad => exact execKeyLoad_answers h
  | collGroup => exact execCollGroup_answers h
  | nodeSet => exact execNodeSet_answers h
  | monitorLoad => exact execMonitorLoad_answers h
  | memAssign => exact execMemAssign_answers h
  | logRead => exact execLogRead_answers h
  | attest => exact execAttest_answers h
  | powerLimit => exact execPowerLimit_answers h
  | gradeClear => exact execGradeClear_answers h
  | portLinkLoss => exact execPortLinkLoss_answers h
  | verbyLinkDown => exact execVerbyLinkDown_answers h
  | deviceReset => exact execDeviceReset_answers h
  | queueResultReturn => exact execQueueResultReturn_answers h
  | fabricIngress => exact execFabricIngress_answers h
  | allZeroBundle _ => exact execAllZeroBundle_answers h ..

end Sys2Proof.Machine
end

section
/-! O60: memory keeps its form through Issue.lean. -/

namespace Sys2Proof.Machine

theorem stateOf_memOk {o : Host.Outcome State Fault Refusal} {s : State} (h : Answers o) (_ : s.dev.memOk) : (stateOf o s).dev.memOk := by
  obtain ⟨t, rfl, ht⟩ := h
  exact ht

theorem takeCfsig_memOk {s : State} (h : s.dev.memOk) (x : ℕ) : (s.takeCfsig x).dev.memOk := by
  unfold State.takeCfsig
  exact ite_dev_memOk (takeTrap_memOk (freeVal_memOk h) ..) (takeTrap_memOk h ..)

theorem collectiveDone_memOk {s t : State} (h : s.dev.memOk) {k : ℕ} (e : s.collectiveDone k = some t) : t.dev.memOk := by
  unfold State.collectiveDone at e
  split at e
  · obtain ⟨_, e⟩ := Option.ite_none_right_eq_some.mp e
    obtain ⟨_, e⟩ := Option.ite_none_right_eq_some.mp e
    rw [← Option.some.inj e]
    exact stateOf_memOk (execCollComplete_answers (by exact h)) h
  · cases e

theorem doneHere_memOk {s t : State} (h : s.dev.memOk) {k : ℕ} (e : s.doneHere k = some t) : t.dev.memOk := by
  unfold State.doneHere at e
  split at e
  · split at e
    · rw [← Option.some.inj e]
      exact completeOp_memOk h ..
    · exact collectiveDone_memOk h e
  · cases e

theorem progress_memOk {s : State} (h : s.dev.memOk) : s.progress.dev.memOk := by
  have hw : ({ s with last := .waits } : State).dev.memOk := h
  unfold State.progress
  refine ite_dev_memOk (stateOf_memOk (exec_answers hw ..) hw) ?_
  split
  · rename_i t e
    obtain ⟨k, _, hk⟩ := List.exists_of_findSome?_eq_some e
    exact doneHere_memOk hw hk
  · split
    · exact stateOf_memOk (exec_answers (by exact h) ..) hw
    · exact tickWall_memOk hw

theorem rdvDone_memOk {s : State} (h : s.dev.memOk) : s.rdvDone.dev.memOk := by
  dsimp only [State.rdvDone]
  split
  · exact h
  · exact upd_memOk (ite_dev_memOk (logEvent_memOk h ..) h) ..

theorem Slots.run_memOk {r : Slots} (h : r.st.dev.memOk) (i : Instr) : (r.run i).st.dev.memOk := by
  have ht : (stateOf (exec i { r.st with last := .issued }) r.st).dev.memOk := stateOf_memOk (exec_answers (by exact h) i) h
  unfold Slots.run
  dsimp only
  split
  · split
    · split
      · exact h
      · exact h
    · exact h
  · split
    · exact ht
    · exact h
    · exact h

theorem Slots.act_memOk {r : Slots} (h : r.st.dev.memOk) (s : State) (i : Instr) : (Slots.act s r i).st.dev.memOk := by
  have hrun : ∀ f : Core → Core, (Slots.run { r with st := r.st.upd f } i).st.dev.memOk := fun f =>
    Slots.run_memOk (r := { r with st := r.st.upd f }) h i
  unfold Slots.act
  dsimp only
  split
  · exact hrun _
  · split
    · exact hrun _
    · exact Slots.run_memOk h i

theorem Slots.popFirst_memOk {r : Slots} (h : r.st.dev.memOk) (i : Instr) : (r.popFirst i).st.dev.memOk := by
  unfold Slots.popFirst
  split
  · dsimp only
    split
    · exact upd_memOk (commitSeg_memOk h) ..
    · exact h
  · exact h

theorem Slots.store_memOk {r : Slots} (h : r.st.dev.memOk) (s : State) (i : Instr) : (Slots.store s r i).st.dev.memOk :=
  Slots.run_memOk (r := { r with st := r.st.upd fun c => { c.queuesOf s.core with bounds := s.core.bounds } }) h i

theorem runSlots_memOk {s : State} (h : s.dev.memOk) (ops : List Instr) : (s.runSlots ops).st.dev.memOk := by
  have keeps : ∀ {f : Slots → Instr → Slots}, (∀ r i, r.st.dev.memOk → (f r i).st.dev.memOk) → ∀ {r : Slots}, r.st.dev.memOk →
      ∀ is : List Instr, (is.foldl f r).st.dev.memOk := fun hf r hr is =>
    List.foldlRecOn (motive := fun r : Slots => r.st.dev.memOk) is _ hr fun r hr i _ => hf r i hr
  have hpop := keeps (fun r i hr => Slots.popFirst_memOk hr i) (r := { st := s }) h (ops.filter isStore)
  have hact := keeps (fun r i hr => Slots.act_memOk hr s i) hpop ((ops.partition s.actsLate).2.filter fun i => !isStore i)
  exact keeps (fun r i hr => Slots.store_memOk hr s i) hact ((ops.partition s.actsLate).2.filter isStore)

theorem takeTokenTrap_memOk {s : State} (h : s.dev.memOk) (sl : Slot) (t : Token) (code : ℕ) : (s.takeTokenTrap sl t code).dev.memOk :=
  takeTrap_memOk (upd_memOk h ..) ..

theorem slotTrap_memOk {s : State} (h : s.dev.memOk) (i : Instr) (t : Trap) : (s.slotTrap i t).dev.memOk := by
  dsimp only [State.slotTrap]
  split
  · exact stateOf_memOk (exec_answers (by exact h) ..) h
  · exact ite_dev_memOk h (takeTrap_memOk h ..)

theorem actLate_memOk {s : State} (h : s.dev.memOk) (i : Instr) : (s.actLate i).dev.memOk := by
  dsimp only [State.actLate]
  split
  · exact upd_memOk (progress_memOk (stateOf_memOk (exec_answers (by exact h) ..) h)) ..
  · exact stateOf_memOk (exec_answers (by exact h) ..) h
  · exact stateOf_memOk (exec_answers (by exact h) ..) h

theorem actAll_memOk {s : State} (h : s.dev.memOk) (is : List Instr) : (s.actAll is).dev.memOk := by
  induction is generalizing s with
  | nil => exact h
  | cons i rest ih =>
    have hi := actLate_memOk h i
    simp only [State.actAll]
    split
    · exact ite_dev_memOk (ih hi) hi
    · exact hi

theorem carryWait_memOk {s : State} (h : s.dev.memOk) (w : State) : (s.carryWait w).dev.memOk := by
  dsimp only [State.carryWait]
  split
  · exact upd_memOk h ..
  · split
    · exact updDev_memOk (upd_memOk h ..) (fun _ h1 => joinWait_memOk h1 ..)
    · exact upd_memOk h ..

theorem issueNow_memOk {s : State} (h : s.dev.memOk) (f : Ready) (x : Header) (ops : List Instr) : (s.issueNow f x ops).dev.memOk := by
  have hseg := segmentFor_memOk h x ops
  have hread : ∀ ts : List Token, (if ts.isEmpty then s.segmentFor x ops else
      ts.foldl (fun s t => s.acquireBytes t.scope.toNat t.ranges) (s.segmentFor x ops).commitSeg).dev.memOk := fun ts =>
    ite_dev_memOk hseg (foldl_dev_memOk (fun _ _ h1 => acquireBytes_memOk h1 ..) (commitSeg_memOk hseg) _)
  have hslots := runSlots_memOk (hread ((s.segmentFor x ops).core.firstReads ops)) ops
  dsimp only [State.issueNow]
  split
  · rename_i w e
    have hw := carryWait_memOk h w
    split
    · exact hw
    · exact progress_memOk hw
  · split
    · exact takeTrap_memOk h ..
    · split
      · exact ite_dev_memOk (takeTokenTrap_memOk hseg ..) (slotTrap_memOk hseg ..)
      · exact takeTokenTrap_memOk hseg ..
      · exact slotTrap_memOk hseg ..
      · exact ite_dev_memOk (takeTrap_memOk (by exact hslots) ..) (actAll_memOk (by exact hslots) ..)

theorem issueRun_memOk {s : State} (h : s.dev.memOk) (f : Ready) (ops : List Instr) : (s.issueRun f ops).dev.memOk := by
  unfold State.issueRun
  exact ite_dev_memOk h (ite_dev_memOk (progress_memOk h) (ite_dev_memOk (rdvWait_memOk h) (issueNow_memOk (upd_memOk (rdvDone_memOk h) ..) ..)))

theorem issueIdle_memOk {s : State} (h : s.dev.memOk) (f : Ready) : (s.issueIdle f).dev.memOk := h

theorem issueBundle_memOk {s : State} (h : s.dev.memOk) (f : Ready) : (s.issueBundle f).dev.memOk := by
  dsimp only [State.issueBundle]
  split
  · exact takeCfsig_memOk h ..
  · split
    · exact takeTrap_memOk (upd_memOk h ..) ..
    · split
      · exact takeTrap_memOk h ..
      · split
        · split
          · exact trapOp_memOk h ..
          · exact issueIdle_memOk h ..
        · split
          · exact takeTrap_memOk h ..
          · exact issueRun_memOk h ..

theorem issueFault_memOk {s : State} (h : s.dev.memOk) (e : ℕ × ℕ) : (s.issueFault e).dev.memOk := by
  dsimp only [State.issueFault]
  split
  · exact takeTrap_memOk (upd_memOk h ..) ..
  · split
    · exact takeTrap_memOk h ..
    · exact takeTrap_memOk h ..

theorem preemptDue_memOk {s t : State} (h : s.dev.memOk) (e : s.preemptDue = some t) : t.dev.memOk := by
  unfold State.preemptDue at e
  split at e
  · cases e
  · split at e
    · cases e
    · rw [← Option.some.inj e]
      exact ite_dev_memOk (progress_memOk (preemptAgain_memOk h ..)) (preemptAgain_memOk h ..)

theorem issue_memOk {s : State} (h : s.dev.memOk) : s.issue.dev.memOk := by
  unfold State.issue
  extract_lets t
  have ht : t.dev.memOk := h
  refine ite_dev_memOk (tickWall_memOk ht) ?_
  split
  · exact preemptDue_memOk ht ‹_›
  · split
    · exact actLate_memOk ht ..
    · split
      · exact consume_memOk (upd_memOk ht ..) ..
      · refine ite_dev_memOk (takeTrap_memOk (upd_memOk ht ..) ..) ?_
        split
        · exact issueFault_memOk (fetchTouch_memOk ht) ..
        · exact issueBundle_memOk (ite_dev_memOk ht (fetchTouch_memOk ht)) ..

end Sys2Proof.Machine
end

section
/-! O60: memory keeps its form through Step.lean. -/

namespace Sys2Proof.Machine

theorem tidied_answers {o : Host.Outcome State Fault Refusal} (h : Answers o) : Answers (tidied o) := by
  obtain ⟨t, rfl, ht⟩ := h
  exact ⟨_, rfl, tidy_memOk ht⟩

theorem step_answers {s : State} (h : s.dev.memOk) : Answers (step s) :=
  tidied_answers (by
      split
      · exact ⟨_, rfl, refocus_memOk (by exact h) ..⟩
      · split
        · exact exec_answers (by exact h) ..
        · exact ⟨_, rfl, h⟩
      · exact ⟨_, rfl, issue_memOk h⟩)

/-- Settles O60: `step` is the meaning of the event due, a change of the core in view, or the issue of a bundle, and each keeps the form
(`exec_answers`, `refocus_memOk`, `issue_memOk`). -/
theorem everyStepKeepsTheMemoryForm : Obligations.EveryStepKeepsTheMemoryForm := by
  unfold Obligations.EveryStepKeepsTheMemoryForm
  intro s h
  obtain ⟨t, ht, hk⟩ := step_answers (memOk_iff.mp h)
  exact ⟨t, ht, memOk_iff.mpr hk⟩

end Sys2Proof.Machine
end

section
/-! What the commit of a segment, a landing, a write-back and a release change of a core, and that no gang, no queue and no task slot but
for what it keeps changes with them (R117 to R121, R375). -/

namespace Sys2Proof.Machine

/-- `d` is `c` with other stores, copies and visible set: what publication may change of a core. -/
def Core.AfterStores (c d : Core) : Prop :=
  ∃ dirty l1 spad lanes landing view seg hold,
    d = { c with dirty := dirty, l1 := l1, spad := spad, lanes := lanes, landing := landing, view := view, seg := seg, hold := hold }

theorem Core.AfterStores.refl (c : Core) : c.AfterStores c := ⟨_, _, _, _, _, _, _, _, rfl⟩

theorem Core.AfterStores.trans {c d e : Core} (h : c.AfterStores d) (k : d.AfterStores e) : c.AfterStores e := by
  obtain ⟨_, _, _, _, _, _, _, _, rfl⟩ := h
  obtain ⟨_, _, _, _, _, _, _, _, rfl⟩ := k
  exact ⟨_, _, _, _, _, _, _, _, rfl⟩

/-- A task slot without the state that it keeps. -/
def TaskSlot.bare (t : TaskSlot) : TaskSlot := { t with kept := none }

theorem bare_updateFirst (p : TaskSlot → Bool) (h : Core → Core) (ts : List TaskSlot) :
    (updateFirst p (fun t => { t with kept := t.kept.map h }) ts).map TaskSlot.bare = ts.map TaskSlot.bare := by
  induction ts with
  | nil => rfl
  | cons t ts ih =>
    unfold updateFirst
    split
    · rfl
    · rw [List.map_cons, ih, List.map_cons]

/-- The unit in focus has stored or published: no gang and no queue has changed, and of the task slots only what they keep. -/
structure Published (s t : State) : Prop where
  focus  : t.focus = s.focus
  core   : s.core.AfterStores t.core
  gangs  : t.dev.gangs = s.dev.gangs
  queues : t.dev.queues = s.dev.queues
  slots  : t.dev.slots.map TaskSlot.bare = s.dev.slots.map TaskSlot.bare

theorem Published.refl (s : State) : Published s s := ⟨rfl, .refl _, rfl, rfl, rfl⟩

theorem Published.trans {s t u : State} (h : Published s t) (k : Published t u) : Published s u :=
  ⟨k.focus.trans h.focus, h.core.trans k.core, k.gangs.trans h.gangs, k.queues.trans h.queues, k.slots.trans h.slots⟩

/-- A change of the unit's stores alone. -/
theorem Published.of_core {s : State} {c : Core} (h : s.core.AfterStores c) : Published s { s with core := c } := ⟨rfl, h, rfl, rfl, rfl⟩

/-- A write to memory beside the tables. -/
theorem Published.of_tables {s : State} {v : Device} (h : SameTables s.dev v) : Published s { s with dev := v } :=
  ⟨rfl, .refl _, h.gangs, h.queues, congrArg _ h.slots⟩

theorem Published.foldl {α : Type} {f : State → α → State} (h : ∀ s x, Published s (f s x)) (xs : List α) (s : State) :
    Published s (xs.foldl f s) := by
  induction xs generalizing s with
  | nil => exact .refl s
  | cons x xs ih => exact (h s x).trans (ih _)

theorem storeSpad_published (s : State) (p i x : Nat) (bs : List Byte) : Published s (s.storeSpad p i x bs) := by
  dsimp only [State.storeSpad]
  split
  · unfold State.setCore
    split
    · rename_i u _ e
      exact .of_core ⟨_, _, _, _, _, _, _, _, by rw [State.getCore, if_pos e]⟩
    · exact ⟨rfl, .refl _, rfl, rfl, rfl⟩
  · split
    · exact .refl s
    · split
      · exact .of_tables (writeAs_tables ..)
      · exact ⟨rfl, .refl _, rfl, rfl, bare_updateFirst ..⟩

theorem ownStore_published (s : State) (x n : Nat) : Published s (s.ownStore x n) := by
  dsimp only [State.ownStore]
  split
  · split
    · exact .refl s
    · exact ⟨rfl, .refl _, rfl, rfl, rfl⟩
  · exact .refl s

theorem perform_published (s : State) (p : Piece) : Published s (s.perform p) := by
  dsimp only [State.perform]
  split
  · exact ⟨rfl, ⟨_, _, _, _, _, _, _, _, rfl⟩, rfl, rfl, rfl⟩
  · exact (ownStore_published s ..).trans ⟨rfl, ⟨_, _, _, _, _, _, _, _, rfl⟩, rfl, rfl, rfl⟩
  · exact (storeSpad_published s ..).trans ⟨rfl, .refl _, rfl, rfl, rfl⟩
  · exact ⟨rfl, .refl _, rfl, rfl, rfl⟩
  · exact ⟨rfl, ⟨_, _, _, _, _, _, _, _, rfl⟩, rfl, rfl, rfl⟩

theorem performAll_published (s : State) (ps : List Piece) : Published s (s.performAll ps) := Published.foldl perform_published ps s

theorem commitSeg_published (s : State) : Published s s.commitSeg := by
  unfold State.commitSeg
  split
  · exact .refl s
  · exact Published.trans (t := s.upd _) ⟨rfl, ⟨_, _, _, _, _, _, _, _, rfl⟩, rfl, rfl, rfl⟩ (performAll_published ..)

theorem syncPoint_published (s : State) : Published s s.syncPoint :=
  (commitSeg_published s).trans ⟨rfl, ⟨_, _, _, _, _, _, _, _, rfl⟩, rfl, rfl, rfl⟩

theorem landAll_published (s : State) : Published s s.landAll :=
  Published.trans (t := s.upd _) ⟨rfl, ⟨_, _, _, _, _, _, _, _, rfl⟩, rfl, rfl, rfl⟩ (performAll_published ..)

theorem backLines_published (s : State) (scope : Nat) (ls : List Nat) : Published s (s.backLines scope ls) := by
  unfold State.backLines
  split
  · exact .refl s
  · exact ⟨rfl, ⟨_, _, _, _, _, _, _, _, rfl⟩, rfl, rfl, rfl⟩

theorem writeBack_published (s : State) (scope : Nat) (p : Nat → Bool) : Published s (s.writeBack scope p) := by
  unfold State.writeBack
  dsimp only
  split
  · exact backLines_published ..
  · exact (backLines_published s ..).trans ⟨rfl, .refl _, rfl, rfl, rfl⟩

theorem toHome_tables (v : Device) (X : Nat) (xs : List GStore) : SameTables v (v.toHome X xs) := by
  unfold Device.toHome
  split
  · exact .refl v
  · refine SameTables.foldl (fun v x => ?_) _ _
    split
    · exact .refl v
    · exact madeAt_tables ..

theorem release_published (s : State) (scope : Nat) : Published s (s.release scope) := by
  unfold State.release
  dsimp only
  split
  · exact landAll_published s
  · refine (landAll_published s).trans ((writeBack_published _ scope fun _ => true).trans ?_)
    split
    · exact .refl _
    · exact ⟨rfl, ⟨_, _, _, _, _, _, _, _, rfl⟩, (toHome_tables ..).gangs, (toHome_tables ..).queues, congrArg _ (toHome_tables ..).slots⟩

end Sys2Proof.Machine
end

section
/-! The operations that task mode lets through, and what a release publishes of a unit's one store (R117, R120, R143). -/

namespace Sys2Proof.Machine

/-- Task mode lets every operation through that is not privileged. -/
theorem refuses_inTask {s : State} (h : inTask s) {i : Instr} (hi : isPrivileged i = false) : s.refuses i = none := by
  obtain ⟨⟨p, hp⟩, hm⟩ := h
  simp [State.refuses, State.isQp, hp, hm, hi]

theorem ifAllowedG_inTask {s : State} (h : inTask s) {i : Instr} (hi : isPrivileged i = false) {g : Bool} (hg : s.core.active g = true)
    (f : State → State) : s.ifAllowedG i g f = .next (f s) := by
  simp [State.ifAllowedG, refuses_inTask h hi, hg]

/-! A release of a unit with one store to publish (R117, R120). -/

/-- A write at lower addresses alone leaves a byte as it was. -/
theorem memGet_memWrite_above {m : Mem} (h : memWf m = true) (x : Nat) (bs : List Byte) {y : Nat} (hy : y < x) :
    memGet (memWrite m x bs) y = memGet m y := by
  induction bs generalizing m x with
  | nil => rfl
  | cons b bs ih => rw [memWrite, ih (memWf_memSet h x b) (x + 1) (by omega), memGet_memSet_other h b (by omega)]

/-- A byte that a write covers reads as written. -/
theorem memGet_memWrite {m : Mem} (h : memWf m = true) (x : Nat) (bs : List Byte) {k : Nat} (hk : k < bs.length) :
    memGet (memWrite m x bs) (x + k) = bs[k] := by
  induction bs generalizing m x k with
  | nil => exact absurd hk (Nat.not_lt_zero k)
  | cons b bs ih =>
    cases k with
    | zero => exact (memGet_memWrite_above (memWf_memSet h x b) (x + 1) bs (Nat.lt_succ_self x)).trans (memGet_memSet_same h x b)
    | succ k =>
      have := ih (memWf_memSet h x b) (x + 1) (Nat.lt_of_succ_lt_succ hk)
      rwa [show x + 1 + k = x + (k + 1) by omega] at this

theorem landAll_nothing {s : State} (h : s.core.landing = []) : s.landAll = s := by
  simp only [State.landAll, h, List.flatMap_nil, State.performAll, List.foldl_nil]
  exact upd_of_eq (by rw [← h])

theorem toHome_hist (v : Device) (X : Nat) (xs : List GStore) : SameMem v (v.toHome X xs) := by
  unfold Device.toHome
  split
  · exact ⟨rfl, rfl, rfl⟩
  · induction xs generalizing v with
    | nil => exact ⟨rfl, rfl, rfl⟩
    | cons x xs ih =>
      refine SameMem.trans ?_ (ih _)
      dsimp only
      split
      · exact ⟨rfl, rfl, rfl⟩
      · exact madeAt_mem ..

/-- What a write-back leaves for the release that waits for it. -/
structure WroteBack (s t : State) : Prop where
  focus : t.focus = s.focus
  dirty : t.core.dirty = s.core.dirty
  view  : t.core.view = s.core.view
  regs  : t.core.s = s.core.s
  stamp : t.dev.stamp = s.dev.stamp
  mems  : SameMem s.dev t.dev

theorem WroteBack.trans {s t u : State} (h : WroteBack s t) (k : WroteBack t u) : WroteBack s u :=
  ⟨k.focus.trans h.focus, k.dirty.trans h.dirty, k.view.trans h.view, k.regs.trans h.regs, k.stamp.trans h.stamp, h.mems.trans k.mems⟩

theorem writeBack_leaves (s : State) (scope : Nat) (p : Nat → Bool) : WroteBack s (s.writeBack scope p) := by
  have back : ∀ ls, WroteBack s (s.backLines scope ls) := fun ls => by
    unfold State.backLines
    split <;> exact ⟨rfl, rfl, rfl, rfl, rfl, ⟨rfl, rfl, rfl⟩⟩
  unfold State.writeBack
  dsimp only
  split
  · exact back _
  · exact (back _).trans ⟨rfl, rfl, rfl, rfl, rfl, ⟨rfl, rfl, rfl⟩⟩

theorem release_core (s : State) (h : s.core.landing = []) : s.release 0 = s := by
  simp only [State.release, landAll_nothing h, if_true]

/-- What is published at SYSTEM scope last is read there (R120). -/
theorem sysMem_last {m : Mem} (h : memWf m = true) (xs : List GStore) {w : GStore} (hw : w.wide 5 = true) {k : Nat} (hk : k < w.bytes.length) :
    memGet (sysMem m (xs ++ [w])) (w.addr + k) = w.bytes[k] := by
  simp only [sysMem, List.foldl_append, List.foldl_cons, List.foldl_nil, hw, if_true]
  exact memGet_memWrite (memWf_sysMem h xs) _ _ hk

/-- The release of unit `s.focus` at a scope publishes a store of its visible set that it has not published so wide (R121). -/
def State.publishes (s : State) (sc : Nat) (x : GStore) : GStore :=
  if ((s.core.dirty.map GStore.id).contains x.id || s.visible x) && !x.covered s.focus sc then
    { x with pubs := x.pubs ++ [(sc, .unit s.focus, s.dev.stamp + 1)] }
  else x

/-- The store of the unit's own that no party has seen is published. -/
theorem publishes_own {s : State} {w : GStore} (hd : s.core.dirty = [w]) (hw : w.pubs = []) (sc : Nat) :
    s.publishes sc w = { w with pubs := [(sc, .unit s.focus, s.dev.stamp + 1)] } := by
  simp [State.publishes, GStore.covered, hd, hw]

/-- A release of stores that have landed, once the lines are written back: the history takes them in, and memory follows. -/
theorem release_dirty {s : State} {sc : Nat} (hl : s.core.landing = []) (hsc : 1 ≤ sc) (hd : s.core.dirty ≠ []) :
    let t := s.writeBack sc fun _ => true
    let u := s.release sc
    let old := (t.dev.hist ++ t.core.dirty).map (t.publishes sc)
    u.core = { t.core with dirty := [], view := t.core.view ++ t.core.dirty.map GStore.id } ∧ u.dev.hist = old ∧
      u.dev.mem = sysMem (if t.dev.hist.isEmpty then t.dev.mem else t.dev.base) old := by
  have wb := writeBack_leaves s sc fun _ => true
  simp only [State.release, landAll_nothing hl]
  generalize (s.writeBack sc fun _ => true) = t at wb ⊢
  have hdirty : t.core.dirty ≠ [] := fun h => hd (wb.dirty.symm.trans h)
  have hhome := toHome_hist t.dev sc ((t.dev.hist ++ t.core.dirty).filter fun x => (t.core.dirty.map GStore.id).contains x.id || t.visible x)
  rw [if_neg (by omega : ¬ sc = 0), if_neg (by simp [hdirty])]
  refine ⟨rfl, rfl, ?_⟩
  simp only [Device.withHist, hhome.hist, hhome.mem, hhome.base]
  rfl

/-- A unit releases the one store that it has not published. -/
theorem release_one {s : State} {w : GStore} {sc : Nat} (hd : s.core.dirty = [w]) (hw : w.pubs = []) (hl : s.core.landing = []) (hsc : 1 ≤ sc)
    (hm : s.memOk = true) :
    let u := s.release sc
    u.core.dirty = [] ∧ w.id ∈ u.core.view ∧ u.core.s = s.core.s ∧
      (∃ old, old.length = s.dev.hist.length ∧ u.dev.hist = old ++ [{ w with pubs := [(sc, .unit s.focus, s.dev.stamp + 1)] }]) ∧
      (5 ≤ sc → ∀ k, (h : k < w.bytes.length) → memGet u.dev.mem (w.addr + k) = w.bytes[k]) := by
  have wb := writeBack_leaves s sc fun _ => true
  obtain ⟨hcore, hhist, hmem⟩ := release_dirty hl hsc (hd ▸ List.cons_ne_nil w [])
  have hwf : (s.writeBack sc fun _ => true).dev.memOk := writeBack_memOk (memOk_iff.mp hm) ..
  generalize (s.writeBack sc fun _ => true) = t at wb hcore hhist hmem hwf
  have hdirty : t.core.dirty = [w] := wb.dirty.trans hd
  have hold : (t.dev.hist ++ t.core.dirty).map (t.publishes sc) =
      t.dev.hist.map (t.publishes sc) ++ [{ w with pubs := [(sc, .unit s.focus, s.dev.stamp + 1)] }] := by
    rw [hdirty, List.map_append, List.map_singleton, publishes_own hdirty hw, wb.focus, wb.stamp]
  refine ⟨by rw [hcore], by simp [hcore, hdirty], by rw [hcore]; exact wb.regs, ⟨_, ?_, hhist.trans hold⟩, fun h5 k hk => ?_⟩
  · rw [List.length_map, wb.mems.hist]
  · rw [hmem, hold]
    have hbase : memWf (if t.dev.hist.isEmpty then t.dev.mem else t.dev.base) = true := by split; exacts [hwf.1, hwf.2]
    exact sysMem_last hbase _ (w := { w with pubs := [(sc, .unit s.focus, s.dev.stamp + 1)] }) (by simp [GStore.wide, h5]) hk

end Sys2Proof.Machine
end

section
/-! The parts of O44: a release that may wait, the barriers of a gang, and the device's tables and partitions where one element changes
(R44, R340, R341, R437). -/

namespace Sys2Proof.Machine

/-- An illegal use of an operation of slot x raises ILLOP with its slot word (R189). -/
theorem illegal_of_trapOp {s : State} {i : Instr} (hx : slotOfOp i = .x) (h : exec i s = .next (s.trapOp ILLOP i)) : illegal s i 5 := by
  unfold illegal
  rw [h, State.trapOp, hx]
  rfl

theorem phaseRelease_waits {s : State} (h : s.core.amosLeft = true) (scope : BitVec 3) (f : State → State) : s.phaseRelease scope f = s.wait := by
  simp [State.phaseRelease, h]

theorem phaseRelease_quiet {s : State} (h : s.core.amosLeft = false) (scope : BitVec 3) (f : State → State) :
    s.phaseRelease scope f = f (s.syncPoint.release scope.toNat) := by
  simp [State.phaseRelease, h]

theorem withBarrier_unbound {s : State} {o : XForm} {ti : TaskInfo} (ht : s.core.task = some ti) (h : ti.barriers ≤ o.imm.toNat % 64) (i : Instr)
    (f : TaskInfo → Gang → Nat → State) : s.withBarrier i o f = s.trapOp ILLOP i := by
  simp only [State.withBarrier, ht]
  split
  · rfl
  · exact if_pos h

theorem withBarrier_bound {s : State} {o : XForm} {ti : TaskInfo} {g : Gang} (ht : s.core.task = some ti) (hgang : s.dev.gangOf ti.gang = some g)
    (h : o.imm.toNat % 64 < ti.barriers) (i : Instr) (f : TaskInfo → Gang → Nat → State) : s.withBarrier i o f = f ti g (o.imm.toNat % 64) := by
  simp only [State.withBarrier, ht, hgang]
  exact if_neg (Nat.not_le.mpr h)

/-- An arrival of the task in the present generation of a barrier is pending (R341). -/
theorem pendingAt_iff {c : Core} {g : Gang} {n gen : Nat} {arr : List Nat} (hb : g.bars[n]? = some (gen, arr)) :
    c.pendingAt g n = true ↔ ∃ a ∈ c.arrivals, a = (n, gen) := by
  simp [Core.pendingAt, List.getD, hb]

/-! The arrival of a task at a barrier (R341). -/

/-- All tasks of a gang that have not ended have arrived, once task `k` has. -/
def Gang.allHere (g : Gang) (arr : List Nat) (k : Nat) : Prop := ∀ j, j < g.slots.length → j = k ∨ j ∈ arr ∨ g.slots.getD j 0 ∈ g.ended

theorem arrive_bars {g : Gang} {n gen : Nat} {arr : List Nat} (hb : g.bars[n]? = some (gen, arr)) (k : Nat) :
    (g.allHere arr k → (g.arrive n k).bars[n]? = some (gen + 1, [])) ∧ (¬ g.allHere arr k → (g.arrive n k).bars[n]? = some (gen, arr ++ [k])) := by
  have hall : ((List.range g.slots.length).all fun c => (arr ++ [k]).contains c || g.ended.contains (g.slots.getD c 0)) = true ↔ g.allHere arr k := by
    simp only [List.all_eq_true, List.mem_range, Bool.or_eq_true, List.contains_iff_mem, List.mem_append, List.mem_singleton, Gang.allHere]
    exact forall₂_congr fun j _ => by tauto
  simp only [Gang.arrive, Gang.settle, List.getElem?_map, List.getElem?_modify_eq, hb, Option.map_eq_map, Option.map_some]
  constructor
  · intro h
    rw [if_pos (hall.mpr h)]
  · intro h
    rw [if_neg fun e => h (hall.mp e)]

theorem gangOf_arrive {v : Device} {id n k : Nat} {g : Gang} (h : v.gangOf id = some g) :
    Device.gangOf { v with gangs := v.gangs.map fun x => if x.id == id then x.arrive n k else x } id = some (g.arrive n k) := by
  have hid : ((fun x : Gang => x.id == id) ∘ fun x => if x.id == id then x.arrive n k else x) = fun x => x.id == id := funext fun x => by
    dsimp only [Function.comp]
    split <;> rfl
  have hg : (g.id == id) = true := List.find?_some (p := fun x : Gang => x.id == id) h
  simp only [Device.gangOf] at h ⊢
  rw [List.find?_map, hid, h, Option.map_some, if_pos hg]

/-! The device's tables where one element changes. -/

theorem find?_updateFirst {α : Type} {p : α → Bool} {f : α → α} (hf : ∀ x, p x = true → p (f x) = true) (xs : List α) :
    (updateFirst p f xs).find? p = (xs.find? p).map f := by
  induction xs with
  | nil => rfl
  | cons x xs ih => by_cases hx : p x = true <;> simp [updateFirst, hx, hf, ih]

theorem find?_updateFirst_other {α : Type} {p q : α → Bool} {f : α → α} (hf : ∀ x, p x = true → q x = false ∧ q (f x) = false) (xs : List α) :
    (updateFirst p f xs).find? q = xs.find? q := by
  induction xs with
  | nil => rfl
  | cons x xs ih => by_cases hx : p x = true <;> simp [updateFirst, hx, hf, ih, List.find?_cons]

/-- An update of a slot that keeps its place shows where the slot is looked up. -/
theorem slotOf_updSlot {v : Device} {p i : Nat} {f : TaskSlot → TaskSlot} (hf : ∀ x, (f x).part = x.part ∧ (f x).slot = x.slot) :
    (v.updSlot p i f).slotOf p i = (v.slotOf p i).map f :=
  find?_updateFirst (fun x hx => by rw [(hf x).1, (hf x).2]; exact hx) v.slots

theorem slotOf_updSlot_some {v : Device} {p i : Nat} {f : TaskSlot → TaskSlot} {y : TaskSlot} (hs : v.slotOf p i = some y)
    (hf : ∀ x, (f x).part = x.part ∧ (f x).slot = x.slot := by exact fun _ => ⟨rfl, rfl⟩) : (v.updSlot p i f).slotOf p i = some (f y) := by
  rw [slotOf_updSlot hf, hs, Option.map_some]

theorem slotOf_addSlot {v : Device} {x : TaskSlot} (h : v.slotOf x.part x.slot = none) : (v.addSlot x).slotOf x.part x.slot = some x := by
  simp only [Device.slotOf, Device.addSlot] at h ⊢
  simp [List.find?_append, h]

theorem slotOf_slots {v u : Device} (h : u.slots = v.slots) (p i : Nat) : u.slotOf p i = v.slotOf p i := by
  rw [Device.slotOf, h, Device.slotOf]

theorem slotOf_tables {v u : Device} (h : SameTables v u) (p i : Nat) : u.slotOf p i = v.slotOf p i := slotOf_slots h.slots p i

theorem entryOf_updEntry {v : Device} {p lid : Nat} {f : SchedEntry → SchedEntry} (hf : ∀ e, (f e).part = e.part ∧ (f e).lid = e.lid) :
    (v.updEntry p lid f).entryOf p lid = (v.entryOf p lid).map f :=
  find?_updateFirst (fun e he => by rw [(hf e).1, (hf e).2]; exact he) v.entries

theorem part_updPart (v : Device) (p : Nat) (f : Partition → Partition) : (v.updPart p f).part p = f (v.part p) := by
  simp [Device.part, Device.updPart]

/-! A write of the device's own changes of a partition its worst grade alone (R437). -/

/-- The partitions are those of another device state but for their worst grades. -/
structure SameParts (v u : Device) : Prop where
  part : ∀ q, ∃ w, u.part q = { v.part q with worst := w }

theorem SameParts.refl (v : Device) : SameParts v v := ⟨fun _ => ⟨_, rfl⟩⟩

theorem SameParts.trans {v u w : Device} (h : SameParts v u) (k : SameParts u w) : SameParts v w := ⟨fun q => by
  obtain ⟨_, hq⟩ := h.part q
  obtain ⟨_, kq⟩ := k.part q
  exact ⟨_, by rw [kq, hq]⟩⟩

theorem SameParts.foldl {α : Type} {f : Device → α → Device} (h : ∀ v x, SameParts v (f v x)) (xs : List α) (v : Device) :
    SameParts v (xs.foldl f v) := by
  induction xs generalizing v with
  | nil => exact .refl v
  | cons x xs ih => exact (h v x).trans (ih _)

theorem log_parts (v : Device) (d code grade unit index : Nat) (p0 p1 : Word) (ctx part : Nat) :
    SameParts v (v.log d code grade unit index p0 p1 ctx part) := by
  have graded : SameParts v (if part < 8 then v.updPart part (fun q => { q with worst := Nat.max q.worst grade }) else v) := by
    split
    · refine ⟨fun q => ?_⟩
      by_cases hq : q % 8 = part % 8
      · exact ⟨Nat.max (v.part q).worst grade, by simp only [Device.part, Device.updPart, hq, Vector.getElem_set_self]⟩
      · exact ⟨_, by simp only [Device.part, Device.updPart]; rw [Vector.getElem_set_ne]; exact fun e => hq e.symm⟩
    · exact .refl v
  refine graded.trans ?_
  unfold Device.log
  generalize (if part < 8 then v.updPart part (fun q => { q with worst := Nat.max q.worst grade }) else v) = u
  dsimp only
  split
  · split <;> exact ⟨fun _ => ⟨_, rfl⟩⟩
  · exact ⟨fun _ => ⟨_, rfl⟩⟩

theorem logE2e_parts (v : Device) (unit index pa p : Nat) : SameParts v (v.logE2e unit index pa p) := log_parts ..

theorem madeAt_parts (v : Device) (p pa n : Nat) : SameParts v (v.madeAt p pa n) := by
  refine SameParts.foldl (fun v a => ?_) _ _
  dsimp only
  split
  · exact ⟨fun _ => ⟨_, rfl⟩⟩
  · refine SameParts.trans (u := { v with checks := v.checks.filter fun x => x.1 != a }) ⟨fun _ => ⟨_, rfl⟩⟩ ((logE2e_parts _ 3 0 a p).trans ?_)
    unfold Device.markPoison
    split <;> exact ⟨fun _ => ⟨_, rfl⟩⟩

theorem writeAs_parts (v : Device) (p : Party) (scope : Nat) (ctx : BitVec 12) (va : Addr) (bs : List Byte) :
    SameParts v (v.writeAs p scope ctx va bs) := by
  refine SameParts.foldl (fun v x => ?_) _ _
  unfold Device.put
  split
  · have hmade : SameParts v (if scope < 3 then v else v.madeAt (v.partyPart p) x.addr x.bytes.length) := by
      split
      · exact .refl v
      · exact madeAt_parts ..
    exact ⟨hmade.part⟩
  · exact ⟨fun _ => ⟨_, rfl⟩⟩
  · exact .refl v

theorem writeRecord_parts (v : Device) (p slot : Nat) : SameParts v (v.writeRecord p slot) := by
  unfold Device.writeRecord
  split
  · exact .refl v
  · exact writeAs_parts ..

end Sys2Proof.Machine
end

section
/-! O44: phases, triggers, barriers and spawned tasks (R44, R49, R338 to R341). -/

namespace Sys2Proof.Machine

/-- The end of an obligation that is not the last one (R51). -/
theorem endObligation_owing {v : Device} {p lid : Nat} {e : SchedEntry} (he : v.entryOf p lid = some e) (h : 1 < e.owed) :
    (v.endObligation p lid).entryOf p lid = some { e with owed := e.owed - 1 } := by
  have hu := entryOf_updEntry (v := v) (p := p) (lid := lid) (f := fun e => { e with owed := e.owed - 1 }) fun _ => ⟨rfl, rfl⟩
  rw [he, Option.map_some] at hu
  have hne : ¬ e.owed - 1 = 0 := by omega
  simp only [Device.endObligation, hu, hne, decide_false, Bool.false_and, Bool.false_eq_true, if_false]

/-- A release leaves the obligation of the task as it was. -/
theorem released_owesTrig (s : State) (n : Nat) : (s.syncPoint.release n).core.owesTrig = s.core.owesTrig := by
  obtain ⟨_, _, _, _, _, _, _, _, h⟩ := ((syncPoint_published s).trans (release_published _ n)).core
  rw [h]

section Task
variable {s : State} {o : XForm} {ti : TaskInfo} (hin : inTask s) (hg : s.core.active o.g = true)

include hin hg

theorem phase_waits (h : s.core.amosLeft = true) : exec (.phase o) s = .next s.wait := by
  show execPhase o s = _
  rw [execPhase, ifAllowedG_inTask hin rfl hg, phaseRelease_waits h]

theorem phase_releases (h : s.core.amosLeft = false) :
    exec (.phase o) s = .next ((s.syncPoint.release o.scope.toNat).acquire o.scope.toNat) := by
  show execPhase o s = _
  rw [execPhase, ifAllowedG_inTask hin rfl hg, phaseRelease_quiet h]

variable (ht : s.core.task = some ti)
include ht

/-! TRIG (R51, R340). -/

theorem trig_noRoom (ho : s.core.owesTrig = true) (hs : ti.spawned = false)
    (hf : s.dev.holdFull ti.part (s.dev.triggerSignals ti.part ti.lid) = true) : exec (.trig o) s = .next s.wait := by
  show execTrig o s = _
  rw [execTrig, ifAllowedG_inTask hin rfl hg]
  simp [ht, ho, hs, hf]

theorem trig_waits (h : s.core.amosLeft = true) : exec (.trig o) s = .next s.wait := by
  show execTrig o s = _
  rw [execTrig, ifAllowedG_inTask hin rfl hg]
  simp only [ht, phaseRelease_waits h, ite_self]

theorem trig_ended (h : s.core.amosLeft = false) (ho : s.core.owesTrig = false ∨ ti.spawned = true) :
    exec (.trig o) s = .next (s.syncPoint.release o.scope.toNat) := by
  have hno : (s.core.owesTrig && !ti.spawned) = false := by rcases ho with h | h <;> simp [h]
  show execTrig o s = _
  rw [execTrig, ifAllowedG_inTask hin rfl hg]
  simp only [ht, phaseRelease_quiet h, hno, released_owesTrig, Bool.false_and, Bool.false_eq_true, if_false]

theorem trig_ends (h : s.core.amosLeft = false) (ho : s.core.owesTrig = true) (hs : ti.spawned = false)
    (hf : s.dev.holdFull ti.part (s.dev.triggerSignals ti.part ti.lid) = false) :
    exec (.trig o) s = .next (((s.syncPoint.release o.scope.toNat).upd fun c => { c with owesTrig := false }).updDev fun v =>
      v.endObligation ti.part ti.lid) := by
  show execTrig o s = _
  rw [execTrig, ifAllowedG_inTask hin rfl hg]
  simp [ht, phaseRelease_quiet h, released_owesTrig, ho, hs, hf]

/-! The barriers of the task's gang (R44, R341). -/

theorem barriers_unbound (h : ti.barriers ≤ o.imm.toNat % 64) : illegal s (.barr o) 5 ∧ illegal s (.barw o) 5 ∧ illegal s (.barq o) 5 := by
  refine ⟨illegal_of_trapOp rfl ?_, illegal_of_trapOp rfl ?_, illegal_of_trapOp rfl ?_⟩
  · show execBarr o s = _
    rw [execBarr, ifAllowedG_inTask hin rfl hg, withBarrier_unbound ht h]
  · show execBarw o s = _
    rw [execBarw, ifAllowedG_inTask hin rfl hg, withBarrier_unbound ht h]
  · show execBarq o s = _
    rw [execBarq, ifAllowedG_inTask hin rfl hg, withBarrier_unbound ht h]

variable {g : Gang} {gen : Nat} {arr : List Nat} (hgang : s.dev.gangOf ti.gang = some g) (hn : o.imm.toNat % 64 < ti.barriers)
  (hb : g.bars[o.imm.toNat % 64]? = some (gen, arr))
include hgang hn

theorem barw_eq : exec (.barw o) s = .next
    (if s.core.pendingAt g (o.imm.toNat % 64) then s.barrierWait else s.syncPoint.acquire o.scope.toNat) := by
  show execBarw o s = _
  rw [execBarw, ifAllowedG_inTask hin rfl hg, withBarrier_bound ht hgang hn]

theorem barq_eq : exec (.barq o) s = .next
    (if s.core.pendingAt g (o.imm.toNat % 64) then s.syncPoint.wS 2 o.d 0 else (s.syncPoint.acquire o.scope.toNat).wS 2 o.d 1) := by
  show execBarq o s = _
  rw [execBarq, ifAllowedG_inTask hin rfl hg, withBarrier_bound ht hgang hn]

theorem barr_pending (h : s.core.pendingAt g (o.imm.toNat % 64) = true) : exec (.barr o) s = .next s.barrierWait := by
  show execBarr o s = _
  rw [execBarr, ifAllowedG_inTask hin rfl hg, withBarrier_bound ht hgang hn]
  exact congrArg _ (if_pos h)

include hb

theorem barr_eq (hp : s.core.pendingAt g (o.imm.toNat % 64) = false) (h : s.core.amosLeft = false) :
    exec (.barr o) s = .next (((s.syncPoint.release o.scope.toNat).upd fun c =>
      { c with arrivals := (o.imm.toNat % 64, gen) :: c.arrivals.filter fun a => a.1 != o.imm.toNat % 64 }).updDev fun v =>
        { v with gangs := v.gangs.map fun x => if x.id == ti.gang then x.arrive (o.imm.toNat % 64) ti.cidx.toNat else x }) := by
  have hgen : (g.bars.getD (o.imm.toNat % 64) (0, [])).1 = gen := by rw [List.getD, hb, Option.getD_some]
  show execBarr o s = _
  rw [execBarr, ifAllowedG_inTask hin rfl hg, withBarrier_bound ht hgang hn]
  simp only [hp, phaseRelease_quiet h, hgen, Bool.false_eq_true, if_false]

/-- An arrival at a barrier is counted in its present generation, which ends with the last one (R341). -/
theorem barr_arrives (hp : s.core.pendingAt g (o.imm.toNat % 64) = false) (h : s.core.amosLeft = false) :
    let n := o.imm.toNat % 64
    let r := s.syncPoint.release o.scope.toNat
    ∃ u, exec (.barr o) s = .next u ∧ u.dev = { r.dev with gangs := u.dev.gangs } ∧
      u.core = { r.core with arrivals := (n, gen) :: r.core.arrivals.filter fun a => a.1 != n } ∧
      (g.allHere arr ti.cidx.toNat → (u.dev.gangOf ti.gang).bind (fun y => y.bars[n]?) = some (gen + 1, [])) ∧
      (¬ g.allHere arr ti.cidx.toNat → (u.dev.gangOf ti.gang).bind (fun y => y.bars[n]?) = some (gen, arr ++ [ti.cidx.toNat])) := by
  have hr : (s.syncPoint.release o.scope.toNat).dev.gangOf ti.gang = some g := by
    rw [Device.gangOf, ((syncPoint_published s).trans (release_published _ o.scope.toNat)).gangs]
    exact hgang
  have hu := gangOf_arrive (n := o.imm.toNat % 64) (k := ti.cidx.toNat) hr
  obtain ⟨hall, hsome⟩ := arrive_bars hb ti.cidx.toNat
  refine ⟨_, barr_eq hin hg ht hgang hn hb hp h, rfl, rfl, fun hk => ?_, fun hk => ?_⟩
  · rw [updDev_dev, upd_dev, hu]
    exact hall hk
  · rw [updDev_dev, upd_dev, hu]
    exact hsome hk

end Task

/-! SPAWN (R49, R338). -/

/-- The arguments of a SPAWN: four scalar registers from the one named, zeros for s0 (R49). -/
def Core.spawnArgs (c : Core) (o : XForm) : List Word := (List.range 4).map fun k => if o.b = 0 then 0 else c.sreg (o.b + BitVec.ofNat 5 k)

/-- The new task of a SPAWN: the spawner's description at a slot of its own, at the target, with the arguments. -/
def TaskInfo.child (t : TaskInfo) (v : Device) (slot pos n : Nat) (args : List Word) : TaskInfo :=
  { t with slot := slot, index := BitVec.ofNat 64 (t.index.toNat * 2 ^ 16 + n), cidx := 0, gsize := 1, spawned := true, barriers := 0
           spill := (v.part t.part).spillPool + BitVec.ofNat 80 (slot * (v.part t.part).spillStride), entry := pos, args := args }

/-- The device once a task is spawned: its slot is taken, it counts among the spawned and the launch's tasks, and its record is written. -/
def Device.spawn (v : Device) (x : TaskInfo) : Device :=
  ((((v.addSlot (TaskSlot.new x 0 (some (startCore x)) none)).updPart x.part fun q => { q with spawnedLive := q.spawnedLive + 1 }).updEntry
    x.part x.lid fun e => { e with tasksLeft := e.tasksLeft + 1 }).readied x.part x.slot).writeRecord x.part x.slot

theorem slotOf_readied_some {v : Device} {p i : Nat} {y : TaskSlot} (hs : v.slotOf p i = some y) :
    (v.readied p i).slotOf p i = some { y with age := v.time, turn := v.turns } := slotOf_updSlot_some hs

theorem spawn_slotOf {v : Device} {x : TaskInfo} (h : v.slotOf x.part x.slot = none) :
    ∃ y, (v.spawn x).slotOf x.part x.slot = some y ∧ y.st = 0 ∧ y.info = x := by
  have hadd : (v.addSlot (TaskSlot.new x 0 (some (startCore x)) none)).slotOf x.part x.slot = some (TaskSlot.new x 0 (some (startCore x)) none) :=
    slotOf_addSlot h
  have hnew : (TaskSlot.new x 0 (some (startCore x)) none).st = 0 ∧ (TaskSlot.new x 0 (some (startCore x)) none).info = x := ⟨rfl, rfl⟩
  unfold Device.spawn
  generalize TaskSlot.new x 0 (some (startCore x)) none = y at hadd hnew ⊢
  rw [slotOf_tables (writeRecord_tables ..)]
  exact ⟨_, slotOf_readied_some ((slotOf_slots rfl x.part x.slot).trans hadd), hnew.1, hnew.2⟩

theorem spawn_live (v : Device) (x : TaskInfo) : ((v.spawn x).part x.part).spawnedLive = (v.part x.part).spawnedLive + 1 := by
  have counted : ∀ u : Device, ∀ f : Partition → Partition, ((((u.updPart x.part f).updEntry x.part x.lid fun e =>
      { e with tasksLeft := e.tasksLeft + 1 }).readied x.part x.slot).part x.part) = f (u.part x.part) := fun u f => part_updPart u x.part f
  unfold Device.spawn
  generalize TaskSlot.new x 0 (some (startCore x)) none = y
  obtain ⟨w, hw⟩ := (writeRecord_parts ((((v.addSlot y).updPart x.part fun q => { q with spawnedLive := q.spawnedLive + 1 }).updEntry
    x.part x.lid fun e => { e with tasksLeft := e.tasksLeft + 1 }).readied x.part x.slot) x.part x.slot).part x.part
  rw [hw, counted]
  rfl

section Task
variable {s : State} {o : XForm} {ti : TaskInfo} (hin : inTask s) (hg : s.core.active o.g = true) (ht : s.core.task = some ti)
include hin hg ht

theorem spawn_illegal (h : 2 ^ 30 ≤ (s.core.sreg o.a).toNat) : illegal s (.spawn o) 5 := by
  refine illegal_of_trapOp rfl ?_
  show execSpawn o s = _
  rw [execSpawn, ifAllowedG_inTask hin rfl hg]
  simp only [ht]
  rw [if_pos h]

theorem spawn_noRoom (h : (s.core.sreg o.a).toNat < 2 ^ 30)
    (hr : ¬ ((s.commitSeg.dev.part ti.part).spawnedLive < 4096 ∧ s.commitSeg.dev.freeSlots ti.part ≠ [])) :
    exec (.spawn o) s = .next ((s.commitSeg.upd fun c => { c with spawns := s.core.spawns + 1 }).wS 8 o.d 0) := by
  show execSpawn o s = _
  rw [execSpawn, ifAllowedG_inTask hin rfl hg]
  simp only [ht]
  rw [if_neg (Nat.not_le.mpr h)]
  refine congrArg Host.Outcome.next ?_
  by_cases hl : (s.commitSeg.dev.part ti.part).spawnedLive ≥ 4096
  · exact if_pos hl
  · have hf : s.commitSeg.dev.freeSlots ti.part = [] := by
      by_contra hne
      exact hr ⟨Nat.not_le.mp hl, hne⟩
    refine (if_neg hl).trans ?_
    simp only [upd_dev, hf]

theorem spawn_room (h : (s.core.sreg o.a).toNat < 2 ^ 30) (hl : (s.commitSeg.dev.part ti.part).spawnedLive < 4096) {slot : Nat} {rest : List Nat}
    (hf : s.commitSeg.dev.freeSlots ti.part = slot :: rest) :
    exec (.spawn o) s = .next (((s.commitSeg.upd fun c => { c with spawns := s.core.spawns + 1 }).updDev fun v =>
      v.spawn (ti.child s.commitSeg.dev slot (s.core.sreg o.a).toNat s.core.spawns (s.core.spawnArgs o))).wS 8 o.d 1) := by
  show execSpawn o s = _
  rw [execSpawn, ifAllowedG_inTask hin rfl hg]
  simp only [ht]
  rw [if_neg (Nat.not_le.mpr h)]
  refine congrArg Host.Outcome.next ((if_neg (Nat.not_le.mpr hl)).trans ?_)
  simp only [upd_dev, hf]
  rfl

end Task

/-- Settles O44: PHASE, TRIG and BARR by the release that they share (`phaseRelease_waits`, `phaseRelease_quiet`, `release_one`), the barriers
by the generation that an arrival is counted in (`barr_arrives`), SPAWN by the slot that it takes (`spawn_slotOf`). -/
theorem barriersPhasesTriggersAndSpawn : Obligations.BarriersPhasesTriggersAndSpawn := by
  unfold Obligations.BarriersPhasesTriggersAndSpawn
  intro s o ti hin hg ht c t quiet r n waits
  refine ⟨phase_releases hin hg, phase_waits hin hg, release_core s, fun w sc hd hw hl hsc hm => release_one hd hw hl hsc hm,
    trig_ended hin hg ht, trig_noRoom hin hg ht, trig_waits hin hg ht, trig_ends hin hg ht, fun v e => endObligation_owing,
    barriers_unbound hin hg ht, fun g gen arr hgang hn hb => ?_, spawn_illegal hin hg ht, fun h => ⟨spawn_noRoom hin hg ht h, fun hroom => ?_⟩⟩
  · have hpend : s.core.pendingAt g n = true ↔ ∃ a ∈ c.arrivals, a = (n, gen) := pendingAt_iff hb
    have hbarw := barw_eq hin hg ht hgang hn
    have hbarq := barq_eq hin hg ht hgang hn
    refine ⟨fun hp => ⟨?_, ?_⟩, fun hp => ⟨?_, ?_⟩, fun hp hq => ?_⟩
    · have hp := hpend.mpr hp
      simp only [List.forall_mem_cons, List.not_mem_nil, false_imp_iff, implies_true, and_true]
      exact ⟨barr_pending hin hg ht hgang hn hp, hbarw.trans (congrArg _ (if_pos hp))⟩
    · exact hbarq.trans (congrArg _ (if_pos (hpend.mpr hp)))
    · exact hbarw.trans (congrArg _ (if_neg fun e => hp (hpend.mp e)))
    · exact hbarq.trans (congrArg _ (if_neg fun e => hp (hpend.mp e)))
    · obtain ⟨u, he, hdev, hcore, hall, hsome⟩ :=
        barr_arrives hin hg ht hgang hn hb (Bool.eq_false_iff.mpr fun e => hp (hpend.mp e)) hq
      refine ⟨u, he, hdev, hcore, hall, fun ⟨k, hk, hne, harr, hend⟩ => hsome fun h => ?_⟩
      rcases h k hk with h | h | h
      exacts [hne h, harr h, hend h]
  · obtain ⟨hl, hf⟩ := hroom
    obtain ⟨slot, rest, hf⟩ := List.exists_cons_of_ne_nil hf
    have hfree : t.dev.slotOf ti.part slot = none := by
      have hmem : slot ∈ t.dev.freeSlots ti.part := hf ▸ List.mem_cons_self
      simpa [Device.freeSlots] using (List.mem_filter.mp hmem).2
    obtain ⟨x, hx, hst, hinfo⟩ := spawn_slotOf (x := ti.child t.dev slot (s.core.sreg o.a).toNat s.core.spawns (s.core.spawnArgs o)) hfree
    exact ⟨_, slot, x, spawn_room hin hg ht h hl hf, hfree, hx, hst, by rw [hinfo]; rfl, by rw [hinfo]; rfl, by rw [hinfo]; rfl, by rw [hinfo]; rfl,
      by rw [hinfo]; rfl, by rw [hinfo]; rfl, by rw [hinfo]; rfl, spawn_live _ _⟩

end Sys2Proof.Machine
end

section
/-! Stores do not ask about queues, combine buffers, given items, the deadline of a DEQT or the sticky flags: an open segment commits in
the same way beside other values of them (R120, R375). -/

namespace Sys2Proof.Machine

/-- The device with other queues, combine buffers and task slots. -/
def Device.beside (v : Device) (qs : List HwQueue) (cs : List Combine) (ts : List TaskSlot) : Device :=
  { v with queues := qs, combines := cs, slots := ts }

theorem log_beside (v : Device) (qs : List HwQueue) (cs : List Combine) (ts : List TaskSlot) (d code grade unit index : Nat) (p0 p1 : Word) (ctx part : Nat) :
    (v.beside qs cs ts).log d code grade unit index p0 p1 ctx part = (v.log d code grade unit index p0 p1 ctx part).beside qs cs ts := by
  unfold Device.log
  dsimp only
  split <;> split <;> try split
  all_goals rfl

theorem logE2e_beside (v : Device) (qs : List HwQueue) (cs : List Combine) (ts : List TaskSlot) (unit index pa p : Nat) :
    (v.beside qs cs ts).logE2e unit index pa p = (v.logE2e unit index pa p).beside qs cs ts :=
  log_beside v qs cs ts (domeOfPa pa) 0x000A 4 unit index (BitVec.ofNat 64 pa) (v.mark (domeOfPa pa) (tierOf pa) p) 0xFFFF p

theorem foldl_beside {α : Type} {f : Device → α → Device} {qs : List HwQueue} {cs : List Combine} {ts : List TaskSlot}
    (hf : ∀ v x, f (v.beside qs cs ts) x = (f v x).beside qs cs ts) (xs : List α) (v : Device) :
    xs.foldl f (v.beside qs cs ts) = (xs.foldl f v).beside qs cs ts := by
  induction xs generalizing v with
  | nil => rfl
  | cons x xs ih => rw [List.foldl_cons, hf, ih, List.foldl_cons]

theorem markPoison_beside (v : Device) (qs : List HwQueue) (cs : List Combine) (ts : List TaskSlot) (pl : Place) (x n : Nat) :
    (v.beside qs cs ts).markPoison pl x n = (v.markPoison pl x n).beside qs cs ts := by
  unfold Device.markPoison
  split <;> rename_i h <;> [exact (if_pos h).symm ▸ rfl; exact (if_neg h).symm ▸ rfl]

theorem madeAt_beside (v : Device) (qs : List HwQueue) (cs : List Combine) (ts : List TaskSlot) (p pa n : Nat) :
    (v.beside qs cs ts).madeAt p pa n = (v.madeAt p pa n).beside qs cs ts := by
  refine foldl_beside (fun v a => ?_) _ v
  dsimp only
  split
  · rfl
  · have hlog := logE2e_beside { v with checks := v.checks.filter fun x => x.1 != a } qs cs ts 3 0 a p
    exact (congrArg (fun u => Device.markPoison u .phys a 64) hlog).trans (markPoison_beside _ qs cs ts .phys a 64)

theorem publishAs_beside (v : Device) (qs : List HwQueue) (cs : List Combine) (ts : List TaskSlot) (p : Party) (scope pa : Nat) (bs : List Byte) :
    (v.beside qs cs ts).publishAs p scope pa bs = (v.publishAs p scope pa bs).beside qs cs ts := by
  have hmade : (if scope < 3 then v.beside qs cs ts else (v.beside qs cs ts).madeAt ((v.beside qs cs ts).partyPart p) pa bs.length) =
      (if scope < 3 then v else v.madeAt (v.partyPart p) pa bs.length).beside qs cs ts := by
    split
    · rfl
    · exact madeAt_beside ..
  unfold Device.publishAs
  rw [hmade]
  rfl

theorem reach_beside (v : Device) (qs : List HwQueue) (cs : List Combine) (ts : List TaskSlot) (ctx : BitVec 12) (va : Addr) (k : Kind) (bs : List Byte) :
    (v.beside qs cs ts).reach ctx va k bs = v.reach ctx va k bs := by
  induction bs generalizing va with
  | nil => rfl
  | cons b bs ih => simp only [Device.reach, ih]; rfl

theorem writeAs_beside (v : Device) (qs : List HwQueue) (cs : List Combine) (ts : List TaskSlot) (p : Party) (scope : Nat) (ctx : BitVec 12) (va : Addr)
    (bs : List Byte) : (v.beside qs cs ts).writeAs p scope ctx va bs = (v.writeAs p scope ctx va bs).beside qs cs ts := by
  unfold Device.writeAs
  rw [reach_beside]
  refine foldl_beside (fun v x => ?_) _ v
  unfold Device.put
  split
  · exact publishAs_beside ..
  · rfl
  · rfl

/-! The slots beside which stores act alike. -/

/-- The slot `i` of partition `p`. -/
def TaskSlot.at (p i : Nat) (t : TaskSlot) : Bool := t.part == p && t.slot == i

/-- Two updates of a table commute where the updated elements' updates do and neither moves an element. -/
theorem updateFirst_comm {α : Type} {p q : α → Bool} {f g : α → α} (hf : ∀ x, q (f x) = q x) (hg : ∀ x, p (g x) = p x)
    (hfg : ∀ x, f (g x) = g (f x)) (xs : List α) : updateFirst p f (updateFirst q g xs) = updateFirst q g (updateFirst p f xs) := by
  induction xs with
  | nil => rfl
  | cons x xs ih =>
    by_cases hp : p x = true <;> by_cases hq : q x = true <;> simp [updateFirst, hp, hq, hf, hg, hfg, ih]

/-- A change of the slots that stores do not ask about: it keeps what places a footprint and goes beside the state kept. -/
structure Unasked (g : List TaskSlot → List TaskSlot) : Prop where
  find : ∀ p i ts, ((g ts).find? (TaskSlot.at p i)).map (fun t => (t.foot, t.info)) = (ts.find? (TaskSlot.at p i)).map fun t => (t.foot, t.info)
  kept : ∀ p i (h : Core → Core) ts, g (updateFirst (TaskSlot.at p i) (fun t => { t with kept := t.kept.map h }) ts) =
    updateFirst (TaskSlot.at p i) (fun t => { t with kept := t.kept.map h }) (g ts)

theorem unasked_id : Unasked id := ⟨fun _ _ _ => rfl, fun _ _ _ _ => rfl⟩

/-- An item that a wait has been given is taken from its slot (R48). -/
def takeGiven (p i : Nat) (ts : List TaskSlot) : List TaskSlot := updateFirst (TaskSlot.at p i) (fun t => { t with deqtGot := none }) ts

theorem unasked_takeGiven (p i : Nat) : Unasked (takeGiven p i) := by
  refine ⟨fun q j ts => ?_, fun q j h ts => updateFirst_comm (p := TaskSlot.at p i) (q := TaskSlot.at q j)
    (f := fun t => { t with deqtGot := none }) (g := fun t => { t with kept := t.kept.map h }) (fun _ => rfl) (fun _ => rfl) (fun _ => rfl) ts⟩
  induction ts with
  | nil => rfl
  | cons t ts ih =>
    simp only [takeGiven] at ih ⊢
    by_cases hp : TaskSlot.at p i t = true
    · rw [updateFirst, if_pos hp, List.find?_cons, List.find?_cons]
      show Option.map _ (match TaskSlot.at q j t with | true => _ | false => _) = _
      cases TaskSlot.at q j t <;> rfl
    · rw [updateFirst, if_neg hp, List.find?_cons, List.find?_cons]
      cases TaskSlot.at q j t
      · exact ih
      · rfl

/-- What stands beside the stores of a unit: its wait in a DEQT, its sticky flags, the queues and the given items. -/
structure Beside where
  deqtAt   : Option (Nat × Bool)
  sticky   : BitVec 11
  flagsNow : BitVec 11
  queues   : List HwQueue
  combines : List Combine
  slots    : List TaskSlot → List TaskSlot

def Core.beside (c : Core) (b : Beside) : Core := { c with deqtAt := b.deqtAt, sticky := b.sticky, flagsNow := b.flagsNow }

/-- The state with other values beside the stores. -/
def State.beside (s : State) (b : Beside) : State := { s with core := s.core.beside b, dev := s.dev.beside b.queues b.combines (b.slots s.dev.slots) }

section Beside
variable {b : Beside} (hb : Unasked b.slots)
include hb

theorem slotOf_beside (s : State) (p i : Nat) : ((s.beside b).dev.slotOf p i).map (fun t => (t.foot, t.info)) =
    (s.dev.slotOf p i).map fun t => (t.foot, t.info) := hb.find p i s.dev.slots

theorem storeSpad_beside (s : State) (p i x : Nat) (bs : List Byte) : (s.beside b).storeSpad p i x bs = (s.storeSpad p i x bs).beside b := by
  have hres : (s.beside b).residentOf p i = s.residentOf p i := rfl
  dsimp only [State.storeSpad]
  rw [hres]
  split
  · rename_i u _
    by_cases hu : s.focus = u
    · simp only [State.setCore, State.getCore, State.beside, hu, if_true]
      rfl
    · simp only [State.setCore, State.getCore, State.beside, hu, if_false]
  · have hslot := slotOf_beside hb s p i
    cases hs : s.dev.slotOf p i with
    | none =>
      rw [hs, Option.map_none, Option.map_eq_none_iff] at hslot
      rw [hslot]
    | some t =>
      rw [hs, Option.map_some] at hslot
      obtain ⟨t', ht', he⟩ := Option.map_eq_some_iff.mp hslot
      obtain ⟨hfoot, hinfo⟩ := Prod.mk.inj he
      rw [ht']
      dsimp only
      rw [hfoot, hinfo]
      split
      · have hts := (writeAs_tables s.dev .device 5 (s.dev.part p).ctx (t.info.spill + BitVec.ofNat 80 (0x1000 + x)) bs).slots
        exact congrArg (fun v => ({ s.beside b with dev := v } : State)) ((writeAs_beside ..).trans (by rw [← hts]; rfl))
      · exact congrArg (fun ts => ({ s.beside b with dev := s.dev.beside b.queues b.combines ts } : State)) (hb.kept p i _ s.dev.slots).symm

omit hb in
theorem ownStore_beside (s : State) (x n : Nat) : (s.beside b).ownStore x n = (s.ownStore x n).beside b := by
  have hfar : (s.beside b).dev.far = s.dev.far := rfl
  have htask : (s.beside b).core.task = s.core.task := rfl
  dsimp only [State.ownStore]
  rw [htask, hfar]
  split
  · split <;> rfl
  · rfl

theorem perform_beside (s : State) (p : Piece) : (s.beside b).perform p = (s.perform p).beside b := by
  dsimp only [State.perform]
  split
  · rfl
  · rw [ownStore_beside]
    rfl
  · rw [storeSpad_beside hb]
    rfl
  · rfl
  · rfl

theorem performAll_beside (ps : List Piece) (s : State) : (s.beside b).performAll ps = (s.performAll ps).beside b := by
  induction ps generalizing s with
  | nil => rfl
  | cons p ps ih => exact (congrArg (·.performAll ps) (perform_beside hb s p)).trans (ih _)

theorem commitSeg_beside (s : State) : (s.beside b).commitSeg = s.commitSeg.beside b := by
  have hseg : (s.beside b).core.seg = s.core.seg := rfl
  unfold State.commitSeg
  rw [hseg]
  split
  · rfl
  · exact performAll_beside hb s.core.heldPieces (s.upd fun c => { c with seg := none, landing := [] })

end Beside

end Sys2Proof.Machine
end

section
/-! O43: what the commit of a segment and an acquire leave alone of a task that takes an item (R118, R122, R336, R375). -/

namespace Sys2Proof.Machine

theorem perform_seg (s : State) (p : Piece) : (s.perform p).core.seg = s.core.seg := by
  have hspad : ∀ q i x bs, (s.storeSpad q i x bs).core.seg = s.core.seg := fun q i x bs => by
    dsimp only [State.storeSpad]
    split
    · unfold State.setCore
      split
      · rename_i e
        simp only [State.getCore, if_pos e]
      · rfl
    · split
      · rfl
      · split <;> rfl
  have hown : ∀ x n, (s.ownStore x n).core.seg = s.core.seg := fun x n => by
    dsimp only [State.ownStore]
    split
    · split <;> rfl
    · rfl
  dsimp only [State.perform]
  split
  · rfl
  · exact hown ..
  · exact hspad ..
  · rfl
  · rfl

theorem commitSeg_closes (s : State) : s.commitSeg.core.seg = none := by
  have perform : ∀ (ps : List Piece) (s : State), (s.performAll ps).core.seg = s.core.seg := fun ps => by
    induction ps with
    | nil => exact fun _ => rfl
    | cons p ps ih => exact fun s => (ih (s.perform p)).trans (perform_seg s p)
  unfold State.commitSeg
  split
  · assumption
  · exact perform ..

/-- What a commit leaves beside the stores. -/
def State.asIs (s : State) : Beside :=
  { deqtAt := s.core.deqtAt, sticky := s.core.sticky, flagsNow := s.core.flagsNow, queues := s.dev.queues, combines := s.dev.combines, slots := id }

theorem beside_asIs (s : State) : s.beside s.asIs = s := rfl

theorem commitSeg_asIs (s : State) : s.commitSeg = s.commitSeg.beside s.asIs := commitSeg_beside (b := s.asIs) unasked_id s

theorem commitSeg_combines (s : State) : s.commitSeg.dev.combines = s.dev.combines := by rw [commitSeg_asIs]; rfl

theorem commitSeg_queues (s : State) : s.commitSeg.dev.queues = s.dev.queues := (commitSeg_published s).queues

/-- The registers and the outstanding operations are those from before a commit, and so is the task. -/
theorem commitSeg_core (s : State) : s.commitSeg.core.task = s.core.task ∧ s.commitSeg.core.outst = s.core.outst ∧ s.commitSeg.core.s = s.core.s ∧
    s.commitSeg.core.sticky = s.core.sticky ∧ s.commitSeg.core.staint = s.core.staint := by
  obtain ⟨_, _, _, _, _, _, _, _, h⟩ := (commitSeg_published s).core
  rw [h]
  exact ⟨rfl, rfl, rfl, rfl, rfl⟩

theorem commitSeg_raise (s : State) (f : BitVec 11) : (s.upd fun c => c.raise f).commitSeg = s.commitSeg.upd fun c => c.raise f := by
  have hflags : s.commitSeg.core.flagsNow = s.core.flagsNow := by rw [commitSeg_asIs]; rfl
  have h := commitSeg_beside (b := { s.asIs with sticky := s.core.sticky ||| f, flagsNow := s.core.flagsNow ||| f }) unasked_id s
  refine h.trans ?_
  rw [commitSeg_asIs s]
  rfl

/-! An acquire (R122, R127). -/

/-- An acquire at a scope has ended taints and changed what the unit sees: nothing else of the core, and neither memory nor a table. -/
structure Acquired (n : Nat) (s t : State) : Prop where
  core   : ∃ l1 view phase bufs, t.core = { s.core with staint := s.core.staint.map (clearTaint n), ataint := s.core.ataint.map (clearTaint n)
                                                        l1 := l1, view := view, phase := phase, bufs := bufs }
  mem    : t.dev.mem = s.dev.mem
  queues : t.dev.queues = s.dev.queues
  slots  : t.dev.slots = s.dev.slots

theorem acquire_acquired (s : State) (n : Nat) : Acquired n s (s.acquire n) := by
  unfold State.acquire State.acquireAt State.invalidate
  dsimp only
  split <;> split <;> exact ⟨⟨_, _, _, _, rfl⟩, rfl, rfl, rfl⟩

end Sys2Proof.Machine
end

section
/-! O43: queue instructions (R48, R334 to R337). -/

namespace Sys2Proof.Machine

theorem hwq_key {v : Device} {p q : Nat} {h : HwQueue} (hq : v.hwq p q = some h) : h.part = p ∧ h.q = q := by
  have := List.find?_some (p := fun x : HwQueue => x.part == p && x.q == q) hq
  simpa using this

theorem hwq_updHwq {v : Device} {p q : Nat} {f : HwQueue → HwQueue} {h : HwQueue} (hq : v.hwq p q = some h)
    (hf : ∀ x, (f x).part = x.part ∧ (f x).q = x.q := by exact fun _ => ⟨rfl, rfl⟩) : (v.updHwq p q f).hwq p q = some (f h) :=
  (find?_updateFirst (fun x hx => by rw [(hf x).1, (hf x).2]; exact hx) v.queues).trans (congrArg (Option.map f) hq)

theorem hwq_updHwq_other {v : Device} {p q p' q' : Nat} {f : HwQueue → HwQueue} (hne : p' ≠ p ∨ q' ≠ q)
    (hf : ∀ x, (f x).part = x.part ∧ (f x).q = x.q := by exact fun _ => ⟨rfl, rfl⟩) : (v.updHwq p q f).hwq p' q' = v.hwq p' q' := by
  refine find?_updateFirst_other (fun x hx => ?_) v.queues
  rw [(hf x).1, (hf x).2]
  simp only [Bool.and_eq_true, beq_iff_eq] at hx
  rw [hx.1, hx.2]
  rcases hne with hne | hne <;> simp [hne.symm]

theorem hwq_queues {v u : Device} (h : u.queues = v.queues) (p q : Nat) : u.hwq p q = v.hwq p q := by rw [Device.hwq, h, Device.hwq]

section Task
variable {s : State} {o : XForm} {ti : TaskInfo} (ht : s.core.task = some ti)
include ht

theorem partition_task : s.partition = ti.part := by rw [State.partition, ht]

theorem withQueue_none {i : Instr} (hq : s.dev.hwq ti.part (s.core.queueNo o) = none) (f : HwQueue → State) :
    s.withQueue i o f = s.trapOp ILLOP i := by
  rw [State.withQueue, partition_task ht, hq]

theorem withQueue_some {i : Instr} {h : HwQueue} (hq : s.dev.hwq ti.part (s.core.queueNo o) = some h) (f : HwQueue → State) :
    s.withQueue i o f = f h := by
  rw [State.withQueue, partition_task ht, hq]

end Task

/-! Giving an item to a queue (R48, R335). -/

theorem enqueue_room {v : Device} {p q : Nat} {h : HwQueue} (hq : v.hwq p q = some h) (hw : h.waiters = []) (hr : h.items.length < h.cap)
    (x : Word) : v.enqueue p q x = some (v.updHwq p q fun y => { y with items := y.items ++ [x], waiters := [] }) := by
  simp only [Device.enqueue, hq, hw, List.dropWhile_nil, if_pos hr]

theorem enqueue_full {v : Device} {p q : Nat} {h : HwQueue} (hq : v.hwq p q = some h) (hw : h.waiters = []) (hr : h.cap ≤ h.items.length)
    (x : Word) : v.enqueue p q x = none := by
  simp only [Device.enqueue, hq, hw, List.dropWhile_nil, if_neg (Nat.not_lt.mpr hr)]

theorem enqueue_waiter {v : Device} {p q i : Nat} {rest : List Nat} {h : HwQueue} (hq : v.hwq p q = some h) (hw : h.waiters = i :: rest)
    (hon : v.waitsOn p q i = true) (x : Word) :
    v.enqueue p q x = some ((v.updHwq p q fun y => { y with waiters := rest }).giveItem p q i x) := by
  have hdrop : (i :: rest).dropWhile (fun i => !v.waitsOn p q i) = i :: rest := List.dropWhile_cons_of_neg (by simp [hon])
  simp only [Device.enqueue, hq, hw, hdrop]

section Enq
variable {s : State} {o : XForm} {ti : TaskInfo} (hin : inTask s) (hg : s.core.active o.g = true) (ht : s.core.task = some ti)
include hin hg ht

theorem queues_unset (hq : s.dev.hwq ti.part (s.core.queueNo o) = none) :
    illegal s (.enq o) 5 ∧ illegal s (.deq o) 5 ∧ illegal s (.deqt o) 5 ∧ illegal s (.qstat o) 5 := by
  refine ⟨illegal_of_trapOp rfl ?_, illegal_of_trapOp rfl ?_, illegal_of_trapOp rfl ?_, illegal_of_trapOp rfl ?_⟩
  · show execEnq o s = _
    rw [execEnq, ifAllowedG_inTask hin rfl hg, withQueue_none ht hq]
  · show execDeq o s = _
    rw [execDeq, ifAllowedG_inTask hin rfl hg, State.deq, withQueue_none ht hq]
  · show execDeqt o s = _
    rw [execDeqt, ifAllowedG_inTask hin rfl hg]
    simp only [withQueue_none ht hq, ite_self]
  · show execQstat o s = _
    rw [execQstat, ifAllowedG_inTask hin rfl hg, withQueue_none ht hq]

variable {h : HwQueue} (hq : s.dev.hwq ti.part (s.core.queueNo o) = some h)
include hq

theorem qstat_counts : exec (.qstat o) s = .next (s.sent 4 (.s o.d (BitVec.ofNat 64 (h.items.length + (h.cap - 1) % 2 ^ 16 * 2 ^ 32)) none)) := by
  show execQstat o s = _
  rw [execQstat, ifAllowedG_inTask hin rfl hg, withQueue_some ht hq, wS_eq_sent]

theorem enq_taken {v : Device} (he : s.commitSeg.dev.enqueue ti.part (s.core.queueNo o) (s.commitSeg.core.sreg o.a) = some v) :
    exec (.enq o) s =
      .next { s.commitSeg with dev := v, core := { s.commitSeg.core with outst := s.commitSeg.core.outst ++ [.queue o.d 1 none 0] } } := by
  obtain ⟨hp, hn⟩ := hwq_key hq
  show execEnq o s = _
  rw [execEnq, ifAllowedG_inTask hin rfl hg, withQueue_some ht hq, hp, hn]
  simp only [he]
  rfl

theorem enq_refused (he : s.commitSeg.dev.enqueue ti.part (s.core.queueNo o) (s.commitSeg.core.sreg o.a) = none) :
    exec (.enq o) s = .next { s.commitSeg with core := { s.commitSeg.core with outst := s.commitSeg.core.outst ++ [.queue o.d 0 none 0] } } := by
  obtain ⟨hp, hn⟩ := hwq_key hq
  show execEnq o s = _
  rw [execEnq, ifAllowedG_inTask hin rfl hg, withQueue_some ht hq, hp, hn]
  simp only [he]
  rfl

end Enq

/-- An item reaches a task that waits without being suspended (R336). -/
theorem giveItem_waiting {v : Device} {p q i : Nat} {y : TaskSlot} (hs : v.slotOf p i = some y) (hst : y.st ≠ 2) (x : Word) :
    let u := v.giveItem p q i x
    u.queues = v.queues ∧ u.slotOf p i = some { y with deqtQ := none, deqtGot := some (q, x) } := by
  simp only [Device.giveItem, hs, if_neg hst]
  exact ⟨rfl, slotOf_updSlot_some hs⟩

/-- An item reaches a suspended task in its register, and the task is READY (R35). -/
theorem giveItem_suspended {v : Device} {p q i : Nat} {y : TaskSlot} {k : Core} (hs : v.slotOf p i = some y) (hst : y.st = 2)
    (hk : y.kept = some k) (x : Word) :
    let u := v.giveItem p q i x
    u.queues = v.queues ∧ ∃ z, u.slotOf p i = some z ∧ z.st = 0 ∧ z.kept = some (k.setS y.dreg x none) := by
  simp only [Device.giveItem, hs, if_pos hst]
  exact ⟨(writeRecord_tables ..).queues, _, (slotOf_tables (writeRecord_tables ..) p i).trans (slotOf_readied_some (slotOf_updSlot_some hs)), rfl,
    by rw [hk, Option.map_some]⟩

end Sys2Proof.Machine
end

section
/-! O43: the items that DEQ and DEQT take (R48, R336). -/

namespace Sys2Proof.Machine

/-- A task that has committed its stores takes an item for its destinations, and acquires at DEVICE (R336). -/
def State.taken (s : State) (x : Word) (d : Reg) (a : Option Reg) : State :=
  ((s.upd fun c => { c with hold := none }).acquire 3).queueResult d x a 1

theorem takeItem_eq (s : State) (x : Word) (v : Device) (d : Reg) (a : Option Reg) :
    s.takeItem x v d a = ({ s with dev := v } : State).commitSeg.taken x d a := rfl

/-- What a taken item leaves. -/
structure Took (s u : State) (x : Word) (d : Reg) (a : Option Reg) : Prop where
  task   : u.core.task = s.core.task
  outst  : u.core.outst = s.core.outst ++ [.queue d x a 1]
  regs   : u.core.s = s.core.s
  hold   : u.core.hold = none
  sticky : u.core.sticky = s.core.sticky
  taints : u.core.staint = s.core.staint.map (clearTaint 3)
  mem    : u.dev.mem = s.dev.mem
  queues : u.dev.queues = s.dev.queues
  slots  : u.dev.slots = s.dev.slots

theorem taken_took (s : State) (x : Word) (d : Reg) (a : Option Reg) : Took s (s.taken x d a) x d a := by
  obtain ⟨⟨_, _, _, _, hcore⟩, hmem, hqueues, hslots⟩ := acquire_acquired (s.upd fun c => { c with hold := none }) 3
  constructor
  case mem => exact hmem
  case queues => exact hqueues
  case slots => exact hslots
  all_goals simp only [State.taken, State.queueResult, upd_core, hcore]

/-- An acquire at DEVICE has ended the taints of narrower scopes (R127). -/
theorem Took.untainted {s u : State} {x : Word} {d : Reg} {a : Option Reg} (h : Took s u x d a) (r : Reg) {k : Taint}
    (hk : s.core.staint[r.toNat]'r.isLt = some k) (h3 : k.scope.toNat ≤ 3) : u.core.staint[r.toNat]'r.isLt = none := by
  simp only [h.taints, Vector.getElem_map, hk, clearTaint, if_pos h3]

/-! The item that a queue has for a task. -/

theorem headItem_given {s : State} {ti : TaskInfo} {h : HwQueue} {x : Word} (ht : s.core.task = some ti) (hx : s.givenItem h.q = some x) :
    s.headItem h = some (x, s.dev.updSlot ti.part ti.slot fun y => { y with deqtGot := none }) := by
  simp only [State.headItem, hx, ht]

theorem headItem_queue {s : State} {h : HwQueue} (hx : s.givenItem h.q = none) : s.headItem h = s.dev.dequeue h.part h.q := by
  simp only [State.headItem, hx]

theorem dequeue_empty {v : Device} {p q : Nat} {h : HwQueue} (hq : v.hwq p q = some h) (hi : h.items = []) : v.dequeue p q = none := by
  simp only [Device.dequeue, hq, hi]

/-- The head of a queue that no combine buffer releases into. -/
theorem dequeue_head {v : Device} {p q : Nat} {h : HwQueue} {x : Word} {rest : List Word} (hq : v.hwq p q = some h) (hi : h.items = x :: rest)
    (hc : ∀ b ∈ v.combines, b.part = p → cmbQueue b.word ≠ q) :
    v.dequeue p q = some (x, v.updHwq p q fun y => { y with items := rest }) := by
  have hnone : (v.combines.filter fun c => c.part == p && cmbQueue c.word == q) = [] :=
    List.filter_eq_nil_iff.mpr fun b hb => by simpa using hc b hb
  have hrel : ∀ f, (v.updHwq p q f).cmbRelease p q = v.updHwq p q f := fun f => by
    show List.foldl _ _ (v.combines.filter fun c => c.part == p && cmbQueue c.word == q) = _
    rw [hnone, List.foldl_nil]
  simp only [Device.dequeue, hq, hi, hrel]

/-- The slot of a task shows whether a wait of it has been given an item. -/
theorem givenItem_slot {s : State} {ti : TaskInfo} (ht : s.core.task = some ti) (q : Nat) :
    s.givenItem q = ((s.dev.slotOf ti.part ti.slot).bind fun y => y.deqtGot.filter fun g : Nat × Word => g.1 == q).map Prod.snd := by
  simp only [State.givenItem, ht]

section Task
variable {s : State} {o : XForm} {ti : TaskInfo} {h : HwQueue} {x : Word} {v : Device} (hin : inTask s) (hg : s.core.active o.g = true)
  (ht : s.core.task = some ti) (hq : s.dev.hwq ti.part (s.core.queueNo o) = some h)
include ht hq

theorem deq_takes (hl : s.core.late = false) (hh : s.commitSeg.headItem h = some (x, v)) (i : Instr) :
    s.deq i o = (({ s.commitSeg with dev := v } : State)).taken x o.d none := by
  have hlate : s.commitSeg.core.late = false := by
    obtain ⟨_, _, _, _, _, _, _, _, h⟩ := (commitSeg_published s).core
    rw [h]; exact hl
  rw [State.deq, withQueue_some ht hq]
  simp only [hlate, hh, Bool.false_eq_true, if_false]
  rw [takeItem_eq, commitSeg_closed (s := { s.commitSeg with dev := v }) (commitSeg_closes s)]

include hin hg

theorem exec_deq_takes (hl : s.core.late = false) (hh : s.commitSeg.headItem h = some (x, v)) :
    exec (.deq o) s = .next ((({ s.commitSeg with dev := v } : State)).taken x o.d none) := by
  show execDeq o s = _
  rw [execDeq, ifAllowedG_inTask hin rfl hg, deq_takes ht hq hl hh]

/-- In Meridian mode DEQT sets NDET and takes the item as DEQ does (R336). -/
theorem exec_deqt_mer (hm : s.core.mer = true) (hl : s.core.late = false) (hh : s.commitSeg.headItem h = some (x, v)) :
    exec (.deqt o) s = .next ((({ s.commitSeg.upd (fun c => c.raise fNDET) with dev := v } : State)).taken x o.d none) := by
  have hraise := commitSeg_raise s fNDET
  have hd := deq_takes (s := s.upd fun c => c.raise fNDET) (o := o) ht hq hl (by rw [hraise]; exact hh) (.deqt o)
  show execDeqt o s = _
  rw [execDeqt, ifAllowedG_inTask hin rfl hg]
  simp only [hm, if_true, withQueue_some ht hq, hd, hraise]

theorem exec_deqt_takes (hm : s.core.mer = false) (hh : s.headItem h = some (x, v)) :
    exec (.deqt o) s = .next ((({ s.upd (fun c => { c with deqtAt := none }) with dev := v } : State)).commitSeg.taken x o.d (some o.a)) := by
  show execDeqt o s = _
  rw [execDeqt, ifAllowedG_inTask hin rfl hg]
  simp only [hm, withQueue_some ht hq, hh, Bool.false_eq_true, if_false]
  rfl

end Task

end Sys2Proof.Machine
end

section
/-! O43: a queue that has no item (R34, R48, R336). -/

namespace Sys2Proof.Machine

theorem slotOf_published {s t : State} (h : Published s t) (p i : Nat) :
    (t.dev.slotOf p i).map TaskSlot.bare = (s.dev.slotOf p i).map TaskSlot.bare := by
  have bare : ∀ ts : List TaskSlot, (ts.find? (TaskSlot.at p i)).map TaskSlot.bare = (ts.map TaskSlot.bare).find? (TaskSlot.at p i) := fun ts => by
    rw [List.find?_map]; rfl
  exact (bare _).trans ((congrArg _ h.slots).trans (bare _).symm)

/-- A task that waits on no queue leaves none (R48). -/
theorem leaveWait_idle {s : State} {ti : TaskInfo} {y : TaskSlot} (ht : s.core.task = some ti) (hy : s.dev.slotOf ti.part ti.slot = some y)
    (hw : y.deqtQ = none) : s.leaveWait = s := by
  simp only [State.leaveWait, ht, State.updDev, Device.leaveWait, hy, hw, Option.isSome_none, Bool.false_eq_true, if_false]

/-- A task that leaves the waiters of its queue waits on none. -/
theorem leaveWait_slot {v : Device} {p i : Nat} {y : TaskSlot} (hy : v.slotOf p i = some y) :
    ∃ z, (v.leaveWait p i).slotOf p i = some z ∧ z.deqtQ = none := by
  simp only [Device.leaveWait, hy]
  split
  · exact ⟨_, slotOf_updSlot_some (v := v.unwait p i) hy, rfl⟩
  · rename_i hw
    exact ⟨y, hy, by simpa using hw⟩

theorem givenItem_none {s : State} {ti : TaskInfo} {y : TaskSlot} (ht : s.core.task = some ti) (hy : s.dev.slotOf ti.part ti.slot = some y)
    (hn : y.deqtGot = none) (q : Nat) : s.givenItem q = none := by
  rw [givenItem_slot ht, hy, Option.bind_some, hn]
  rfl

theorem headItem_empty {s : State} {p q : Nat} {h : HwQueue} (hq : s.dev.hwq p q = some h) (hi : h.items = []) (hx : s.givenItem h.q = none) :
    s.headItem h = none := by
  obtain ⟨hp, hn⟩ := hwq_key hq
  rw [headItem_queue hx, dequeue_empty (by rw [hp, hn]; exact hq) hi]

section Task
variable {s : State} {o : XForm} {ti : TaskInfo} {h : HwQueue} (hin : inTask s) (hg : s.core.active o.g = true)
  (ht : s.core.task = some ti) (hq : s.dev.hwq ti.part (s.core.queueNo o) = some h) (hi : h.items = []) (hx : s.givenItem h.q = none)
  (hm : s.core.mer = false)
include ht hq hi hx hin hg hm

/-! DEQT on a queue that has no item begins its wait, goes on with it, or gives up (R336). -/

theorem deqt_givesUp (hd : s.core.deqtAt = none ∧ o.imm.toNat / 256 = 0 ∨ ∃ n, s.core.deqtAt = some (n, true)) :
    exec (.deqt o) s = .next ((s.leaveWait.syncPoint.upd fun c => { c with deqtAt := none }).queueResult o.d 0 (some o.a) 0) := by
  show execDeqt o s = _
  rw [execDeqt, ifAllowedG_inTask hin rfl hg]
  simp only [hm, withQueue_some ht hq, headItem_empty hq hi hx, Bool.false_eq_true, if_false]
  rcases hd with ⟨hd, hn⟩ | ⟨n, hd⟩
  · simp only [hd, hn, if_true]
  · simp only [hd]

theorem deqt_begins (hd : s.core.deqtAt = none) (hn : o.imm.toNat / 256 ≠ 0) :
    exec (.deqt o) s = .next ((s.joinQueue h).upd fun c => { c with deqtAt := some (c.wall + o.imm.toNat / 256, false) }).wait := by
  show execDeqt o s = _
  rw [execDeqt, ifAllowedG_inTask hin rfl hg]
  simp only [hm, withQueue_some ht hq, headItem_empty hq hi hx, hd, hn, Bool.false_eq_true, if_false]

theorem deqt_goesOn {n : Nat} (hd : s.core.deqtAt = some (n, false)) : exec (.deqt o) s = .next s.wait := by
  show execDeqt o s = _
  rw [execDeqt, ifAllowedG_inTask hin rfl hg]
  simp only [hm, withQueue_some ht hq, headItem_empty hq hi hx, hd, Bool.false_eq_true, if_false]

end Task

/-- A task joins the waiters of a queue, at the end of their order (R48). -/
theorem joinQueue_joins {s : State} {ti : TaskInfo} {h : HwQueue} {y : TaskSlot} (ht : s.core.task = some ti)
    (hy : s.dev.slotOf ti.part ti.slot = some y) (hw : y.deqtQ = none) (hn : y.deqtGot = none) :
    s.joinQueue h = s.updDev fun v => v.joinWait h.part h.q ti.slot := by
  simp [State.joinQueue, ht, hy, hw, hn]

theorem joinWait_joins {v : Device} {p q i : Nat} {h : HwQueue} {y : TaskSlot} (hq : v.hwq p q = some h) (hy : v.slotOf p i = some y) :
    (v.joinWait p q i).hwq p q = some { h with waiters := (h.waiters.filter fun j => j != i) ++ [i] } ∧
      (v.joinWait p q i).slotOf p i = some { y with deqtQ := some q } :=
  ⟨(hwq_queues (v := v.updHwq p q fun y => { y with waiters := y.waiters.filter (fun j => j != i) ++ [i] }) rfl p q).trans (hwq_updHwq hq),
    slotOf_updSlot_some (v := v.updHwq p q fun y => { y with waiters := y.waiters.filter (fun j => j != i) ++ [i] }) hy⟩

/-- The record of a task that suspends (R30, R36): its slot changes, its spill and its record are written, and it is dated. -/
def Device.recorded (v : Device) (t : TaskInfo) (f : TaskSlot → TaskSlot) (bs : List Byte) : Device :=
  let u := (((v.updSlot t.part t.slot f).writeVa (v.part t.part).ctx t.spill bs).readied t.part t.slot).writeRecord t.part t.slot
  { u with poison := u.poison.filter fun q => q.1 != Place.spad t.part t.slot || q.2.1 < t.foot }

/-- A record leaves the queues and the rest of the slot alone. -/
theorem recorded_leaves {v : Device} {t : TaskInfo} {y : TaskSlot} (hy : v.slotOf t.part t.slot = some y) {f : TaskSlot → TaskSlot}
    (hf : ∀ x, (f x).part = x.part ∧ (f x).slot = x.slot) (bs : List Byte) :
    (v.recorded t f bs).queues = v.queues ∧ ∃ a n, (v.recorded t f bs).slotOf t.part t.slot = some { f y with age := a, turn := n } := by
  have hupd := (slotOf_tables (writeAs_tables (v.updSlot t.part t.slot f) .device 5 (v.part t.part).ctx t.spill bs) t.part t.slot).trans
    (slotOf_updSlot_some hy hf)
  have hwrite := (writeAs_tables (v.updSlot t.part t.slot f) .device 5 (v.part t.part).ctx t.spill bs).queues
  unfold Device.recorded Device.writeVa
  generalize (v.updSlot t.part t.slot f).writeAs .device 5 (v.part t.part).ctx t.spill bs = w at hupd hwrite
  have hrec := slotOf_tables (writeRecord_tables (w.readied t.part t.slot) t.part t.slot) t.part t.slot
  exact ⟨(writeRecord_tables ..).queues.trans hwrite, _, _, (slotOf_slots rfl ..).trans (hrec.trans (slotOf_readied_some hupd))⟩

/-- The slot of a task that suspends (R31, R32): the state of its wait, and what it keeps. -/
def TaskSlot.suspended (x : TaskSlot) (w : State) (st why q : Nat) (d : Reg) : TaskSlot :=
  { x with st := st, why := why, qnum := q, dreg := d, cpos := w.core.pos, ckpt := false, foot := false, evt := w.core.evt, deqtQ := none,
           kept := some w.core.suspended, lastCore := match w.focus with | .core p => some p | .qp _ _ => none }

/-- A suspension on a queue whose task has been given no item meanwhile. -/
theorem suspendTask_eq {s w : State} {ti : TaskInfo} {z : TaskSlot} {why q : Nat} {d : Reg} (ht : s.core.task = some ti)
    (hw : (s.commitSeg.upd fun c => c.settle.endCharge).release 3 = w) (hz : w.dev.slotOf ti.part ti.slot = some z) (hgot : z.deqtGot = none) :
    s.suspendTask 2 why q d false =
      ({ w with dev := w.dev.recorded ti (fun x => x.suspended w 2 why q d) (spillHead w.core.suspended z.resumes) } : State).vacate := by
  simp only [State.suspendTask, ht, hw, hz, hgot]
  rfl

/-- A task that suspends on a queue leaves its core, and its slot holds the state of its wait (R34, R48). -/
theorem suspendTask_waits {s : State} {ti : TaskInfo} {y : TaskSlot} {why q : Nat} {d : Reg} (ht : s.core.task = some ti)
    (hy : s.dev.slotOf ti.part ti.slot = some y) (hn : y.deqtGot = none) :
    let u := s.suspendTask 2 why q d false
    u.core.task = none ∧ u.dev.queues = s.dev.queues ∧
      ∃ z, u.dev.slotOf ti.part ti.slot = some z ∧ z.st = 2 ∧ z.why = why ∧ z.qnum = q ∧ z.dreg = d := by
  have hcommit := commitSeg_published s
  have hrel := release_published (s.commitSeg.upd fun c => c.settle.endCharge) 3
  have hslot := (slotOf_published hrel ti.part ti.slot).trans (slotOf_published hcommit ti.part ti.slot)
  have hqueues := hrel.queues.trans hcommit.queues
  generalize hw : (s.commitSeg.upd fun c => c.settle.endCharge).release 3 = w at hslot hqueues
  rw [hy, Option.map_some] at hslot
  obtain ⟨z, hz, hbare⟩ := Option.map_eq_some_iff.mp hslot
  rw [suspendTask_eq ht hw hz ((congrArg TaskSlot.deqtGot hbare).trans hn)]
  have hf : ∀ x : TaskSlot, (x.suspended w 2 why q d).part = x.part ∧ (x.suspended w 2 why q d).slot = x.slot := fun _ => ⟨rfl, rfl⟩
  obtain ⟨hrq, a, n, hrs⟩ := recorded_leaves hz hf (spillHead w.core.suspended z.resumes)
  exact ⟨rfl, hrq.trans hqueues, _, hrs, rfl, rfl, rfl, rfl⟩

section Suspend
variable {s : State} {o : XForm} {ti : TaskInfo} {h : HwQueue} {y : TaskSlot} (hin : inTask s) (hg : s.core.active o.g = true)
  (ht : s.core.task = some ti) (hq : s.dev.hwq ti.part (s.core.queueNo o) = some h) (hi : h.items = []) (hx : s.givenItem h.q = none)
  (hy : s.dev.slotOf ti.part ti.slot = some y) (hw : y.deqtQ = none) (hn : y.deqtGot = none)
include hin hg ht hq hi hx hy hw hn

/-- DEQ of a queue that has no item: the task joins its waiters and suspends (R34, R48, R336). -/
theorem deq_suspends (hl : s.core.late = false) (hc : s.suspendCheck .x = none) (hout : s.core.outst = []) (hseg : s.core.seg = none) :
    exec (.deq o) s = .next ((s.updDev fun v => v.joinWait h.part h.q ti.slot).suspendTask 2 2 h.q o.d false) := by
  show execDeq o s = _
  rw [execDeq, ifAllowedG_inTask hin rfl hg, State.deq, withQueue_some ht hq, commitSeg_closed hseg]
  have hslot : slotOfOp (.deq o) = .x := rfl
  simp only [hl, headItem_empty hq hi hx, State.suspendOnQueue, State.suspendPoint, hin.2, hslot, hc, hout, List.isEmpty_nil,
    joinQueue_joins ht hy hw hn, Bool.false_eq_true, if_false, if_true]

theorem deq_waits (hl : s.core.late = false) (hc : s.suspendCheck .x = none) (hout : s.core.outst = []) (hseg : s.core.seg = none)
    (hnot : ti.slot ∉ h.waiters) :
    ∃ u z g, exec (.deq o) s = .next u ∧ u.core.task = none ∧ u.dev.slotOf ti.part ti.slot = some z ∧ z.st = 2 ∧ z.why = 2 ∧
      z.qnum = s.core.queueNo o ∧ z.dreg = o.d ∧ u.dev.hwq ti.part (s.core.queueNo o) = some g ∧ g.waiters = h.waiters ++ [ti.slot] ∧ g.items = [] := by
  obtain ⟨hp, hno⟩ := hwq_key hq
  obtain ⟨hjq, hjs⟩ := joinWait_joins hq hy
  have hfilter : h.waiters.filter (fun j => j != ti.slot) = h.waiters :=
    List.filter_eq_self.mpr fun j hj => bne_iff_ne.mpr fun e => hnot (e ▸ hj)
  obtain ⟨htask, hqueues, z, hz, hst, hwhy, hqn, hd⟩ :=
    suspendTask_waits (s := s.updDev fun v => v.joinWait ti.part (s.core.queueNo o) ti.slot) (why := 2) (q := s.core.queueNo o) (d := o.d) ht hjs hn
  have he := deq_suspends hin hg ht hq hi hx hy hw hn hl hc hout hseg
  rw [hp, hno] at he
  exact ⟨_, z, _, he, htask, hz, hst, hwhy, hqn, hd, (hwq_queues hqueues ..).trans hjq, by rw [hfilter], hi⟩

end Suspend

/-! The events of queue instructions (R335, R336). -/

theorem deqtTimeout_over {s : State} {n : Nat} (hd : s.core.deqtAt = some (n, false)) (h : n ≤ s.core.wall) :
    exec .deqtTimeout s = .next (s.upd fun c => { c with deqtAt := some (n, true) }) := by
  show execDeqtTimeout s = _
  rw [execDeqtTimeout, hd]
  exact congrArg _ (if_pos h)

theorem deqtTimeout_early {s : State} {n : Nat} (hd : s.core.deqtAt = some (n, false)) (h : s.core.wall < n) : exec .deqtTimeout s = .next s := by
  show execDeqtTimeout s = _
  rw [execDeqtTimeout, hd]
  exact congrArg _ (if_neg (Nat.not_le.mpr h))

/-- A write of a scalar register keeps the other registers and the outstanding operations. -/
theorem setS_keeps (c : Core) (r : Reg) (v : Word) (t : Option Taint) :
    (c.setS r v t).a = c.a ∧ (c.setS r v t).v = c.v ∧ (c.setS r v t).outst = c.outst := by
  unfold Core.setS
  split <;> exact ⟨rfl, rfl, rfl⟩

/-- A scalar result that lands changes its register, and what the open segment restores (R375). -/
theorem landOutst_s (c : Core) (k : Nat) (r : Reg) (v : Word) :
    let u := c.landOutst k (.s r v none)
    u.s = (c.setS r v none).s ∧ u.a = c.a ∧ u.v = c.v ∧ u.outst = c.outst := by
  have keeps := setS_keeps c r v none
  unfold Core.landOutst
  simp only [Core.land]
  repeat' split
  all_goals exact ⟨rfl, keeps⟩

theorem sreg_of_s {c d : Core} (h : c.s = d.s) (r : Reg) : c.sreg r = d.sreg r := by rw [Core.sreg, h, Core.sreg]

theorem merLate_eq (s : State) : s.merLate = { s with dev := s.merLate.dev } := by
  unfold State.merLate
  split
  · rfl
  · split
    · split <;> rfl
    · rfl

/-- What the results of a queue instruction leave of a core: the values of its two registers, and an operation less. -/
def Core.queueLanded (c : Core) (k : Nat) (d : Reg) (v : Word) (a : Option Reg) (st : Word) : Core :=
  let c := c.landOutst k (.s d v none)
  (match a with | some r => c.landOutst k (.s r st none) | none => c).dropOutst k

theorem queueLanded_core (c : Core) (k : Nat) {d : Reg} (hd : d ≠ 0) (v : Word) (a : Option Reg) (st : Word) :
    let u := c.queueLanded k d v a st
    u.outst = c.outst.eraseIdx k ∧ u.a = c.a ∧ u.v = c.v ∧ (a ≠ some d → u.sreg d = v) ∧ (∀ r, a = some r → r ≠ 0 → u.sreg r = st) ∧
      ∀ r, r ≠ d → a ≠ some r → u.sreg r = c.sreg r := by
  obtain ⟨hs, ha, hv, ho⟩ := landOutst_s c k d v
  cases a with
  | none =>
    exact ⟨congrArg (·.eraseIdx k) ho, ha, hv, fun _ => (sreg_of_s hs d).trans (sreg_setS_same c hd v none), fun r h => (by cases h),
      fun r hr _ => (sreg_of_s hs r).trans (sreg_setS_other c hr v none)⟩
  | some q =>
    obtain ⟨hs', ha', hv', ho'⟩ := landOutst_s (c.landOutst k (.s d v none)) k q st
    have other : ∀ r, r ≠ q → (c.queueLanded k d v (some q) st).sreg r = (c.setS d v none).sreg r := fun r hr =>
      ((sreg_of_s hs' r).trans (sreg_setS_other _ hr st none)).trans (sreg_of_s hs r)
    refine ⟨congrArg (·.eraseIdx k) (ho'.trans ho), ha'.trans ha, hv'.trans hv, fun hne => ?_, fun r hr hr0 => ?_, fun r hr hne => ?_⟩
    · exact (other d fun e => hne (e ▸ rfl)).trans (sreg_setS_same c hd v none)
    · rw [← Option.some.inj hr] at hr0 ⊢
      exact (sreg_of_s hs' q).trans (sreg_setS_same _ hr0 st none)
    · exact (other r fun e => hne (e ▸ rfl)).trans (sreg_setS_other c hr v none)

theorem queueResult_lands {s : State} {d : Reg} {v : Word} {a : Option Reg} {st : Word}
    (hq : s.core.outst[s.ev.index]? = some (.queue d v a st)) :
    exec .queueResultReturn s = .next (s.merLate.upd fun c => c.queueLanded s.ev.index d v a st) := by
  show execQueueResultReturn s = _
  have hcore : s.merLate.core = s.core := by rw [merLate_eq]
  have hev : s.merLate.ev = s.ev := by rw [merLate_eq]
  simp only [execQueueResultReturn, hcore, hev, hq]
  rfl

end Sys2Proof.Machine
end

section
/-! O43: the clauses of the queue instructions (R48, R334 to R337). -/

namespace Sys2Proof.Machine

/-- `w` is the committed state `t` with the flags `fl` raised and an item taken out of the tables. -/
structure TakesFrom (t w : State) (fl : BitVec 11) : Prop where
  task   : w.core.task = t.core.task
  outst  : w.core.outst = t.core.outst
  regs   : w.core.s = t.core.s
  sticky : w.core.sticky = t.core.sticky ||| fl
  taints : w.core.staint = t.core.staint
  mem    : w.dev.mem = t.dev.mem

theorem takesFrom_dev (t : State) (v : Device) (hv : v.mem = t.dev.mem) : TakesFrom t { t with dev := v } 0 :=
  ⟨rfl, rfl, rfl, BitVec.or_zero.symm, rfl, hv⟩

theorem takesFrom_raise (t : State) (v : Device) (hv : v.mem = t.dev.mem) : TakesFrom t { t.upd (fun c => c.raise fNDET) with dev := v } 0x400 :=
  ⟨rfl, rfl, rfl, rfl, rfl, hv⟩

/-- A commit beside other tables and without a DEQT's deadline differs from the commit in these alone. -/
theorem takesFrom_beside {s : State} {qs : List HwQueue} {g : List TaskSlot → List TaskSlot} (hb : Unasked g) :
    let b : Beside := { s.asIs with deqtAt := none, queues := qs, slots := g }
    TakesFrom s.commitSeg (s.beside b).commitSeg 0 ∧ (s.beside b).commitSeg.dev.queues = qs ∧
      (s.beside b).commitSeg.dev.slots = g s.commitSeg.dev.slots := by
  intro b
  obtain ⟨_, _, _, hsticky, _⟩ := commitSeg_core s
  rw [commitSeg_beside (b := b) hb s]
  exact ⟨⟨rfl, rfl, rfl, hsticky.symm.trans BitVec.or_zero.symm, rfl, rfl⟩, rfl, rfl⟩

theorem commitSeg_hwq {s : State} {p q : Nat} {h : HwQueue} (hq : s.dev.hwq p q = some h) : s.commitSeg.dev.hwq p q = some h :=
  (hwq_queues (commitSeg_queues s) ..).trans hq

section Task
variable {s : State} {o : XForm} {ti : TaskInfo} {h : HwQueue} {x : Word} (hin : inTask s) (hg : s.core.active o.g = true)
  (ht : s.core.task = some ti) (hq : s.dev.hwq ti.part (s.core.queueNo o) = some h) (hl : s.core.late = false)
include hin hg ht hq hl

/-- The head of a queue is taken by DEQ, by DEQT, and by DEQT in Meridian mode, which sets NDET (R336). -/
theorem head_taken {rest : List Word} (hi : h.items = x :: rest) (hs : s.givenItem (s.core.queueNo o) = none)
    (hn : s.commitSeg.givenItem (s.core.queueNo o) = none)
    (hc : ∀ b ∈ s.commitSeg.dev.combines, b.part = ti.part → cmbQueue b.word ≠ s.core.queueNo o) :
    let qs := (s.commitSeg.dev.updHwq ti.part (s.core.queueNo o) fun y => { y with items := rest }).queues
    let taken (i : Instr) (a : Option Reg) (fl : BitVec 11) : Prop :=
      ∃ w : State, exec i s = .next (w.taken x o.d a) ∧ TakesFrom s.commitSeg w fl ∧ w.dev.queues = qs
    taken (.deq o) none 0 ∧ (s.core.mer = false → taken (.deqt o) (some o.a) 0) ∧ (s.core.mer = true → taken (.deqt o) none 0x400) := by
  obtain ⟨hp, hno⟩ := hwq_key hq
  have head : ∀ u : State, u.givenItem (s.core.queueNo o) = none → u.dev.hwq ti.part (s.core.queueNo o) = some h →
      (∀ b ∈ u.dev.combines, b.part = ti.part → cmbQueue b.word ≠ s.core.queueNo o) →
      u.headItem h = some (x, u.dev.updHwq ti.part (s.core.queueNo o) fun y => { y with items := rest }) := fun u hu hq hc => by
    rw [headItem_queue (by rw [hno]; exact hu), hp, hno, dequeue_head hq hi hc]
  have hh := head s.commitSeg hn (commitSeg_hwq hq) hc
  refine ⟨⟨_, exec_deq_takes hin hg ht hq hl hh, takesFrom_dev _ _ rfl, rfl⟩, fun hm => ?_, fun hm =>
    ⟨_, exec_deqt_mer hin hg ht hq hm hl hh, takesFrom_raise _ _ rfl, rfl⟩⟩
  have hsh := head s hs hq (commitSeg_combines s ▸ hc)
  obtain ⟨htakes, hqueues, -⟩ := takesFrom_beside (s := s)
    (qs := (s.dev.updHwq ti.part (s.core.queueNo o) fun y => { y with items := rest }).queues) unasked_id
  refine ⟨_, exec_deqt_takes hin hg ht hq hm hsh, htakes, hqueues.trans ?_⟩
  simp only [Device.updHwq, commitSeg_queues]

/-- An item that a wait of the task has been given comes before the queue's (R48). -/
theorem given_taken (hs : s.givenItem (s.core.queueNo o) = some x) (hn : s.commitSeg.givenItem (s.core.queueNo o) = some x) :
    ∀ i ∈ [Instr.deq o, .deqt o], ∃ (w : State) (a : Option Reg) (fl : BitVec 11), exec i s = .next (w.taken x o.d a) ∧ TakesFrom s.commitSeg w fl ∧
      w.dev.queues = s.commitSeg.dev.queues ∧ w.dev.slots = takeGiven ti.part ti.slot s.commitSeg.dev.slots := by
  obtain ⟨_, hno⟩ := hwq_key hq
  have htc : s.commitSeg.core.task = some ti := (commitSeg_core s).1.trans ht
  have hh := headItem_given (h := h) htc (by rw [hno]; exact hn)
  simp only [List.forall_mem_cons, List.not_mem_nil, false_imp_iff, implies_true, and_true]
  refine ⟨⟨_, _, _, exec_deq_takes hin hg ht hq hl hh, takesFrom_dev _ _ rfl, rfl, rfl⟩, ?_⟩
  cases hm : s.core.mer with
  | true => exact ⟨_, _, _, exec_deqt_mer hin hg ht hq hm hl hh, takesFrom_raise _ _ rfl, rfl, rfl⟩
  | false =>
    have hsh := headItem_given (h := h) ht (by rw [hno]; exact hs)
    obtain ⟨htakes, hqueues, hslots⟩ := takesFrom_beside (s := s) (qs := s.dev.queues) (unasked_takeGiven ti.part ti.slot)
    exact ⟨_, _, _, exec_deqt_takes hin hg ht hq hm hsh, htakes, hqueues.trans (commitSeg_queues s).symm, hslots⟩

end Task

theorem gaveUp_eq (s : State) (d a : Reg) : (s.syncPoint.upd fun c => { c with deqtAt := none }).queueResult d 0 (some a) 0 =
    { s.commitSeg with core := { s.commitSeg.core with deqtAt := none, hold := none,
                                                       outst := s.commitSeg.core.outst ++ [.queue d 0 (some a) 0] } } := by
  unfold State.syncPoint
  generalize s.commitSeg = t
  rfl

theorem taken_hwq (w : State) (x : Word) (d : Reg) (a : Option Reg) (p q : Nat) : (w.taken x d a).dev.hwq p q = w.dev.hwq p q :=
  hwq_queues (taken_took w x d a).queues p q

/-- An item that has been taken from its slot is there no more. -/
theorem taken_givenItem {w : State} {ti : TaskInfo} {ts : List TaskSlot} (ht : w.core.task = some ti) (hw : w.dev.slots = takeGiven ti.part ti.slot ts)
    (x : Word) (d : Reg) (a : Option Reg) (q : Nat) : (w.taken x d a).givenItem q = none := by
  have took := taken_took w x d a
  have hslot : (w.taken x d a).dev.slotOf ti.part ti.slot = (ts.find? (TaskSlot.at ti.part ti.slot)).map fun t => { t with deqtGot := none } := by
    rw [Device.slotOf, took.slots, hw]
    exact find?_updateFirst (p := TaskSlot.at ti.part ti.slot) (f := fun t => { t with deqtGot := none }) (fun _ h => h) ts
  rw [givenItem_slot (took.task.trans ht), hslot]
  cases ts.find? (TaskSlot.at ti.part ti.slot) <;> rfl

/-- A task that gives up the wait of a DEQT gets zeros, and is no waiter (R336). -/
theorem gaveUp {s : State} {o : XForm} {ti : TaskInfo} {y : TaskSlot} (ht : s.core.task = some ti) (hy : s.dev.slotOf ti.part ti.slot = some y)
    (he : exec (.deqt o) s = .next ((s.leaveWait.syncPoint.upd fun c => { c with deqtAt := none }).queueResult o.d 0 (some o.a) 0)) :
    ∃ u, exec (.deqt o) s = .next u ∧ u.core.outst = s.commitSeg.core.outst ++ [.queue o.d 0 (some o.a) 0] ∧ u.core.deqtAt = none ∧
      u.core.s = s.commitSeg.core.s ∧ ∀ z, u.dev.slotOf ti.part ti.slot = some z → z.deqtQ = none := by
  have hleft : s.leaveWait = s.updDev fun v => v.leaveWait ti.part ti.slot := by rw [State.leaveWait, ht]
  obtain ⟨z, hz, hnone⟩ := leaveWait_slot hy
  have hslot := slotOf_published (commitSeg_published s.leaveWait) ti.part ti.slot
  obtain ⟨_, hout, hs, _⟩ := commitSeg_core s
  obtain ⟨_, hout', hs', _⟩ := commitSeg_core s.leaveWait
  rw [gaveUp_eq] at he
  have hcore : s.leaveWait.core = s.core := by rw [hleft]; rfl
  rw [hcore] at hout' hs'
  refine ⟨_, he, congrArg (· ++ _) (hout'.trans hout.symm), rfl, hs'.trans hs.symm, fun w hw => ?_⟩
  have hw' : s.leaveWait.commitSeg.dev.slotOf ti.part ti.slot = some w := hw
  rw [hw', hleft, updDev_dev, hz, Option.map_some, Option.map_some, Option.some.injEq] at hslot
  exact (congrArg TaskSlot.deqtQ hslot).trans hnone

/-- Settles O43: ENQ by the queue's room and waiters (`enqueue_room`, `enqueue_waiter`), DEQ and DEQT by the item that they take
(`head_taken`, `given_taken`) or the wait that they begin (`deqt_begins`, `deq_waits`), and the events by `queueLanded_core`. -/
theorem queueInstructionsMoveItems : Obligations.QueueInstructionsMoveItems := by
  unfold Obligations.QueueInstructionsMoveItems
  intro s o ti hin hg ht c t p q item alone
  have htask : t.core.task = some ti := (commitSeg_core s).1.trans ht
  have hno : ∀ {h : HwQueue}, s.dev.hwq p q = some h → s.givenItem q = none → s.givenItem h.q = none := fun hq hx => by rwa [(hwq_key hq).2]
  refine ⟨queues_unset hin hg ht, fun h hq htq => ⟨fun hw hr => ?_, fun hw hr => ?_, fun i rest y hw hy hst hqy => ?_,
    fun i rest y k hw hy hst hqn hk hd => ?_, fun x rest hi hs hn hl hc => ?_, fun x hn hs hl i hmem => ?_,
    fun y hi hx hm hy hgot => ⟨fun hd hwy hn => ?_, fun hd hwy hn => ?_, fun n hd => ?_, fun n hd => ?_⟩,
    fun hi hx hnot hl hc hout hseg _ _ _ y hy hwy hgot => ?_, qstat_counts hin hg ht hq⟩, fun n hd => ⟨deqtTimeout_over hd, deqtTimeout_early hd⟩,
    fun d v a st hout hd => ?_⟩
  · have he := enqueue_room htq hw hr item
    refine ⟨_, enq_taken hin hg ht hq he, (hwq_updHwq htq).trans (by rw [hw]), fun p' q' hne => hwq_updHwq_other hne, rfl, rfl⟩
  · exact enq_refused hin hg ht hq (enqueue_full htq hw hr item)
  · have hon : t.dev.waitsOn p q i = true := by simp [Device.waitsOn, hy, hqy]
    obtain ⟨hqueues, hslot⟩ := giveItem_waiting (v := t.dev.updHwq p q fun y => { y with waiters := rest }) (q := q) hy hst item
    exact ⟨_, enq_taken hin hg ht hq (enqueue_waiter htq hw hon item), (hwq_queues hqueues p q).trans (hwq_updHwq htq), hslot⟩
  · have hon : t.dev.waitsOn p q i = true := by simp [Device.waitsOn, hy, hst, hqn]
    obtain ⟨hqueues, z, hz, hzst, hzk⟩ := giveItem_suspended (v := t.dev.updHwq p q fun y => { y with waiters := rest }) (q := q) hy hst hk item
    exact ⟨_, z, _, enq_taken hin hg ht hq (enqueue_waiter htq hw hon item), (hwq_queues hqueues p q).trans (hwq_updHwq htq), hz, hzst, hzk,
      sreg_setS_same k hd item none, fun r hr => sreg_setS_other k hr item none⟩
  · intro taken
    have finish : ∀ (i : Instr) (a : Option Reg) (fl : BitVec 11), (∃ w : State, exec i s = .next (w.taken x o.d a) ∧ TakesFrom s.commitSeg w fl ∧
        w.dev.queues = (s.commitSeg.dev.updHwq ti.part (s.core.queueNo o) fun y => { y with items := rest }).queues) → taken i a fl :=
      fun i a fl ⟨w, he, hw, hqueues⟩ => by
        have took := taken_took w x o.d a
        exact ⟨_, he, took.outst.trans (by rw [hw.outst]), (taken_hwq ..).trans ((hwq_queues hqueues p q).trans (hwq_updHwq htq)),
          fun p' q' hne => (taken_hwq ..).trans ((hwq_queues hqueues p' q').trans (hwq_updHwq_other hne)), took.regs.trans hw.regs, took.hold,
          took.sticky.trans hw.sticky, took.mem.trans hw.mem, fun r k hk h3 => took.untainted r (by rw [hw.taints]; exact hk) h3⟩
    obtain ⟨hdeq, hdeqt, hmer⟩ := head_taken hin hg ht hq hl hi hs hn hc
    exact ⟨finish _ _ _ hdeq, fun hm => finish _ _ _ (hdeqt hm), fun hm => finish _ _ _ (hmer hm)⟩
  · obtain ⟨w, a, fl, he, hw, hqueues, hslots⟩ := given_taken hin hg ht hq hl hs hn i hmem
    have took := taken_took w x o.d a
    exact ⟨_, a, fl, he, took.outst.trans (by rw [hw.outst]), (taken_hwq ..).trans ((hwq_queues hqueues p q).trans htq),
      taken_givenItem (hw.task.trans htask) hslots x o.d a q, took.regs.trans hw.regs, took.sticky.trans hw.sticky, took.mem.trans hw.mem⟩
  · have he := deqt_givesUp hin hg ht hq hi (hno hq hx) hm (.inl ⟨hd, hn⟩)
    rwa [leaveWait_idle ht hy hwy, gaveUp_eq] at he
  · obtain ⟨hjq, hjs⟩ := joinWait_joins hq hy
    have he := deqt_begins hin hg ht hq hi (hno hq hx) hm hd hn
    rw [joinQueue_joins ht hy hwy hgot, (hwq_key hq).1, (hwq_key hq).2] at he
    exact ⟨_, he, hjq, hjs, rfl⟩
  · exact deqt_goesOn hin hg ht hq hi (hno hq hx) hm hd
  · exact gaveUp ht hy (deqt_givesUp hin hg ht hq hi (hno hq hx) hm (.inr ⟨n, hd⟩))
  · exact deq_waits hin hg ht hq hi (hno hq hx) hy hwy hgot hl hc hout hseg hnot
  · obtain ⟨hout', ha, hv, hsd, hsa, hother⟩ := queueLanded_core s.core s.ev.index hd v a st
    have hcore : s.merLate.core = s.core := by rw [merLate_eq]
    refine ⟨_, queueResult_lands hout, rfl, ?_⟩
    rw [upd_core, hcore]
    exact ⟨hout', ha, hv, hsd, hsa, hother⟩

end Sys2Proof.Machine
end

section
/-! What a write to memory, an access of a unit and an acquire leave as they were: what the dispatcher keeps of the device, and what a task
has in its core (R118, R120, R418, R420). -/

namespace Sys2Proof.Machine

/-- What the dispatcher keeps: task slots, launches, the number of the next gang, forwarding entries; and the time. -/
structure Dispatch where
  slots    : List TaskSlot
  entries  : List SchedEntry
  nextGang : Nat
  forwards : List Forward
  time     : Nat

def Device.dispatch (v : Device) : Dispatch :=
  { slots := v.slots, entries := v.entries, nextGang := v.nextGang, forwards := v.forwards, time := v.time }

theorem slotOf_dispatch {v u : Device} (h : u.dispatch = v.dispatch) (p i : Nat) : u.slotOf p i = v.slotOf p i :=
  slotOf_slots (congrArg Dispatch.slots h) p i

theorem foldl_dispatch {α : Type} {f : Device → α → Device} (h : ∀ v x, (f v x).dispatch = v.dispatch) (xs : List α) (v : Device) :
    (xs.foldl f v).dispatch = v.dispatch := by
  induction xs generalizing v with
  | nil => rfl
  | cons x xs ih => exact (ih _).trans (h v x)

theorem log_dispatch (v : Device) (d code grade unit index : Nat) (p0 p1 : Word) (ctx part : Nat) :
    (v.log d code grade unit index p0 p1 ctx part).dispatch = v.dispatch := by
  simp only [Device.log]
  split <;> split <;> try split
  all_goals rfl

theorem madeAt_dispatch (v : Device) (p pa n : Nat) : (v.madeAt p pa n).dispatch = v.dispatch := by
  refine foldl_dispatch (fun v a => ?_) _ _
  dsimp only
  split
  · rfl
  · have marked : ∀ (u : Device) pl x n, (u.markPoison pl x n).dispatch = u.dispatch := fun u pl x n => by
      unfold Device.markPoison
      split <;> rfl
    exact (marked ..).trans (log_dispatch ..)

theorem publishAs_dispatch (v : Device) (p : Party) (scope pa : Nat) (bs : List Byte) : (v.publishAs p scope pa bs).dispatch = v.dispatch := by
  have h : (if scope < 3 then v else v.madeAt (v.partyPart p) pa bs.length).dispatch = v.dispatch := by
    split
    · rfl
    · exact madeAt_dispatch ..
  exact h

theorem writeAs_dispatch (v : Device) (p : Party) (scope : Nat) (ctx : BitVec 12) (va : Addr) (bs : List Byte) :
    (v.writeAs p scope ctx va bs).dispatch = v.dispatch := by
  refine foldl_dispatch (fun v x => ?_) _ _
  unfold Device.put
  split
  · exact publishAs_dispatch ..
  · rfl
  · rfl

theorem writeRecord_dispatch (v : Device) (p slot : Nat) : (v.writeRecord p slot).dispatch = v.dispatch := by
  unfold Device.writeRecord
  split
  · rfl
  · exact writeAs_dispatch ..

theorem orEntry_dispatch (v : Device) (pa bits : Nat) : (v.orEntry pa bits).dispatch = v.dispatch := by
  unfold Device.orEntry
  dsimp only
  split
  · rfl
  · exact publishAs_dispatch ..

theorem logWalk_dispatch (v : Device) (d unit index p : Nat) (ctx : BitVec 12) (va : Addr) : (v.logWalk d unit index p ctx va).dispatch = v.dispatch := by
  unfold Device.logWalk
  split
  · split
    · exact log_dispatch ..
    · rfl
  · rfl

/-- What a task has in its core: its registers, its position, and what decides where it goes on. -/
structure Running where
  task     : Option TaskInfo
  s        : Vector Word 32
  a        : Vector Addr 16
  sticky   : BitVec 11
  pos      : Nat
  evt      : Bool
  thandler : BitVec 32
  pstack   : List PredEntry

def Core.running (c : Core) : Running :=
  { task := c.task, s := c.s, a := c.a, sticky := c.sticky, pos := c.pos, evt := c.evt, thandler := c.thandler, pstack := c.pstack }

/-- The unit in focus, its task and the dispatcher's state: what an access leaves as it was. -/
structure Standing where
  focus    : Agent
  core     : Running
  dev      : Dispatch

def State.standing (s : State) : Standing := { focus := s.focus, core := s.core.running, dev := s.dev.dispatch }

theorem foldl_standing {α : Type} {f : State → α → State} (h : ∀ s x, (f s x).standing = s.standing) (xs : List α) (s : State) :
    (xs.foldl f s).standing = s.standing := by
  induction xs generalizing s with
  | nil => rfl
  | cons x xs ih => exact (ih _).trans (h s x)

theorem updDev_standing (s : State) {f : Device → Device} (h : (f s.dev).dispatch = s.dev.dispatch) : (s.updDev f).standing = s.standing :=
  congrArg (Standing.mk s.focus s.core.running) h

theorem cacheLeaf_standing (s : State) (c : Cached) (ns : List CachedNode) : (s.cacheLeaf c ns).standing = s.standing := by
  unfold State.cacheLeaf
  dsimp only
  split <;> rfl

theorem uncache_standing (s : State) (ctx : BitVec 12) (va : Addr) : (s.uncache ctx va).standing = s.standing := by
  unfold State.uncache
  dsimp only
  split <;> rfl

theorem fill_standing (s : State) (ctx : BitVec 12) (va : Addr) (k : Kind) : (s.fill ctx va k).standing = s.standing := by
  have walked : ∀ (t : State) a b, (t.updDev fun v => { v.orEntry a b with walks := v.walks + 1 }).standing = t.standing := fun t a b =>
    congrArg (Standing.mk t.focus t.core.running) (orEntry_dispatch t.dev a b)
  unfold State.fill
  dsimp only
  split
  · split
    · rfl
    · exact uncache_standing ..
  · refine (cacheLeaf_standing ..).trans ((walked _ _ _).trans ?_)
    split
    · rfl
    · exact uncache_standing ..

theorem touchPage_standing (s : State) (ctx : BitVec 12) (va : Addr) (k : Kind) : (s.touchPage ctx va k).standing = s.standing := by
  unfold State.touchPage
  split
  · exact fill_standing ..
  · split
    · exact (fill_standing ..).trans (uncache_standing ..)
    · split <;> rfl

theorem touch_standing (s : State) (as : Nat) (x : Int) (n : Nat) (k : Kind) : (s.touch as x n k).standing = s.standing := by
  unfold State.touch
  dsimp only
  split
  · split
    · exact (touchPage_standing ..).trans (touchPage_standing ..)
    · exact touchPage_standing ..
  · rfl

theorem failWalk_standing (s : State) (as : Nat) (x : Int) (code : Nat) : (s.failWalk as x code).standing = s.standing := by
  unfold State.failWalk
  dsimp only
  split
  · rfl
  · split
    · exact (updDev_standing _ (logWalk_dispatch ..)).trans (uncache_standing ..)
    · split
      · exact (fill_standing ..).trans (uncache_standing ..)
      · rfl

theorem saw_standing (s : State) (fl : List Nat) (n : Nat) (ps : List (Place × Nat)) : (s.saw fl n ps).standing = s.standing := by
  unfold State.saw
  split <;> rfl

theorem copyTouch_standing (s : State) (c : CopyDesc) (n : Nat) (fault : Option (Nat × Int × Nat)) : (s.copyTouch c n fault).standing = s.standing := by
  have touched := (foldl_standing (fun s k => (touch_standing _ c.dstSp (c.dstAt (c.start + k)) c.dsz .store).trans
    (touch_standing s c.srcSp (c.srcAt (c.start + k)) c.ssz .load)) (List.range n) (s.saw [] c.ssz (s.copyReads c n))).trans (saw_standing ..)
  unfold State.copyTouch
  dsimp only
  split
  · exact (failWalk_standing ..).trans touched
  · exact touched

theorem askRemote_standing (s : State) (kind : Nat) (c : CopyDesc) (r : CopyRun) : (s.askRemote kind c r).standing = s.standing := by
  unfold State.askRemote
  split <;> rfl

/-- The copies of a task that resumes are issued again beside its registers (R381). -/
theorem reissue_standing (s : State) : s.reissue.standing = s.standing := by
  refine foldl_standing (fun s k => ?_) _ s
  unfold State.reissueOne
  split
  · split
    · rfl
    · exact (askRemote_standing ..).trans (copyTouch_standing ..)
  · rfl

theorem acquireAt_standing (s : State) (u : Agent) (scope : Nat) : (s.acquireAt u scope).standing = s.standing := by
  unfold State.acquireAt State.invalidate
  dsimp only
  split
  · split <;> rfl
  · split <;> rfl

theorem acquire_standing (s : State) (scope : Nat) : (s.acquire scope).standing = s.standing := acquireAt_standing ..

end Sys2Proof.Machine
end

section
/-! Units in and out of focus; a core that a task takes; gangs that start and tasks that resume (R37, R41, R44, R407). -/

namespace Sys2Proof.Machine

theorem coreOf_setCoreOf (l : List (Agent × Core)) (u : Agent) (c : Core) : coreOf (setCoreOf l u c) u = c := by
  induction l with
  | nil => simp [setCoreOf, coreOf]
  | cons x l ih =>
    obtain ⟨w, d⟩ := x
    by_cases h : w = u <;> simp [setCoreOf, coreOf, h, ih]

theorem getCore_focus {s : State} {u : Agent} (h : s.focus = u) : s.getCore u = s.core := if_pos h

theorem getCore_setCore (s : State) (u : Agent) (c : Core) : (s.setCore u c).getCore u = c := by
  unfold State.setCore State.getCore
  by_cases h : s.focus = u <;> simp [h, coreOf_setCoreOf]

theorem setCore_dev (s : State) (u : Agent) (c : Core) : (s.setCore u c).dev = s.dev := by
  unfold State.setCore
  split <;> rfl

theorem refocus_self {s : State} {u : Agent} (h : s.focus = u) : s.refocus u = s := if_pos h

theorem refocus_focus (s : State) (u : Agent) : (s.refocus u).focus = u := by
  unfold State.refocus
  split
  · assumption
  · rfl

theorem refocus_core (s : State) (u : Agent) : (s.refocus u).core = s.getCore u := by
  unfold State.refocus State.getCore
  split <;> rfl

theorem refocus_dev (s : State) (u : Agent) : (s.refocus u).dev = s.dev := by
  unfold State.refocus
  split <;> rfl

theorem getCore_refocus {s : State} {u : Agent} (h : s.focus = u) (w : Agent) : (s.refocus w).getCore u = s.core := by
  unfold State.refocus State.getCore
  subst h
  split
  · rw [if_pos rfl]
  · rename_i hne
    rw [if_neg fun e => hne e.symm]
    exact coreOf_setCoreOf ..

theorem onUnit_dev (s : State) (u : Agent) (f : State → State) : (s.onUnit u f).dev = (f (s.refocus u)).dev := refocus_dev ..

theorem getCore_onUnit {s : State} {u : Agent} {f : State → State} (h : (f (s.refocus u)).focus = u) :
    (s.onUnit u f).getCore u = (f (s.refocus u)).core := getCore_refocus h _

/-- What is done on the unit in focus is done there. -/
theorem onUnit_focus {s w : State} {u : Agent} {f : State → State} (h : s.focus = u) (hw : f s = w) (hfocus : w.focus = s.focus) :
    s.onUnit u f = w := by
  unfold State.onUnit
  rw [refocus_self h, hw, refocus_self hfocus]

/-! Footprints that leave (R36, R40). -/

/-- The launches, and the number of the next gang. -/
def Device.launches (v : Device) : List SchedEntry × Nat := (v.entries, v.nextGang)

theorem launches_dispatch {v u : Device} (h : u.dispatch = v.dispatch) : u.launches = v.launches :=
  congrArg (fun d : Dispatch => (d.entries, d.nextGang)) h

theorem updSlot_dispatch {v u : Device} (h : u.dispatch = v.dispatch) (p i : Nat) (f : TaskSlot → TaskSlot) :
    (u.updSlot p i f).dispatch = (v.updSlot p i f).dispatch :=
  congrArg (fun d : Dispatch => { d with slots := updateFirst (fun t => t.part == p && t.slot == i) f d.slots }) h

/-- A task slot without the state that it keeps and the place of its footprint. -/
def TaskSlot.unkept (t : TaskSlot) : TaskSlot := { t with kept := none, foot := false }

theorem slotOf_unkept (v : Device) (p i : Nat) :
    (v.slotOf p i).map TaskSlot.unkept = (v.slots.map TaskSlot.unkept).find? fun t => t.part == p && t.slot == i := by
  rw [List.find?_map]
  rfl

/-- A slot whose footprint is in its spill area. -/
def TaskSlot.imaged (t : TaskSlot) : TaskSlot := { t with foot := true, kept := t.kept.map fun k => { k with spad := [] } }

/-- The device once the footprint of a slot that keeps `c` is in its spill area. -/
def Device.spilled (v : Device) (t : TaskSlot) (c : Core) : Device :=
  ((v.writeVa (v.part t.part).ctx (t.info.spill + 0x1000) (memRun c.spad 0 t.info.foot)).updSlot t.part t.slot TaskSlot.imaged).writeRecord t.part t.slot

theorem spilled_dispatch (v : Device) (t : TaskSlot) (c : Core) :
    (v.spilled t c).dispatch = (v.updSlot t.part t.slot TaskSlot.imaged).dispatch :=
  (writeRecord_dispatch ..).trans (updSlot_dispatch (writeAs_dispatch ..) ..)

theorem footOut_stays {t : TaskSlot} (h : t.kept = none ∨ t.foot = true) (v : Device) : v.footOut t = v := by
  unfold Device.footOut
  rcases h with h | h
  · rw [h]
  · split
    · rfl
    · exact if_pos h

theorem footOut_moves {t : TaskSlot} {c : Core} (hk : t.kept = some c) (hf : t.foot = false) (v : Device) :
    v.footOut t = t.lastCore.elim (v.spilled t c) fun p => (v.spilled t c).forward (.core p) t.part t.slot := by
  simp only [Device.footOut, hk, hf, Bool.false_eq_true, if_false]
  cases t.lastCore <;> rfl

theorem imaged_unkept (p : TaskSlot → Bool) (ts : List TaskSlot) :
    (updateFirst p TaskSlot.imaged ts).map TaskSlot.unkept = ts.map TaskSlot.unkept := by
  induction ts with
  | nil => rfl
  | cons t ts ih =>
    unfold updateFirst
    split
    · rfl
    · rw [List.map_cons, ih, List.map_cons]

/-- A footprint that leaves changes, of launches and slots, what a slot keeps alone. -/
theorem footOut_leaves (v : Device) (t : TaskSlot) :
    (v.footOut t).launches = v.launches ∧ (v.footOut t).slots.map TaskSlot.unkept = v.slots.map TaskSlot.unkept := by
  by_cases h : t.kept = none ∨ t.foot = true
  · rw [footOut_stays h]
    exact ⟨rfl, rfl⟩
  · obtain ⟨hk, hf⟩ := not_or.mp h
    obtain ⟨c, hk⟩ := Option.ne_none_iff_exists'.mp hk
    have hs := spilled_dispatch v t c
    have hl : (v.spilled t c).launches = v.launches := launches_dispatch (v := v.updSlot ..) hs
    have hm : (v.spilled t c).slots.map TaskSlot.unkept = v.slots.map TaskSlot.unkept :=
      (congrArg (fun d : Dispatch => d.slots.map TaskSlot.unkept) hs).trans (imaged_unkept ..)
    rw [footOut_moves hk (Bool.eq_false_iff.mpr hf)]
    cases t.lastCore <;> exact ⟨hl, hm⟩

theorem foldl_footOut (ts : List TaskSlot) (v : Device) : (ts.foldl Device.footOut v).launches = v.launches ∧
    (ts.foldl Device.footOut v).slots.map TaskSlot.unkept = v.slots.map TaskSlot.unkept := by
  induction ts generalizing v with
  | nil => exact ⟨rfl, rfl⟩
  | cons t ts ih =>
    obtain ⟨hl, hm⟩ := footOut_leaves v t
    obtain ⟨hl', hm'⟩ := ih (v.footOut t)
    exact ⟨hl'.trans hl, hm'.trans hm⟩

/-! A task takes a core (R27, R37, R38). -/

theorem putTask_leaves (s : State) (p : Nat) (t : TaskInfo) (c : Core) : (s.putTask p t c).dev.launches = s.dev.launches ∧
    (s.putTask p t c).dev.slots.map TaskSlot.unkept = s.dev.slots.map TaskSlot.unkept := by
  unfold State.putTask
  rw [setCore_dev]
  exact foldl_footOut ..

theorem putTask_running (s : State) (p : Nat) (t : TaskInfo) (c : Core) : ((s.putTask p t c).getCore (.core p)).running = c.running := by
  unfold State.putTask
  rw [getCore_setCore]
  rfl

theorem moveGang_slots (s : State) (t : TaskSlot) (k : Nat) :
    (s.moveGang t k).dev.slots.map TaskSlot.unkept = s.dev.slots.map TaskSlot.unkept := by
  unfold State.moveGang
  split
  · rfl
  · split
    · rfl
    · split
      · rfl
      · exact (foldl_footOut ..).2

/-- A unit out of focus acts beside its task and the dispatcher's state. -/
theorem onUnit_standing {s : State} {u : Agent} {f : State → State} (h : (f (s.refocus u)).standing = (s.refocus u).standing) :
    ((s.onUnit u f).getCore u).running = (s.getCore u).running ∧ (s.onUnit u f).dev.dispatch = s.dev.dispatch := by
  have hcore := congrArg Standing.core h
  have hdev := congrArg Standing.dev h
  have hfocus : (f (s.refocus u)).focus = u := (congrArg Standing.focus h).trans (refocus_focus s u)
  rw [getCore_onUnit hfocus, onUnit_dev]
  exact ⟨hcore.trans (congrArg Core.running (refocus_core s u)), hdev.trans (congrArg Device.dispatch (refocus_dev s u))⟩

end Sys2Proof.Machine
end

section
/-! O49: gangs start and tasks resume (R37, R41, R44, R49, R407). -/

namespace Sys2Proof.Machine

/-- The slot of a task that a core takes back. -/
def TaskSlot.resumed (x : TaskSlot) (p now : Nat) : TaskSlot :=
  { x with st := 1, why := 0, qnum := 0, dreg := 0, ckpt := false, foot := false, evt := false, kept := none, area := none, lastCore := some p,
           resumes := x.resumes + 1, age := now }

/-- The core that a task leaves for core `p` forwards, where its footprint stayed there (R40). -/
def Device.forwarded (v : Device) (t : TaskSlot) (p : Nat) : Device :=
  match t.lastCore with
  | some l => if l != p && !t.foot then v.forward (.core l) t.part t.slot else v
  | none => v

/-- The device once core `p` takes back the task of a slot. -/
def Device.resumed (v : Device) (t : TaskSlot) (p : Nat) : Device :=
  ((v.forwarded t p).started t.part t.info.lid (some t.slot)).updSlot t.part t.slot fun x => x.resumed p (v.forwarded t p).time

/-- What a task that is back on its core does first, its record intact. -/
def State.goesOn (s : State) (t : TaskSlot) : State :=
  (((match t.lastCore with | some l => s.acquireAt (.core l) 5 | none => s).acquire 5).reissue).updDev fun v => v.writeRecord t.part t.slot

section Resume
variable {s : State} {t : TaskSlot} {k : Core} {x : Nat} (hk : t.kept = some k) (hi : s.dev.recordIntact t = true) (hc : t.ckpt = false)
  (ha : t.area = none)
include hk hi hc ha

theorem resumeTask_eq : s.resumeTask t x =
    (((s.moveGang t (x / 128)).putTask x t.info ((s.moveGang t (x / 128)).dev.returning t k)).updDev fun v => v.resumed t x).onUnit (.core x)
      fun s => s.goesOn t := by
  have hthere : s.dev.areaThere t = true := by simp only [Device.areaThere, ha]
  simp only [State.resumeTask, hk, ha, hi, hthere, hc, Bool.and_self, Bool.not_true, Bool.false_eq_true, if_false]
  rfl

end Resume

theorem goesOn_standing (s : State) (t : TaskSlot) : (s.goesOn t).standing = s.standing := by
  have hacq : (match t.lastCore with | some l => s.acquireAt (.core l) 5 | none => s).standing = s.standing := by
    split
    · exact acquireAt_standing ..
    · rfl
  exact (updDev_standing _ (writeRecord_dispatch ..)).trans ((reissue_standing _).trans ((acquire_standing ..).trans hacq))

/-- The slot of a task that is taken back does not depend on what it kept. -/
theorem resumed_slotOf {v : Device} {t : TaskSlot} (h : (v.slotOf t.part t.slot).map TaskSlot.unkept = some t.unkept) (p : Nat) :
    ∃ now, (v.resumed t p).slotOf t.part t.slot = some (t.resumed p now) := by
  obtain ⟨x, hx, hxt⟩ := Option.map_eq_some_iff.mp h
  have hslot : ((v.forwarded t p).started t.part t.info.lid (some t.slot)).slotOf t.part t.slot = some x := by
    refine (slotOf_slots ?_ _ _).trans hx
    show (v.forwarded t p).slots = v.slots
    unfold Device.forwarded
    split
    · split <;> rfl
    · rfl
  have hr : x.unkept.resumed p (v.forwarded t p).time = t.unkept.resumed p (v.forwarded t p).time := congrArg (TaskSlot.resumed · p _) hxt
  exact ⟨_, (slotOf_updSlot_some hslot).trans (congrArg some hr)⟩

theorem unspill_running (c : Core) (bs : List Byte) : (c.unspill bs).running = c.running := rfl

/-- A suspended task comes back with its registers, at its position, without the event that woke it. -/
theorem returning_running {v : Device} {t : TaskSlot} (k : Core) (hc : t.ckpt = false) (ha : t.area = none) :
    (v.returning t k).running = { k.running with task := some t.info, pos := t.cpos, evt := t.evt && t.why != 3 } := by
  unfold Device.returning
  rw [ha, hc, Bool.false_or]
  dsimp only
  cases t.lastCore.isSome with
  | false => rfl
  | true => exact congrArg (fun r : Running => { r with task := some t.info, pos := t.cpos, evt := t.evt && t.why != 3 }) (unspill_running k _)

/-- Task `t` runs on core `x` again, with the registers of `k`, its slot as `y` (R37). -/
structure Resumed (u : State) (t : TaskSlot) (x : Nat) (k : Core) (y : TaskSlot) : Prop where
  core : (u.getCore (.core x)).running = { k.running with task := some t.info, pos := t.cpos, evt := t.evt && t.why != 3 }
  slot : u.dev.slotOf t.part t.slot = some y

theorem resumeTask_resumes {s : State} {t : TaskSlot} {k : Core} (x : Nat) (ht : s.dev.slotOf t.part t.slot = some t) (hk : t.kept = some k)
    (hi : s.dev.recordIntact t = true) (hc : t.ckpt = false) (ha : t.area = none) :
    ∃ now, Resumed (s.resumeTask t x) t x k (t.resumed x now) := by
  rw [resumeTask_eq hk hi hc ha]
  have hput := putTask_running (s.moveGang t (x / 128)) x t.info ((s.moveGang t (x / 128)).dev.returning t k)
  have hslot : (((s.moveGang t (x / 128)).putTask x t.info ((s.moveGang t (x / 128)).dev.returning t k)).dev.slotOf t.part t.slot).map
      TaskSlot.unkept = some t.unkept := by
    rw [slotOf_unkept, (putTask_leaves ..).2, moveGang_slots, ← slotOf_unkept, ht, Option.map_some]
  generalize (s.moveGang t (x / 128)).putTask x t.info ((s.moveGang t (x / 128)).dev.returning t k) = w at hput hslot ⊢
  obtain ⟨now, hnow⟩ := resumed_slotOf hslot x
  obtain ⟨hcore, hdev⟩ := onUnit_standing (s := w.updDev fun v => v.resumed t x) (u := .core x) (f := fun s => s.goesOn t) (goesOn_standing _ t)
  exact ⟨now, hcore.trans (hput.trans (returning_running k hc ha)), (slotOf_dispatch hdev ..).trans hnow⟩

/-! A gang starts (R41, R43, R44). -/

/-- The device once a task of a gang has its slot. -/
def Device.slotTaken (v : Device) (p : Nat) (t : TaskInfo) (core : Nat) : Device :=
  ((v.addSlot (TaskSlot.new t 1 none (some core))).readied p t.slot).writeRecord p t.slot

theorem addSlot_launches (v : Device) (x : TaskSlot) : (v.addSlot x).launches = v.launches := rfl

theorem readied_launches (v : Device) (p slot : Nat) : (v.readied p slot).launches = v.launches := rfl

theorem slotTaken_launches (v : Device) (p : Nat) (t : TaskInfo) (core : Nat) : (v.slotTaken p t core).launches = v.launches :=
  (launches_dispatch (writeRecord_dispatch ..)).trans ((readied_launches ..).trans (addSlot_launches ..))

theorem slotTaken_slotOf {v : Device} {t : TaskInfo} (h : v.slotOf t.part t.slot = none) (core : Nat) :
    ∃ y, (v.slotTaken t.part t core).slotOf t.part t.slot = some y ∧ y.st = 1 :=
  ⟨_, (slotOf_dispatch (writeRecord_dispatch ..) ..).trans (slotOf_readied_some (slotOf_addSlot (x := TaskSlot.new t 1 none (some core)) h)), rfl⟩

/-- A task of a gang takes its slot and its core, where it acquires. -/
def State.startTask (s : State) (p : Nat) (t : TaskInfo) (core : Nat) : State :=
  ((s.updDev fun v => v.slotTaken p t core).putTask core t (startCore t)).onUnit (.core core) fun s => s.acquire 5

theorem startTask_launches (s : State) (p : Nat) (t : TaskInfo) (core : Nat) : (s.startTask p t core).dev.launches = s.dev.launches := by
  unfold State.startTask
  have hput := (putTask_leaves (s.updDev fun v => v.slotTaken p t core) core t (startCore t)).1
  generalize (s.updDev fun v => v.slotTaken p t core).putTask core t (startCore t) = w at hput ⊢
  obtain ⟨_, hdev⟩ := onUnit_standing (s := w) (u := .core core) (f := fun s => s.acquire 5) (acquire_standing _ 5)
  exact (launches_dispatch hdev).trans (hput.trans (slotTaken_launches ..))

/-- The task is RUNNING on its core as it starts. -/
theorem startTask_runs {s : State} {t : TaskInfo} (h : s.dev.slotOf t.part t.slot = none) (core : Nat) :
    ((s.startTask t.part t core).getCore (.core core)).running = (startCore t).running ∧
      ((s.startTask t.part t core).dev.slotOf t.part t.slot).map TaskSlot.st = some 1 := by
  unfold State.startTask
  have hput := putTask_running (s.updDev fun v => v.slotTaken t.part t core) core t (startCore t)
  have hslots := (putTask_leaves (s.updDev fun v => v.slotTaken t.part t core) core t (startCore t)).2
  obtain ⟨x, hx, hst⟩ := slotTaken_slotOf h core
  generalize (s.updDev fun v => v.slotTaken t.part t core).putTask core t (startCore t) = w at hput hslots ⊢
  obtain ⟨hcore, hdev⟩ := onUnit_standing (s := w) (u := .core core) (f := fun s => s.acquire 5) (acquire_standing _ 5)
  refine ⟨hcore.trans hput, ?_⟩
  have hw : (w.dev.slotOf t.part t.slot).map TaskSlot.unkept = some x.unkept := by
    rw [slotOf_unkept, hslots, ← slotOf_unkept]
    exact congrArg _ hx
  obtain ⟨y, hy, hyx⟩ := Option.map_eq_some_iff.mp hw
  have hyst : y.unkept.st = x.unkept.st := congrArg TaskSlot.st hyx
  rw [slotOf_dispatch hdev, hy]
  exact congrArg some (hyst.trans hst)

/-- The device once a gang of a launch counts as started. -/
def Device.gangCounted (v : Device) (p : Nat) (e : SchedEntry) (g : Gang) (dome : Option (Nat × Nat)) : Device :=
  ({ v.started p e.lid none with nextGang := v.nextGang + 1, gangs := v.gangs ++ [g] } : Device).updEntry p e.lid
    fun y => { y with started := y.started + 1, dome := dome }

theorem noteStart_launches (v : Device) (p k gang : Nat) : (v.noteStart p k gang).launches = v.launches := by
  unfold Device.noteStart
  dsimp only
  split <;> rfl

theorem noteStart_slots (v : Device) (p k gang : Nat) : (v.noteStart p k gang).slots = v.slots := by
  unfold Device.noteStart
  dsimp only
  split <;> rfl

/-- The gang that a launch starts next on a cluster, in the lowest free slots. -/
def State.nextGangOf (s : State) (p : Nat) (e : SchedEntry) (k : Nat) : Gang :=
  { id := s.dev.nextGang, part := p, lid := e.lid, index := e.started, cluster := k, slots := (s.dev.freeSlots p).take (recGang e.record), ended := [],
    bars := List.replicate (recBarriers e.record) (0, []) }

theorem startGang_eq {s : State} {p : Nat} {e : SchedEntry} {o : KernelObj}
    (ho : s.dev.kernelOf (s.dev.part p).ctx (recKernel e.record) = some o) (k : Nat) (cores : List Nat) (dome : Option (Nat × Nat)) :
    s.startGang p e k cores dome =
      ((((s.dev.freeSlots p).take (recGang e.record)).zip cores).zip (List.range ((s.dev.freeSlots p).take (recGang e.record)).length)).foldl
        (fun u x => u.startTask p (u.dev.taskInfo p e.record o e.started x.2 x.1.1 s.dev.nextGang (dome.elim 0 Prod.snd)) x.1.2)
        (s.updDev fun v => (v.gangCounted p e (s.nextGangOf p e k) dome).noteStart p k s.dev.nextGang) := by
  unfold State.startGang
  rw [ho]
  cases dome <;> rfl

theorem entryOf_launches {v u : Device} (h : u.launches = v.launches) (p lid : Nat) : u.entryOf p lid = v.entryOf p lid := by
  have he : u.entries = v.entries := congrArg Prod.fst h
  rw [Device.entryOf, he, Device.entryOf]

theorem gangCounted_entryOf {v : Device} {p : Nat} {e : SchedEntry} (he : v.entryOf p e.lid = some e) (g : Gang) (dome : Option (Nat × Nat)) :
    (v.gangCounted p e g dome).entryOf p e.lid = some { e with started := e.started + 1, dome := dome } := by
  have hu := entryOf_updEntry (v := { v.started p e.lid none with nextGang := v.nextGang + 1, gangs := v.gangs ++ [g] }) (p := p) (lid := e.lid)
    (f := fun y => { y with started := y.started + 1, dome := dome }) fun _ => ⟨rfl, rfl⟩
  exact hu.trans (congrArg (Option.map _) he)

/-- A gang that starts counts, whatever its tasks do (R43). -/
theorem startGang_counts {s : State} {p : Nat} {e : SchedEntry} {o : KernelObj}
    (ho : s.dev.kernelOf (s.dev.part p).ctx (recKernel e.record) = some o) (he : s.dev.entryOf p e.lid = some e) (k : Nat) (cores : List Nat)
    (dome : Option (Nat × Nat)) : ((s.startGang p e k cores dome).dev.entryOf p e.lid).map SchedEntry.started = some (e.started + 1) ∧
      (s.startGang p e k cores dome).dev.nextGang = s.dev.nextGang + 1 := by
  have folded : ∀ (f : State → (Nat × Nat) × Nat → TaskInfo) (xs : List ((Nat × Nat) × Nat)) (u : State),
      (xs.foldl (fun u x => u.startTask p (f u x) x.1.2) u).dev.launches = u.dev.launches := fun f xs => by
    induction xs with
    | nil => exact fun _ => rfl
    | cons x xs ih => exact fun u => (ih _).trans (startTask_launches u p (f u x) x.1.2)
  rw [startGang_eq ho]
  have hl := folded (fun u x => u.dev.taskInfo p e.record o e.started x.2 x.1.1 s.dev.nextGang (dome.elim 0 Prod.snd))
    ((((s.dev.freeSlots p).take (recGang e.record)).zip cores).zip (List.range ((s.dev.freeSlots p).take (recGang e.record)).length))
    (s.updDev fun v => (v.gangCounted p e (s.nextGangOf p e k) dome).noteStart p k s.dev.nextGang)
  have hstart := hl.trans (noteStart_launches (s.dev.gangCounted p e (s.nextGangOf p e k) dome) p k s.dev.nextGang)
  exact ⟨by rw [entryOf_launches hstart, gangCounted_entryOf he, Option.map_some], congrArg Prod.snd hstart⟩

theorem freeSlots_free {v : Device} {p i : Nat} (h : i ∈ v.freeSlots p) : v.slotOf p i = none := by
  simpa [Device.freeSlots] using (List.mem_filter.mp h).2

theorem startCore_pstack (t : TaskInfo) : (startCore t).pstack = [] := by
  have loaded : ∀ (es : List (Nat × List Byte)) (c : Core), (es.foldl Core.applyMeta c).pstack = c.pstack := fun es => by
    induction es with
    | nil => exact fun _ => rfl
    | cons e es ih =>
      refine fun c => (ih _).trans ?_
      unfold Core.applyMeta
      split
      · rfl
      · split <;> rfl
  exact loaded (metaEntries t.metas) _

/-- A gang of one task puts it on the core chosen, in the first free slot (R41, R43, R44). -/
theorem startGang_one {s : State} {p : Nat} {e : SchedEntry} {o : KernelObj}
    (ho : s.dev.kernelOf (s.dev.part p).ctx (recKernel e.record) = some o) (hG : recGang e.record = 1) (hf : s.dev.freeSlots p ≠ []) (k x : Nat)
    (dome : Option (Nat × Nat)) : ∃ t : TaskInfo, t.part = p ∧ t.lid = recLid e.record ∧ t.index = BitVec.ofNat 64 e.started ∧ t.entry = o.entry ∧
      t.handlerPos = o.handlerPos ∧ s.dev.slotOf p t.slot = none ∧ ((s.startGang p e k [x] dome).getCore (.core x)).running = (startCore t).running ∧
      ((s.startGang p e k [x] dome).dev.slotOf p t.slot).map TaskSlot.st = some 1 := by
  obtain ⟨i, rest, hi⟩ := List.exists_cons_of_ne_nil hf
  have hfree : s.dev.slotOf p i = none := freeSlots_free (hi ▸ List.mem_cons_self)
  rw [startGang_eq ho, hi, hG]
  obtain ⟨hcore, hslot⟩ := startTask_runs (s := s.updDev fun v => (v.gangCounted p e (s.nextGangOf p e k) dome).noteStart p k s.dev.nextGang)
    (t := ((s.dev.gangCounted p e (s.nextGangOf p e k) dome).noteStart p k s.dev.nextGang).taskInfo p e.record o e.started 0 i s.dev.nextGang (dome.elim 0 Prod.snd))
    ((slotOf_slots (noteStart_slots ..) p i).trans hfree) x
  refine ⟨_, rfl, rfl, ?_, rfl, rfl, hfree, hcore, hslot⟩
  show BitVec.ofNat 64 (recGang e.record * e.started + 0) = _
  rw [hG, Nat.one_mul, Nat.add_zero]

end Sys2Proof.Machine
end

section
/-! O49: the task of the core in focus is saved, killed or drained (R42, R382, R405). -/

namespace Sys2Proof.Machine

theorem chargeNow_eq (c : Core) : ∃ n b, c.chargeNow = { c with burstcnt := n, burstPaid := b } := by
  unfold Core.chargeNow
  split <;> exact ⟨_, _, rfl⟩

theorem vacate_dev (s : State) : s.vacate.dev = s.dev := rfl

theorem vacate_task (s : State) : s.vacate.core.task = none := rfl

theorem vacate_focus (s : State) : s.vacate.focus = s.focus := rfl

theorem handArea_focus (s : State) (p i : Nat) : (s.handArea p i).focus = s.focus := rfl

theorem stopCopies_nothing {s : State} (h : s.core.outst = []) : s.stopCopies = s := by simp [State.stopCopies, h]

theorem stopped_quiet {s : State} (h : s.core.outst = []) (hseg : s.core.seg = none) : s.stopped = some s := by
  simp [State.stopped, commitSeg_closed hseg, h, State.settleOps]

/-- The slot of a task whose state `k` has been saved. -/
def TaskSlot.saved (x : TaskSlot) (k : Core) (why : Nat) (last : Option Nat) : TaskSlot :=
  { x with st := 5, why := why, cpos := k.pos, ckpt := true, foot := false, evt := k.evt, kept := some k, lastCore := last }

/-- The device once the state `k` of a task is in the area at `base`. -/
def Device.saved (v : Device) (t : TaskInfo) (base : Addr) (k : Core) (es : List EngineOp) (why : Nat) (last : Option Nat) : Device :=
  (((v.writeCtx (v.part t.part).ctx base k es).updSlot t.part t.slot fun x => x.saved k why last).readied t.part t.slot).writeRecord t.part t.slot

/-- The core that a unit is, if it is one. -/
def Agent.coreNo : Agent → Option Nat
  | .core p => some p
  | .qp _ _ => none

/-- A task with nothing under way has a free area taken for it, and what its burst still owes charged (R405). -/
def State.leaving (s : State) (t : TaskInfo) : State := (s.updDev fun v => v.takeArea t.part t.slot).upd Core.chargeNow

/-- The slot of a task that starts again, with the state `k` (R42). -/
def TaskSlot.restarted (x : TaskSlot) (t : TaskInfo) (k : Core) : TaskSlot :=
  { x with st := 0, why := 0, qnum := 0, dreg := 0, cpos := t.entry, ckpt := false, foot := false, evt := false, deqtQ := none, deqtGot := none,
           kept := some k, lastCore := none }

/-- The device once a task is ready to start again. -/
def Device.restarted (v : Device) (t : TaskInfo) (k : Core) : Device :=
  (((v.unwait t.part t.slot).updSlot t.part t.slot fun x => x.restarted t k).readied t.part t.slot).writeRecord t.part t.slot

theorem restarted_slotOf {v : Device} {t : TaskInfo} {x : TaskSlot} (hx : v.slotOf t.part t.slot = some x) (k : Core) :
    ∃ n m, (v.restarted t k).slotOf t.part t.slot = some { x.restarted t k with age := n, turn := m } :=
  ⟨_, _, (slotOf_tables (writeRecord_tables ..) ..).trans (slotOf_readied_some (slotOf_updSlot_some (v := v.unwait t.part t.slot) hx))⟩

theorem takeArea_slotOf {v : Device} {t : TaskInfo} {x : TaskSlot} (hx : v.slotOf t.part t.slot = some x) (hfree : (v.part t.part).freeAreas.isEmpty = false) :
    ∃ a, (v.takeArea t.part t.slot).slotOf t.part t.slot = some { x with area := a } := by
  unfold Device.takeArea
  split
  · rename_i h
    rw [h] at hfree
    exact absurd hfree (by decide)
  · exact ⟨_, (slotOf_slots rfl ..).trans (slotOf_updSlot_some hx)⟩

theorem saved_slotOf {v : Device} {t : TaskInfo} {x : TaskSlot} (hx : v.slotOf t.part t.slot = some x) (base : Addr) (k : Core) (es : List EngineOp)
    (why : Nat) (last : Option Nat) : ∃ n m, (v.saved t base k es why last).slotOf t.part t.slot = some { x.saved k why last with age := n, turn := m } :=
  ⟨_, _, (slotOf_tables (writeRecord_tables ..) ..).trans (slotOf_readied_some
    (slotOf_updSlot_some ((slotOf_tables (writeCtx_tables ..) ..).trans hx)))⟩

/-- The area that the core leaves is the saved task's (R405). -/
theorem handArea_slotOf {s : State} {t : TaskInfo} {x : TaskSlot} (hx : s.dev.slotOf t.part t.slot = some x) :
    (s.handArea t.part t.slot).dev.slotOf t.part t.slot = some { x with area := some s.core.mon.csave } :=
  slotOf_updSlot_some hx

/-- Core `c` has lost its task to a checkpoint: the slot is SAVED, with the state that the core had. -/
def SavedFrom (c : Core) (t : TaskInfo) (why : Nat) (u : State) : Prop :=
  u.core.task = none ∧ ∃ y k, u.dev.slotOf t.part t.slot = some y ∧ y.st = 5 ∧ y.why = why ∧ y.ckpt = true ∧ y.cpos = c.pos ∧ y.kept = some k ∧
    k.s = c.s ∧ k.a = c.a ∧ k.v = c.v ∧ k.pstack = c.pstack ∧ k.mat = c.mat ∧ y.area = some c.mon.csave

section Quiet
variable {s : State} {t : TaskInfo} {x : TaskSlot} (hm : s.core.mon.mode = false) (ht : s.core.task = some t) (ho : s.core.outst = [])
  (hseg : s.core.seg = none)
include hm ht ho hseg

/-! A kill (R42, R382). -/

theorem killTask_eq : s.killTask = ((s.publishAll.upd Core.endCharge).updDev fun v =>
    v.restarted t { startCore t with owesTrig := s.publishAll.core.endCharge.owesTrig }).vacate := by
  simp only [State.killTask, ht, stopped_quiet ho hseg, hm, Bool.false_eq_true, if_false, Option.isNone_some, Bool.or_self, upd_core]
  rfl

/-- A kill leaves the task READY at its entry, owing its trigger obligation as before. -/
theorem killTask_restarts (hx : s.dev.slotOf t.part t.slot = some x) : s.killTask.core.task = none ∧ s.killTask.focus = s.focus ∧
    ∃ y, s.killTask.dev.slotOf t.part t.slot = some y ∧ y.st = 0 ∧ y.cpos = t.entry ∧
      y.kept = some { startCore t with owesTrig := s.core.owesTrig } ∧ y.ckpt = false := by
  rw [killTask_eq hm ht ho hseg]
  have hpub : Published s s.publishAll := (commitSeg_published s).trans (release_published _ 5)
  generalize s.publishAll = w at hpub ⊢
  have howes : w.core.endCharge.owesTrig = s.core.owesTrig := by
    obtain ⟨_, _, _, _, _, _, _, _, hc⟩ := hpub.core
    obtain ⟨_, _, he⟩ := chargeNow_eq { w.core with phint := none }
    rw [Core.endCharge, he, hc]
  obtain ⟨z, hz, _⟩ := Option.map_eq_some_iff.mp ((slotOf_published hpub t.part t.slot).trans (congrArg _ hx))
  obtain ⟨n, m, hs⟩ := restarted_slotOf hz { startCore t with owesTrig := w.core.endCharge.owesTrig }
  exact ⟨vacate_task _, hpub.focus, _, hs, rfl, rfl, by rw [← howes]; rfl, rfl⟩

/-! A checkpoint (R382, R405). -/

variable (hl : s.core.landing = [])
include hl

theorem checkpoint_eq (hcan : s.canCheckpoint = true) (why : Nat) : s.checkpoint why =
    (((s.leaving t).updDev fun v => v.saved t (s.leaving t).core.mon.csave ((s.leaving t).core.saved t.foot) s.core.engines why
      (s.leaving t).focus.coreNo).handArea t.part t.slot).vacate := by
  have hland : (s.updDev fun v => v.takeArea t.part t.slot).landAll = s.updDev fun v => v.takeArea t.part t.slot := landAll_nothing hl
  simp only [State.checkpoint, ht, hcan, stopCopies_nothing ho, stopped_quiet ho hseg, hm, hland, Bool.not_true, Bool.false_eq_true, if_false,
    Option.isNone_some, Bool.or_self]
  rw [← State.leaving]
  generalize s.leaving t = w
  cases w.focus <;> rfl

theorem checkpoint_slotOf (hx : s.dev.slotOf t.part t.slot = some x) (hcan : s.canCheckpoint = true) (why : Nat) :
    ∃ n m last, (s.checkpoint why).dev.slotOf t.part t.slot =
      some { x.saved (s.core.chargeNow.saved t.foot) why last with age := n, turn := m, area := some s.core.chargeNow.mon.csave } := by
  have hfree : (s.dev.part t.part).freeAreas.isEmpty = false := by
    simp only [State.canCheckpoint, ht, Bool.and_eq_true, Bool.not_eq_true'] at hcan
    obtain ⟨⟨⟨_, hfree⟩, _⟩, _⟩ := hcan
    exact hfree
  obtain ⟨a, ha⟩ := takeArea_slotOf hx hfree
  have hleave : (s.leaving t).dev.slotOf t.part t.slot = some { x with area := a } := ha
  rw [checkpoint_eq hm ht ho hseg hl hcan]
  have hcore : (s.leaving t).core = s.core.chargeNow := rfl
  generalize s.leaving t = w at hleave hcore ⊢
  generalize s.core.chargeNow = c at hcore ⊢
  obtain ⟨n, m, hs⟩ := saved_slotOf hleave w.core.mon.csave (w.core.saved t.foot) s.core.engines why w.focus.coreNo
  have hh := handArea_slotOf (s := w.updDev fun v => v.saved t w.core.mon.csave (w.core.saved t.foot) s.core.engines why w.focus.coreNo) hs
  rw [updDev_core, hcore] at hh
  exact ⟨n, m, w.focus.coreNo, by rw [vacate_dev, hcore, hh]; rfl⟩

theorem checkpoint_leaves (hcan : s.canCheckpoint = true) (why : Nat) : (s.checkpoint why).core.task = none ∧ (s.checkpoint why).focus = s.focus := by
  rw [checkpoint_eq hm ht ho hseg hl hcan]
  exact ⟨vacate_task _, by rw [vacate_focus, handArea_focus, updDev_focus]; rfl⟩

/-- A checkpoint leaves the core without a task, and its state in the slot. -/
theorem checkpoint_saves (hx : s.dev.slotOf t.part t.slot = some x) (hcan : s.canCheckpoint = true) (why : Nat) :
    SavedFrom s.core t why (s.checkpoint why) := by
  obtain ⟨_, _, _, hs⟩ := checkpoint_slotOf hm ht ho hseg hl hx hcan why
  obtain ⟨_, _, hc⟩ := chargeNow_eq s.core
  rw [hc] at hs
  exact ⟨(checkpoint_leaves hm ht ho hseg hl hcan why).1, _, _, hs, rfl, rfl, rfl, rfl, rfl, rfl, rfl, rfl, rfl, rfl, rfl⟩

end Quiet

end Sys2Proof.Machine
end

section
/-! O49: which pre-emption acts, and when (R42, R45, R382, R406). -/

namespace Sys2Proof.Machine

/-! The choice of R382. -/

/-- The task of the core in focus will end within the drain window (R382). -/
def State.endsSoon (s : State) : Prop :=
  recEstimate s.taskRecord ≠ 0 ∧ recEstimate s.taskRecord ≤ s.core.cycle.toNat + (s.dev.part s.partition).drainWindow

/-- The task of the core in focus may be killed for a newcomer's tokens (R382). -/
def State.mayKill (s : State) (tokens : Nat) : Prop := (s.dev.part s.partition).killAt ≤ tokens ∧ recIdem s.taskRecord = true

theorem chosen_drain {s : State} (h : s.endsSoon) (n : Nat) : s.chosen n = 1 := by
  have hp : s.preemptPolicy n = 1 := if_pos ⟨h.1, by have := h.2; omega⟩
  simp [State.chosen, hp]

theorem preemptPolicy_late {s : State} (h : ¬ s.endsSoon) (n : Nat) : s.preemptPolicy n =
    if (s.dev.part s.partition).killAt ≤ n ∧ recIdem s.taskRecord = true then 3 else 2 :=
  if_neg fun ⟨he, hw⟩ => h ⟨he, by omega⟩

theorem chosen_kill {s : State} {n : Nat} (h : ¬ s.endsSoon) (hk : s.mayKill n) : s.chosen n = 3 := by
  have hp : s.preemptPolicy n = 3 := (preemptPolicy_late h n).trans (if_pos hk)
  simp [State.chosen, hp]

theorem chosen_checkpoint {s : State} {n : Nat} (h : ¬ s.endsSoon) (hk : ¬ s.mayKill n) : s.chosen n = if s.canCheckpoint then 2 else 1 := by
  have hp : s.preemptPolicy n = 2 := (preemptPolicy_late h n).trans (if_neg hk)
  cases hc : s.canCheckpoint <;> simp [State.chosen, hp, hc]

/-- A checkpoint is chosen where there is an area for it, a kill where the launch is idempotent. -/
theorem canCheckpoint_of_chosen {s : State} {n : Nat} (h : s.chosen n = 2) : s.canCheckpoint = true := by
  by_cases hs : s.endsSoon
  · simp [chosen_drain hs] at h
  · by_cases hk : s.mayKill n
    · simp [chosen_kill hs hk] at h
    · by_contra hc
      simp [chosen_checkpoint hs hk, hc] at h

theorem idem_of_chosen {s : State} {n : Nat} (h : s.chosen n = 3) : recIdem s.taskRecord = true := by
  by_cases hs : s.endsSoon
  · simp [chosen_drain hs] at h
  · by_cases hk : s.mayKill n
    · exact hk.2
    · rw [chosen_checkpoint hs hk] at h
      split at h <;> cases h

section Task
variable {s : State} {p : Nat} {t : TaskInfo} (hf : s.focus = .core p) (hev : s.ev.core = p) (hm : s.core.mon.mode = false)
  (ht : s.core.task = some t)

include hm ht in
theorem preemptFocus_drain (n : Nat) : s.preemptFocus 1 n = s.drainTask := by
  simp [State.preemptFocus, ht, hm]

include hm ht in
theorem preemptFocus_checkpoint (hc : s.canCheckpoint = true) (n : Nat) : s.preemptFocus 2 n = s.checkpoint 5 := by
  simp [State.preemptFocus, ht, hm, hc]

include hm ht in
theorem preemptFocus_kill (hi : recIdem s.taskRecord = true) (n : Nat) : s.preemptFocus 3 n = s.killTask := by
  simp [State.preemptFocus, ht, hm, hi]

include hf hev

theorem preemptChosen_other {k : Nat} (hk : s.chosen s.ev.count ≠ k) : s.preemptChosen k = s := by
  unfold State.preemptChosen
  rw [hev]
  exact onUnit_focus hf (if_neg hk) rfl

theorem preemptChosen_acts {k : Nat} (hk : s.chosen s.ev.count = k) {u : State} (hu : s.preemptFocus k s.ev.count = u) (hfu : u.focus = s.focus) :
    s.preemptChosen k = u := by
  unfold State.preemptChosen
  rw [hev]
  exact onUnit_focus hf ((if_pos hk).trans hu) hfu

/-! The drain window (R382). -/

variable {x : TaskSlot} (hx : s.dev.slotOf t.part t.slot = some x)
include ht hx

theorem drainWindow_open (h : s.core.draining = false ∨ s.dev.time < x.age + (s.dev.part t.part).drainWindow) : exec .drainWindowExpire s = .next s := by
  have hnot : ¬ (s.core.draining && decide (s.dev.time ≥ x.age + (s.dev.part t.part).drainWindow)) = true := by
    rcases h with h | h
    · simp [h]
    · simp [Nat.not_le.mpr h]
  show execDrainWindowExpire s = _
  rw [execDrainWindowExpire, hev]
  refine congrArg _ (onUnit_focus hf ?_ rfl)
  simp only [ht, hx]
  exact if_neg hnot

theorem drainWindow_over (hd : s.core.draining = true) (h : x.age + (s.dev.part t.part).drainWindow ≤ s.dev.time)
    (hfu : (s.checkpoint 5).focus = s.focus) : exec .drainWindowExpire s = .next (s.checkpoint 5) := by
  show execDrainWindowExpire s = _
  rw [execDrainWindowExpire, hev]
  refine congrArg _ (onUnit_focus hf ?_ hfu)
  simp only [ht, hx]
  exact if_pos (by simp [hd, h])

end Task

/-! Gang-wait pre-emption (R45). -/

/-- The first in order of a list of works is one of them. -/
theorem firstWork_mem (v : Device) (p : Nat) {ws : List Work} {w : Work} (h : v.firstWork p ws = some w) : w ∈ ws := by
  induction ws with
  | nil => cases h
  | cons x xs ih =>
    unfold Device.firstWork at h
    split at h
    · cases h
      exact List.mem_cons_self
    · rename_i y hy
      split at h
      · cases h
        exact List.mem_cons_of_mem x (ih hy)
      · cases h
        exact List.mem_cons_self

/-- The first of a gang's ready members without a core, as work. -/
def State.lacking (s : State) (t : TaskInfo) : Option Work :=
  s.dev.firstWork t.part ((s.dev.slots.filter fun x => x.part == t.part && x.info.gang == t.gang && !x.info.spawned && x.ready && x.slot != t.slot).map
    Work.task)

theorem lacksCore_eq (s : State) (t : TaskInfo) : (s.lacksCore t).map Work.task = s.lacking t := by
  unfold State.lacksCore State.lacking
  dsimp only
  split
  · rename_i h
    exact h.symm
  · rename_i hne
    rw [Option.map_none]
    refine (Option.eq_none_iff_forall_ne_some.mpr fun w hw => ?_).symm
    obtain ⟨m, _, rfl⟩ := List.mem_map.mp (firstWork_mem _ _ hw)
    exact hne m hw

theorem lacksCore_none {s : State} {t : TaskInfo} : s.lacksCore t = none ↔ s.lacking t = none := by
  rw [← lacksCore_eq, Option.map_eq_none_iff]

theorem lacksCore_some {s : State} {t : TaskInfo} {m : TaskSlot} (h : s.lacking t = some (.task m)) : s.lacksCore t = some m := by
  obtain ⟨y, hy, hm⟩ := Option.map_eq_some_iff.mp ((lacksCore_eq s t).trans h)
  cases hm
  exact hy

theorem handOver_nobody {s : State} {t : TaskInfo} {p : Nat} (h : s.lacking t = none ∨ s.coreIdle p = false) : s.handOver t p = s := by
  unfold State.handOver
  split
  · rename_i m hm
    refine if_neg fun hc => ?_
    rcases h with h | h
    · rw [lacksCore_none.mpr h] at hm
      cases hm
    · rw [h] at hc
      cases hc
  · rfl

theorem handOver_next {s : State} {t : TaskInfo} {p : Nat} {m : TaskSlot} (h : s.lacking t = some (.task m)) (hc : s.coreIdle p = true) :
    s.handOver t p = s.resumeTask m p := by
  unfold State.handOver
  rw [lacksCore_some h]
  exact if_pos hc

section GangWait
variable {s : State} {p : Nat} {t : TaskInfo} (hf : s.focus = .core p) (hev : s.ev.core = p) (ht : s.core.task = some t)
include hf hev ht

theorem gangWaitPreempt_eq : exec .gangWaitPreempt s = .next
    (if t.mer || t.spawned || s.core.draining || !s.core.barrierLate || !(s.idleIn (p / 128)).isEmpty then s else s.gangPreempt t p) := by
  show execGangWaitPreempt s = _
  simp only [execGangWaitPreempt, hev, getCore_focus hf, ht]

theorem gangWaitPreempt_none (h : s.lacking t = none) : exec .gangWaitPreempt s = .next s := by
  rw [gangWaitPreempt_eq hf hev ht, State.gangPreempt, lacksCore_none.mpr h]
  simp

theorem gangWaitPreempt_barred (h : t.mer = true ∨ t.spawned = true ∨ s.core.draining = true ∨ ∀ n, s.core.barFrom = some n → s.core.wall < n + 65536) :
    exec .gangWaitPreempt s = .next s := by
  rw [gangWaitPreempt_eq hf hev ht]
  refine congrArg _ (if_pos ?_)
  rcases h with h | h | h | h
  · simp [h]
  · simp [h]
  · simp [h]
  · have hlate : s.core.barrierLate = false := by
      unfold Core.barrierLate
      split
      · rename_i n hn
        exact decide_eq_false (Nat.not_le.mpr (h n hn))
      · rfl
    simp [hlate]

theorem gangWaitPreempt_acts {n : Nat} (hl : s.lacking t ≠ none) (hmer : t.mer = false) (hsp : t.spawned = false) (hd : s.core.draining = false)
    (hb : s.core.barFrom = some n) (hn : n + 65536 ≤ s.core.wall) (hi : s.idleIn (p / 128) = []) (hfu : (s.checkpoint 6).focus = s.focus) :
    exec .gangWaitPreempt s = .next ((s.checkpoint 6).handOver t p) := by
  have hlate : s.core.barrierLate = true := by simp [Core.barrierLate, hb, hn]
  have hlacks : (s.lacksCore t).isNone = false := by
    rw [Option.isNone_eq_false_iff, Option.isSome_iff_ne_none]
    exact fun h => hl (lacksCore_none.mp h)
  have hon : (s.onUnit (.core p) fun s => s.checkpoint 6) = s.checkpoint 6 := onUnit_focus hf rfl hfu
  rw [gangWaitPreempt_eq hf hev ht, State.gangPreempt, hlacks, hon]
  simp [hmer, hsp, hd, hlate, hi]

end GangWait

end Sys2Proof.Machine
end

section
/-! O49: the dispatcher's events (R35 to R45, R53, R382, R406, R407). -/

namespace Sys2Proof.Machine

/-! The events of the dispatcher's next start, and those of cold starts (R37, R44, R407). -/

theorem starts_nothing {s : State} (h : s.nextStart s.ev.part = none) :
    exec .gangStart s = .next s ∧ exec .taskResume s = .next s ∧ exec .spawnedTaskStart s = .next s := by
  refine ⟨?_, ?_, ?_⟩
  · show execGangStart s = _
    rw [execGangStart, h]
  · show execTaskResume s = _
    rw [execTaskResume, h]
  · show execSpawnedTaskStart s = _
    rw [execSpawnedTaskStart, h]

theorem starts_gang {s : State} {e : SchedEntry} {k : Nat} {cores : List Nat} {dome : Option (Nat × Nat)}
    (h : s.nextStart s.ev.part = some (.gang e k cores dome)) : exec .taskResume s = .next s ∧ exec .spawnedTaskStart s = .next s ∧
      exec .gangStart s = .next (s.startGang s.ev.part e k cores dome) := by
  refine ⟨?_, ?_, ?_⟩
  · show execTaskResume s = _
    rw [execTaskResume, h]
  · show execSpawnedTaskStart s = _
    rw [execSpawnedTaskStart, h]
  · show execGangStart s = _
    rw [execGangStart, h]

section Resume
variable {s : State} {t : TaskSlot} {x : Nat} (h : s.nextStart s.ev.part = some (.task t x))
include h

theorem starts_task : exec .gangStart s = .next s := by
  show execGangStart s = _
  rw [execGangStart, h]

theorem starts_resumed (hf : t.fresh = false) : exec .spawnedTaskStart s = .next s ∧ exec .taskResume s = .next (s.resumeTask t x) := by
  refine ⟨?_, ?_⟩
  · show execSpawnedTaskStart s = _
    simp only [execSpawnedTaskStart, h, hf, Bool.false_eq_true, if_false]
  · show execTaskResume s = _
    simp only [execTaskResume, h, hf, Bool.false_eq_true, if_false]

theorem starts_fresh (hf : t.fresh = true) : exec .taskResume s = .next s ∧ exec .spawnedTaskStart s =
    .next ((s.resumeTask t x).updDev fun v => v.updSlot t.part t.slot fun y => { y with resumes := 0 }) := by
  refine ⟨?_, ?_⟩
  · show execTaskResume s = _
    simp only [execTaskResume, h, hf, if_true]
  · show execSpawnedTaskStart s = _
    simp only [execSpawnedTaskStart, h, hf, if_true]

end Resume

theorem coldStartRelease_releases (s : State) : ∃ v, exec .coldStartRelease s = .next { s with dev := v } ∧
    (v.cluster s.ev.index).coldPending = (s.dev.cluster s.ev.index).coldPending.filter (fun y => decide (s.dev.time < y.2)) ∧ v.mem = s.dev.mem := by
  refine ⟨_, rfl, ?_, rfl⟩
  simp [Device.cluster, Device.updCluster]

/-! A footprint moves (R36, R39, R40). -/

theorem footprintMove_slot {s : State} {t : TaskSlot} (hs : s.dev.slotOf s.ev.part s.ev.slot = some t) (hr : s.residentOf t.part t.slot = none) :
    exec .footprintMove s = .next { s with dev := s.dev.footOut t } := by
  show execFootprintMove s = _
  simp only [execFootprintMove, hs, hr, Option.isNone_none, if_true]
  rfl

theorem footprintMove_nothing {s : State} {t : TaskSlot} (hs : s.dev.slotOf s.ev.part s.ev.slot = some t) (hf : t.foot = true) :
    exec .footprintMove s = .next s := by
  show execFootprintMove s = _
  simp only [execFootprintMove, hs, State.updDev, footOut_stays (.inr hf), ite_self]

/-- A slot found at a place is of that place. -/
theorem slotOf_key {v : Device} {p i : Nat} {t : TaskSlot} (h : v.slotOf p i = some t) : t.part = p ∧ t.slot = i := by
  have := List.find?_some (p := fun t : TaskSlot => t.part == p && t.slot == i) h
  simpa using this

theorem footOut_slot {v : Device} {t : TaskSlot} {k : Core} (hs : v.slotOf t.part t.slot = some t) (hk : t.kept = some k) (hf : t.foot = false) :
    (v.footOut t).slotOf t.part t.slot = some t.imaged ∧ ∀ x, t.lastCore = some x → (v.footOut t).forwards =
      v.forwards.filter (fun f => !(f.core == x && f.part == t.part && f.slot == t.slot)) ++
        [{ core := x, part := t.part, slot := t.slot, till := v.time + 65536 }] := by
  have hd := spilled_dispatch v t k
  have hslot : (v.spilled t k).slotOf t.part t.slot = some t.imaged := (slotOf_dispatch hd ..).trans (slotOf_updSlot_some hs)
  have hfw : (v.spilled t k).forwards = v.forwards := congrArg Dispatch.forwards hd
  have htime : (v.spilled t k).time = v.time := congrArg Dispatch.time hd
  rw [footOut_moves hk hf]
  cases t.lastCore with
  | none => exact ⟨hslot, fun _ h => nomatch h⟩
  | some y =>
    refine ⟨hslot, fun x hx => ?_⟩
    cases hx
    rw [← hfw, ← htime]
    rfl

/-! Work that has waited too long (R53, R406). -/

/-- Work `w` has passed the aging limit, and has no cluster reserved. -/
def State.hasAged (s : State) (p : Nat) (w : Work) : Bool :=
  let has (lid : Nat) (slot : Option Nat) : Bool := s.dev.reserved.any fun x => x.part == p && x.lid == lid && x.slot == slot
  decide (w.since.1 + (s.dev.part p).aging ≤ s.dev.time) && match w with | .gang e => !has e.lid none | .task t => !has t.info.lid (some t.slot)

/-- The first work of the event's partition that has aged. -/
def State.firstAged (s : State) : Option Work := s.dev.firstWork s.ev.part ((s.dev.workOf s.ev.part).filter (s.hasAged s.ev.part))

theorem agingLimitExpire_eq (s : State) : exec .agingLimitExpire s = .next ((s.firstAged.bind (s.reservation s.ev.part)).elim s fun r =>
    { s with dev := { s.dev with reserved := s.dev.reserved ++ [r] } }) := by
  show execAgingLimitExpire s = _
  unfold execAgingLimitExpire
  change Host.Outcome.next (match s.firstAged.bind (s.reservation s.ev.part) with | some r => _ | none => s) = _
  cases s.firstAged.bind (s.reservation s.ev.part) <;> rfl

theorem reservation_gang {s : State} {p : Nat} {e : SchedEntry} {x : Nat × Option (Nat × Nat)} (hm : recMer e.record = false)
    (h : s.mostIdle (s.dev.launchClusters p e) = some x) :
    s.reservation p (.gang e) = some { part := p, lid := e.lid, slot := none, cluster := x.1 } := by
  simp [State.reservation, hm, h]

theorem reservation_drawn {s : State} {p : Nat} {e : SchedEntry} {x : Nat × List Nat × Option (Nat × Nat)} (hm : recMer e.record = true)
    (h : s.meridianGang p e = some x) : s.reservation p (.gang e) = some { part := p, lid := e.lid, slot := none, cluster := x.1 } := by
  simp [State.reservation, hm, h]

theorem reservation_task {s : State} {p k : Nat} {t : TaskSlot} (hm : t.info.mer = false) (h : s.dev.homeCluster t = some k) :
    s.reservation p (.task t) = some { part := p, lid := t.info.lid, slot := some t.slot, cluster := k } := by
  simp [State.reservation, hm, h]

theorem reservation_core {s : State} {p c : Nat} {t : TaskSlot} (hm : t.info.mer = true) (h : s.meridianCore t = some c) :
    s.reservation p (.task t) = some { part := p, lid := t.info.lid, slot := some t.slot, cluster := c / 128 } := by
  simp [State.reservation, hm, h]

theorem dueForRoom_eq (s : State) : dueForRoom s =
    s.dev.firstWork s.ev.part ((s.dev.workOf s.ev.part).filter fun w => s.wantsRoom s.ev.part w && !(s.roomOf s.ev.part w).1.isEmpty) := by
  unfold dueForRoom
  refine congrArg _ (congrArg (List.filter · _) (funext fun w => ?_))
  cases w <;> rfl

theorem preemptionWaitExpire_nothing {s : State} (h : dueForRoom s = none) : exec .preemptionWaitExpire s = .next s := by
  rw [dueForRoom_eq] at h
  show execPreemptionWaitExpire s = _
  simp only [execPreemptionWaitExpire, h]

theorem preemptionWaitExpire_acts {s : State} {w : Work} (h : dueForRoom s = some w) : exec .preemptionWaitExpire s =
    .next ((s.roomOf s.ev.part w).1.foldl (fun u y => u.preemptCore y 0 (s.roomOf s.ev.part w).2) s) := by
  rw [dueForRoom_eq] at h
  show execPreemptionWaitExpire s = _
  simp only [execPreemptionWaitExpire, h]

theorem roomOf_task {s : State} {y : TaskSlot} {e : SchedEntry} (he : s.dev.entryOf s.ev.part y.info.lid = some e) :
    s.roomOf s.ev.part (.task y) = (((s.victims (recClass e.record) (s.roomCores y)).take 1).map Prod.fst, recTokens e.record) := by
  simp only [State.roomOf, Device.classOf, he]

end Sys2Proof.Machine
end

section
/-! O49, clause by clause, and assembled. -/

namespace Sys2Proof.Machine

/-- A gang that comes next starts, and a gang of one task runs on its core (R41, R43, R44). -/
theorem gangStart_starts {s : State} {e : SchedEntry} {k : Nat} {cores : List Nat} {dome : Option (Nat × Nat)} {o : KernelObj}
    (h : s.nextStart s.ev.part = some (.gang e k cores dome))
    (ho : s.dev.kernelOf (s.dev.part s.ev.part).ctx (recKernel e.record) = some o) (he : s.dev.entryOf s.ev.part e.lid = some e) :
    ∃ u, exec .gangStart s = .next u ∧ (u.dev.entryOf s.ev.part e.lid).map SchedEntry.started = some (e.started + 1) ∧
      u.dev.nextGang = s.dev.nextGang + 1 ∧
      ∀ x, recGang e.record = 1 → cores = [x] → s.dev.freeSlots s.ev.part ≠ [] →
        ∃ t, (u.getCore (.core x)).task = some t ∧ t.part = s.ev.part ∧ t.lid = recLid e.record ∧ t.index = BitVec.ofNat 64 e.started ∧
          (u.getCore (.core x)).pos = o.entry ∧
          (u.getCore (.core x)).thandler = (if o.handlerPos = 0xFFFFFFFF then 0 else o.handlerPos ||| 0x80000000) ∧
          (u.getCore (.core x)).pstack = [] ∧ s.dev.slotOf s.ev.part t.slot = none ∧ (u.dev.slotOf s.ev.part t.slot).map TaskSlot.st = some 1 := by
  obtain ⟨hcount, hnext⟩ := startGang_counts ho he k cores dome
  refine ⟨s.startGang s.ev.part e k cores dome, (starts_gang h).2.2, hcount, hnext, fun x hG hx hfree => ?_⟩
  subst hx
  obtain ⟨t, htp, htl, hti, hte, hth, hnone, hrun, hst⟩ := startGang_one ho hG hfree k x dome
  generalize s.startGang s.ev.part e k [x] dome = u at hrun hst ⊢
  have hhandler : (startCore t).thandler = if o.handlerPos = 0xFFFFFFFF then 0 else o.handlerPos ||| 0x80000000 := hth ▸ rfl
  exact ⟨t, congrArg Running.task hrun, htp, htl, hti, (congrArg Running.pos hrun).trans hte, (congrArg Running.thandler hrun).trans hhandler,
    (congrArg Running.pstack hrun).trans (startCore_pstack t), hnone, hst⟩

/-- Task `t` runs on core `x` of `u`, its state that of `k`, resumed `n` times. -/
def RunsAgain (t : TaskSlot) (x : Nat) (k : Core) (u : State) (n : Nat) : Prop :=
  (u.getCore (.core x)).task = some t.info ∧ (u.getCore (.core x)).s = k.s ∧ (u.getCore (.core x)).a = k.a ∧
    (u.getCore (.core x)).sticky = k.sticky ∧ (u.getCore (.core x)).pos = t.cpos ∧ (u.getCore (.core x)).evt = (t.evt && t.why != 3) ∧
    ∃ y, u.dev.slotOf t.part t.slot = some y ∧ y.st = 1 ∧ y.kept = none ∧ y.resumes = n ∧ y.lastCore = some x

theorem resumed_runs {u : State} {t : TaskSlot} {x : Nat} {k : Core} {y : TaskSlot} (h : Resumed u t x k y) (hst : y.st = 1) (hk : y.kept = none)
    (hl : y.lastCore = some x) : RunsAgain t x k u y.resumes :=
  ⟨congrArg Running.task h.core, congrArg Running.s h.core, congrArg Running.a h.core, congrArg Running.sticky h.core, congrArg Running.pos h.core,
    congrArg Running.evt h.core, y, h.slot, hst, hk, rfl, hl⟩

section Resume
variable {s : State} {t : TaskSlot} {x : Nat} {k : Core} (h : s.nextStart s.ev.part = some (.task t x))
  (ht : s.dev.slotOf t.part t.slot = some t) (hk : t.kept = some k) (hi : s.dev.recordIntact t = true) (hc : t.ckpt = false) (ha : t.area = none)
include h ht hk hi hc ha

theorem taskResume_runs (hf : t.fresh = false) : ∃ u, exec .taskResume s = .next u ∧ RunsAgain t x k u (t.resumes + 1) := by
  obtain ⟨now, hrun⟩ := resumeTask_resumes x ht hk hi hc ha
  exact ⟨_, (starts_resumed h hf).2, resumed_runs hrun rfl rfl rfl⟩

theorem spawnedTaskStart_runs (hf : t.fresh = true) : ∃ u, exec .spawnedTaskStart s = .next u ∧ RunsAgain t x k u 0 := by
  obtain ⟨now, hrun⟩ := resumeTask_resumes x ht hk hi hc ha
  refine ⟨_, (starts_fresh h hf).2, ?_⟩
  generalize s.resumeTask t x = u at hrun ⊢
  have hu : Resumed (u.updDev fun v => v.updSlot t.part t.slot fun y => { y with resumes := 0 }) t x k { t.resumed x now with resumes := 0 } :=
    ⟨hrun.core, slotOf_updSlot_some hrun.slot⟩
  exact resumed_runs hu rfl rfl rfl

end Resume

/-- The footprint of a task that is on no core goes to its spill area, and its core forwards (R36, R40). -/
theorem footprintMove_moves {s : State} {t : TaskSlot} {k : Core} (hs : s.dev.slotOf s.ev.part s.ev.slot = some t)
    (hr : s.residentOf t.part t.slot = none) (hk : t.kept = some k) (hf : t.foot = false) :
    ∃ v y z, exec .footprintMove s = .next { s with dev := v } ∧ v.slotOf s.ev.part s.ev.slot = some y ∧ y.foot = true ∧ y.kept = some z ∧
      z.spad = [] ∧ z.s = k.s ∧ ∀ x, t.lastCore = some x →
        v.forwards = s.dev.forwards.filter (fun f => !(f.core == x && f.part == t.part && f.slot == t.slot)) ++
          [{ core := x, part := t.part, slot := t.slot, till := s.dev.time + 65536 }] := by
  obtain ⟨hp, hi⟩ := slotOf_key hs
  obtain ⟨hslot, hfw⟩ := footOut_slot (v := s.dev) (t := t) (by rw [hp, hi]; exact hs) hk hf
  have hmove := footprintMove_slot hs hr
  generalize s.dev.footOut t = v at hslot hfw hmove
  rw [hp, hi] at hslot
  exact ⟨v, _, _, hmove, hslot, rfl, congrArg (Option.map _) hk, rfl, rfl, hfw⟩

theorem agingLimitExpire_nothing {s : State} (h : s.firstAged = none) : exec .agingLimitExpire s = .next s := by
  rw [agingLimitExpire_eq, h]
  rfl

/-- The first work that has aged reserves its cluster (R53, R406). -/
theorem agingLimitExpire_reserves {s : State} {w : Work} {r : Reserve} (h : s.firstAged = some w) (hr : s.reservation s.ev.part w = some r) :
    exec .agingLimitExpire s = .next { s with dev := { s.dev with reserved := s.dev.reserved ++ [r] } } := by
  rw [agingLimitExpire_eq, h, Option.bind_some, hr]
  rfl

/-- Settles O49: gangs and tasks that come next start (`gangStart_starts`, `taskResume_runs`), a task that leaves its core is saved, killed or
drained as R382 chooses (`chosen_drain`, `checkpoint_saves`, `killTask_restarts`), and each event acts for the first work due
(`agingLimitExpire_reserves`, `gangWaitPreempt_acts`, `preemptionWaitExpire_acts`). -/
theorem schedulerStartsResumesAndStopsTasks : Obligations.SchedulerStartsResumesAndStopsTasks := by
  unfold Obligations.SchedulerStartsResumesAndStopsTasks
  refine ⟨fun s => ?_, fun s p t x hf hev hm ht ho hseg hl hx => ?_⟩
  · refine ⟨starts_nothing, fun e k cores dome o h ho he => ?_, fun t x k h hp ht hk hi hc ha => ?_, coldStartRelease_releases s,
      fun t k hs hr hk hf => footprintMove_moves hs hr hk hf, fun t hs hf => footprintMove_nothing hs hf,
      agingLimitExpire_nothing, fun e h => ⟨fun x hm hx => ?_, fun x hm hx => ?_⟩, fun t h => ⟨fun k hm hk => ?_, fun c hm hc => ?_⟩⟩
    · obtain ⟨hres, hspawn, _⟩ := starts_gang h
      exact ⟨hres, hspawn, gangStart_starts h ho he⟩
    · rw [← hp] at ht
      have hresume := taskResume_runs h ht hk hi hc ha
      have hspawned := spawnedTaskStart_runs h ht hk hi hc ha
      simp only [RunsAgain, hp] at hresume hspawned
      exact ⟨starts_task h, fun hf => ⟨(starts_resumed h hf).1, hresume hf⟩, fun hf => ⟨(starts_fresh h hf).1, hspawned hf⟩⟩
    · exact agingLimitExpire_reserves h (reservation_gang hm hx)
    · exact agingLimitExpire_reserves h (reservation_drawn hm hx)
    · exact agingLimitExpire_reserves h (reservation_task hm hk)
    · exact agingLimitExpire_reserves h (reservation_core hm hc)
  · intro c drained saved k soon mayKill
    have hsaves := fun hcan => checkpoint_saves hm ht ho hseg hl hx hcan
    have hfocus := fun hcan why => (checkpoint_leaves hm ht ho hseg hl hcan why).2
    refine ⟨fun h => chosen_drain h _, fun h h' => chosen_kill h h', fun h h' => chosen_checkpoint h h',
      fun h => congrArg _ (preemptChosen_other hf hev h), fun h => congrArg _ (preemptChosen_other hf hev h),
      fun h => congrArg _ (preemptChosen_other hf hev h), fun h => ?_, fun h => ?_, fun h => ?_, drainWindow_open hf hev ht hx,
      fun hd h hcan => ⟨_, drainWindow_over hf hev ht hx hd h (hfocus hcan 5), hsaves hcan 5⟩, gangWaitPreempt_barred hf hev ht,
      ⟨gangWaitPreempt_none hf hev ht, fun n hlack hmer hsp hd hb hn hi hcan => ⟨hsaves hcan 6, fun m hmem hidle => ?_, fun h => ?_⟩⟩,
      preemptionWaitExpire_nothing, fun w h => preemptionWaitExpire_acts h, fun e => rfl, fun y e he => roomOf_task he⟩
    · refine congrArg _ (preemptChosen_acts hf hev h (u := drained) ((preemptFocus_drain hm ht _).trans ?_) rfl)
      simp only [State.drainTask, ht]
      rfl
    · have hcan := canCheckpoint_of_chosen h
      exact ⟨_, congrArg Host.Outcome.next (preemptChosen_acts hf hev h (preemptFocus_checkpoint hm ht hcan _) (hfocus hcan 5)), hsaves hcan 5⟩
    · obtain ⟨htask, hfoc, y, hy⟩ := killTask_restarts hm ht ho hseg hx
      exact ⟨_, y, congrArg Host.Outcome.next (preemptChosen_acts hf hev h (preemptFocus_kill hm ht (idem_of_chosen h) _) hfoc), htask, hy⟩
    · rw [gangWaitPreempt_acts hf hev ht hlack hmer hsp hd hb hn hi (hfocus hcan 6), handOver_next hmem hidle]
    · rw [gangWaitPreempt_acts hf hev ht hlack hmer hsp hd hb hn hi (hfocus hcan 6), handOver_nobody h]

end Sys2Proof.Machine
end

section
/-! O28: the two integers next to a rational magnitude n/d, their distances from it, and which of them each rounding mode takes (R68). -/

namespace Sys2Proof.Machine

/-! How far n/d is from an integer k, measured in d-ths. -/

/-- d times the distance of n/d from `k`. -/
def distTo (n d k : ℕ) : ℕ := Int.natAbs ((n : ℤ) - k * d)

theorem distTo_le_floor {n d j : ℕ} (h : j ≤ n / d) : distTo n d j = n % d + (n / d - j) * d := by
  have hn : (n : ℤ) = d * (n / d : ℕ) + (n % d : ℕ) := by exact_mod_cast (Nat.div_add_mod n d).symm
  have hk : (n : ℤ) - j * d = (n % d + (n / d - j) * d : ℕ) := by
    push_cast [Nat.cast_sub h] at hn ⊢
    linarith
  rw [distTo, hk, Int.natAbs_natCast]

theorem distTo_gt_floor {n d j : ℕ} (hd : 0 < d) (h : n / d < j) : distTo n d j = (d - n % d) + (j - (n / d + 1)) * d := by
  have hn : (n : ℤ) = d * (n / d : ℕ) + (n % d : ℕ) := by exact_mod_cast (Nat.div_add_mod n d).symm
  have hr : n % d ≤ d := (Nat.mod_lt n hd).le
  have hk : (n : ℤ) - j * d = -((d - n % d + (j - (n / d + 1)) * d : ℕ) : ℤ) := by
    push_cast [Nat.cast_sub hr, Nat.cast_sub (Nat.succ_le_of_lt h)] at hn ⊢
    linarith
  rw [distTo, hk, Int.natAbs_neg, Int.natAbs_natCast]

theorem distTo_floor (n d : ℕ) : distTo n d (n / d) = n % d := by
  simp [distTo_le_floor (le_refl (n / d))]

theorem distTo_floor_succ {n d : ℕ} (hd : 0 < d) : distTo n d (n / d + 1) = d - n % d := by
  simp [distTo_gt_floor hd (Nat.lt_succ_self (n / d))]

/-- An integer other than the two neighbours of n/d is farther than each of them, by d-ths. -/
theorem distTo_far {n d j : ℕ} (hd : 0 < d) (h : j ≠ n / d) (h' : j ≠ n / d + 1) :
    d + n % d ≤ distTo n d j ∨ d + (d - n % d) ≤ distTo n d j := by
  have hone {a b : ℕ} (h : b < a) : d ≤ (a - b) * d := Nat.le_mul_of_pos_left d (Nat.sub_pos_of_lt h)
  rcases Nat.lt_or_ge (n / d) j with hj | hj
  · right
    rw [distTo_gt_floor hd hj]
    have := hone (b := n / d + 1) (a := j) (by omega)
    omega
  · left
    rw [distTo_le_floor hj]
    have := hone (b := j) (a := n / d) (by omega)
    omega

theorem floor_nearest {n d : ℕ} (hd : 0 < d) (h : 2 * (n % d) ≤ d) (j : ℕ) : distTo n d (n / d) ≤ distTo n d j := by
  rw [distTo_floor]
  by_cases h1 : j = n / d
  · rw [h1, distTo_floor]
  by_cases h2 : j = n / d + 1
  · rw [h2, distTo_floor_succ hd]; omega
  rcases distTo_far hd h1 h2 with h3 | h3 <;> omega

theorem floor_succ_nearest {n d : ℕ} (hd : 0 < d) (h : d ≤ 2 * (n % d)) (j : ℕ) : distTo n d (n / d + 1) ≤ distTo n d j := by
  have hr : n % d < d := Nat.mod_lt n hd
  rw [distTo_floor_succ hd]
  by_cases h1 : j = n / d
  · rw [h1, distTo_floor]; omega
  by_cases h2 : j = n / d + 1
  · rw [h2, distTo_floor_succ hd]
  rcases distTo_far hd h1 h2 with h3 | h3 <;> omega

/-- As near to n/d as its floor, where that is the nearest, is only the integer above, half-way between them. -/
theorem tie_of_distTo_floor {n d j : ℕ} (hd : 0 < d) (h : 2 * (n % d) ≤ d) (hj : j ≠ n / d) (he : distTo n d j = distTo n d (n / d)) :
    2 * (n % d) = d ∧ j = n / d + 1 := by
  rw [distTo_floor] at he
  by_cases h2 : j = n / d + 1
  · rw [h2, distTo_floor_succ hd] at he
    exact ⟨by omega, h2⟩
  · rcases distTo_far hd hj h2 with h3 | h3 <;> omega

theorem tie_of_distTo_floor_succ {n d j : ℕ} (hd : 0 < d) (h : d ≤ 2 * (n % d)) (hj : j ≠ n / d + 1)
    (he : distTo n d j = distTo n d (n / d + 1)) : 2 * (n % d) = d ∧ j = n / d := by
  have hr : n % d < d := Nat.mod_lt n hd
  rw [distTo_floor_succ hd] at he
  by_cases h1 : j = n / d
  · rw [h1, distTo_floor] at he
    exact ⟨by omega, h1⟩
  · rcases distTo_far hd h1 hj with h3 | h3 <;> omega

/-! The integer that `roundNat` takes. -/

theorem roundNat_exact {n d : ℕ} (h : n % d = 0) (rm r : ℕ) (s : Bool) : roundNat rm r s n d = (n / d, false) := by
  simp [roundNat, h]

theorem roundNat_inexact (rm r : ℕ) (s : Bool) (n d : ℕ) : (roundNat rm r s n d).2 = decide (n % d ≠ 0) := by
  by_cases h : n % d = 0 <;> simp [roundNat, h]

theorem roundNat_rne {n d : ℕ} (hd : 0 < d) (r : ℕ) (s : Bool) :
    (roundNat 0 r s n d).1 = if d < 2 * (n % d) ∨ 2 * (n % d) = d ∧ n / d % 2 = 1 then n / d + 1 else n / d := by
  by_cases h : n % d = 0
  · rw [roundNat_exact h, if_neg (by omega)]
  · simp [roundNat, h]

theorem roundNat_rtz (r : ℕ) (s : Bool) (n d : ℕ) : (roundNat 1 r s n d).1 = n / d := by
  by_cases h : n % d = 0 <;> simp [roundNat, h]

theorem roundNat_rna {n d : ℕ} (hd : 0 < d) (r : ℕ) (s : Bool) :
    (roundNat 4 r s n d).1 = if d ≤ 2 * (n % d) then n / d + 1 else n / d := by
  by_cases h : n % d = 0
  · rw [roundNat_exact h, if_neg (by omega)]
  · simp [roundNat, h]

theorem add_pred_div_eq {n d : ℕ} (hd : 0 < d) : (n + d - 1) / d = if n % d = 0 then n / d else n / d + 1 := by
  have hn := Nat.div_add_mod n d
  have hr := Nat.mod_lt n hd
  split
  · rw [Nat.div_eq_iff hd, Nat.mul_comm]
    omega
  · rw [Nat.div_eq_iff hd, Nat.mul_comm, Nat.mul_succ]
    omega

theorem roundNat_rup {n d : ℕ} (hd : 0 < d) (r : ℕ) (s : Bool) :
    (roundNat 2 r s n d).1 = if s then n / d else (n + d - 1) / d := by
  rw [add_pred_div_eq hd]
  by_cases h : n % d = 0 <;> cases s <;> simp [roundNat, h]

theorem roundNat_rdn {n d : ℕ} (hd : 0 < d) (r : ℕ) (s : Bool) :
    (roundNat 3 r s n d).1 = if s then (n + d - 1) / d else n / d := by
  rw [add_pred_div_eq hd]
  by_cases h : n % d = 0 <;> cases s <;> simp [roundNat, h]

/-- RNE takes an integer nearest to n/d, the even one of two. -/
theorem roundNat_rne_nearest {n d : ℕ} (hd : 0 < d) (r : ℕ) (s : Bool) :
    (∀ j, distTo n d (roundNat 0 r s n d).1 ≤ distTo n d j) ∧
      ∀ j, j ≠ (roundNat 0 r s n d).1 → distTo n d j = distTo n d (roundNat 0 r s n d).1 → (roundNat 0 r s n d).1 % 2 = 0 := by
  rw [roundNat_rne hd]
  split
  next hup =>
    have hle : d ≤ 2 * (n % d) := by omega
    refine ⟨floor_succ_nearest hd hle, fun j hj he => ?_⟩
    obtain ⟨htie, -⟩ := tie_of_distTo_floor_succ hd hle hj he
    omega
  next hdown =>
    have hle : 2 * (n % d) ≤ d := by omega
    refine ⟨floor_nearest hd hle, fun j hj he => ?_⟩
    obtain ⟨htie, -⟩ := tie_of_distTo_floor hd hle hj he
    omega

/-- RNA takes an integer nearest to n/d, the greater one of two. -/
theorem roundNat_rna_nearest {n d : ℕ} (hd : 0 < d) (r : ℕ) (s : Bool) :
    (∀ j, distTo n d (roundNat 4 r s n d).1 ≤ distTo n d j) ∧
      ∀ j, distTo n d j = distTo n d (roundNat 4 r s n d).1 → j ≤ (roundNat 4 r s n d).1 := by
  rw [roundNat_rna hd]
  split
  next hup =>
    refine ⟨floor_succ_nearest hd hup, fun j he => ?_⟩
    by_contra hj
    have := tie_of_distTo_floor_succ hd hup (by omega) he
    omega
  next hdown =>
    have hle : 2 * (n % d) ≤ d := by omega
    refine ⟨floor_nearest hd hle, fun j he => ?_⟩
    by_contra hj
    have := tie_of_distTo_floor hd hle (by omega) he
    omega

end Sys2Proof.Machine
end

section
/-! O28: a rational that is the value of a finite FP32 encoding is rounded to that encoding, without a flag (R60, R68, R72). -/

namespace Sys2Proof.Machine

/-! The rationals that a numerator and denominator stand for. -/

/-- The rational of a numerator and denominator. -/
def ratio (x : ℕ × ℕ) : ℚ := x.1 / x.2

theorem two_zpow_toNat {t : ℤ} (h : 0 ≤ t) : (2 : ℚ) ^ t.toNat = 2 ^ t := by
  rw [← zpow_natCast, Int.toNat_of_nonneg h]

theorem ratio_dyad (m : ℕ) (e : ℤ) : ratio (dyad m e) = m * 2 ^ e := by
  unfold dyad ratio
  split
  next h => simp [two_zpow_toNat h]
  next h => simp [two_zpow_toNat (t := -e) (by omega), div_eq_mul_inv]

theorem dyad_den_pos (m : ℕ) (e : ℤ) : 0 < (dyad m e).2 := by
  unfold dyad
  split <;> positivity

theorem ratio_scaleRat (n d : ℕ) (t : ℤ) : ratio (scaleRat n d t) = ratio (n, d) * 2 ^ (-t) := by
  unfold scaleRat ratio
  split
  next h => simp only [Nat.cast_mul, Nat.cast_pow, Nat.cast_ofNat, two_zpow_toNat h, zpow_neg, div_eq_mul_inv, mul_inv, mul_assoc]
  next h => simp only [Nat.cast_mul, Nat.cast_pow, Nat.cast_ofNat, two_zpow_toNat (t := -t) (by omega), div_mul_eq_mul_div]

theorem scaleRat_den_pos {d : ℕ} (hd : 0 < d) (n : ℕ) (t : ℤ) : 0 < (scaleRat n d t).2 := by
  unfold scaleRat
  split
  · exact Nat.mul_pos hd (by positivity)
  · exact hd

theorem ratio_pos {n d : ℕ} (hn : 0 < n) (hd : 0 < d) : 0 < ratio (n, d) := by
  unfold ratio
  positivity

/-- The denominator of a natural number's fraction divides its numerator. -/
theorem eq_mul_of_ratio {x : ℕ × ℕ} {m : ℕ} (hd : 0 < x.2) (h : ratio x = m) : x.1 = m * x.2 := by
  rw [ratio, div_eq_iff (by positivity)] at h
  exact_mod_cast h

/-! The exponent of the leading bit. -/

/-- The bit lengths of numerator and denominator find a power of two within a factor two of n/d on each side. -/
theorem log2_quotient_bounds {n d : ℕ} (hn : n ≠ 0) (hd : d ≠ 0) :
    (2 : ℚ) ^ ((Nat.log2 n : ℤ) - Nat.log2 d - 1) < ratio (n, d) ∧ ratio (n, d) < 2 ^ ((Nat.log2 n : ℤ) - Nat.log2 d + 1) := by
  have hnl : (2 : ℚ) ^ (Nat.log2 n : ℤ) ≤ n := by rw [zpow_natCast]; exact_mod_cast Nat.log2_self_le hn
  have hnu : (n : ℚ) < 2 ^ ((Nat.log2 n : ℤ) + 1) := by exact_mod_cast Nat.lt_log2_self (n := n)
  have hdl : (2 : ℚ) ^ (Nat.log2 d : ℤ) ≤ d := by rw [zpow_natCast]; exact_mod_cast Nat.log2_self_le hd
  have hdu : (d : ℚ) < 2 ^ ((Nat.log2 d : ℤ) + 1) := by exact_mod_cast Nat.lt_log2_self (n := d)
  have hdpos : (0 : ℚ) < d := by positivity
  unfold ratio
  constructor
  · rw [lt_div_iff₀ hdpos]
    calc (2 : ℚ) ^ ((Nat.log2 n : ℤ) - Nat.log2 d - 1) * d
        < 2 ^ ((Nat.log2 n : ℤ) - Nat.log2 d - 1) * 2 ^ ((Nat.log2 d : ℤ) + 1) := by gcongr
      _ = 2 ^ (Nat.log2 n : ℤ) := by rw [← zpow_add₀ (by norm_num)]; congr 1; ring
      _ ≤ n := hnl
  · rw [div_lt_iff₀ hdpos]
    calc (n : ℚ) < 2 ^ ((Nat.log2 n : ℤ) + 1) := hnu
      _ = 2 ^ ((Nat.log2 n : ℤ) - Nat.log2 d + 1) * 2 ^ (Nat.log2 d : ℤ) := by rw [← zpow_add₀ (by norm_num)]; congr 1; ring
      _ ≤ 2 ^ ((Nat.log2 n : ℤ) - Nat.log2 d + 1) * d := by gcongr

theorem log2Rat_eq (n d : ℕ) : log2Rat n d =
    let k : ℤ := (Nat.log2 n : ℤ) - Nat.log2 d
    if (scaleRat n d k).2 ≤ (scaleRat n d k).1 then k else k - 1 := by
  simp only [log2Rat, scaleRat]
  split <;> rfl

/-- `log2Rat` is the exponent of the greatest power of two that does not exceed n/d. -/
theorem log2Rat_eq_log {n d : ℕ} (hn : 0 < n) (hd : 0 < d) : log2Rat n d = Int.log 2 (ratio (n, d)) := by
  have hpos := ratio_pos hn hd
  obtain ⟨hl, hu⟩ := log2_quotient_bounds hn.ne' hd.ne'
  rw [← Nat.cast_two, Int.lt_zpow_iff_log_lt one_lt_two hpos] at hu
  have hl' := (Int.zpow_le_iff_le_log one_lt_two hpos).1 (Nat.cast_two (R := ℚ) ▸ hl.le)
  rw [log2Rat_eq]
  generalize (Nat.log2 n : ℤ) - Nat.log2 d = k at hl' hu ⊢
  have hge : (scaleRat n d k).2 ≤ (scaleRat n d k).1 ↔ k ≤ Int.log 2 (ratio (n, d)) := by
    have hden : (0 : ℚ) < (scaleRat n d k).2 := by exact_mod_cast scaleRat_den_pos hd n k
    rw [← Int.zpow_le_iff_le_log one_lt_two hpos, ← Nat.cast_le (α := ℚ), ← one_le_div hden, ← ratio, ratio_scaleRat, zpow_neg,
      ← div_eq_mul_inv, one_le_div (by positivity), Nat.cast_ofNat]
  simp only [hge]
  split <;> omega

/-! Finite FP32 encodings. -/

/-- `x` is the FP32 encoding of (−1)^s · m · 2^e: significand and exponent in their ranges, all bits at their places (R59, R60). -/
structure Fp32Encodes (x : Lane) (s : Bool) (m : ℕ) (e : ℤ) : Prop where
  exp_ge : -149 ≤ e
  exp_le : e ≤ 104
  sig_lt : m < 2 ^ 24
  normal : e = -149 ∨ 2 ^ 23 ≤ m
  bits : x.toNat = fp32.sign s + ((e + 149).toNat * 2 ^ 23 + m)

theorem fp32_toNat_split (x : Lane) : x.toNat = fp32.sign (bitOf x.toNat 31) + (x.toNat / 2 ^ 23 % 2 ^ 8 * 2 ^ 23 + x.toNat % 2 ^ 23) := by
  have hx := x.isLt
  simp only [FFmt.sign, fp32, bitOf, beq_iff_eq]
  split <;> omega

theorem f32Val_eq (x : Lane) : f32Val x =
    let E : ℕ := x.toNat / 2 ^ 23 % 2 ^ 8
    let k : ℕ := x.toNat % 2 ^ 23
    if E = 0 then .fin (bitOf x.toNat 31) k (-149)
    else if E = 255 then (if k = 0 then .inf (bitOf x.toNat 31) else .nan (bitOf x.toNat 31) k)
    else .fin (bitOf x.toNat 31) (k + 2 ^ 23) (E - 150 : ℤ) := by
  simp [f32Val, FFmt.decode, fp32, FFmt.isE4m3, sub_sub]

theorem fp32Encodes_of_fin {x : Lane} {s : Bool} {m : ℕ} {e : ℤ} (h : f32Val x = .fin s m e) : Fp32Encodes x s m e := by
  have hsplit := fp32_toNat_split x
  have hk : x.toNat % 2 ^ 23 < 2 ^ 23 := Nat.mod_lt _ (by decide)
  have hE : x.toNat / 2 ^ 23 % 2 ^ 8 < 2 ^ 8 := Nat.mod_lt _ (by decide)
  rw [f32Val_eq] at h
  dsimp only at h
  generalize x.toNat / 2 ^ 23 % 2 ^ 8 = E at hsplit hE h
  generalize x.toNat % 2 ^ 23 = k at hsplit hk h
  split at h
  next h0 =>
    obtain ⟨rfl, rfl, rfl⟩ := FVal.fin.inj h
    exact ⟨by omega, by omega, by omega, .inl rfl, hsplit.trans (by simp [h0])⟩
  next h0 =>
    split at h
    next => split at h <;> cases h
    next h1 =>
      obtain ⟨rfl, rfl, rfl⟩ := FVal.fin.inj h
      exact ⟨by omega, by omega, by omega, .inr (by omega), hsplit.trans (congrArg _ (by omega))⟩

/-- The value of a finite encoding is no NaN. -/
theorem isNaN_of_fin {x : Lane} {s : Bool} {m : ℕ} {e : ℤ} (h : f32Val x = .fin s m e) : isNaN x = false := by
  have hx := x.isLt
  rw [f32Val_eq] at h
  dsimp only at h
  simp only [isNaN, decide_eq_false_iff_not, not_lt]
  split at h
  next h0 => omega
  next h0 =>
    split at h
    next => split at h <;> cases h
    next h1 => omega

/-! Rounding the value of an encoding. -/

section Exact
variable {x : Lane} {s : Bool} {m : ℕ} {e : ℤ} (hx : Fp32Encodes x s m e) {n d : ℕ} (hd : 0 < d) (hv : ratio (n, d) = m * 2 ^ e)
include hx hd hv

/-- The unit in the last place of a value of FP32 is that of its encoding (R72). -/
theorem ulp_of_encodes (hn : 0 < n) : max (log2Rat n d) (-126) - 23 = e := by
  have hpos := ratio_pos hn hd
  have hlt (k : ℕ) (h : m < 2 ^ k) : Int.log 2 (ratio (n, d)) < e + k := by
    rw [← Int.lt_zpow_iff_log_lt one_lt_two hpos, hv, Nat.cast_two, add_comm, zpow_add₀ two_ne_zero, zpow_natCast]
    gcongr
    exact_mod_cast h
  have hge (h : 2 ^ 23 ≤ m) : e + 23 ≤ Int.log 2 (ratio (n, d)) := by
    rw [← Int.zpow_le_iff_le_log one_lt_two hpos, hv, Nat.cast_two, add_comm, zpow_add₀ two_ne_zero]
    gcongr
    exact_mod_cast h
  have hexp := hx.exp_ge
  have hsig := hlt 24 hx.sig_lt
  rw [log2Rat_eq_log hn hd]
  by_cases hnorm : 2 ^ 23 ≤ m
  · have := hge hnorm
    omega
  · have := hlt 23 (not_le.1 hnorm)
    have := hx.normal
    omega

/-- An exact result is rounded to itself, without a flag. -/
theorem round_of_encodes (rm r : ℕ) (sat : Bool) : fp32.round rm r sat s n d = (x.toNat, 0) := by
  rcases Nat.eq_zero_or_pos n with rfl | hn
  · have hm : m = 0 := by simpa [ratio, zpow_ne_zero] using hv.symm
    have he : e = -149 := hx.normal.resolve_right (by omega)
    rw [hx.bits, hm, he]
    simp [FFmt.round]
  have hulp : max (log2Rat n d) (1 - (fp32.bias : ℤ)) - fp32.mb = e := ulp_of_encodes hx hd hv hn
  have hden := scaleRat_den_pos hd n e
  have hnum : (scaleRat n d e).1 = m * (scaleRat n d e).2 := by
    refine eq_mul_of_ratio hden ?_
    rw [ratio_scaleRat, hv, mul_assoc, ← zpow_add₀ two_ne_zero, add_neg_cancel, zpow_zero, mul_one]
  have hround : roundNat rm r s (scaleRat n d e).1 (scaleRat n d e).2 = (m, false) := by
    rw [hnum, roundNat_exact (Nat.mul_mod_left ..), Nat.mul_div_cancel _ hden]
  have hexp := hx.exp_le
  have hsig := hx.sig_lt
  have hmax : ¬ (e + 149).toNat * 2 ^ 23 + m > fp32.maxBits := by
    simp only [FFmt.maxBits, fp32, if_true]
    omega
  have hbits : (e + fp32.mb + fp32.bias - 1).toNat * 2 ^ fp32.mb + m = (e + 149).toNat * 2 ^ 23 + m := by
    simp only [fp32]
    omega
  simp only [FFmt.round, hn.ne', if_false, hulp, hround, hmax, Bool.false_and, hbits, hx.bits]
  rfl

end Exact

/-! The rational that a sign, a magnitude and an exponent stand for. -/

/-- (−1)^s · m · 2^e. -/
def signedValue (s : Bool) (m : ℕ) (e : ℤ) : ℚ := (if s then -1 else 1) * m * 2 ^ e

theorem fin_of_rationalOf {v : FVal} {z : ℚ} (h : rationalOf v = some z) : ∃ s m e, v = .fin s m e ∧ signedValue s m e = z := by
  cases v with
  | nan => cases h
  | inf => cases h
  | fin s m e => exact ⟨s, m, e, rfl, Option.some.inj h⟩

/-- Equal values that are not zero have the same sign and the same magnitude. -/
theorem signedValue_inj {s t : Bool} {m k : ℕ} {e f : ℤ} (h : signedValue s m e = signedValue t k f) (hz : signedValue t k f ≠ 0) :
    s = t ∧ (m : ℚ) * 2 ^ e = k * 2 ^ f := by
  have hm : (0 : ℚ) ≤ m * 2 ^ e := by positivity
  have hk : (0 : ℚ) ≤ k * 2 ^ f := by positivity
  have hne : (k : ℚ) * 2 ^ f ≠ 0 := fun h0 => hz (by rw [signedValue, mul_assoc, h0, mul_zero])
  have hlt := lt_of_le_of_ne hk hne.symm
  simp only [signedValue, mul_assoc] at h
  cases s <;> cases t <;> simp only [Bool.false_eq_true, if_true, if_false] at h
  · exact ⟨rfl, by linarith⟩
  · exfalso; linarith
  · exfalso; linarith
  · exact ⟨rfl, by linarith⟩

theorem signedValue_mul (s t : Bool) (m k : ℕ) (e f : ℤ) :
    signedValue (s != t) (m * k) (e + f) = signedValue s m e * signedValue t k f := by
  simp only [signedValue, zpow_add₀ (two_ne_zero (α := ℚ)), Nat.cast_mul]
  cases s <;> cases t <;> simp <;> ring

theorem sign_mul_natAbs (c : ℤ) : (if decide (c < 0) then -1 else 1 : ℚ) * c.natAbs = c := by
  rcases lt_or_ge c 0 with h | h
  · simp [h, abs_of_neg (a := (c : ℚ)) (by exact_mod_cast h)]
  · simp [not_lt.2 h, abs_of_nonneg (a := (c : ℚ)) (by exact_mod_cast h)]

/-- (−1)^s · m · 2^e in units of 2^f, for an f that is not above e: the form in which `addFin` adds. -/
def inUnits (s : Bool) (m : ℕ) (e f : ℤ) : ℤ := (if s then -1 else 1) * (m * 2 ^ (e - f).toNat : ℕ)

theorem signedValue_eq_inUnits (s : Bool) (m : ℕ) {e f : ℤ} (h : f ≤ e) : signedValue s m e = inUnits s m e f * 2 ^ f := by
  have hp : (2 : ℚ) ^ e = 2 ^ (e - f) * 2 ^ f := by rw [← zpow_add₀ two_ne_zero, sub_add_cancel]
  rw [signedValue, inUnits, hp, ← two_zpow_toNat (sub_nonneg.2 h)]
  push_cast
  ring

theorem addFin_eq (rm : ℕ) (s1 s2 : Bool) (m1 m2 : ℕ) (e1 e2 : ℤ) : addFin rm s1 m1 e1 s2 m2 e2 =
    let e := min e1 e2
    let c := inUnits s1 m1 e1 e + inUnits s2 m2 e2 e
    if c = 0 then ((if m1 = 0 ∧ m2 = 0 then zeroSumSign rm s1 s2 else decide (rm = 3)), 0, e) else (decide (c < 0), c.natAbs, e) := rfl

/-- The exact sum is the sum of the values (R230). -/
theorem signedValue_addFin (rm : ℕ) (s1 s2 : Bool) (m1 m2 : ℕ) (e1 e2 : ℤ) :
    signedValue (addFin rm s1 m1 e1 s2 m2 e2).1 (addFin rm s1 m1 e1 s2 m2 e2).2.1 (addFin rm s1 m1 e1 s2 m2 e2).2.2 =
      signedValue s1 m1 e1 + signedValue s2 m2 e2 := by
  rw [signedValue_eq_inUnits s1 m1 (min_le_left e1 e2), signedValue_eq_inUnits s2 m2 (min_le_right e1 e2), ← add_mul, ← Int.cast_add, addFin_eq]
  dsimp only
  generalize inUnits s1 m1 e1 (min e1 e2) + inUnits s2 m2 e2 (min e1 e2) = c
  by_cases h : c = 0
  · simp [h, signedValue]
  · simp only [h, if_false, signedValue, sign_mul_natAbs]

/-! Sums, products and fused sums whose rational is the value of an encoding. -/

/-- A value that an encoding has is rounded to that encoding, whatever its magnitude and exponent are written as. -/
theorem roundF32_of_value {x : Lane} {z : ℚ} (hx : rationalOf (f32Val x) = some z) (hz : z ≠ 0) {u : Bool} {q : ℕ} {y : ℤ}
    (h : signedValue u q y = z) (rm : ℕ) (sat : Bool) : roundF32 rm sat false u (dyad q y).1 (dyad q y).2 = (x, 0) := by
  obtain ⟨s, m, e, hfin, rfl⟩ := fin_of_rationalOf hx
  obtain ⟨rfl, hv⟩ := signedValue_inj h hz
  have hratio : ratio ((dyad q y).1, (dyad q y).2) = m * 2 ^ e := (ratio_dyad q y).trans hv
  have hround := round_of_encodes (fp32Encodes_of_fin hfin) (dyad_den_pos q y) hratio rm 0 sat
  simp [roundF32, flushOut, hround]

theorem convert_of_rational {x : Lane} {z : ℚ} (hx : rationalOf (f32Val x) = some z) (rm : ℕ) (sat : Bool) :
    fp32.convert rm 0 sat (f32Val x) = (x.toNat, 0) := by
  obtain ⟨s, m, e, hfin, -⟩ := fin_of_rationalOf hx
  rw [hfin]
  exact round_of_encodes (fp32Encodes_of_fin hfin) (dyad_den_pos m e) (ratio_dyad m e) rm 0 sat

section Ops
variable {a b c x : Lane} {p q r z : ℚ} (ha : rationalOf (f32Val a) = some p) (hb : rationalOf (f32Val b) = some q)
  (hx : rationalOf (f32Val x) = some z) (hz : z ≠ 0) (rm : ℕ) (sat : Bool)
include ha hb hx hz

theorem fAdd_exact (h : p + q = z) : fAdd rm sat false a b = (x, 0) := by
  obtain ⟨s, m, e, hfa, rfl⟩ := fin_of_rationalOf ha
  obtain ⟨t, k, f, hfb, rfl⟩ := fin_of_rationalOf hb
  have hsum := roundF32_of_value hx hz ((signedValue_addFin rm s t m k e f).trans h) rm sat
  simp [fAdd, firstNaN, flushIn, isNaN_of_fin hfa, isNaN_of_fin hfb, hfa, hfb, hsum]

theorem fMul_exact (h : p * q = z) : fMul rm sat false a b = (x, 0) := by
  obtain ⟨s, m, e, hfa, rfl⟩ := fin_of_rationalOf ha
  obtain ⟨t, k, f, hfb, rfl⟩ := fin_of_rationalOf hb
  have hprod := roundF32_of_value hx hz ((signedValue_mul s t m k e f).trans h) rm sat
  simp [fMul, firstNaN, flushIn, isNaN_of_fin hfa, isNaN_of_fin hfb, hfa, hfb, hprod]

theorem fFma_exact (hc : rationalOf (f32Val c) = some r) (h : p * q + r = z) : fFma rm sat false false false a b c = (x, 0) := by
  obtain ⟨s, m, e, hfa, rfl⟩ := fin_of_rationalOf ha
  obtain ⟨t, k, f, hfb, rfl⟩ := fin_of_rationalOf hb
  obtain ⟨v, l, g, hfc, rfl⟩ := fin_of_rationalOf hc
  have hval := (signedValue_addFin rm (s != t) v (m * k) l (e + f) g).trans (signedValue_mul s t m k e f ▸ h)
  have hsum := roundF32_of_value hx hz hval rm sat
  simp [fFma, firstNaN, flushIn, isNaN_of_fin hfa, isNaN_of_fin hfb, isNaN_of_fin hfc, hfa, hfb, hfc, hsum]

end Ops

/-- Settles O28: a value that an encoding has is rounded to that encoding (`round_of_encodes`), and each mode takes the integer next to n/d
that R68 names (`roundNat_rne_nearest`, `roundNat_rtz`, `roundNat_rup`, `roundNat_rdn`, `roundNat_rna_nearest`). -/
theorem roundingOfRationals : Obligations.RoundingOfRationals := by
  unfold Obligations.RoundingOfRationals
  refine ⟨fun rm sat a b c x p q r z _ hx => ⟨convert_of_rational hx rm sat, fun hz ha hb => ?_⟩, fun r sg n d hd => ?_⟩
  · exact ⟨fAdd_exact ha hb hx hz rm sat, fMul_exact ha hb hx hz rm sat, fFma_exact ha hb hx hz rm sat⟩
  · exact ⟨fun rm _ => roundNat_inexact rm r sg n d, roundNat_rne_nearest hd r sg, roundNat_rtz r sg n d, roundNat_rup hd r sg,
      roundNat_rdn hd r sg, roundNat_rna_nearest hd r sg⟩

end Sys2Proof.Machine
end

section
/-! The pending writes of FMT and the check of a value written to it (R83, R84). -/

namespace Sys2Proof.Machine

/-- A field that R83 reserves is not zero. -/
def FmtReserved (w : Word) : Prop :=
  w.toNat / 2 ^ 5 % 2 ^ 3 ≠ 0 ∨ w.toNat / 2 ^ 13 % 2 ^ 3 ≠ 0 ∨ w.toNat / 2 ^ 21 % 2 ^ 3 ≠ 0 ∨ w.toNat / 2 ^ 30 % 2 ^ 34 ≠ 0

/-- Every code stands in the list of its field (R83). -/
def FmtListed (w : Word) : Prop :=
  1 ≤ w.toNat / 2 ^ 0 % 2 ^ 5 ∧ w.toNat / 2 ^ 0 % 2 ^ 5 ≤ 0xE ∧ 1 ≤ w.toNat / 2 ^ 8 % 2 ^ 5 ∧ w.toNat / 2 ^ 8 % 2 ^ 5 ≤ 0xE ∧
    w.toNat / 2 ^ 16 % 2 ^ 5 ≤ 0x11 ∧ w.toNat / 2 ^ 24 % 2 ^ 3 ≤ 5 ∧ w.toNat / 2 ^ 28 % 2 ^ 2 ≤ 1

theorem fmtRefuses_reserved {w : Word} (h : FmtReserved w) : fmtRefuses w = some RESV := if_pos h

theorem fmtRefuses_unlisted {w : Word} (h : ¬ FmtReserved w) (hl : ¬ FmtListed w) : fmtRefuses w = some ILLOP := by
  refine (if_neg h).trans (if_pos ?_)
  unfold FmtListed at hl
  beta_reduce
  omega

theorem fmtRefuses_listed {w : Word} (h : ¬ FmtReserved w) (hl : FmtListed w) : fmtRefuses w = none := by
  refine (if_neg h).trans (if_neg ?_)
  unfold FmtListed at hl
  beta_reduce
  omega

theorem due_pend_ne (f : FmtState) : ∀ p ∈ f.due.pend, p.1 ≠ 0 := fun _ hp => by
  simpa using (List.mem_filter.1 hp).2

/-- While every pending write still counts bundles, none takes effect. -/
theorem due_of_counting {f : FmtState} (h : ∀ p ∈ f.pend, p.1 ≠ 0) : f.due = f := by
  obtain ⟨cur, pend⟩ := f
  have hcur : (⟨cur, pend⟩ : FmtState).due.cur = cur := by
    induction pend with
    | nil => rfl
    | cons p l ih =>
      have hp : p.1 ≠ 0 := h p List.mem_cons_self
      have hl := ih fun q hq => h q (List.mem_cons_of_mem _ hq)
      simpa [FmtState.due, hp] using hl
  have hpend : (⟨cur, pend⟩ : FmtState).due.pend = pend := List.filter_eq_self.2 fun p hp => by simpa using h p hp
  exact congrArg₂ FmtState.mk hcur hpend

theorem due_head {f : FmtState} {v : Word} {rest : List (ℕ × Word)} (hf : f.pend = (0, v) :: rest) (h : ∀ p ∈ rest, p.1 ≠ 0) :
    f.due = ⟨v, rest⟩ := by
  have hstep : f.due = (⟨v, rest⟩ : FmtState).due := by simp [FmtState.due, hf]
  exact hstep.trans (due_of_counting h)

/-- A write governs from the fifth bundle after its own on (R84). -/
theorem count_write (old w : Word) :
    (⟨old, [(5, w)]⟩ : FmtState).count.count.count.count.cur = old ∧
      (⟨old, [(5, w)]⟩ : FmtState).count.count.count.count.count = ⟨w, []⟩ := ⟨rfl, rfl⟩

end Sys2Proof.Machine
end

section
/-! O39: the set-up instructions of the X slot (R83, R84, R299 to R304, R354, R355). -/

namespace Sys2Proof.Machine

/-- A trap of an operation of slot x has its slot word as the detail (R189). -/
theorem trapOp_x {i : Instr} (hx : slotOfOp i = .x) (s : State) (code : ℕ) :
    s.trapOp code i = s.takeTrap code 5 (BitVec.ofNat 64 (slotBits i)) false := by
  rw [State.trapOp, hx]
  rfl

/-- The number of two fields side by side. -/
theorem append_eq_ofNat {m n : ℕ} (x : BitVec m) (y : BitVec n) : x ++ y = BitVec.ofNat (m + n) (y.toNat + x.toNat * 2 ^ n) := by
  have hval : (x ++ y).toNat = y.toNat + x.toNat * 2 ^ n := by
    rw [BitVec.toNat_append, ← Nat.shiftLeft_add_eq_or_of_lt y.isLt, Nat.shiftLeft_eq, Nat.add_comm]
  rw [← hval, BitVec.ofNat_toNat, BitVec.setWidth_eq]

/-- The bound that BNDW writes (R301). -/
def bndwBound (c : Core) (o : XForm) : Bound :=
  { lo := BitVec.ofNat 32 (c.sreg o.a).toNat, hi := BitVec.ofNat 32 (c.sreg o.b).toNat, fmt := BitVec.ofNat 5 o.fn.toNat,
    act := BitVec.ofNat 2 (o.fn.toNat / 32) }

/-- One of the two bounds is a NaN in the format of BNDW (R301). -/
def BndwNaN (c : Core) (o : XForm) : Prop :=
  (elemVal (o.fn.toNat % 32) (bndwBound c o).lo.toNat).isNan = true ∨ (elemVal (o.fn.toNat % 32) (bndwBound c o).hi.toNat).isNan = true

/-- The shape entry that SHPW writes: one size and D (R303). -/
def shpwShape (c : Core) (o : XForm) : Shape :=
  { dims := o.fn.toNat % 8, sizes := (c.shapes[(numOf o).toNat]'(numOf o).isLt).sizes.setIfInBounds (o.imm.toNat / 16 % 8) ((c.sreg o.a).setWidth 32) }

theorem shpwShape_size (c : Core) (o : XForm) {k : ℕ} (h : k < 5) : (shpwShape c o).sizes[k] =
    if o.imm.toNat / 16 % 8 = k then (c.sreg o.a).setWidth 32 else (c.shapes[(numOf o).toNat]'(numOf o).isLt).sizes[k] :=
  Vector.getElem_setIfInBounds h

/-- The tolerance entry that CKTOL writes (R304). -/
def cktolEntry (c : Core) (o : XForm) : Word := BitVec.ofNat 64 ((c.sreg o.a).toNat % 2 ^ 32 + (c.sreg o.b).toNat % 2 ^ 32 * 2 ^ 32)

theorem vector_setIfInBounds_eq {α : Type} {n i : ℕ} (h : i < n) (v : Vector α n) (x : α) : v.setIfInBounds i x = v.set i x h :=
  Vector.ext fun j hj => by rw [Vector.getElem_setIfInBounds hj, Vector.getElem_set]

section Task
variable {s : State} {o : XForm} (hin : inTask s) (hg : s.core.active o.g = true)
include hin hg

/-! FMT (R84, R300). -/

theorem fmtw_refused {code : ℕ} (h : fmtRefuses (s.core.sreg o.a) = some code) :
    exec (.fmtw o) s = .next (s.takeTrap code 5 (BitVec.ofNat 64 (slotBits (.fmtw o))) false) := by
  show execFmtw o s = _
  rw [execFmtw, ifAllowedG_inTask hin rfl hg, ← trapOp_x rfl]
  simp only [h]

theorem fmtw_accepted (h : fmtRefuses (s.core.sreg o.a) = none) : exec (.fmtw o) s =
    .next { s with core := { s.core with fmt := { cur := s.core.fmt.cur, pend := s.core.fmt.pend ++ [(5, s.core.sreg o.a)] } } } := by
  show execFmtw o s = _
  rw [execFmtw, ifAllowedG_inTask hin rfl hg]
  simp only [h]
  rfl

theorem fmtr_sends : exec (.fmtr o) s = .next (s.sent 1 (.s o.d s.core.fmt.cur none)) := by
  show execFmtr o s = _
  rw [execFmtr, ifAllowedG_inTask hin rfl hg, wS_eq_sent]

theorem fmtrPend_sends_cur (h : s.core.fmt.pend = []) : exec (.fmtrPend o) s = .next (s.sent 1 (.s o.d s.core.fmt.cur none)) := by
  show execFmtrPend o s = _
  rw [execFmtrPend, ifAllowedG_inTask hin rfl hg, wS_eq_sent, h]
  rfl

theorem fmtrPend_sends_last {p : List (ℕ × Word)} {k : ℕ} {v : Word} (h : s.core.fmt.pend = p ++ [(k, v)]) :
    exec (.fmtrPend o) s = .next (s.sent 1 (.s o.d v none)) := by
  show execFmtrPend o s = _
  rw [execFmtrPend, ifAllowedG_inTask hin rfl hg, wS_eq_sent, h, List.getLast?_concat]

/-! Bound registers (R301). -/

theorem bndw_nan (h : BndwNaN s.core o) : exec (.bndw o) s = .next (s.trapOp ILLOP (.bndw o)) := by
  simp only [BndwNaN, bndwBound, BitVec.ofNat_toNat] at h
  show execBndw o s = _
  rw [execBndw, ifAllowedG_inTask hin rfl hg]
  exact congrArg _ (if_pos (Bool.or_eq_true .. ▸ h))

theorem bndw_sets (h : ¬ BndwNaN s.core o) : exec (.bndw o) s =
    .next { s with core := { s.core with bounds := s.core.bounds.set (numOf o).toNat (bndwBound s.core o) (numOf o).isLt } } := by
  have hact : BitVec.ofNat 2 (o.fn.toNat / 32) = o.fn.extractLsb' 5 2 := by
    rw [BitVec.extractLsb', Nat.shiftRight_eq_div_pow]
  simp only [BndwNaN, bndwBound, BitVec.ofNat_toNat] at h
  show execBndw o s = _
  rw [execBndw, ifAllowedG_inTask hin rfl hg, bndwBound, hact]
  simp only [BitVec.ofNat_toNat]
  exact congrArg _ (if_neg (Bool.or_eq_true .. ▸ h))

theorem bndr_sends : exec (.bndr o) s = .next (s.sent 1 (.s o.d
    (BitVec.ofNat 64 ((s.core.bound (numOf o)).lo.toNat + (s.core.bound (numOf o)).hi.toNat * 2 ^ 32)) none)) := by
  show execBndr o s = _
  rw [execBndr, ifAllowedG_inTask hin rfl hg, wS_eq_sent, append_eq_ofNat]

theorem bndrFa_sends : exec (.bndrFa o) s = .next (s.sent 1 (.s o.d
    (BitVec.ofNat 64 ((s.core.bound (numOf o)).fmt.toNat + (s.core.bound (numOf o)).act.toNat * 32)) none)) := by
  have hbits (f : BitVec 5) (a : BitVec 2) : (a ++ f).setWidth 64 = BitVec.ofNat 64 (f.toNat + a.toNat * 32) :=
    (congrArg _ (append_eq_ofNat a f)).trans (BitVec.setWidth_ofNat_of_le_of_lt (by decide) (by omega))
  show execBndrFa o s = _
  rw [execBndrFa, ifAllowedG_inTask hin rfl hg, wS_eq_sent, hbits]

/-! Shape entries (R303). -/

theorem shpw_zero (h : (s.core.sreg o.a).toNat % 2 ^ 32 = 0) : exec (.shpw o) s = .next (s.trapOp ILLOP (.shpw o)) := by
  have hn : (s.core.sreg o.a).setWidth 32 = (0 : BitVec 32) := BitVec.eq_of_toNat_eq (by rw [BitVec.toNat_setWidth, h]; rfl)
  show execShpw o s = _
  rw [execShpw, ifAllowedG_inTask hin rfl hg, hn]
  rfl

theorem shpw_sets (h : (s.core.sreg o.a).toNat % 2 ^ 32 ≠ 0) : exec (.shpw o) s =
    .next { s with core := { s.core with shapes := s.core.shapes.set (numOf o).toNat (shpwShape s.core o) (numOf o).isLt } } := by
  have hn : (s.core.sreg o.a).setWidth 32 ≠ (0 : BitVec 32) := fun h0 => h (by rw [← BitVec.toNat_setWidth, h0]; rfl)
  show execShpw o s = _
  rw [execShpw, ifAllowedG_inTask hin rfl hg]
  exact congrArg _ (if_neg hn)

/-! Tolerance entries (R304). -/

theorem cktol_sets (h : o.imm.toNat % 64 < 56) : exec (.cktol o) s =
    .next { s with core := { s.core with tol := s.core.tol.set (o.imm.toNat % 64) (cktolEntry s.core o) h } } := by
  show execCktol o s = _
  rw [execCktol, ifAllowedG_inTask hin rfl hg, append_eq_ofNat]
  simp only [BitVec.toNat_setWidth, vector_setIfInBounds_eq h]
  rfl

theorem cktolRd_sends (h : o.imm.toNat % 64 < 56) : exec (.cktolRd o) s = .next (s.sent 1 (.s o.d s.core.tol[o.imm.toNat % 64] none)) := by
  show execCktolRd o s = _
  rw [execCktolRd, ifAllowedG_inTask hin rfl hg, wS_eq_sent, dif_pos h]

/-! Random words (R71, R354, R355). -/

theorem rbcfg_restarts : exec (.rbcfg o) s = .next { s.commitSeg with core :=
    { s.commitSeg.core with rbkey := s.commitSeg.core.sreg o.a, rbctr := s.commitSeg.core.sreg o.b, rbq := [] } } := by
  show execRbcfg o s = _
  rw [execRbcfg, ifAllowedG_inTask hin rfl hg]
  rfl

theorem rbpop_waits (h : s.core.rbq = []) : exec (.rbpop o) s = .next { s with last := .waits } := by
  show execRbpop o s = _
  rw [execRbpop, ifAllowedG_inTask hin rfl hg]
  simp only [State.popWord, h]
  rfl

/-- Outside a segment the oldest word leaves the queue, and nothing keeps it for a replay (R355). -/
theorem rbpop_sends {x : Word} {rest : List Word} (h : s.core.rbq = x :: rest) (hseg : s.core.seg = none) : exec (.rbpop o) s =
    .next (({ s with core := { s.core with rbq := rest } } : State).sent 1 (.s o.d x none)) := by
  have hpop : s.popWord = some (x, { s with core := { s.core with rbq := rest } }) := by
    simp only [State.popWord, h, State.upd, hseg, Option.map_none]
  show execRbpop o s = _
  rw [execRbpop, ifAllowedG_inTask hin rfl hg]
  simp only [hpop, wS_eq_sent]

end Task

theorem rbGenerate_appends {s : State} (ht : s.core.task ≠ none) (h : s.core.rbq.length < 16) : exec .rbGenerate s =
    .next { s with core := { s.core with rbq := s.core.rbq ++ [rbgen s.core.rbkey s.core.rbctr], rbctr := s.core.rbctr + 1 } } := by
  have hroom : ¬ (s.core.task.isNone ∨ s.core.rbq.length ≥ 16) := by
    rintro (hn | hf)
    · exact ht (Option.isNone_iff_eq_none.1 hn)
    · omega
  exact congrArg (fun c => Host.Outcome.next { s with core := c }) (if_neg hroom)

theorem rbGenerate_full {s : State} (h : 16 ≤ s.core.rbq.length) : exec .rbGenerate s = .next s := by
  have hkeep : s.core.rbAppend = s.core := if_pos (.inr h)
  show Host.Outcome.next (s.upd Core.rbAppend) = _
  rw [State.upd, hkeep]

/-- Settles O39, one lemma for each instruction: FMT (`fmtw_accepted`, `fmtw_refused`, `count_write`, `due_head`), bounds (`bndw_sets`), shapes
(`shpw_sets`), tolerances (`cktol_sets`) and random words (`rbcfg_restarts`, `rbpop_sends`, `rbGenerate_appends`). -/
theorem setupRegistersReadAndWrite : Obligations.SetupRegistersReadAndWrite := by
  unfold Obligations.SetupRegistersReadAndWrite
  intro s o hin hg c w f reserved listed n bd sends sets t
  have hf : f 0 32 = w.toNat % 2 ^ 32 := congrArg (· % 2 ^ 32) (Nat.div_one _)
  refine ⟨fun hr hl => fmtw_accepted hin hg (fmtRefuses_listed hr hl), fun hr => fmtw_refused hin hg (fmtRefuses_reserved hr),
    fun hr hl => fmtw_refused hin hg (fmtRefuses_unlisted hr hl), fun old => count_write old w, fmtr_sends hin hg, fmtrPend_sends_cur hin hg,
    fun p k v => fmtrPend_sends_last hin hg, ⟨fun hb => illegal_of_trapOp rfl (bndw_nan hin hg hb), bndw_sets hin hg⟩, bndr_sends hin hg, bndrFa_sends hin hg,
    fun h => illegal_of_trapOp rfl (shpw_zero hin hg (hf ▸ h)), ?_, fun h => ⟨hf ▸ cktol_sets hin hg h, cktolRd_sends hin hg h⟩,
    rbcfg_restarts hin hg, rbpop_waits hin hg, fun x rest => rbpop_sends hin hg, rbGenerate_appends, rbGenerate_full,
    ⟨s.core.fmt.due, rfl, due_pend_ne _, due_of_counting, fun v rest => due_head⟩⟩
  refine fun h => ⟨shpwShape c o, shpw_sets hin hg (hf ▸ h), rfl, fun k hk => ⟨fun he => ?_, fun hne => ?_⟩⟩
  · rw [shpwShape_size c o hk, if_pos he.symm, BitVec.toNat_setWidth, hf]
  · rw [shpwShape_size c o hk, if_neg (Ne.symm hne)]
    rfl

end Sys2Proof.Machine
end

section
/-! O58: the device at reset (R83, R216, R301, R384, R406, R440, R449, R462, R465). -/

namespace Sys2Proof.Machine

/-! Every entry of a table that reset fills holds the table's one reset value. -/

theorem reset_bounds {k : ℕ} (h : k < 16) : State.reset.core.bounds[k] = Bound.reset := Vector.getElem_replicate h

theorem reset_shapes {k : ℕ} (h : k < 16) : State.reset.core.shapes[k] = Shape.reset := Vector.getElem_replicate h

theorem shapeReset_sizes {j : ℕ} (h : j < 5) : Shape.reset.sizes[j] = 1 := Vector.getElem_replicate h

theorem reset_tol {k : ℕ} (h : k < 56) : State.reset.core.tol[k] = tolReset := Vector.getElem_replicate h

theorem reset_wpc {k : ℕ} (h : k < 4) : State.reset.core.mon.wpc[k] = 0x18 := Vector.getElem_replicate h

theorem reset_part (p : ℕ) : State.reset.dev.part p = Partition.absent := Vector.getElem_replicate _

theorem reset_port (k : ℕ) : State.reset.dev.port k = Port.reset := Vector.getElem_replicate _

theorem reset_dome (d : ℕ) : State.reset.dev.dome d = Dome.reset := Vector.getElem_replicate _

theorem domeReset_scrub {k : ℕ} (h : k < 3) : Dome.reset.scrub[k] = 4096 := Vector.getElem_replicate h

/-- The two queue processors of each of the four domes stand among the parked units, loaded (R395, R465). -/
theorem reset_qp {d k : ℕ} (hd : d < 4) (hk : k < 2) : State.reset.getCore (.qp d k) = (qpReset d k).2 := by
  interval_cases d <;> interval_cases k <;> rfl

/-- Settles O58: each table's reset value, entry by entry (`reset_bounds` to `domeReset_scrub`), and the active queue processor of each
dome (`reset_qp`). -/
theorem resetState : Obligations.ResetState := by
  unfold Obligations.ResetState
  refine ⟨rfl, rfl, rfl, rfl, fun k h => ?_, fun k h => ?_, fun k h => reset_tol h, fun k h => reset_wpc h, rfl, rfl, fun p => ?_, fun k => ?_,
    fun d hd => ?_, rfl, rfl, rfl, rfl⟩
  · rw [reset_bounds h]
    exact ⟨rfl, rfl, rfl⟩
  · rw [reset_shapes h]
    exact ⟨rfl, fun j hj => shapeReset_sizes hj⟩
  · rw [reset_part]
    exact ⟨rfl, rfl, rfl, rfl, rfl⟩
  · rw [reset_port]
    exact ⟨rfl, rfl, rfl⟩
  · rw [reset_qp hd (by decide), reset_qp hd (by decide), reset_dome]
    exact ⟨rfl, rfl, rfl, rfl, fun k hk => domeReset_scrub hk⟩

end Sys2Proof.Machine
end

section
/-! The operations of the M slot in task mode, what a commit leaves of the matrix unit, the tiles of a matrix context, and masks made bit by
bit (R266, R279, R282, R375). -/

namespace Sys2Proof.Machine

/-! An operation of the M slot that the unit lets through (R266, R279). -/

theorem mOp_ready {s : State} (h : matrixReady s) {i : Instr} (hi : isPrivileged i = false) (f : State → State) : s.mOp i true f = .next (f s) := by
  obtain ⟨hin, hhnd⟩ := h
  have hgo : (s.core.hnd && !s.core.msaved) = false := by
    rcases hhnd with hh | hm
    · rw [hh, Bool.false_and]
    · rw [hm, Bool.not_true, Bool.and_false]
  simp [State.mOp, State.ifAllowed, refuses_inTask hin hi, hgo]

/-- A trap of an operation of slot m has its slot word as the detail (R189). -/
theorem trapOp_m {i : Instr} (hm : slotOfOp i = .m) (s : State) (code : ℕ) :
    s.trapOp code i = s.takeTrap code 4 (BitVec.ofNat 64 (slotBits i)) false := by
  rw [State.trapOp, hm]
  rfl

/-- Two sets of tiles are disjoint. -/
theorem and_eq_zero_iff {w : ℕ} (x y : BitVec w) : x &&& y = 0 ↔ ∀ k, k < w → y.getLsbD k = true → x.getLsbD k = false := by
  constructor
  · intro h k _ hy
    simpa [hy] using congrArg (·.getLsbD k) h
  · intro h
    refine BitVec.eq_of_getLsbD_eq fun k hk => ?_
    have hxy := h k hk
    cases hy : y.getLsbD k <;> simp_all

/-- There is nothing to wait for under R279 when every beat into a tile of the set has landed. -/
theorem beatWait_eq_zero (s : State) (m : BitVec 4) : s.core.beatWait m = 0 ↔ ∀ k, k < 4 → m.getLsbD k = true → beatsLanded s k := by
  have hwait (bs : List Beat) (n : ℕ) : bs.foldl (fun n b => if b.tiles &&& m = 0 then n else Nat.max n b.left) n = 0 ↔
      n = 0 ∧ ∀ b ∈ bs, b.tiles &&& m = 0 ∨ b.left = 0 := by
    induction bs generalizing n with
    | nil => simp
    | cons b bs ih =>
      rw [List.foldl_cons, ih, List.forall_mem_cons, ← and_assoc]
      refine and_congr_left fun _ => ?_
      by_cases hb : b.tiles &&& m = 0
      · simp [hb]
      · rw [if_neg hb]
        exact Nat.max_eq_zero_iff.trans (and_congr_right fun _ => (or_iff_right hb).symm)
  rw [Core.beatWait, hwait]
  simp only [and_eq_zero_iff, true_and]
  constructor
  · intro h k hk hm b hb ht
    exact (h b hb).resolve_left fun hn => by simp [hn k hk hm] at ht
  · intro h b hb
    by_cases hl : b.left = 0
    · exact .inr hl
    · exact .inl fun k hk hm => Bool.eq_false_iff.2 fun ht => hl (h k hk hm b hb ht)

theorem afterBeats_landed {s : State} {m : BitVec 4} (h : ∀ k, k < 4 → m.getLsbD k = true → beatsLanded s k) (f : State → State) :
    s.afterBeats m f = f s := if_pos ((beatWait_eq_zero s m).2 h)

theorem afterBeats_flying {s : State} {m : BitVec 4} (h : ¬ ∀ k, k < 4 → m.getLsbD k = true → beatsLanded s k) (f : State → State) :
    ∃ n, s.core.tau < n ∧ s.afterBeats m f = { s with last := .waitTau n } := by
  have hn : s.core.beatWait m ≠ 0 := fun h0 => h ((beatWait_eq_zero s m).1 h0)
  exact ⟨s.core.tau + s.core.beatWait m, by omega, if_neg hn⟩

/-! Masks made bit by bit. -/

theorem getLsbD_ofNat_two_pow (w r k : ℕ) : (BitVec.ofNat w (2 ^ r)).getLsbD k = decide (k < w ∧ k = r) := by
  rw [BitVec.getLsbD_ofNat, Nat.testBit_two_pow, Bool.decide_and, decide_eq_decide.2 (eq_comm (a := r))]

theorem getLsbD_foldl_bits {w k : ℕ} (h : k < w) (xs : List ℕ) (m : BitVec w) :
    (xs.foldl (fun m r => m ||| BitVec.ofNat w (2 ^ r)) m).getLsbD k = (m.getLsbD k || decide (k ∈ xs)) := by
  induction xs generalizing m with
  | nil => simp
  | cons x xs ih =>
    rw [List.foldl_cons, ih, BitVec.getLsbD_or, getLsbD_ofNat_two_pow, Bool.or_assoc]
    simp [h]

theorem getLsbD_tileMask {k : ℕ} (h : k < 4) (ts : List ℕ) : (tileMask ts).getLsbD k = decide (k ∈ ts) := by
  rw [tileMask, getLsbD_foldl_bits h, BitVec.ofNat_eq_ofNat, BitVec.getLsbD_zero, Bool.false_or]

/-- A wait for the beats into one tile (R279). -/
theorem afterBeats_tile {s : State} {t : ℕ} (h : beatsLanded s t) (f : State → State) : s.afterBeats (tileMask [t]) f = f s :=
  afterBeats_landed (fun k hk hm => by
    rw [getLsbD_tileMask hk, decide_eq_true_eq, List.mem_singleton] at hm
    exact hm ▸ h) f

/-! What a commit leaves of the matrix unit (R375). -/

theorem Core.AfterStores.eq {α : Type} {c d : Core} (h : c.AfterStores d) {g : Core → α}
    (hg : ∀ dirty l1 spad lanes landing view seg hold,
      g { c with dirty := dirty, l1 := l1, spad := spad, lanes := lanes, landing := landing, view := view, seg := seg, hold := hold } = g c) :
    g d = g c := by
  obtain ⟨_, _, _, _, _, _, _, _, rfl⟩ := h
  exact hg ..

@[simp] theorem commitSeg_mat (s : State) : s.commitSeg.core.mat = s.core.mat := (commitSeg_published s).core.eq fun _ _ _ _ _ _ _ _ => rfl

@[simp] theorem commitSeg_bound (s : State) (t : BitVec 4) : s.commitSeg.core.bound t = s.core.bound t :=
  (commitSeg_published s).core.eq (g := fun c => c.bound t) fun _ _ _ _ _ _ _ _ => rfl

@[simp] theorem commitSeg_calFree (s : State) (b : ℕ) : s.commitSeg.core.calFree b = s.core.calFree b :=
  (commitSeg_published s).core.eq (g := fun c => c.calFree b) fun _ _ _ _ _ _ _ _ => rfl

/-! The tiles of a matrix context (R282). -/

theorem tile_bits (m : MatCtx) (t : BitVec 2) : m.tile t.toNat = m.tiles[t.toNat]'t.isLt := by
  simp only [MatCtx.tile, Nat.mod_eq_of_lt t.isLt]

theorem updTile_bits (m : MatCtx) (t : BitVec 2) (f : Tile → Tile) : m.updTile t.toNat f = tileSet m t (f (m.tiles[t.toNat]'t.isLt)) := by
  simp only [MatCtx.updTile, tileSet, tile_bits, Nat.mod_eq_of_lt t.isLt]

end Sys2Proof.Machine
end

section
/-! CKSTAT, the entry that a drain makes, the compare, and the fault record (R104, R287 to R289, R292). -/

namespace Sys2Proof.Machine

/-! CKSTAT (R104). -/

theorem getLsbD_ckClear (m : MatCtx) (k j : ℕ) : (m.ckClear (2 ^ k)).ckstat.getLsbD j = (m.ckstat.getLsbD j && decide (j ≠ k)) := by
  simp only [MatCtx.ckClear, BitVec.getLsbD_and, BitVec.getLsbD_not, getLsbD_ofNat_two_pow]
  by_cases hj : j < 64
  · simp [hj]
  · rw [BitVec.getLsbD_of_ge _ _ (not_lt.1 hj)]
    rfl

theorem getLsbD_ckSet (m : MatCtx) {k : ℕ} (hk : k < 64) (j : ℕ) : (m.ckSet (2 ^ k)).ckstat.getLsbD j = (m.ckstat.getLsbD j || decide (j = k)) := by
  simp only [MatCtx.ckSet, BitVec.getLsbD_or, getLsbD_ofNat_two_pow]
  by_cases hj : j = k <;> simp [hj, hk]

theorem ckWord_pend (p : Bool) (t : BitVec 2) (skip : Bool) (nr nc : ℕ) : (ckWord p t skip nr nc false false false).getLsbD 0 = p := by
  rw [BitVec.getLsbD, ckWord, BitVec.toNat_ofNat, Nat.testBit_zero]
  cases p <;> cases skip <;> simp <;> omega

theorem ckWord_tile (p : Bool) (t : BitVec 2) (skip : Bool) (nr nc : ℕ) : (ckWord p t skip nr nc false false false).extractLsb' 1 2 = t := by
  have ht := t.isLt
  refine BitVec.eq_of_toNat_eq ?_
  rw [BitVec.extractLsb'_toNat, ckWord, BitVec.toNat_ofNat, Nat.shiftRight_eq_div_pow]
  cases p <;> cases skip <;> simp <;> omega

/-! A drain in flight (R287 to R289). -/

/-- What a drain of tile `t` sends on its way (R287). -/
def Core.drainOf (c : Core) (t q : BitVec 2) (tid : BitVec 4) : Drain :=
  let d := (c.mat.tile t.toNat).data
  let x := if tid = 0 then (d.elems, false) else checkEntry (c.bound tid) d.elems
  { left := 16, q := q, entry := { elems := x.1, sides := d.sides, ovc := d.ovc, tile := t, popped := 0 },
    bound := if trapDue (c.bound tid) x.2 && tid != 0 then tid else 0, flags := flagIf x.2 fBND, can := tid != 0 }

theorem drain_eq (c : Core) (t q : BitVec 2) (keep : Bool) (tid : BitVec 4) : c.drain t q keep tid =
    { c with mat := { c.mat with tiles := if keep then c.mat.tiles else (c.mat.updTile t.toNat Tile.zero).tiles
                                 drains := c.mat.drains ++ [c.drainOf t q tid] } } := by
  cases keep <;> rfl

theorem drainOf_unchecked (c : Core) (t q : BitVec 2) {tid : BitVec 4} (h : tid = 0) :
    (c.drainOf t q tid).entry.elems = (c.mat.tile t.toNat).data.elems ∧ (c.drainOf t q tid).flags = 0 ∧ (c.drainOf t q tid).bound = 0 := by
  subst h
  exact ⟨rfl, rfl, by simp [Core.drainOf]⟩

theorem checkEntry_elem (b : Bound) (v : Vector Lane 4096) {j : ℕ} (h : j < 4096) :
    (checkEntry b v).1[j] = BitVec.ofNat 32 (checkPlain b 0 v[j].toNat).1 := by
  have hj : (checkEntry b v).1[j] =
      if (checkPlain b 0 v[j].toNat).1 = v[j].toNat then v[j] else BitVec.ofNat 32 (checkPlain b 0 v[j].toNat).1 := by simp [checkEntry]
  rw [hj]
  split
  next heq => rw [heq, BitVec.ofNat_toNat, BitVec.setWidth_eq]
  next => rfl

theorem drainOf_checked (c : Core) (t q : BitVec 2) {tid : BitVec 4} (h : tid ≠ 0) {j : ℕ} (hj : j < 4096) :
    (c.drainOf t q tid).entry.elems[j] = BitVec.ofNat 32 (checkPlain (c.bound tid) 0 ((c.mat.tile t.toNat).data.elems[j]).toNat).1 := by
  simp only [Core.drainOf, if_neg h]
  exact checkEntry_elem ..

/-! The mismatching rows and columns of a fault record (R288, R292). -/

theorem getLsbD_rowSet {k : ℕ} (h : k < 16) (rs : List ℕ) : (rowSet rs).getLsbD k = decide (k ∈ rs) := by
  rw [rowSet, getLsbD_foldl_bits h, BitVec.ofNat_eq_ofNat, BitVec.getLsbD_zero, Bool.false_or]

theorem getLsbD_colSet {k : ℕ} (h : k < 256) (xs : List ℕ) : (colSet xs).getLsbD k = decide (k ∈ xs) := by
  rw [colSet, getLsbD_foldl_bits h, BitVec.ofNat_eq_ofNat, BitVec.getLsbD_zero, Bool.false_or]

theorem headD_filter_range {n lo : ℕ} {p : ℕ → Bool} (hn : lo < n) (hp : p lo = true) (hmin : ∀ k, p k = true → lo ≤ k) :
    ((List.range n).filter p).headD 0 = lo := by
  have hfind : (List.range n).find? p = some lo := List.find?_range_eq_some.2 ⟨hp, List.mem_range.2 hn, fun j hj => by
    rw [Bool.not_eq_true']
    exact Bool.eq_false_iff.2 fun h => absurd (hmin j h) (by omega)⟩
  rw [List.headD_eq_head?_getD, List.head?_filter, hfind, Option.getD_some]

theorem getLastD_filter_range {n hi : ℕ} {p : ℕ → Bool} (hn : hi < n) (hp : p hi = true) (hmax : ∀ k, p k = true → k ≤ hi) :
    ((List.range n).filter p).getLastD 0 = hi := by
  obtain ⟨d, rfl⟩ : ∃ d, n = hi + 1 + d := ⟨n - (hi + 1), by omega⟩
  have hnone : ((List.range d).map (hi + 1 + ·)).filter p = [] := List.filter_eq_nil_iff.2 fun k hk h => by
    obtain ⟨j, _, rfl⟩ := List.mem_map.1 hk
    exact absurd (hmax _ h) (by omega)
  rw [List.range_add, List.filter_append, hnone, List.append_nil, List.range_succ, List.filter_append, List.filter_singleton, hp]
  simp

/-- CKLOC holds the mismatching rows, and the first and the last mismatching column (R292). -/
def CkFault.word (f : CkFault) : Word :=
  let xs := (List.range 256).filter fun x => f.cols.getLsbD x
  BitVec.ofNat 64 (f.rows.toNat + xs.headD 0 * 2 ^ 16 + xs.getLastD 0 * 2 ^ 24)

theorem locate_eq {c : Core} {f : CkFault} (h : c.mat.fault = some f) : c.locate = { c with mat := { c.mat.ckSet 0x40000 with ckloc := f.word } } := by
  simp only [Core.locate, h]
  rfl

theorem word_rows (f : CkFault) {k : ℕ} (h : k < 16) : f.word.getLsbD k = f.rows.getLsbD k := by
  have hr := f.rows.isLt
  unfold CkFault.word
  dsimp only
  generalize ((List.range 256).filter fun x => f.cols.getLsbD x).headD 0 = lo
  generalize ((List.range 256).filter fun x => f.cols.getLsbD x).getLastD 0 = hi
  have hsplit : f.rows.toNat + lo * 2 ^ 16 + hi * 2 ^ 24 = 2 ^ 16 * (lo + hi * 2 ^ 8) + f.rows.toNat := by omega
  rw [BitVec.getLsbD_ofNat, hsplit, Nat.testBit_two_pow_mul_add _ hr, if_pos h, decide_eq_true (by omega), Bool.true_and, BitVec.getLsbD]

theorem word_cols {f : CkFault} {lo hi : ℕ} (hlo : f.cols.getLsbD lo = true) (hhi : f.cols.getLsbD hi = true)
    (h : ∀ k, f.cols.getLsbD k = true → lo ≤ k ∧ k ≤ hi) : f.word.toNat / 2 ^ 16 % 256 = lo ∧ f.word.toNat / 2 ^ 24 = hi := by
  have hr := f.rows.isLt
  have hl := BitVec.lt_of_getLsbD hlo
  have hh := BitVec.lt_of_getLsbD hhi
  unfold CkFault.word
  dsimp only
  rw [headD_filter_range hl hlo fun k hk => (h k hk).1, getLastD_filter_range hh hhi fun k hk => (h k hk).2, BitVec.toNat_ofNat]
  omega

end Sys2Proof.Machine
end

section
/-! O37: checked and unchecked drains (R103, R287, R288, R289). -/

namespace Sys2Proof.Machine

/-- MCKFIX has drained the tile that the drain names (R288). -/
def FixDrained (m : MatCtx) (o : MForm) : Prop := m.isFixed = true ∧ m.ckTile = o.acc

theorem fixDrained_iff (m : MatCtx) (o : MForm) : (m.isFixed && m.ckTile == o.acc) = true ↔ FixDrained m o := by
  rw [Bool.and_eq_true, beq_iff_eq, FixDrained]

/-- The core whose drain issues: FIXED is cleared with it (R288). -/
def Core.issueDrain (c : Core) (o : MForm) : Core :=
  ({ c with mat := c.mat.ckClear 0x80000 } : Core).drain o.acc o.q (o.imm.getLsbD 4) (o.imm.setWidth 4)

/-- A drain is in flight, and since the commit nothing else has changed but CKSTAT and the fault record (R287 to R289). -/
def Drained (s : State) (o : MForm) (u : State) : Prop :=
  let t := s.commitSeg
  let x := t.core.mat.tiles[o.acc.toNat]'o.acc.isLt
  ∃ d, u.core.mat.drains = t.core.mat.drains ++ [d] ∧ d.left = 16 ∧ d.q = o.q ∧ d.entry.tile = o.acc ∧ d.entry.popped = 0 ∧
    d.entry.sides = x.data.sides ∧ d.entry.ovc = x.data.ovc ∧
    (o.imm.toNat % 16 = 0 → d.entry.elems = x.data.elems ∧ d.flags = 0 ∧ d.bound = 0) ∧
    (o.imm.toNat % 16 ≠ 0 → ∀ j, (h : j < 4096) →
      let b := s.core.bounds[o.imm.toNat % 16]'(Nat.mod_lt _ (by decide))
      d.entry.elems[j] = BitVec.ofNat 32 (checkPlain b 0 (x.data.elems[j]).toNat).1) ∧
    u.core.mat.tiles = (if o.imm.getLsbD 4 then t.core.mat.tiles else
      t.core.mat.tiles.set o.acc.toNat { Tile.reset with epoch := x.epoch } o.acc.isLt) ∧
    u.core.mat.queues = t.core.mat.queues ∧ u.core.mat.feeder = t.core.mat.feeder ∧ u.core.mat.beats = t.core.mat.beats ∧
    u = { t with core := { t.core with mat := u.core.mat } }

/-- A drain issues on a core that has since the commit written at most CKSTAT and the fault record. -/
theorem drained_issueDrain (s : State) (o : MForm) (ck : Word) (f : Option CkFault) :
    Drained s o (s.commitSeg.upd fun c => ({ c with mat := { c.mat with ckstat := ck, fault := f } } : Core).issueDrain o) := by
  have htid : (o.imm.setWidth 4).toNat = o.imm.toNat % 16 := BitVec.toNat_setWidth 4 o.imm
  have hzero : o.imm.setWidth 4 = 0#4 ↔ o.imm.toNat % 16 = 0 := by rw [← htid, ← BitVec.toNat_inj]; rfl
  simp only [Drained, upd_core, Core.issueDrain, drain_eq]
  generalize hc : ({ s.commitSeg.core with mat := MatCtx.ckClear { s.commitSeg.core.mat with ckstat := ck, fault := f } 0x80000 } : Core) = c
  have htile : c.mat.tile o.acc.toNat = s.commitSeg.core.mat.tiles[o.acc.toNat]'o.acc.isLt := by
    rw [tile_bits]
    subst hc
    rfl
  have hbound (tid : BitVec 4) : c.bound tid = s.core.bound tid := by
    rw [← commitSeg_bound]
    subst hc
    rfl
  refine ⟨c.drainOf o.acc o.q (o.imm.setWidth 4), ?_, rfl, rfl, rfl, rfl, ?_, ?_, fun h => ?_, fun h j hj => ?_, ?_, ?_, ?_, ?_, ?_⟩
  · subst hc; rfl
  · exact congrArg (·.data.sides) htile
  · exact congrArg (·.data.ovc) htile
  · have hd := drainOf_unchecked c o.acc o.q (hzero.2 h)
    rwa [htile] at hd
  · have hd := drainOf_checked c o.acc o.q (fun h0 => h (hzero.1 h0)) hj
    rw [hbound] at hd
    simp only [htile, Core.bound, htid] at hd
    exact hd
  · rw [updTile_bits, Tile.zero]
    subst hc
    rfl
  all_goals subst hc; rfl

/-- A checked drain that passes clears PEND unless another tile's fault is pending (R103, R288). -/
theorem ckPass_eq (c : Core) (t : BitVec 2) (skip : Bool) : ∃ ck f, c.ckPass t skip = { c with mat := { c.mat with ckstat := ck, fault := f } } ∧
    (c.mat.pend = false ∨ c.mat.ckTile = t → ck.getLsbD 0 = false) := by
  unfold Core.ckPass
  split
  next h =>
    rw [Bool.and_eq_true, bne_iff_ne] at h
    refine ⟨c.mat.ckstat, c.mat.fault, rfl, fun hp => ?_⟩
    rcases hp with hp | hp
    · exact hp
    · exact absurd hp h.2
  next => exact ⟨_, _, rfl, fun _ => ckWord_pend ..⟩

theorem issueDrain_ckstat (c : Core) (o : MForm) : (c.issueDrain o).mat.ckstat = (c.mat.ckClear 0x80000).ckstat := by
  rw [Core.issueDrain, drain_eq]

/-! The drain itself, once its waits are over. -/

section Issue
variable {s : State} {o : MForm}

theorem mdrain_fixed (h : FixDrained s.core.mat o) : s.mdrain o = s.commitSeg.upd fun c => { c with mat := c.mat.ckClear 0x80000 } :=
  if_pos ((fixDrained_iff ..).2 h)

variable (h : ¬ FixDrained s.core.mat o)
include h

theorem mdrain_full (hq : 4 ≤ s.core.queueUse o.q) : s.mdrain o = s.takeTrap 0x0A 4 (BitVec.ofNat 64 o.q.toNat) false :=
  (if_neg (mt (fixDrained_iff ..).1 h)).trans (if_pos hq)

variable (hq : s.core.queueUse o.q < 4)
include hq

theorem mdrain_plain (hck : o.flags.getLsbD 2 = false) : s.mdrain o = s.commitSeg.upd fun c => c.issueDrain o :=
  (if_neg (mt (fixDrained_iff ..).1 h)).trans ((if_neg (not_le.2 hq)).trans (if_neg (by rw [MForm.fCk, hck]; decide)))

/-- A checked drain goes on to its compare. -/
theorem mdrain_compares (hck : o.flags.getLsbD 2 = true) : s.mdrain o =
    let d := (s.core.mat.tile o.acc.toNat).data
    let bad := (s.core.ckData o.acc.toNat d).bad d
    if ckSkips d then s.commitSeg.upd fun c => (c.ckPass o.acc true).issueDrain o
    else if bad.1.isEmpty && bad.2.isEmpty then s.commitSeg.upd fun c => (c.ckPass o.acc false).issueDrain o
    else { s.upd (fun c => { c.ckFail o.acc o.q (o.imm.setWidth 4) bad.1 bad.2 with reraise := true }) with
      last := .trapped { code := TILECK, slot := 4, info := BitVec.ofNat 64 o.acc.toNat } } :=
  (if_neg (mt (fixDrained_iff ..).1 h)).trans ((if_neg (not_le.2 hq)).trans (if_pos hck))

theorem mdrain_passes (hck : o.flags.getLsbD 2 = true)
    (hpass : ckSkips (s.core.mat.tile o.acc.toNat).data = true ∨
      (s.core.ckData o.acc.toNat (s.core.mat.tile o.acc.toNat).data).bad (s.core.mat.tile o.acc.toNat).data = ([], [])) :
    ∃ skip, s.mdrain o = s.commitSeg.upd fun c => (c.ckPass o.acc skip).issueDrain o := by
  rw [mdrain_compares h hq hck]
  dsimp only
  split
  next => exact ⟨true, rfl⟩
  next hskip => exact ⟨false, if_pos (by rw [hpass.resolve_left hskip]; rfl)⟩

theorem mdrain_fails (hck : o.flags.getLsbD 2 = true) (hskip : ckSkips (s.core.mat.tile o.acc.toNat).data = false)
    {bad : List ℕ × List ℕ} (hb : (s.core.ckData o.acc.toNat (s.core.mat.tile o.acc.toNat).data).bad (s.core.mat.tile o.acc.toNat).data = bad)
    (hne : bad ≠ ([], [])) :
    s.mdrain o = { s.upd (fun c => { c.ckFail o.acc o.q (o.imm.setWidth 4) bad.1 bad.2 with reraise := true }) with
      last := .trapped { code := TILECK, slot := 4, info := BitVec.ofNat 64 o.acc.toNat } } := by
  have hbad : ¬ (bad.1.isEmpty && bad.2.isEmpty) = true := fun he => by
    rw [Bool.and_eq_true, List.isEmpty_iff, List.isEmpty_iff] at he
    exact hne (Prod.ext he.1 he.2)
  rw [mdrain_compares h hq hck]
  dsimp only
  rw [if_neg (by rw [hskip]; decide), hb, if_neg hbad]

end Issue

/-! MDRAIN (R288). -/

section Task
variable {s : State} {o : MForm} (hr : matrixReady s) (hl : beatsLanded s o.acc.toNat)
include hr hl

theorem execMdrain_unchecked (hck : o.flags.getLsbD 2 = false) : exec (.mdrain o) s = .next (s.mdrain o) := by
  show execMdrain o s = _
  rw [execMdrain, mOp_ready hr rfl, afterBeats_tile hl]
  exact congrArg _ (if_neg (by rw [MForm.fCk, hck]; decide))

theorem execMdrain_served (hck : o.flags.getLsbD 2 = true) (hs : s.core.served = true) : exec (.mdrain o) s = .next (s.mdrain o) := by
  show execMdrain o s = _
  rw [execMdrain, mOp_ready hr rfl, afterBeats_tile hl]
  exact congrArg _ ((if_pos hck).trans (if_pos hs))

theorem execMdrain_hides (hck : o.flags.getLsbD 2 = true) (hs : s.core.served = false) :
    let p := planesOf (s.core.fmt.cur.extractLsb' 0 5).toNat
    exec (.mdrain o) s = .next { s with last := .waitTau (s.core.tau + (p + 14)), core := { s.core with served := true, mat := { s.core.mat with
      beats := s.core.mat.beats ++ (List.range (p + 2)).map fun j => { left := 8 + j, tiles := 0, bank := s.core.live, clips := [], flags := 0 } } } } := by
  intro p
  show execMdrain o s = _
  rw [execMdrain, mOp_ready hr rfl, afterBeats_tile hl]
  refine congrArg _ ((if_pos hck).trans ((if_neg (by rw [hs]; decide)).trans (if_neg ?_)))
  rintro (h1 | h1)
  · exact absurd (h1.symm.trans hs) (by decide)
  · omega

/-- What a failing compare leaves (R103, R288). -/
theorem execMdrain_fails (hck : o.flags.getLsbD 2 = true) (hs : s.core.served = true) (hd : ¬ FixDrained s.core.mat o) (hq : s.core.queueUse o.q < 4)
    (hskip : ckSkips (s.core.mat.tile o.acc.toNat).data = false) {bad : List ℕ × List ℕ}
    (hb : (s.core.ckData o.acc.toNat (s.core.mat.tile o.acc.toNat).data).bad (s.core.mat.tile o.acc.toNat).data = bad) (hne : bad ≠ ([], [])) :
    ∃ u f, exec (.mdrain o) s = .next u ∧ u.last = .trapped { code := 0x0E, slot := 4, info := BitVec.ofNat 64 o.acc.toNat } ∧
      u.core = { s.core with reraise := true, mat := { s.core.mat with ckstat := u.core.mat.ckstat, fault := some f } } ∧
      u.core.mat.pend = true ∧ u.core.mat.ckTile = o.acc ∧ f.q = o.q ∧ f.tid.toNat = o.imm.toNat % 16 ∧
      (∀ k, k < 16 → (f.rows.getLsbD k = true ↔ k ∈ bad.1)) ∧ (∀ k, k < 256 → (f.cols.getLsbD k = true ↔ k ∈ bad.2)) ∧ u.dev = s.dev := by
  refine ⟨_, ⟨o.q, o.imm.setWidth 4, rowSet bad.1, colSet bad.2⟩, (execMdrain_served hr hl hck hs).trans (congrArg _ (mdrain_fails hd hq hck hskip hb hne)),
    rfl, rfl, ckWord_pend .., ckWord_tile .., rfl, BitVec.toNat_setWidth .., fun k hk => ?_, fun k hk => ?_, rfl⟩
  · rw [getLsbD_rowSet hk, decide_eq_true_eq]
  · rw [getLsbD_colSet hk, decide_eq_true_eq]

end Task

end Sys2Proof.Machine
end

section
/-! O37: MCKLOC, MCKFIX, and the statement (R104, R106, R292, R293). -/

namespace Sys2Proof.Machine

/-- What MCKFIX makes of the core whose fault is located (R293): the element corrected, the fault no longer pending, its tile drained. -/
def Core.applyFix (c : Core) (t : BitVec 2) (f : CkFault) (k : ℕ) (v : Lane) : Core :=
  let m := c.mat.updTile t.toNat fun d => { d with data := { d.data with elems := d.data.elems.setIfInBounds k v } }
  ({ c with mat := { (m.ckClear 1).ckSet 0x80000 with fault := none } } : Core).drain t f.q false f.tid

/-- LOC is set with the record that MCKLOC would have written, if it has not been (R293). -/
def Core.located (c : Core) : Core := if c.mat.loc then c else c.locate

theorem located_fault {c : Core} {f : CkFault} (h : c.mat.fault = some f) :
    ∃ ck x, c.located = { c with mat := { c.mat with ckstat := ck, ckloc := x } } ∧ ck.getLsbD 18 = true := by
  unfold Core.located
  split
  next hloc => exact ⟨_, _, rfl, hloc⟩
  next =>
    refine ⟨_, _, locate_eq h, ?_⟩
    rw [show (0x40000 : ℕ) = 2 ^ 18 from rfl, getLsbD_ckSet _ (by decide)]
    exact Bool.or_true _

/-- The corrected tile goes to its queue, and its fault is over (R106, R287, R293). -/
theorem applyFix_drains {c : Core} {f : CkFault} (hf : c.mat.fault = some f) (k : ℕ) (v : Lane) :
    ∃ m d, c.located.applyFix c.mat.ckTile f k v = { c with mat := m } ∧ m.loc = true ∧ m.drains = c.mat.drains ++ [d] ∧
      d.q = f.q ∧ d.left = 16 ∧ d.entry.tile = c.mat.ckTile ∧ m.fault = none ∧ m.pend = false ∧ m.isFixed = true ∧
      m.tiles[c.mat.ckTile.toNat]'c.mat.ckTile.isLt = { Tile.reset with epoch := (c.mat.tiles[c.mat.ckTile.toNat]'c.mat.ckTile.isLt).epoch } ∧
      (f.tid = 0 → d.entry.elems = (c.mat.tiles[c.mat.ckTile.toNat]'c.mat.ckTile.isLt).data.elems.setIfInBounds k v) := by
  obtain ⟨ck, x, hc, hloc⟩ := located_fault hf
  generalize c.mat.ckTile = t
  rw [hc, Core.applyFix, drain_eq]
  have hbit (m : MatCtx) (j : ℕ) : (({ (m.ckClear 1).ckSet 0x80000 with fault := none } : MatCtx)).ckstat.getLsbD j =
      ((m.ckstat.getLsbD j && decide (j ≠ 0)) || decide (j = 19)) := by
    rw [← getLsbD_ckClear m 0]
    exact getLsbD_ckSet _ (k := 19) (by decide) j
  refine ⟨_, _, rfl, ?_, rfl, rfl, rfl, rfl, rfl, ?_, ?_, ?_, fun ht => ?_⟩
  · refine (hbit ..).trans ?_
    rw [updTile_bits]
    simp [tileSet, hloc]
  · refine (hbit ..).trans ?_
    simp
  · refine (hbit ..).trans ?_
    simp
  · simp [updTile_bits, tileSet, Tile.zero, MatCtx.ckSet, MatCtx.ckClear]
  · refine (drainOf_unchecked _ t f.q ht).1.trans ?_
    simp [tile_bits, updTile_bits, tileSet, MatCtx.ckSet, MatCtx.ckClear]

section Task
variable {s : State} {o : MForm} (hr : matrixReady s)
include hr

/-! MCKLOC (R292). -/

theorem execMckloc_idle (hp : s.core.mat.pend = false) : exec (.mckloc o) s = .next s := by
  show execMckloc o s = _
  rw [execMckloc, mOp_ready hr rfl]
  exact congrArg _ (if_neg (by rw [hp]; decide))

theorem execMckloc_waits (hp : s.core.mat.pend = true) (hs : s.core.served = false) :
    exec (.mckloc o) s = .next { s with last := .waitTau (s.core.tau + 16), core := { s.core with served := true } } := by
  show execMckloc o s = _
  rw [execMckloc, mOp_ready hr rfl]
  exact congrArg _ ((if_pos hp).trans (if_neg (by simp [hs])))

theorem execMckloc_locates {f : CkFault} (hp : s.core.mat.pend = true) (hs : s.core.served = true) (hf : s.core.mat.fault = some f) :
    exec (.mckloc o) s = .next { s with core :=
      { s.core with mat := { s.core.mat with ckstat := s.core.mat.ckstat ||| 0x40000, ckloc := f.word } } } := by
  show execMckloc o s = _
  rw [execMckloc, mOp_ready hr rfl]
  exact congrArg _ ((if_pos hp).trans ((if_pos (.inl hs)).trans (congrArg (fun c => { s with core := c }) (locate_eq hf))))

/-! MCKFIX (R106, R293). -/

theorem execMckfix_idle (hp : s.core.mat.pend = false) : exec (.mckfix o) s = .next s.commitSeg := by
  show execMckfix o s = _
  rw [execMckfix, mOp_ready hr rfl]
  exact congrArg _ (if_pos (by rw [hp]; rfl))

variable (hp : s.core.mat.pend = true) (hl : beatsLanded s s.core.mat.ckTile.toNat)
include hp hl

theorem execMckfix_waits (hs : s.core.served = false) : exec (.mckfix o) s =
    .next { s with last := .waitTau (s.core.tau + if s.core.mat.loc then 24 else 40), core := { s.core with served := true } } := by
  show execMckfix o s = _
  rw [execMckfix, mOp_ready hr rfl]
  refine congrArg _ ((if_neg (by rw [hp]; decide)).trans ((afterBeats_tile hl _).trans (if_neg ?_)))
  rw [hs]
  split <;> simp

/-- MCKFIX once its cycles are over. -/
theorem execMckfix_served (hs : s.core.served = true) : exec (.mckfix o) s = .next (match s.core.correction, s.core.mat.fault with
    | some (r, x, v), some f =>
      if s.core.queueUse f.q ≥ 4 then s.trap QUEUE .m f.q.toNat
      else s.commitSeg.upd fun c => c.located.applyFix s.core.mat.ckTile f (256 * r + x) v
    | _, _ => s.commitSeg.upd fun c => { c.located with mat := c.located.mat.ckSet 0x100000 }) := by
  show execMckfix o s = _
  rw [execMckfix, mOp_ready hr rfl]
  refine congrArg _ ((if_neg (by rw [hp]; decide)).trans ((afterBeats_tile hl _).trans ((if_pos (.inl hs)).trans ?_)))
  have hcommit : (if s.commitSeg.core.mat.loc then s.commitSeg else s.commitSeg.upd Core.locate) = s.commitSeg.upd Core.located := by
    rw [State.upd, State.upd, Core.located]
    split <;> rfl
  dsimp only
  rw [hcommit]
  cases s.core.correction with
  | none => rfl
  | some y =>
    cases s.core.mat.fault with
    | none => rfl
    | some f => rfl

theorem execMckfix_full (hs : s.core.served = true) {f : CkFault} {y : ℕ × ℕ × Lane} (hf : s.core.mat.fault = some f) (hy : s.core.correction = some y)
    (hq : 4 ≤ s.core.queueUse f.q) : exec (.mckfix o) s = .next (s.takeTrap 0x0A 4 (BitVec.ofNat 64 f.q.toNat) false) := by
  rw [execMckfix_served hr hp hl hs, hf, hy]
  exact congrArg _ (if_pos hq)

theorem execMckfix_uncorrected (hs : s.core.served = true) (hy : s.core.correction = none) :
    exec (.mckfix o) s = .next (s.commitSeg.upd fun c => { c.located with mat := c.located.mat.ckSet 0x100000 }) := by
  rw [execMckfix_served hr hp hl hs, hy]

theorem execMckfix_corrects (hs : s.core.served = true) {f : CkFault} {r x : ℕ} {v : Lane} (hf : s.core.mat.fault = some f)
    (hy : s.core.correction = some (r, x, v)) (hq : s.core.queueUse f.q < 4) :
    exec (.mckfix o) s = .next (s.commitSeg.upd fun c => c.located.applyFix s.core.mat.ckTile f (256 * r + x) v) := by
  rw [execMckfix_served hr hp hl hs, hf, hy]
  exact congrArg _ (if_neg (not_le.2 hq))

end Task

/-- Settles O37: a drain that issues (`drained_issueDrain`), the compare before it (`mdrain_passes`, `execMdrain_fails`), CKLOC (`word_rows`,
`word_cols`), and the corrected tile (`applyFix_drains`). -/
theorem drainsAndChecksums : Obligations.DrainsAndChecksums := by
  unfold Obligations.DrainsAndChecksums
  intro s o hr hl c t keep q done clr drains
  refine ⟨fun hck hd hq => ⟨_, (execMdrain_unchecked hr hl hck).trans (congrArg _ (mdrain_plain hd hq hck)), drained_issueDrain s o _ _, ?_⟩,
    fun hck hd hq => (execMdrain_unchecked hr hl hck).trans (congrArg _ (mdrain_full hd hq)),
    fun hck hd => ⟨_, getLsbD_ckClear _ 19, (execMdrain_unchecked hr hl hck).trans (congrArg _ (mdrain_fixed hd))⟩,
    fun hck hs => ⟨_, rfl, execMdrain_hides hr hl hck hs⟩,
    fun hck hs hd => ⟨_, getLsbD_ckClear _ 19, (execMdrain_served hr hl hck hs).trans (congrArg _ (mdrain_fixed hd))⟩,
    fun hck hs hd hq hpass => ?_,
    fun hck hs hd hq => (execMdrain_served hr hl hck hs).trans (congrArg _ (mdrain_full hd hq)),
    fun hck hs hd hq hskip hne => execMdrain_fails hr hl hck hs hd hq hskip rfl hne,
    fun hp => ⟨execMckloc_idle hr hp, execMckfix_idle hr hp⟩,
    fun hp hs => ⟨_, execMckloc_waits hr hp hs, rfl, rfl⟩,
    fun f hp hs hf => ⟨f.word, execMckloc_locates hr hp hs hf, fun k => word_rows f, fun lo hi => word_cols⟩,
    fun hp hs hl => execMckfix_waits hr hp hl hs,
    fun f r x v hp hs hl hf hy hq => execMckfix_full hr hp hl hs hf hy hq,
    fun f r x v hp hs hl hf hy hq _ _ => ?_,
    fun hp hs hl hy => ?_⟩
  · rw [upd_core, issueDrain_ckstat]
    exact getLsbD_ckClear _ 19
  · obtain ⟨skip, hm⟩ := mdrain_passes hd hq hck hpass
    obtain ⟨ck, f, hpc, hpend⟩ := ckPass_eq t.core o.acc skip
    have hu : s.mdrain o = t.upd fun c => ({ c with mat := { c.mat with ckstat := ck, fault := f } } : Core).issueDrain o :=
      hm.trans (congrArg (fun k : Core => { t with core := k.issueDrain o }) hpc)
    refine ⟨_, (execMdrain_served hr hl hck hs).trans (congrArg _ hu), drained_issueDrain s o ck f, fun hp => ?_⟩
    rw [upd_core, MatCtx.pend, issueDrain_ckstat]
    refine (getLsbD_ckClear _ 19 0).trans ?_
    rw [hpend (by rwa [commitSeg_mat]), Bool.false_and]
  · obtain ⟨m, d, hm, hfix⟩ := applyFix_drains (c := t.core) (f := f) (by rwa [commitSeg_mat]) (256 * r + x) v
    rw [commitSeg_mat] at hm hfix
    obtain ⟨hloc, hdrains, hdq, hleft, htile, hfault, hpend, hfixed, hreset, helems⟩ := hfix
    refine ⟨{ t with core := { t.core with mat := m } }, d,
      (execMckfix_corrects hr hp hl hs hf hy hq).trans (congrArg (fun k : Core => Host.Outcome.next { t with core := k }) hm), rfl, hloc, hdrains, hdq, hleft, htile,
      hfault, hpend, hfixed, hreset, fun ht h => ⟨?_, fun j hj hne => ?_⟩⟩
    · simp only [helems ht]
      exact (Vector.getElem_setIfInBounds h).trans (if_pos rfl)
    · simp only [helems ht]
      exact (Vector.getElem_setIfInBounds hj).trans (if_neg (Ne.symm hne))
  · refine (execMckfix_uncorrected hr hp hl hs hy).trans ?_
    rw [← commitSeg_mat s]
    rfl

end Sys2Proof.Machine
end

section
/-! O38: the macros that MCAL, MFBK and MINJ.par name, injected errors, and calibrations (R98, R296, R297). -/

namespace Sys2Proof.Machine

/-! The arrays of a core, updated one after another. -/

theorem updArray_eq (c : Core) {k : ℕ} (h : k < 8) (f : ArrState → ArrState) : c.updArray k f = { c with arrays := c.arrays.set k (f c.arrays[k]) h } := by
  simp only [Core.updArray, Nat.mod_eq_of_lt h]

/-- An update that is the same when made twice, at one time, reaches each array of the list and no other. -/
theorem foldl_updArray {f : ℕ → ArrState → ArrState} (hf : ∀ n a, f n (f n a) = f n a) {ks : List ℕ} (hk : ∀ k ∈ ks, k < 8) (c : Core) :
    ∃ ar, ks.foldl (fun c k => c.updArray k (f c.wall)) c = { c with arrays := ar } ∧
      ∀ k, (h : k < 8) → ar[k] = if k ∈ ks then f c.wall c.arrays[k] else c.arrays[k] := by
  induction ks generalizing c with
  | nil => exact ⟨c.arrays, rfl, fun k h => by simp⟩
  | cons x xs ih =>
    obtain ⟨hx, hxs⟩ := List.forall_mem_cons.1 hk
    obtain ⟨ar, hfold, har⟩ := ih hxs (c.updArray x (f c.wall))
    rw [updArray_eq c hx] at hfold har
    refine ⟨ar, by rw [List.foldl_cons, updArray_eq c hx, hfold], fun k h => ?_⟩
    rw [har k h]
    by_cases hkx : k = x
    · subst hkx
      simp [hf]
    · simp [hkx, Ne.symm hkx]

/-- The arrays of the macros that `mac` and `bnk` name (R296). -/
def arraysNamed (o : MForm) : List ℕ := (macrosNamed o).map fun m => 4 * bankNamed o + m

theorem bankNamed_lt (o : MForm) : bankNamed o < 2 := by
  unfold bankNamed
  split <;> decide

section Named
variable {o : MForm} (h : o.mac.toNat ≤ 4)
include h

theorem mem_macrosNamed {m : ℕ} : m ∈ macrosNamed o ↔ m < 4 ∧ (o.mac = 4 ∨ o.mac.toNat = m) := by
  have h4 : o.mac = 4 ↔ o.mac.toNat = 4 := by rw [← BitVec.toNat_inj]; rfl
  unfold macrosNamed
  split
  next he =>
    simp only [he, List.mem_cons, List.not_mem_nil, or_false, eq_self, true_or, and_true]
    omega
  next hne =>
    have hlt := mt h4.2 hne
    simp only [hne, false_or, List.mem_singleton]
    omega

theorem mem_arraysNamed {k : ℕ} : k ∈ arraysNamed o ↔ k / 4 = bankNamed o ∧ (o.mac = 4 ∨ o.mac.toNat = k % 4) := by
  simp only [arraysNamed, List.mem_map, mem_macrosNamed h]
  constructor
  · rintro ⟨m, ⟨hm, hn⟩, rfl⟩
    exact ⟨by omega, by rwa [Nat.mul_add_mod, Nat.mod_eq_of_lt hm]⟩
  · rintro ⟨hb, hn⟩
    exact ⟨k % 4, ⟨Nat.mod_lt _ (by decide), hn⟩, by omega⟩

theorem arraysNamed_lt : ∀ k ∈ arraysNamed o, k < 8 := fun k hk => by
  have hb := bankNamed_lt o
  have hk4 := ((mem_arraysNamed h).1 hk).1
  omega

theorem updateNamed {f : ℕ → ArrState → ArrState} (hf : ∀ n a, f n (f n a) = f n a) (c : Core) :
    ∃ ar, (macrosNamed o).foldl (fun c m => c.updArray (4 * bankNamed o + m) (f c.wall)) c = { c with arrays := ar } ∧
      ∀ k, (h : k < 8) → ar[k] = if k ∈ arraysNamed o then f c.wall c.arrays[k] else c.arrays[k] := by
  obtain ⟨ar, hfold, har⟩ := foldl_updArray hf (arraysNamed_lt h) c
  rw [arraysNamed, List.foldl_map] at hfold
  exact ⟨ar, hfold, har⟩

omit h in
theorem getLsbD_macroBits {k : ℕ} (hk : k < 8) : (macroBits o).getLsbD k = decide (k ∈ arraysNamed o) := by
  have hmask : macroBits o = (arraysNamed o).foldl (fun m r => m ||| BitVec.ofNat 8 (2 ^ r)) 0 := by rw [arraysNamed, List.foldl_map, macroBits]
  rw [hmask, getLsbD_foldl_bits hk, BitVec.ofNat_eq_ofNat, BitVec.getLsbD_zero, Bool.false_or]

end Named

/-- An operation acts on the arrays and the fallback bits of the macros that it names, and on nothing else since the commit (R98, R296). -/
def ActsOnMacros (s : State) (o : MForm) (i : Instr) (f : ArrState → ArrState) (fb : Bool → Bool) : Prop :=
  let t := s.commitSeg
  ∃ ar x, exec i s = .next { t with core := { t.core with arrays := ar, fbk := x } } ∧
    ∀ k, (h : k < 8) →
      ((k / 4 = bankNamed o ∧ (o.mac = 4 ∨ o.mac.toNat = k % 4)) → ar[k] = f t.core.arrays[k] ∧ x.getLsbD k = fb (t.core.fbk.getLsbD k)) ∧
        (¬ (k / 4 = bankNamed o ∧ (o.mac = 4 ∨ o.mac.toNat = k % 4)) → ar[k] = t.core.arrays[k] ∧ x.getLsbD k = t.core.fbk.getLsbD k)

theorem actsOnMacros_intro {s : State} {o : MForm} (ho : o.mac.toNat ≤ 4) {i : Instr} {f : ArrState → ArrState} {fb : Bool → Bool} {ar : Vector ArrState 8}
    {x : BitVec 8} (h : exec i s = .next { s.commitSeg with core := { s.commitSeg.core with arrays := ar, fbk := x } })
    (har : ∀ k, (h : k < 8) → ar[k] = if k ∈ arraysNamed o then f s.commitSeg.core.arrays[k] else s.commitSeg.core.arrays[k])
    (hx : ∀ k, k < 8 → x.getLsbD k = if k ∈ arraysNamed o then fb (s.commitSeg.core.fbk.getLsbD k) else s.commitSeg.core.fbk.getLsbD k) :
    ActsOnMacros s o i f fb := by
  refine ⟨ar, x, h, fun k hk => ⟨fun hn => ?_, fun hn => ?_⟩⟩
  · have hm := (mem_arraysNamed ho).2 hn
    exact ⟨(har k hk).trans (if_pos hm), (hx k hk).trans (if_pos hm)⟩
  · have hm := mt (mem_arraysNamed ho).1 hn
    exact ⟨(har k hk).trans (if_neg hm), (hx k hk).trans (if_neg hm)⟩

/-- The macros of a bank are free when no beat on it and no WLOAD into it is in flight (R98). -/
theorem calFree_iff (c : Core) (o : MForm) :
    c.calFree (bankNamed o) = true ↔ (∀ x ∈ c.mat.beats, x.bank = o.bnk → x.left = 0) ∧ (c.wloadBusy = false ∨ c.live = o.bnk) := by
  have hb (x : Bool) : (if x then 1 else 0) = bankNamed o ↔ x = o.bnk := by
    unfold bankNamed
    cases x <;> cases o.bnk <;> simp
  rw [Core.calFree, Bool.and_eq_true, Bool.or_eq_true, Bool.not_eq_true', Bool.not_eq_true', beq_iff_eq, hb, or_comm, List.any_eq_false]
  refine and_congr_left fun _ => forall₂_congr fun x _ => ?_
  rw [Bool.and_eq_true, beq_iff_eq, hb, bne_iff_ne, not_and_not_right]

section Task
variable {s : State} {o : MForm} (hr : matrixReady s)
include hr

section Macros
variable (ho : o.mac.toNat ≤ 4)
include ho

/-- MCAL starts the calibration, or lets it wait where the macros are not free (R98, R296). -/
theorem execMcal_acts {free : Bool} (hfree : s.core.calFree (bankNamed o) = free) :
    ActsOnMacros s o (.mcal o) (fun a => { a with busy := if free then some (s.commitSeg.core.wall + 4096) else none, queued := !free }) fun _ => false := by
  obtain ⟨ar, hfold, har⟩ := updateNamed ho (f := fun n (a : ArrState) =>
    { a with busy := if free then some (n + 4096) else none, queued := !free }) (fun _ _ => rfl) s.commitSeg.core
  refine actsOnMacros_intro ho (ar := ar) (x := s.commitSeg.core.fbk &&& ~~~macroBits o) ?_ har fun k hk => ?_
  · show execMcal o s = _
    rw [execMcal, mOp_ready hr rfl]
    simp only [State.upd, commitSeg_calFree, hfree, hfold]
  · rw [BitVec.getLsbD_and, BitVec.getLsbD_not, getLsbD_macroBits hk]
    split <;> simp_all

theorem execMfbk_acts : ActsOnMacros s o (.mfbk o) id fun _ => true := by
  refine actsOnMacros_intro ho (ar := s.commitSeg.core.arrays) (x := s.commitSeg.core.fbk ||| macroBits o) ?_ (fun k hk => (ite_self _).symm) fun k hk => ?_
  · show execMfbk o s = _
    rw [execMfbk, mOp_ready hr rfl]
    rfl
  · rw [BitVec.getLsbD_or, getLsbD_macroBits hk]
    split <;> simp_all

theorem execMinjPar_acts : ActsOnMacros s o (.minjPar o) (fun a => { a with parity := true }) id := by
  obtain ⟨ar, hfold, har⟩ := updateNamed ho (f := fun _ (a : ArrState) => { a with parity := true }) (fun _ _ => rfl) s.commitSeg.core
  refine actsOnMacros_intro ho (ar := ar) (x := s.commitSeg.core.fbk) ?_ har fun k hk => (ite_self _).symm
  show execMinjPar o s = _
  rw [execMinjPar, mOp_ready hr rfl]
  simp only [State.upd, hfold]

end Macros

/-! Injected errors (R297). -/

/-- The bit of an element that MINJ.acc inverts (R297). -/
def minjBit (o : MForm) : ℕ := o.split.toNat + if o.plane = 0 then 16 else 0

theorem execMinjAcc_inverts (hl : beatsLanded s o.acc.toNat) :
    let t := s.commitSeg
    let y := t.core.mat.tiles[o.acc.toNat]'o.acc.isLt
    let k := 256 * o.row.toNat + o.imm.toNat % 256
    ∃ es : Vector Lane 4096, exec (.minjAcc o) s =
        .next { t with core := { t.core with mat := tileSet t.core.mat o.acc { y with data := { y.data with elems := es } } } } ∧
      ∀ j, (h : j < 4096) → es[j] = if j = k then y.data.elems[j] ^^^ BitVec.ofNat 32 (2 ^ minjBit o) else y.data.elems[j] := by
  intro t y k
  have hk : k < 4096 := by
    have hrow := o.row.isLt
    omega
  have hat : tileAt y.data.elems o.row.toNat (o.imm.toNat % 256) = y.data.elems[k] := dif_pos hk
  refine ⟨y.data.elems.set k (y.data.elems[k] ^^^ BitVec.ofNat 32 (2 ^ minjBit o)), ?_, fun j hj => ?_⟩
  · show execMinjAcc o s = _
    rw [execMinjAcc, mOp_ready hr rfl, afterBeats_tile hl, ← vector_setIfInBounds_eq, ← hat]
    simp only [State.upd, updTile_bits]
    rfl
  · rw [Vector.getElem_set]
    by_cases hjk : j = k
    · subst hjk
      simp
    · rw [if_neg (Ne.symm hjk), if_neg hjk]

end Task

/-- A bit below the sign of a checksum entry that is not negative is inverted in its value (R99, R297). -/
theorem flipCk_of_nonneg {x : ℤ} (h0 : 0 ≤ x) (hx : x < 2 ^ 23) {b : ℕ} (hb : b < 23) : flipCk x b = (x.toNat ^^^ 2 ^ b : ℕ) := by
  lift x to ℕ using h0
  have hx' : x < 2 ^ 23 := by exact_mod_cast hx
  have hlt : x ^^^ 2 ^ b < 2 ^ 23 := Nat.xor_lt_two_pow hx' (Nat.pow_lt_pow_right (by decide) hb)
  have hmod : ((x : ℤ) % 16777216).toNat = x := by omega
  rw [flipCk, hmod, sextInt, Int.toNat_natCast]
  generalize x ^^^ 2 ^ b = y at hlt
  rw [Nat.mod_eq_of_lt (by omega), if_pos (by omega)]

theorem execMinjCks_inverts {s : State} {o : MForm} (hr : matrixReady s) (hm : o.mac.toNat < 4) :
    let t := s.commitSeg
    let b := bankNamed o
    let i := 256 * o.mac.toNat + o.imm.toNat % 256
    ∃ ck, exec (.minjCks o) s = .next { t with core := { t.core with banks := t.core.banks.setIfInBounds b { t.core.bank b with ck := ck } } } ∧
      ∀ j, (h : j < 1024) → ck[j] = if j = i then flipCk (t.core.bank b).ck[j] o.split.toNat else (t.core.bank b).ck[j] := by
  intro t b i
  have hi : i < 1024 := by omega
  have hb : b < 2 := bankNamed_lt o
  refine ⟨(t.core.bank b).ck.set i (flipCk (t.core.bank b).ck[i] o.split.toNat), ?_, fun j hj => ?_⟩
  · show execMinjCks o s = _
    rw [execMinjCks, mOp_ready hr rfl, vector_setIfInBounds_eq hb, ← vector_setIfInBounds_eq hi]
    simp only [State.upd, dif_pos (show 256 * o.mac.toNat + o.imm.toNat % 256 < 1024 from hi), Nat.mod_eq_of_lt (bankNamed_lt o)]
    rfl
  · rw [Vector.getElem_set]
    by_cases hji : j = i
    · subst hji
      simp
    · rw [if_neg (Ne.symm hji), if_neg hji]

end Sys2Proof.Machine
end

section
/-! O38: calibrations that end, that start once the macros are free, and the monitor's (R98, R369). -/

namespace Sys2Proof.Machine

theorem windowDue_arrays (c : Core) : c.windowDue.arrays = c.arrays := by
  unfold Core.windowDue
  split <;> rfl

theorem tickWall_array (c : Core) {k : ℕ} (h : k < 8) : c.tickWall.arrays[k] = c.calGo[k].calDue (c.wall + 1) := by
  simp only [Core.tickWall, windowDue_arrays, Vector.getElem_map]

theorem calGo_queued {c : Core} {k : ℕ} (h : k < 8) (hq : c.arrays[k].queued = true) :
    c.calGo[k] = if c.calFree (k / 4) then { c.arrays[k] with queued := false, busy := some (c.wall + 4096) } else c.arrays[k] := by
  have hany : c.arrays.any ArrState.queued = true := Vector.any_eq_true.2 ⟨k, h, hq⟩
  rw [Core.calGo, if_pos hany, Vector.getElem_ofFn]
  show (if (c.arrays[k].queued && c.calFree (k / 4)) = true then _ else _) = _
  rw [hq, Bool.true_and]
  rfl

/-- A calibration that waited starts, for 4,096 cycles, in the cycle in which its macro is free (R98). -/
theorem tickWall_starts {c : Core} {k : ℕ} (h : k < 8) (hq : c.arrays[k].queued = true) (hf : c.calFree (k / 4) = true) :
    c.tickWall.arrays[k] = { c.arrays[k] with queued := false, busy := some (c.wall + 4096) } := by
  rw [tickWall_array c h, calGo_queued h hq, if_pos hf]
  exact if_neg (by omega)

theorem calDue_queued (a : ArrState) (n : ℕ) : (a.calDue n).queued = a.queued := by
  unfold ArrState.calDue
  split
  · split <;> rfl
  · rfl

theorem tickWall_waits {c : Core} {k : ℕ} (h : k < 8) (hq : c.arrays[k].queued = true) (hf : c.calFree (k / 4) = false) :
    c.tickWall.arrays[k].queued = true := by
  rw [tickWall_array c h, calGo_queued h hq, hf, if_neg Bool.false_ne_true, calDue_queued, hq]

/-- A calibration ends when its time has come, and is dated by that time (R98). -/
theorem execMcalComplete_ends {s : State} (h : s.ev.arr < 8) :
    ∃ ar, exec .mcalComplete s = .next { s with core := { s.core with arrays := ar } } ∧ ∀ k, (h : k < 8) →
      (k ≠ s.ev.arr → ar[k] = s.core.arrays[k]) ∧
      (k = s.ev.arr → ∀ n, s.core.arrays[k].busy = some n →
        (n ≤ s.core.wall → ar[k] = { s.core.arrays[k] with busy := none, calAt := some n }) ∧ (s.core.wall < n → ar[k] = s.core.arrays[k])) := by
  refine ⟨s.core.arrays.set s.ev.arr ((s.core.arrays[s.ev.arr]).calDue s.core.wall) h, ?_, fun k hk => ⟨fun hne => ?_, ?_⟩⟩
  · show execMcalComplete s = _
    simp only [execMcalComplete, State.upd, updArray_eq s.core h]
  · rw [Vector.getElem_set, if_neg (Ne.symm hne)]
  · rintro rfl n hn
    simp only [Vector.getElem_set_self, ArrState.calDue, hn]
    exact ⟨fun hle => if_pos hle, fun hlt => if_neg (by omega)⟩

/-- The core of which the monitor has calibrated an array (R98). -/
def Core.monCalibrated (c : Core) (k : ℕ) (h : k < 8) : Core :=
  { c with arrays := c.arrays.set k { c.arrays[k] with calAt := some c.wall, monAt := some c.wall } h }

section Monitor
variable {s : State} (h : s.ev.arr < 8) (hfocus : s.focus = .core s.ev.core)
include h hfocus

/-- The monitor's calibration of an array of the core in focus (R98). -/
theorem execMonitorCalibration_eq : exec .monitorCalibration s = .next
    (if s.core.task.isSome || s.core.stopped || !(s.core.arrays[s.ev.arr]).monDue s.core.mon.calper s.core.wall then s
     else { s with core := (s.core.monCalibrated s.ev.arr h).onDuty }) := by
  have hget : s.getCore (.core s.ev.core) = s.core := if_pos hfocus
  have hset (c : Core) : s.setCore (.core s.ev.core) c = { s with core := c } := if_pos hfocus
  show execMonitorCalibration s = _
  simp only [execMonitorCalibration, hget, hset, updArray_eq s.core h, Nat.mod_eq_of_lt h]
  rfl

omit h hfocus in
theorem monDue_iff (a : ArrState) (per : BitVec 32) (now : ℕ) : a.monDue per now = true ↔
    per ≠ 0 ∧ a.busy = none ∧ a.queued = false ∧ ∀ n, a.monAt = some n → n + per.toNat ≤ now := by
  unfold ArrState.monDue
  cases a.monAt <;> simp [and_assoc]

theorem execMonitorCalibration_acts (ht : s.core.task = none) (hs : s.core.stopped = false)
    (hd : (s.core.arrays[s.ev.arr]).monDue s.core.mon.calper s.core.wall = true) : exec .monitorCalibration s =
    .next { s with core := (s.core.monCalibrated s.ev.arr h).onDuty } := by
  rw [execMonitorCalibration_eq h hfocus, ht, hs, hd]
  rfl

theorem execMonitorCalibration_idles
    (hn : s.core.task ≠ none ∨ (s.core.arrays[s.ev.arr]).monDue s.core.mon.calper s.core.wall = false) : exec .monitorCalibration s = .next s := by
  rw [execMonitorCalibration_eq h hfocus]
  refine congrArg _ (if_pos ?_)
  rcases hn with ht | hd
  · rw [Option.isSome_iff_ne_none.2 ht, Bool.true_or, Bool.true_or]
  · rw [hd, Bool.not_false, Bool.or_true]

end Monitor

end Sys2Proof.Machine
end

section
/-! O38: what a store of the device leaves of partitions and task slots, MCTX, and the statement (R266, R279, R298, R437). -/

namespace Sys2Proof.Machine

/-! A store of the device works for no partition, so that no worst grade counts an error that it finds (R437, R443). -/

theorem log_unowned_parts (v : Device) (d code grade unit index : ℕ) (p0 p1 : Word) (ctx : ℕ) {part : ℕ} (h : ¬ part < 8) :
    (v.log d code grade unit index p0 p1 ctx part).parts = v.parts := by
  unfold Device.log
  simp only [if_neg h]
  split <;> rfl

theorem logE2e_unowned_parts (v : Device) (unit index pa : ℕ) {p : ℕ} (h : ¬ p < 8) : (v.logE2e unit index pa p).parts = v.parts :=
  log_unowned_parts _ _ _ _ _ _ _ _ _ h

theorem markPoison_partitions (v : Device) (pl : Place) (x n : ℕ) : (v.markPoison pl x n).parts = v.parts := by
  unfold Device.markPoison
  split <;> rfl

theorem madeAt_unowned_parts (v : Device) {p : ℕ} (h : ¬ p < 8) (pa n : ℕ) : (v.madeAt p pa n).parts = v.parts := by
  unfold Device.madeAt
  generalize v.failing pa n = as
  induction as generalizing v with
  | nil => rfl
  | cons a as ih =>
    refine (ih _).trans ?_
    dsimp only
    split
    · rfl
    · exact (markPoison_partitions ..).trans (logE2e_unowned_parts _ _ _ _ h)

theorem publish_parts (v : Device) (pa : ℕ) (bs : List Byte) : (v.publish pa bs).parts = v.parts :=
  madeAt_unowned_parts v (p := v.partyPart .device) (by simp [Device.partyPart]) pa bs.length

theorem writeBlock_parts (v : Device) (ctx : BitVec 12) (n : ℕ) (va : Addr) (bs : List Byte) : (v.writeBlock ctx n va bs).parts = v.parts := by
  induction n generalizing v va bs with
  | zero => rfl
  | succ n ih =>
    unfold Device.writeBlock
    split
    · rfl
    · refine (ih ..).trans ?_
      split
      · exact publish_parts ..
      · rfl
      · rfl

theorem writePieces_tables (v : Device) (ctx : BitVec 12) (base : Addr) (ps : List (ℕ × List Byte)) : SameTables v (v.writePieces ctx base ps) :=
  SameTables.foldl (fun v _ => writeBlock_tables v ..) ps v

theorem writePieces_parts (v : Device) (ctx : BitVec 12) (base : Addr) (ps : List (ℕ × List Byte)) : (v.writePieces ctx base ps).parts = v.parts := by
  unfold Device.writePieces
  induction ps generalizing v with
  | nil => rfl
  | cons p ps ih => exact (ih _).trans (writeBlock_parts ..)

/-! MCTX (R266, R298). -/

theorem mctx_outside {s : State} (hin : inTask s) (hh : s.core.hnd = false) {i : Instr} (hi : isPrivileged i = false) (f : State → State) :
    s.mctx i f = .next (s.trapOp ILLOP i) := by
  simp [State.mctx, State.ifAllowed, refuses_inTask hin hi, hh]

theorem mctx_inside {s : State} (hin : inTask s) (hh : s.core.hnd = true) {i : Instr} (hi : isPrivileged i = false) (f : State → State) :
    s.mctx i f = .next (f s) := by
  simp [State.mctx, State.ifAllowed, refuses_inTask hin hi, hh]

theorem getLsbD_allTiles {k : ℕ} (h : k < 4) : allTiles.getLsbD k = true := by
  interval_cases k <;> rfl

theorem afterBeats_allTiles {s : State} (h : ∀ k, k < 4 → beatsLanded s k) (f : State → State) : s.afterBeats allTiles f = f s :=
  afterBeats_landed (fun k hk _ => h k hk) f

theorem waits_allTiles {s : State} (h : ¬ ∀ k, k < 4 → beatsLanded s k) (f : State → State) :
    ∃ n, s.core.tau < n ∧ s.afterBeats allTiles f = { s with last := .waitTau n } :=
  afterBeats_flying (fun hl => h fun k hk => hl k hk (getLsbD_allTiles hk)) f

theorem illegal_outside {s : State} (hin : inTask s) (hh : s.core.hnd = false) {i : Instr} (hi : isPrivileged i = false) (hm : slotOfOp i = .m)
    {f : State → State} (he : exec i s = s.mctx i f) : illegal s i 4 := by
  rw [illegal, he, mctx_outside hin hh hi, trapOp_m hm]
  rfl

/-- What MCTX.restore puts back (R298; log 59). -/
def State.restored (s : State) : MatCtx :=
  match s.core.mcopy with
  | none => s.core.mat
  | some m => if s.dev.usable s.ctx (s.core.mon.csave + 0x160000) matPages then s.dev.matFrom s.ctx s.core.mon.csave 0x160000 [m] else m

section Handler
variable {s : State} (o : MForm) (hin : inTask s) (hh : s.core.hnd = true)
include hin hh

theorem execMctxSave_again (hm : s.core.msaved = true) : illegal s (.mctxSave o) 4 := by
  refine (show execMctxSave o s = _ from ?_)
  rw [execMctxSave, mctx_inside hin hh rfl, if_pos hm, trapOp_m rfl]
  rfl

theorem execMctxSave_once (hm : s.core.msaved = false) : exec (.mctxSave o) s = .next (s.afterBeats allTiles fun s =>
    { s.commitSeg with
      dev := (s.commitSeg.dev.writeBlock s.commitSeg.ctx 16 (s.commitSeg.core.mon.csave + 0x160000) (List.replicate matAreaBytes 0)).writePieces
        s.commitSeg.ctx (s.commitSeg.core.mon.csave + 0x160000) (matImage s.commitSeg.core 0x160000)
      core := { s.commitSeg.core with msaved := true, mdue := true, mcopy := some s.commitSeg.core.mat } }) := by
  show execMctxSave o s = _
  rw [execMctxSave, mctx_inside hin hh rfl, if_neg (by rw [hm]; decide)]
  simp only [State.upd, State.updDev]

theorem execMctxRestore_unsaved (hm : s.core.msaved = false) : exec (.mctxRestore o) s = .next (s.takeTrap 0x10 4 0 false) := by
  show execMctxRestore o s = _
  rw [execMctxRestore, mctx_inside hin hh rfl, hm]
  rfl

theorem execMctxKeep_unsaved (hm : s.core.msaved = false) : exec (.mctxKeep o) s = .next (s.takeTrap 0x10 4 0 false) := by
  show execMctxKeep o s = _
  rw [execMctxKeep, mctx_inside hin hh rfl, hm]
  rfl

variable (hm : s.core.msaved = true)
include hm

theorem execMctxRestore_saved : exec (.mctxRestore o) s = .next (s.afterBeats allTiles fun s =>
    s.commitSeg.upd fun c => { c with mat := s.restored, mdue := false }) := by
  show execMctxRestore o s = _
  rw [execMctxRestore, mctx_inside hin hh rfl, hm]
  rfl

theorem execMctxKeep_saved : exec (.mctxKeep o) s = .next (s.afterBeats allTiles fun s =>
    s.commitSeg.upd fun c => { c with mcopy := none, mdue := false }) := by
  show execMctxKeep o s = _
  rw [execMctxKeep, mctx_inside hin hh rfl, hm]
  rfl

end Handler

/-- Settles O38: the macros named (`execMcal_acts`, `execMfbk_acts`, `execMinjPar_acts`), injected errors (`execMinjAcc_inverts`,
`flipCk_of_nonneg`), calibrations (`tickWall_starts`, `execMcalComplete_ends`, `execMonitorCalibration_eq`), and the matrix context of a handler
(`writePieces_parts`, `execMctxRestore_saved`). -/
theorem calibrationInjectionAndMatrixContext : Obligations.CalibrationInjectionAndMatrixContext := by
  unfold Obligations.CalibrationInjectionAndMatrixContext
  intro s o c t b named macros landed
  refine ⟨fun hr ho => ⟨⟨fun hf => execMcal_acts hr ho ((calFree_iff c o).2 hf),
      fun hf => execMcal_acts hr ho (Bool.eq_false_iff.2 (mt (calFree_iff c o).1 hf))⟩, execMfbk_acts hr ho, execMinjPar_acts hr ho⟩,
    fun k hk hq => ⟨tickWall_starts hk hq, tickWall_waits hk hq⟩, fun hr hl => ?_, fun hr hm => ?_,
    fun harr => ⟨execMcalComplete_ends harr, fun h hfocus ht hs hper hb hq hmon => ?_, fun h hfocus hn => ?_⟩,
    fun hin hh => ⟨?_, ?_, ?_⟩, fun hin hh hm => execMctxSave_again o hin hh hm, fun hin hh hm hl => ?_, fun hin hh hm => ?_,
    fun hin hh hm hl => ⟨?_, ?_⟩, fun hin hh hl => ⟨fun hm => ?_, fun hm => ?_⟩⟩
  · obtain ⟨es, hexec, hes⟩ := execMinjAcc_inverts hr hl
    exact ⟨_, hexec, rfl, hes⟩
  · obtain ⟨ck, hexec, hck⟩ := execMinjCks_inverts hr hm
    refine ⟨ck, hexec, fun j hj => ⟨fun hne => (hck j hj).trans (if_neg hne), fun he h0 hlt => ?_⟩⟩
    rw [hck j hj, if_pos he]
    exact flipCk_of_nonneg h0 hlt (lt_trans o.split.isLt (by decide))
  · intro d
    have hacts := execMonitorCalibration_acts h hfocus ht hs ((monDue_iff ..).2 ⟨hper, hb, hq, hmon⟩)
    exact ⟨fun h0 => hacts.trans (congrArg (fun k : Core => Host.Outcome.next { s with core := k }) (if_pos h0)),
      fun h0 => hacts.trans (congrArg (fun k : Core => Host.Outcome.next { s with core := k }) (if_neg h0))⟩
  · refine execMonitorCalibration_idles h hfocus (hn.imp_right fun hn => Bool.eq_false_iff.2 fun hdue => ?_)
    obtain ⟨hper, -, -, hmon⟩ := (monDue_iff ..).1 hdue
    rcases hn with h0 | ⟨n, hat, hlt⟩
    · exact hper h0
    · exact absurd (hmon n hat) (not_le.2 hlt)
  · exact illegal_outside hin hh rfl rfl (show execMctxSave o s = _ from by rw [execMctxSave])
  · exact illegal_outside hin hh rfl rfl (show execMctxRestore o s = _ from by rw [execMctxRestore])
  · exact illegal_outside hin hh rfl rfl (show execMctxKeep o s = _ from by rw [execMctxKeep])
  · have hsave := execMctxSave_once o hin hh hm
    rw [afterBeats_allTiles hl] at hsave
    exact ⟨_, hsave, ((writeBlock_tables ..).trans (writePieces_tables ..)).slots, (writePieces_parts ..).trans (writeBlock_parts ..)⟩
  · simp only [List.forall_mem_cons, List.not_mem_nil, false_imp_iff, implies_true, and_true]
    exact ⟨execMctxRestore_unsaved o hin hh hm, execMctxKeep_unsaved o hin hh hm⟩
  · have hrestore := execMctxRestore_saved o hin hh hm
    rw [afterBeats_allTiles hl] at hrestore
    refine ⟨s.restored, hrestore, fun hc => ?_, fun m hc => ⟨fun hu => ?_, fun hu => ?_⟩⟩
    · simp only [State.restored, show s.core.mcopy = none from hc]
      rfl
    · simp only [State.restored, show s.core.mcopy = some m from hc]
      exact if_pos hu
    · simp only [State.restored, show s.core.mcopy = some m from hc]
      exact if_neg (by rw [hu]; decide)
  · have hkeep := execMctxKeep_saved o hin hh hm
    rwa [afterBeats_allTiles hl] at hkeep
  · rw [execMctxSave_once o hin hh hm]
    obtain ⟨n, hn, hwait⟩ := waits_allTiles hl _
    exact ⟨n, hn, congrArg _ hwait⟩
  · simp only [List.forall_mem_cons, List.not_mem_nil, false_imp_iff, implies_true, and_true]
    rw [execMctxRestore_saved o hin hh hm, execMctxKeep_saved o hin hh hm]
    constructor
    · obtain ⟨n, hn, hwait⟩ := waits_allTiles hl _
      exact ⟨n, hn, congrArg _ hwait⟩
    · obtain ⟨n, hn, hwait⟩ := waits_allTiles hl _
      exact ⟨n, hn, congrArg _ hwait⟩

end Sys2Proof.Machine
end

section
/-! O36: beats that land and drains that enter their queues (R97, R279, R287, R289, R353). -/

namespace Sys2Proof.Machine

/-! The CLIPMASK bits of a beat (R97). -/

/-- `n` is `m` with the CLIPMASK bits `cs` set, and the same elements, sidecars, feeder, queues and drains. -/
structure Clipped (cs : List (ℕ × Word)) (m n : MatCtx) : Prop where
  feeder : n.feeder = m.feeder
  queues : n.queues = m.queues
  drains : n.drains = m.drains
  elems  : ∀ t, (h : t < 4) → n.tiles[t].data.elems = m.tiles[t].data.elems
  sides  : ∀ t, (h : t < 4) → n.tiles[t].data.sides = m.tiles[t].data.sides
  clip   : ∀ t, (h : t < 4) → ∀ k,
    n.tiles[t].data.clip.getLsbD k = (m.tiles[t].data.clip.getLsbD k || cs.any fun c => c.1 == t && c.2.getLsbD k)

theorem Clipped.nil (m : MatCtx) : Clipped [] m m := ⟨rfl, rfl, rfl, fun _ _ => rfl, fun _ _ => rfl, fun _ _ _ => (Bool.or_false _).symm⟩

theorem Clipped.append {cs ds : List (ℕ × Word)} {m n p : MatCtx} (h : Clipped cs m n) (k : Clipped ds n p) : Clipped (cs ++ ds) m p where
  feeder := k.feeder.trans h.feeder
  queues := k.queues.trans h.queues
  drains := k.drains.trans h.drains
  elems t ht := (k.elems t ht).trans (h.elems t ht)
  sides t ht := (k.sides t ht).trans (h.sides t ht)
  clip t ht j := by rw [k.clip t ht, h.clip t ht, List.any_append, Bool.or_assoc]

theorem clipped_one (m : MatCtx) (c : ℕ × Word) : Clipped [c] m (m.orClips [c]) := by
  have hcs : m.orClips [c] = if h : c.1 < 4 then { m with tiles := m.tiles.set c.1 { m.tiles[c.1] with
      data := { m.tiles[c.1].data with clip := m.tiles[c.1].data.clip ||| c.2 } } h } else m := rfl
  rw [hcs]
  split
  next hc =>
    refine ⟨rfl, rfl, rfl, fun t ht => ?_, fun t ht => ?_, fun t ht k => ?_⟩ <;> simp only [Vector.getElem_set] <;> by_cases hct : c.1 = t
    all_goals simp [hct]
  next hc => exact ⟨rfl, rfl, rfl, fun _ _ => rfl, fun _ _ => rfl, fun t ht k => by simp [show c.1 ≠ t by omega]⟩

theorem clipped_orClips (m : MatCtx) (cs : List (ℕ × Word)) : Clipped cs m (m.orClips cs) := by
  induction cs generalizing m with
  | nil => exact .nil m
  | cons c cs ih => exact (clipped_one m c).append (ih _)

/-! Beats that land (R279). -/

/-- The core `d` is `c` after the beats `bs` have landed: their flags, their CLIPMASK bits and their number are in it. -/
structure Landed (bs : List Beat) (c d : Core) : Prop where
  s      : d.s = c.s
  a      : d.a = c.a
  v      : d.v = c.v
  tau    : d.tau = c.tau
  burst  : d.burstBeats = c.burstBeats + bs.length
  mat    : Clipped (bs.flatMap Beat.clips) c.mat d.mat
  sticky : ∀ k, d.sticky.getLsbD k = (c.sticky.getLsbD k || bs.any fun b => b.flags.getLsbD k)

theorem landed_landBeat (c : Core) (b : Beat) : Landed [b] c (c.landBeat b) := by
  have hmat : Clipped ([b].flatMap Beat.clips) c.mat (c.mat.orClips b.clips) := by
    rw [List.flatMap_singleton]
    exact clipped_orClips ..
  unfold Core.landBeat
  split <;> exact ⟨rfl, rfl, rfl, rfl, rfl, hmat, fun k => by simp [Core.raise, Core.countDigital]⟩

theorem landed_foldl (c : Core) (bs : List Beat) : Landed bs c (bs.foldl Core.landBeat c) := by
  induction bs generalizing c with
  | nil => exact ⟨rfl, rfl, rfl, rfl, rfl, .nil _, fun _ => (Bool.or_false _).symm⟩
  | cons b bs ih =>
    have h := landed_landBeat c b
    have k := ih (c.landBeat b)
    refine ⟨k.s.trans h.s, k.a.trans h.a, k.v.trans h.v, k.tau.trans h.tau, ?_, ?_, fun j => ?_⟩
    · rw [List.foldl_cons, k.burst, h.burst, List.length_cons, List.length_cons, List.length_nil]
      omega
    · simpa using h.mat.append k.mat
    · rw [List.foldl_cons, k.sticky, h.sticky, List.any_cons, List.any_cons, List.any_nil, Bool.or_false, Bool.or_assoc]

theorem beatsDue_eq (c : Core) : c.beatsDue =
    let d := (c.mat.beats.filter fun b => b.left == 0).foldl Core.landBeat c
    { d with mat := { d.mat with beats := c.mat.beats.filter fun b => b.left != 0 } } := by
  have hfold : (c.mat.beats.filter fun b => b.left == 0).foldl Core.landBeat c =
      c.mat.beats.foldl (fun c b => if b.left = 0 then c.landBeat b else c) c := by simp only [List.foldl_filter, beq_iff_eq]
  rw [hfold]
  rfl

/-! Drains that enter their queues (R287, R289). -/

/-- The core `d` is `c` after the drains `ds` have entered their queues: their entries, their flags and the TRAPs of their bounds are in it. -/
structure Entered (ds : List Drain) (c d : Core) : Prop where
  s      : d.s = c.s
  a      : d.a = c.a
  v      : d.v = c.v
  tau    : d.tau = c.tau
  beats  : d.mat.beats = c.mat.beats
  tiles  : d.mat.tiles = c.mat.tiles
  due    : d.boundDue = c.boundDue ++ (ds.filter fun x => x.bound != 0).map fun x => (issueKey (c.tau - 16) 4, x.bound)
  sticky : ∀ k, d.sticky.getLsbD k = (c.sticky.getLsbD k || ds.any fun x => x.flags.getLsbD k)
  queues : ∀ q : BitVec 2, d.mat.queues[q.toNat]'q.isLt = (c.mat.queues[q.toNat]'q.isLt) ++ (ds.filter fun x => x.q == q).map Drain.entry

theorem entered_enterQueue (c : Core) (x : Drain) : Entered [x] c (c.enterQueue x) := by
  refine ⟨rfl, rfl, rfl, rfl, rfl, rfl, ?_, fun k => ?_, fun q => ?_⟩
  · by_cases hb : x.bound = 0#4 <;> simp [Core.enterQueue, Core.raise, hb]
  · simp [Core.enterQueue, Core.raise]
  · simp only [Core.enterQueue, Vector.getElem_set, BitVec.toNat_inj]
    by_cases hq : x.q = q
    · subst hq
      simp [Core.raise]
    · simp [Core.raise, hq]

theorem entered_foldl (c : Core) (ds : List Drain) : Entered ds c (ds.foldl Core.enterQueue c) := by
  induction ds generalizing c with
  | nil => exact ⟨rfl, rfl, rfl, rfl, rfl, rfl, (List.append_nil _).symm, fun _ => (Bool.or_false _).symm, fun _ => (List.append_nil _).symm⟩
  | cons x xs ih =>
    have h := entered_enterQueue c x
    have k := ih (c.enterQueue x)
    refine ⟨k.s.trans h.s, k.a.trans h.a, k.v.trans h.v, k.tau.trans h.tau, k.beats.trans h.beats, k.tiles.trans h.tiles, ?_, fun j => ?_, fun q => ?_⟩
    · rw [List.foldl_cons, k.due, h.due, h.tau, List.append_assoc, ← List.map_append, ← List.filter_append, List.singleton_append]
    · rw [List.foldl_cons, k.sticky, h.sticky, List.any_cons, List.any_cons, List.any_nil, Bool.or_false, Bool.or_assoc]
    · rw [List.foldl_cons, k.queues, h.queues, List.append_assoc, ← List.map_append, ← List.filter_append, List.singleton_append]

theorem drainsDue_eq (c : Core) : c.drainsDue =
    let d := (c.mat.drains.filter fun x => x.left == 0).foldl Core.enterQueue c
    { d with mat := { d.mat with drains := c.mat.drains.filter fun x => x.left != 0 } } := by
  have hfold : (c.mat.drains.filter fun x => x.left == 0).foldl Core.enterQueue c =
      c.mat.drains.foldl (fun c x => if x.left = 0 then c.enterQueue x else c) c := by simp only [List.foldl_filter, beq_iff_eq]
  rw [hfold]
  rfl

/-- BEAT_LAND and DRAIN_ENTER_QUEUE, the second part of O36 (R279, R287). -/
theorem execBeatLand_lands (s : State) :
    ∃ u, exec .beatLand s = .next u ∧ u.dev = s.dev ∧ u.core.s = s.core.s ∧ u.core.a = s.core.a ∧ u.core.v = s.core.v ∧ u.core.tau = s.core.tau ∧
      let gone := s.core.mat.beats.filter fun b => b.left == 0
      u.core.mat.beats = (s.core.mat.beats.filter fun b => b.left != 0) ∧ u.core.burstBeats = s.core.burstBeats + gone.length ∧
      u.core.mat.feeder = s.core.mat.feeder ∧ u.core.mat.queues = s.core.mat.queues ∧ u.core.mat.drains = s.core.mat.drains ∧
      (∀ k, u.core.sticky.getLsbD k = (s.core.sticky.getLsbD k || gone.any fun b => b.flags.getLsbD k)) ∧
      ∀ t, (h : t < 4) → u.core.mat.tiles[t].data.elems = s.core.mat.tiles[t].data.elems ∧ u.core.mat.tiles[t].data.sides = s.core.mat.tiles[t].data.sides ∧
        ∀ k, u.core.mat.tiles[t].data.clip.getLsbD k =
          (s.core.mat.tiles[t].data.clip.getLsbD k || gone.any fun b => b.clips.any fun c => c.1 == t && c.2.getLsbD k) := by
  have h := landed_foldl s.core (s.core.mat.beats.filter fun b => b.left == 0)
  have hexec : exec .beatLand s = .next (s.upd Core.beatsDue) := rfl
  rw [State.upd, beatsDue_eq] at hexec
  refine ⟨_, hexec, rfl, h.s, h.a, h.v, h.tau, rfl, h.burst, h.mat.feeder, h.mat.queues, h.mat.drains, h.sticky,
    fun t ht => ⟨h.mat.elems t ht, h.mat.sides t ht, fun k => (h.mat.clip t ht k).trans ?_⟩⟩
  rw [List.any_flatMap]

theorem execDrainEnterQueue_enters (s : State) :
    ∃ u, exec .drainEnterQueue s = .next u ∧ u.dev = s.dev ∧ u.core.s = s.core.s ∧ u.core.a = s.core.a ∧ u.core.v = s.core.v ∧ u.core.tau = s.core.tau ∧
      let gone := s.core.mat.drains.filter fun d => d.left == 0
      u.core.mat.drains = (s.core.mat.drains.filter fun d => d.left != 0) ∧ u.core.mat.beats = s.core.mat.beats ∧ u.core.mat.tiles = s.core.mat.tiles ∧
      u.core.boundDue = s.core.boundDue ++ (gone.filter fun d => d.bound != 0).map (fun d => (issueKey (s.core.tau - 16) 4, d.bound)) ∧
      (∀ k, u.core.sticky.getLsbD k = (s.core.sticky.getLsbD k || gone.any fun d => d.flags.getLsbD k)) ∧
      ∀ q : BitVec 2, u.core.mat.queues[q.toNat]'q.isLt = (s.core.mat.queues[q.toNat]'q.isLt) ++ (gone.filter fun d => d.q == q).map Drain.entry := by
  have h := entered_foldl s.core (s.core.mat.drains.filter fun x => x.left == 0)
  have hexec : exec .drainEnterQueue s = .next (s.upd Core.drainsDue) := rfl
  rw [State.upd, drainsDue_eq] at hexec
  exact ⟨_, hexec, rfl, h.s, h.a, h.v, h.tau, rfl, h.beats, h.tiles, h.due, h.sticky, h.queues⟩

end Sys2Proof.Machine
end

section
/-! O36: sums of integers in a beat are exact (R60, R68, R80, R91). -/

namespace Sys2Proof.Machine

/-! Every integer of at most 24 bits is the value of an FP32 encoding (R60). -/

theorem toNat_ofNat_fields {S E k : ℕ} (hS : S < 2) (hE : E < 2 ^ 8) (hk : k < 2 ^ 23) :
    (BitVec.ofNat 32 (S * 2 ^ 31 + E * 2 ^ 23 + k)).toNat = S * 2 ^ 31 + E * 2 ^ 23 + k := by
  rw [BitVec.toNat_ofNat]
  omega

theorem f32Val_fields {S E k : ℕ} (hS : S < 2) (hE : E < 255) (h0 : E ≠ 0) (hk : k < 2 ^ 23) :
    f32Val (BitVec.ofNat 32 (S * 2 ^ 31 + E * 2 ^ 23 + k)) = .fin (S == 1) (k + 2 ^ 23) (E - 150) := by
  have hbit : bitOf (S * 2 ^ 31 + E * 2 ^ 23 + k) 31 = (S == 1) := by
    have h : (S * 2 ^ 31 + E * 2 ^ 23 + k) / 2 ^ 31 % 2 = S := by omega
    rw [bitOf, h]
  have hexp : (S * 2 ^ 31 + E * 2 ^ 23 + k) / 2 ^ 23 % 2 ^ 8 = E := by omega
  have hfrac : (S * 2 ^ 31 + E * 2 ^ 23 + k) % 2 ^ 23 = k := by omega
  rw [f32Val_eq, toNat_ofNat_fields hS (by omega) hk]
  simp only [hbit, hexp, hfrac]
  rw [if_neg h0, if_neg (by omega)]

/-- A positive magnitude of at most 24 bits, moved up to fill them. -/
theorem exists_normal {n : ℕ} (h0 : 0 < n) (h : n < 2 ^ 24) :
    ∃ E k : ℕ, 0 < E ∧ E < 255 ∧ k < 2 ^ 23 ∧ ((k + 2 ^ 23 : ℕ) : ℚ) * 2 ^ ((E : ℤ) - 150) = n := by
  have hle := Nat.log2_self_le h0.ne'
  have hlt := Nat.lt_log2_self (n := n)
  have hl : Nat.log2 n < 24 := (Nat.log2_lt h0.ne').2 h
  generalize Nat.log2 n = l at hle hlt hl
  have hge : 2 ^ 23 ≤ n * 2 ^ (23 - l) := by
    calc 2 ^ 23 = 2 ^ l * 2 ^ (23 - l) := by rw [← pow_add, Nat.add_sub_cancel' (by omega)]
      _ ≤ n * 2 ^ (23 - l) := Nat.mul_le_mul_right _ hle
  have hlt' : n * 2 ^ (23 - l) < 2 ^ 24 := by
    calc n * 2 ^ (23 - l) < 2 ^ (l + 1) * 2 ^ (23 - l) := Nat.mul_lt_mul_of_pos_right hlt (by positivity)
      _ = 2 ^ 24 := by rw [← pow_add]; congr 1; omega
  refine ⟨l + 127, n * 2 ^ (23 - l) - 2 ^ 23, by omega, by omega, by omega, ?_⟩
  have hone : (2 : ℚ) ^ (23 - l) * 2 ^ (((l + 127 : ℕ) : ℤ) - 150) = 1 := by
    rw [← zpow_natCast, ← zpow_add₀ two_ne_zero, show ((23 - l : ℕ) : ℤ) + (((l + 127 : ℕ) : ℤ) - 150) = 0 by omega, zpow_zero]
  rw [Nat.sub_add_cancel hge, Nat.cast_mul, Nat.cast_pow, Nat.cast_ofNat, mul_assoc, hone, mul_one]

theorem exists_encoding (n : ℤ) (h0 : n ≠ 0) (h : n.natAbs < 2 ^ 24) : ∃ x : Lane, rationalOf (f32Val x) = some (n : ℚ) := by
  obtain ⟨E, k, hE0, hE, hk, hv⟩ := exists_normal (Int.natAbs_pos.2 h0) h
  have hvalue (S : ℕ) (hS : S < 2) : rationalOf (f32Val (BitVec.ofNat 32 (S * 2 ^ 31 + E * 2 ^ 23 + k))) =
      some ((if S == 1 then -1 else 1 : ℚ) * n.natAbs) := by
    rw [f32Val_fields hS hE (by omega) hk, rationalOf, mul_assoc, hv]
  rcases lt_or_gt_of_ne h0 with hn | hn
  · refine ⟨_, (hvalue 1 (by decide)).trans (congrArg some ?_)⟩
    simpa [hn] using sign_mul_natAbs n
  · refine ⟨_, (hvalue 0 (by decide)).trans (congrArg some ?_)⟩
    simpa [not_lt.2 hn.le] using sign_mul_natAbs n

/-! Sums of terms of exponent 0 (R91). -/

theorem add_of_exponent_zero (a b : ℤ) : Dyadic.add ⟨a, 0⟩ ⟨b, 0⟩ = ⟨a + b, 0⟩ := by
  unfold Dyadic.add
  by_cases ha : a = 0
  · simp [ha]
  · by_cases hb : b = 0 <;> simp [ha, hb]

theorem dySum_of_exponent_zero (xs : List ℤ) : dySum (xs.map fun x => ⟨x, 0⟩) = ⟨xs.sum, 0⟩ := by
  have hfold (a : ℤ) : (xs.map fun x => (⟨x, 0⟩ : Dyadic)).foldl Dyadic.add ⟨a, 0⟩ = ⟨a + xs.sum, 0⟩ := by
    induction xs generalizing a with
    | nil => simp
    | cons x xs ih => rw [List.map_cons, List.foldl_cons, add_of_exponent_zero, ih, List.sum_cons, add_assoc]
  rw [dySum, hfold, zero_add]

theorem sum_filter_ne_zero (xs : List ℤ) : (xs.filter fun x => x != 0).sum = xs.sum := by
  induction xs with
  | nil => rfl
  | cons x xs ih => by_cases h : x = 0 <;> simp [h, ih]

/-- Terms of one exponent all stand in the window of the sum (R91). -/
theorem sum96_of_exponent_zero (xs : List ℤ) : (sum96 (xs.map fun x => ⟨x, 0⟩)).1 = ⟨xs.sum, 0⟩ := by
  have hfilter : (xs.map fun x => (⟨x, 0⟩ : Dyadic)).filter (fun t => t.m != 0) = (xs.filter fun x => x != 0).map fun x => ⟨x, 0⟩ := by
    rw [List.filter_map]
    rfl
  rw [sum96, hfilter, ← sum_filter_ne_zero]
  generalize xs.filter (fun x => x != 0) = ys
  cases ys with
  | nil => rfl
  | cons y ys =>
    have hcut : (ys.map fun x => (⟨x, 0⟩ : Dyadic)).foldl (fun e x => max e x.e) 0 = 0 := by
      rw [List.foldl_map]
      exact List.foldl_fixed' (fun _ => max_self 0) ys
    rw [List.map_cons]
    dsimp only
    rw [hcut, List.map_map, ← dySum_of_exponent_zero (y :: ys), ← List.map_cons (f := fun x => (⟨x, 0⟩ : Dyadic)), List.map_map]
    rfl

theorem roundAcc_integer {n : ℤ} {x : Lane} (hx : rationalOf (f32Val x) = some (n : ℚ)) (h0 : n ≠ 0) : (roundAcc ⟨n, 0⟩).1 = x := by
  have hvalue : signedValue (decide (n < 0)) n.natAbs 0 = (n : ℚ) := by rw [signedValue, sign_mul_natAbs, zpow_zero, mul_one]
  exact congrArg Prod.fst (roundF32_of_value hx (by exact_mod_cast h0) hvalue 0 true)

theorem accumulate_value (acc side : Lane) (ts : List Dyadic) (extra : Dyadic) :
    (accumulate acc side ts false extra).1 = (fAdd 0 true false acc (roundAcc (sum96 ts).1).1).1 := rfl

theorem rationalOf_f32Val_zero : rationalOf (f32Val 0) = some 0 := by
  have hzero : f32Val 0 = .fin false 0 (-149) := by decide
  rw [hzero]
  simp [rationalOf]

/-- A beat whose terms are integers makes of an element +0 their sum, while that has at most 24 bits (R80, R91). -/
theorem accumulate_integers (side : Lane) (xs : List ℤ) (extra : Dyadic) (h : xs.sum.natAbs < 2 ^ 24) :
    rationalOf (f32Val (accumulate 0 side (xs.map fun x => ⟨x, 0⟩) false extra).1) = some (xs.sum : ℚ) := by
  rw [accumulate_value, sum96_of_exponent_zero]
  by_cases h0 : xs.sum = 0
  · have hzero : (fAdd 0 true false 0 (roundAcc ⟨0, 0⟩).1).1 = 0 := by decide
    rw [h0, hzero]
    rw [rationalOf_f32Val_zero, Int.cast_zero]
  · obtain ⟨x, hx⟩ := exists_encoding xs.sum h0 h
    rw [roundAcc_integer hx h0, fAdd_exact rationalOf_f32Val_zero hx hx (by exact_mod_cast h0) 0 true (zero_add _), hx]

/-! The columns of a row of weights (R87, R91). -/

theorem widthOf_mem (f : ℕ) : widthOf f ∈ [2, 4, 8, 16] := by
  unfold widthOf
  split <;> decide

theorem abs_sextInt_le (x : ℕ) {w : ℕ} (h : 0 < w) : |sextInt x w| ≤ 2 ^ (w - 1) := by
  have hw : 2 ^ w = 2 * 2 ^ (w - 1) := by rw [← pow_succ', Nat.sub_add_cancel h]
  have hlt : x % 2 ^ w < 2 ^ w := Nat.mod_lt _ (by positivity)
  have hcast : ((2 ^ (w - 1) : ℕ) : ℤ) = 2 ^ (w - 1) := by norm_cast
  unfold sextInt
  dsimp only
  rw [← hcast, abs_le]
  generalize x % 2 ^ w = m at hlt
  generalize 2 ^ (w - 1) = p at hw
  rw [hw] at hlt ⊢
  split <;> push_cast <;> omega
theorem abs_sum_le {B : ℤ} {xs : List ℤ} (h : ∀ x ∈ xs, |x| ≤ B) : |xs.sum| ≤ xs.length * B := by
  induction xs with
  | nil => simp
  | cons x xs ih =>
    obtain ⟨hx, hxs⟩ := List.forall_mem_cons.1 h
    rw [List.sum_cons, List.length_cons, Nat.cast_succ, add_mul, one_mul, add_comm]
    exact (abs_add_le _ _).trans (add_le_add (ih hxs) hx)

end Sys2Proof.Machine
end

section
/-! O36: what a beat makes of a row of a tile (R89, R90, R91, R278). -/

namespace Sys2Proof.Machine

/-! Rows of a tile (R282). -/

theorem setRow_of_ne {v : Vector Lane 4096} {r : ℕ} {xs : Array Lane} {j : ℕ} (hj : j < 4096) (h : j / 256 ≠ r ∨ xs.size ≤ j % 256) :
    (setRow v r xs)[j] = v[j] := by
  have hout : ¬ (j / 256 = r ∧ j % 256 < xs.size) := by omega
  simp only [setRow, Vector.getElem_ofFn, if_neg hout, Fin.getElem_fin]

theorem setRow_row {v : Vector Lane 4096} {r : ℕ} {xs : Array Lane} {x : ℕ} (hj : 256 * r + x < 4096) (hx : x < 256) (h : x < xs.size) :
    (setRow v r xs)[256 * r + x] = xs[x] := by
  have hmod : (256 * r + x) % 256 = x := by omega
  have hin : (256 * r + x) / 256 = r ∧ x < xs.size := ⟨by omega, h⟩
  simp only [setRow, Vector.getElem_ofFn, hmod, if_pos hin, Array.getD_eq_getD_getElem?, Array.getElem?_eq_getElem h, Option.getD_some]

/-- The columns that a beat writes at a weight width (R90). -/
def beatCols (w : ℕ) : ℕ := min 256 (2048 / w)

theorem beatCols_le (w : ℕ) : beatCols w ≤ 256 := Nat.min_le_left ..

/-- `u` is `t` but for the first `cols` elements and sidecars of row `r`, as far as elements and sidecars go. -/
def RowOnly (r cols : ℕ) (t u : TileData) : Prop :=
  ∀ j, (hj : j < 4096) → (j / 256 ≠ r ∨ cols ≤ j % 256) → u.elems[j] = t.elems[j] ∧ u.sides[j] = t.sides[j]

theorem nanTile_rowOnly (w r : ℕ) (t : TileData) : RowOnly r (beatCols w) t (nanTile w r t) := fun j hj h => by
  have hsize (x : Lane) : j / 256 ≠ r ∨ (Array.replicate (beatCols w) x).size ≤ j % 256 := by rwa [Array.size_replicate]
  exact ⟨setRow_of_ne hj (hsize _), setRow_of_ne hj (hsize _)⟩

/-- A non-finite row writes the canonical NaN and sidecar infinity (R89). -/
theorem nanTile_row {w r x : ℕ} (hj : 256 * r + x < 4096) (hx : x < beatCols w) (t : TileData) :
    (nanTile w r t).elems[256 * r + x] = 0x7FC00000 ∧ (nanTile w r t).sides[256 * r + x] = 0x7F800000 := by
  have hsize (y : Lane) : x < (Array.replicate (beatCols w) y).size := by rwa [Array.size_replicate]
  have hx' := hx.trans_le (beatCols_le w)
  exact ⟨(setRow_row hj hx' (hsize _)).trans (Array.getElem_replicate _), (setRow_row hj hx' (hsize _)).trans (Array.getElem_replicate _)⟩

/-- The element of column `x` after a beat of a finite row (R91). -/
def BeatIn.elem (b : BeatIn) (t : TileData) (n0 x : ℕ) : Lane :=
  (accumulate (tileAt t.elems b.r x) (tileAt t.sides b.r x) (b.terms (n0 + x)).1 b.sub
    (((List.range 4).map b.bound).getD ((n0 + x) / colsPerMacro b.w) ⟨0, 0⟩)).1

theorem tile_elems (b : BeatIn) (t : TileData) (n0 : ℕ) (macros : List ℕ) :
    (b.tile t n0 macros).1.elems = setRow t.elems b.r ((List.range (beatCols b.w)).map (b.elem t n0)).toArray := by
  unfold BeatIn.tile
  dsimp only
  rw [List.map_map]
  rfl

theorem tile_rowOnly (b : BeatIn) (t : TileData) (n0 : ℕ) (macros : List ℕ) : RowOnly b.r (beatCols b.w) t (b.tile t n0 macros).1 := fun j hj h => by
  constructor
  · simp only [tile_elems]
    exact setRow_of_ne hj (by simpa using h)
  · unfold BeatIn.tile
    dsimp only
    exact setRow_of_ne hj (by simpa [beatCols] using h)

theorem tile_row (b : BeatIn) (t : TileData) (n0 : ℕ) (macros : List ℕ) {x : ℕ} (hj : 256 * b.r + x < 4096) (hx : x < beatCols b.w) :
    (b.tile t n0 macros).1.elems[256 * b.r + x] = b.elem t n0 x := by
  simp only [tile_elems]
  rw [setRow_row hj (hx.trans_le (beatCols_le _)) (by simpa using hx)]
  simp

/-! The sum over the active rows (R91). -/

/-- The bit of row `k` in plane `i` is set (R91). -/
def activeBit (row : Row) (i k : ℕ) : Bool := if h : k < 256 then (row.mags[k]).testBit i else false

/-- The weight of row `k` with the sign of its activation, or 0 where the bit of the plane is clear (R91). -/
def signedWeight (row : Row) (i : ℕ) (sgn : Bool) (f : ℕ → ℤ) (k : ℕ) : ℤ :=
  if activeBit row i k then (if sgn && row.neg.getLsbD k then -f k else f k) else 0

theorem abs_signedWeight_le {row : Row} {i : ℕ} {sgn : Bool} {f : ℕ → ℤ} {k : ℕ} {B : ℤ} (h : |f k| ≤ B) : |signedWeight row i sgn f k| ≤ B := by
  unfold signedWeight
  cases activeBit row i k
  · simpa using (abs_nonneg _).trans h
  · cases sgn && row.neg.getLsbD k <;> simpa using h

theorem getD_activeRows (row : Row) (i : ℕ) (sgn : Bool) {g : ℕ} (hg : g < 16) : (activeRows row i sgn).getD g [] =
    (List.range 16).filterMap fun j => if activeBit row i (16 * g + j) then some (16 * g + j, sgn && row.neg.getLsbD (16 * g + j)) else none := by
  simp [activeRows, activeBit, List.getD_eq_getElem?_getD, hg]

/-- Add up the weights of a group of rows, as a beat does (R91). -/
def addRows (f : ℕ → ℤ) (ks : List (ℕ × Bool)) (a : ℤ) : ℤ := (ks.map fun k => (f k.1, k.2)).foldl (fun t x => if x.2 then t - x.1 else t + x.1) a

theorem addRows_activeRows (row : Row) (i : ℕ) (sgn : Bool) (f : ℕ → ℤ) {g : ℕ} (hg : g < 16) :
    addRows f ((activeRows row i sgn).getD g []) 0 = ((List.range 16).map fun j => signedWeight row i sgn f (16 * g + j)).sum := by
  have hfold (js : List ℕ) (a : ℤ) : addRows f (js.filterMap fun j =>
      if activeBit row i (16 * g + j) then some (16 * g + j, sgn && row.neg.getLsbD (16 * g + j)) else none) a =
      a + (js.map fun j => signedWeight row i sgn f (16 * g + j)).sum := by
    induction js generalizing a with
    | nil => exact (add_zero a).symm
    | cons j js ih =>
      rw [List.filterMap_cons, List.map_cons, List.sum_cons, signedWeight]
      unfold addRows at ih ⊢
      cases activeBit row i (16 * g + j)
      · simpa using ih a
      · cases hneg : sgn && row.neg.getLsbD (16 * g + j)
        · simp [ih, add_assoc]
        · simp only [reduceIte, List.map_cons, List.foldl_cons, ih]
          ring
  rw [getD_activeRows row i sgn hg, hfold, zero_add]

/-- Rows by groups of 16 (R91). -/
theorem sum_range_groups (f : ℕ → ℤ) (n : ℕ) :
    ((List.range (16 * n)).map f).sum = ((List.range n).map fun g => ((List.range 16).map fun j => f (16 * g + j)).sum).sum := by
  induction n with
  | zero => rfl
  | succ n ih =>
    rw [Nat.mul_succ, List.range_add, List.map_append, List.sum_append, ih, List.map_map, List.range_succ (n := n), List.map_append, List.sum_append,
      List.map_singleton, List.sum_singleton]
    rfl

/-- The terms of a column that no charge plane reads (R91). -/
theorem terms_digital {b : BeatIn} {row : Row} {sgn : Bool} (hact : b.act = activeRows row b.i sgn) {n : ℕ}
    (hsplit : b.split.getD (n / colsPerMacro b.w) 0 = 0) (hscale : ∀ g, g < 16 → b.scale (n / colsPerMacro b.w) g = 0) :
    (b.terms n).1 = ((List.range 16).map fun g => ((List.range 16).map fun j =>
      signedWeight row b.i sgn (weightAt b.planes b.w (n / colsPerMacro b.w) (n % colsPerMacro b.w)) (16 * g + j)).sum).map fun x => ⟨x, 0⟩ := by
  unfold BeatIn.terms
  dsimp only
  rw [hsplit, Nat.zero_sub, List.map_map, List.map_map]
  refine List.map_congr_left fun g hg => ?_
  have hlt := List.mem_range.1 hg
  dsimp only [Function.comp_apply]
  rw [if_pos rfl, hscale g hlt, hact, ← addRows_activeRows row b.i sgn _ hlt]
  rfl

theorem getD_eq_zero_of_all {xs : List ℕ} (h : xs.all (fun n => n == 0) = true) (m : ℕ) : xs.getD m 0 = 0 := by
  rw [List.getD_eq_getElem?_getD]
  cases hm : xs[m]? with
  | none => rfl
  | some y => simpa using List.all_eq_true.1 h y (List.mem_of_getElem? hm)

theorem abs_weightAt_le (planes : Array Byte) {w : ℕ} (hw : w ∈ [2, 4, 8, 16]) (m n k : ℕ) : |weightAt planes w m n k| ≤ 2 ^ 15 := by
  have hpos : 0 < w ∧ w - 1 ≤ 15 := by
    simp only [List.mem_cons, List.not_mem_nil, or_false] at hw
    omega
  exact (abs_sextInt_le _ hpos.1).trans (pow_le_pow_right₀ (by norm_num) hpos.2)

/-- The column of a tile that a beat writes is one of the four macros' (R90). -/
theorem macro_lt {w : ℕ} (hw : w ∈ [2, 4, 8, 16]) {k x : ℕ} (hk : k < 4) (hx : x < beatCols w) : (tileBase w k + x) / colsPerMacro w < 4 := by
  simp only [List.mem_cons, List.not_mem_nil, or_false] at hw
  unfold tileBase colsPerMacro
  unfold beatCols at hx
  rcases hw with rfl | rfl | rfl | rfl <;> simp at hx ⊢ <;> omega

/-- A beat of digital macros whose scales are 0 makes of an element +0 the exact sum over its active rows (R91). -/
theorem elem_digital {b : BeatIn} {row : Row} {sgn : Bool} (hact : b.act = activeRows row b.i sgn) (hw : b.w ∈ [2, 4, 8, 16]) (hsub : b.sub = false)
    (hsplit : b.split.all (fun n => n == 0) = true) (hscale : ∀ q g, q < 4 → g < 16 → b.scale q g = 0) (t : TileData) {k x : ℕ} (hk : k < 4)
    (hx : x < beatCols b.w) (h0 : tileAt t.elems b.r x = 0) :
    rationalOf (f32Val (b.elem t (tileBase b.w k) x)) = some ((((List.range 256).map (signedWeight row b.i sgn
      (weightAt b.planes b.w ((tileBase b.w k + x) / colsPerMacro b.w) ((tileBase b.w k + x) % colsPerMacro b.w)))).sum : ℤ) : ℚ) := by
  have hm := macro_lt hw hk hx
  generalize hn : tileBase b.w k + x = n at hm ⊢
  have hbound : |((List.range 256).map (signedWeight row b.i sgn (weightAt b.planes b.w (n / colsPerMacro b.w) (n % colsPerMacro b.w)))).sum| ≤ 256 * 2 ^ 15 := by
    refine (abs_sum_le (B := 2 ^ 15) fun y hy => ?_).trans_eq (by simp)
    obtain ⟨j, -, rfl⟩ := List.mem_map.1 hy
    exact abs_signedWeight_le (abs_weightAt_le _ hw _ _ _)
  rw [sum_range_groups _ 16] at hbound ⊢
  unfold BeatIn.elem
  rw [h0, hsub, hn, terms_digital hact (getD_eq_zero_of_all hsplit _) fun g hg => hscale _ g hm hg]
  exact accumulate_integers _ _ _ (by rw [Int.abs_eq_natAbs] at hbound; omega)

end Sys2Proof.Machine
end

section
/-! O36: MBEAT (R89, R91, R278, R279). -/

namespace Sys2Proof.Machine

/-! The tiles that a beat names (R90, R265). -/

theorem tilesNamed_spec {w : ℕ} {acc : BitVec 2} {ts : List ℕ} (h : tilesNamed w acc = some ts) : ts.Nodup ∧ ∀ t ∈ ts, t < 4 := by
  have hacc := acc.isLt
  unfold tilesNamed at h
  split at h
  · cases h
    simpa using hacc
  · split at h
    · split at h
      next hev =>
        cases h
        simp
        omega
      · cases h
    · split at h
      · cases h
        decide
      · cases h

/-- Change the data of tiles, one after the other (R278). -/
def MatCtx.onTiles (m : MatCtx) (ts : List ℕ) (F : ℕ → TileData → TileData) : MatCtx :=
  ts.foldl (fun m t => m.updTile t fun x => { x with data := F t x.data }) m

theorem onTiles_eq (m : MatCtx) (ts : List ℕ) (F : ℕ → TileData → TileData) : m.onTiles ts F = { m with tiles := (m.onTiles ts F).tiles } := by
  unfold MatCtx.onTiles
  induction ts generalizing m with
  | nil => rfl
  | cons t ts ih =>
    rw [List.foldl_cons, ih]
    rfl

theorem updTile_tiles {m : MatCtx} {t k : ℕ} (ht : t < 4) (hk : k < 4) (f : Tile → Tile) :
    (m.updTile t f).tiles[k] = if t = k then f m.tiles[k] else m.tiles[k] := by
  simp only [MatCtx.updTile, MatCtx.tile, Vector.getElem_set, Nat.mod_eq_of_lt ht]
  split
  next h => subst h; rfl
  · rfl

theorem onTiles_tiles {ts : List ℕ} (hnd : ts.Nodup) (hts : ∀ t ∈ ts, t < 4) (m : MatCtx) (F : ℕ → TileData → TileData) {k : ℕ} (hk : k < 4) :
    (m.onTiles ts F).tiles[k] = if k ∈ ts then { m.tiles[k] with data := F k m.tiles[k].data } else m.tiles[k] := by
  unfold MatCtx.onTiles
  induction ts generalizing m with
  | nil => rfl
  | cons t ts ih =>
    obtain ⟨ht, hts'⟩ := List.forall_mem_cons.1 hts
    obtain ⟨hnot, hnd'⟩ := List.nodup_cons.1 hnd
    rw [List.foldl_cons, ih hnd' hts', updTile_tiles ht hk]
    by_cases htk : t = k
    · subst htk
      simp [hnot]
    · simp [htk, Ne.symm htk]

/-! One beat (R89, R278, R279). -/

/-- What the beat of an MBEAT makes of tile `t` (R89, R91). -/
def State.beatOn (s : State) (o : MForm) (t : ℕ) (d : TileData) : TileData :=
  let b := s.beatIn o
  if s.core.mat.feeder.lrow.finite then (b.tile d (tileBase b.w t) ((List.range 4).filter fun m => tileOfMacro b.w o.acc m == t)).1
  else nanTile b.w b.r d

theorem beatOn_finite {s : State} (h : s.core.mat.feeder.lrow.finite = true) (o : MForm) (t : ℕ) (d : TileData) : s.beatOn o t d =
    ((s.beatIn o).tile d (tileBase (s.beatIn o).w t) ((List.range 4).filter fun m => tileOfMacro (s.beatIn o).w o.acc m == t)).1 := if_pos h

theorem beatOn_nonfinite {s : State} (h : s.core.mat.feeder.lrow.finite = false) (o : MForm) :
    s.beatOn o = fun _ => nanTile (s.beatIn o).w (s.beatIn o).r := funext fun _ => funext fun _ => if_neg (Bool.eq_false_iff.1 h)

/-- The beat `b` of an MBEAT joins those in flight: its cycles, tiles, bank, and IV of a non-finite row that has not set it (R89, R279). -/
structure InFlight (c : Core) (ts : List ℕ) (b : Beat) : Prop where
  left  : b.left = 8
  tiles : b.tiles = tileMask ts
  bank  : b.bank = c.live
  iv    : c.mat.feeder.lrow.finite = false → b.flags.getLsbD 0 = !c.mat.feeder.lrow.marked

/-- A matrix context after a beat `b` on tiles that are then `tiles` (R89, R278, R279). -/
def MatCtx.afterBeat (m : MatCtx) (tiles : Vector Tile 4) (b : Beat) : MatCtx :=
  let fd := m.feeder
  { m with
    tiles := tiles
    beats := m.beats ++ [b]
    feeder := { fd with lrow := { fd.lrow with marked := fd.lrow.marked || !fd.lrow.finite } } }

/-- What the beat of a finite row on one tile adds to the tiles, CLIPMASK bits and flags of those before (R278). -/
def State.beatStep (s : State) (o : MForm) (x : MatCtx × List (ℕ × Word) × Flags) (t : ℕ) : MatCtx × List (ℕ × Word) × Flags :=
  let b := s.beatIn o
  let y := b.tile (x.1.tile t).data (tileBase b.w t) ((List.range 4).filter fun m => tileOfMacro b.w o.acc m == t)
  (x.1.updTile t fun d => { d with data := y.1 }, x.2.1 ++ [(t, y.2.1)], x.2.2 ||| y.2.2)

theorem foldl_beatStep {s : State} (hfin : s.core.mat.feeder.lrow.finite = true) (o : MForm) (ts : List ℕ) (x : MatCtx × List (ℕ × Word) × Flags) :
    (ts.foldl (s.beatStep o) x).1 = x.1.onTiles ts (s.beatOn o) := by
  unfold MatCtx.onTiles
  induction ts generalizing x with
  | nil => rfl
  | cons t ts ih =>
    have hstep : (s.beatStep o x t).1 = x.1.updTile t fun d => { d with data := s.beatOn o t d.data } := by
      simp only [State.beatStep, MatCtx.updTile, beatOn_finite hfin]
    rw [List.foldl_cons, List.foldl_cons, ih, hstep]

/-- Tiles, CLIPMASK bits and flags of the beat of an MBEAT (R89, R278). -/
def State.beatMade (s : State) (o : MForm) (ts : List ℕ) : MatCtx × List (ℕ × Word) × Flags :=
  let row := s.core.mat.feeder.lrow
  if row.finite then ts.foldl (s.beatStep o) (s.core.mat, [], 0)
  else (s.core.mat.onTiles ts fun _ => nanTile (s.beatIn o).w (s.beatIn o).r, [], flagIf (!row.marked) fIV)

theorem beatMade_finite {s : State} (h : s.core.mat.feeder.lrow.finite = true) (o : MForm) (ts : List ℕ) :
    s.beatMade o ts = ts.foldl (s.beatStep o) (s.core.mat, [], 0) := if_pos h

theorem beatMade_nonfinite {s : State} (h : s.core.mat.feeder.lrow.finite = false) (o : MForm) (ts : List ℕ) :
    s.beatMade o ts = (s.core.mat.onTiles ts (s.beatOn o), [], flagIf (!s.core.mat.feeder.lrow.marked) fIV) :=
  (if_neg (Bool.eq_false_iff.1 h)).trans (by rw [beatOn_nonfinite h])

theorem beatMade_fst (s : State) (o : MForm) (ts : List ℕ) : (s.beatMade o ts).1 = s.core.mat.onTiles ts (s.beatOn o) := by
  cases hfin : s.core.mat.feeder.lrow.finite
  · rw [beatMade_nonfinite hfin]
  · rw [beatMade_finite hfin, foldl_beatStep hfin]

/-- The beat of an MBEAT that joins those in flight (R279). -/
def State.beatFlying (s : State) (o : MForm) (ts : List ℕ) (splt : Bool) : Beat :=
  ⟨8, tileMask ts, s.core.live, (s.beatMade o ts).2.1, (s.beatMade o ts).2.2 ||| flagIf splt fSPLT⟩

theorem beatFlying_inFlight (s : State) (o : MForm) (ts : List ℕ) (splt : Bool) : InFlight s.core ts (s.beatFlying o ts splt) := by
  have hiv (x y : Bool) : (flagIf x fIV ||| flagIf y fSPLT).getLsbD 0 = x := by revert x y; decide
  refine ⟨rfl, rfl, rfl, fun hfin => ?_⟩
  simp only [State.beatFlying, beatMade_nonfinite hfin, hiv]

theorem beat_made (s : State) (o : MForm) (ts : List ℕ) : ∃ splt f, s.beat o ts =
    { s with free := f, core := ({ s.core with mat := { (s.beatMade o ts).1 with
      beats := s.core.mat.beats ++ [s.beatFlying o ts splt]
      feeder := { (s.beatMade o ts).1.feeder with
        lrow := { s.core.mat.feeder.lrow with marked := s.core.mat.feeder.lrow.marked || !s.core.mat.feeder.lrow.finite } } } }).noteTiles (tileMask ts) 0 false } :=
  ⟨_, _, rfl⟩

theorem beat_eq (s : State) (o : MForm) (ts : List ℕ) : ∃ b f, InFlight s.core ts b ∧ s.beat o ts =
    { s with free := f, core := ({ s.core with mat := s.core.mat.afterBeat (s.core.mat.onTiles ts (s.beatOn o)).tiles b }).noteTiles (tileMask ts) 0 false } := by
  obtain ⟨splt, f, hbeat⟩ := beat_made s o ts
  refine ⟨_, f, beatFlying_inFlight s o ts splt, hbeat.trans ?_⟩
  rw [beatMade_fst, onTiles_eq]
  rfl

end Sys2Proof.Machine
end

section
/-! O36: an MBEAT that issues, and the rows it changes (R278, R279). -/

namespace Sys2Proof.Machine

theorem mOp_legal {s : State} (hr : matrixReady s) {i : Instr} (hi : isPrivileged i = false) {legal : Bool} (hl : legal = true) (f : State → State) :
    s.mOp i legal f = .next (f s) := hl ▸ mOp_ready hr hi f

/-- An issuing beat leaves of the power controller's counts all but that of the digital beats (R353). -/
theorem beatPace_digital {s : State} {digital : Bool} (h : s.beatPace digital ≠ none) : ∃ d, s.beatPace digital = some { s.core with digital := d } := by
  have hpace : ∃ held : Bool, s.beatPace digital = if held then none else some (if digital then s.core.countDigital else s.core) := ⟨_, rfl⟩
  obtain ⟨held, hpace⟩ := hpace
  rw [hpace] at h ⊢
  cases held
  · cases digital
    · exact ⟨s.core.digital, rfl⟩
    · exact ⟨_, rfl⟩
  · exact absurd rfl h

theorem takeParity_unarmed {c : Core} (h : c.parityArmed = false) : c.takeParity = c := if_neg (Bool.eq_false_iff.1 h)

theorem parityArmed_eq_false {c : Core} (h : ∀ k, k < 4 → (c.array c.bankNo k).parity = false) : c.parityArmed = false :=
  List.any_eq_false.2 fun k hk => Bool.eq_false_iff.1 (h k (List.mem_range.1 hk))

/-- The plane that a beat leaves for the next one: the one after it with .s (R278). -/
def MatCtx.stepPlane (m : MatCtx) (step : Bool) : MatCtx := { m with feeder := { m.feeder with pp := m.feeder.pp + if step then 1 else 0 } }

theorem beatNext_none (c : Core) (o : MForm) : ∃ g, (g = none ↔ c.seg = none) ∧
    c.beatNext o none = { c with mat := c.mat.stepPlane (o.flags.getLsbD 0), seg := g } := by
  unfold Core.beatNext MForm.fS MatCtx.stepPlane
  cases o.flags.getLsbD 0
  · refine ⟨c.seg, Iff.rfl, ?_⟩
    simp
  · exact ⟨_, Option.map_eq_none_iff, rfl⟩

/-- Without an armed parity error a beat is applied, and nothing is consumed (R297). -/
theorem beat_unarmed {s : State} (h : s.core.parityArmed = false) (o : MForm) (ts : List ℕ) :
    (if s.core.parityArmed && s.core.seg.isNone then s else s.beat o ts).upd (fun c => (c.beatNext o none).takeParity) =
      (s.beat o ts).upd fun c => c.beatNext o none := by
  obtain ⟨b, f, -, hbeat⟩ := beat_eq s o ts
  obtain ⟨g, -, hnext⟩ := beatNext_none (s.beat o ts).core o
  have harmed : ((s.beat o ts).core.beatNext o none).parityArmed = false := by
    rw [hnext, hbeat]
    exact h
  rw [h, Bool.false_and, State.upd, State.upd, if_neg Bool.false_ne_true, takeParity_unarmed harmed]

/-- An MBEAT without .ep and .last that may issue applies its beat (R265, R278, R353). -/
theorem execMbeat_issues {s : State} {o : MForm} {ts : List ℕ} (hr : matrixReady s) (hi : beatMayIssue s o ts) :
    ∃ d, exec (.mbeat o) s = .next (({ s with core := { s.core with digital := d } }.beat o ts).upd fun c => c.beatNext o none) := by
  obtain ⟨hts, hfmt, hbusy, hpace, hep, hlast, hparity⟩ := hi
  obtain ⟨d, hd⟩ := beatPace_digital hpace
  refine ⟨d, ?_⟩
  show execMbeat o s = _
  unfold execMbeat
  refine (mOp_legal hr rfl ?_ _).trans (congrArg Host.Outcome.next ?_)
  · rw [hts]
    cases hf : (s.core.bank s.core.bankNo).fmt with
    | none => rfl
    | some f => simpa using hfmt f hf
  · dsimp only
    rw [hbusy, hd, hts, MForm.fLast, MForm.fEp, hlast, hep]
    exact beat_unarmed (s := { s with core := { s.core with digital := d } }) (parityArmed_eq_false hparity) o ts

theorem execMbeat_eq {s : State} {o : MForm} {ts : List ℕ} (hr : matrixReady s) (hi : beatMayIssue s o ts) :
    ∃ b g d f, InFlight s.core ts b ∧ (g = none ↔ s.core.seg = none) ∧ exec (.mbeat o) s = .next { s with free := f, core := { s.core with
      mat := (s.core.mat.afterBeat (s.core.mat.onTiles ts (s.beatOn o)).tiles b).stepPlane (o.flags.getLsbD 0), seg := g, digital := d } } := by
  obtain ⟨d, hexec⟩ := execMbeat_issues hr hi
  obtain ⟨b, f, hb, hbeat⟩ := beat_eq { s with core := { s.core with digital := d } } o ts
  obtain ⟨g, hg, hnext⟩ := beatNext_none ({ s with core := { s.core with digital := d } } |>.beat o ts).core o
  refine ⟨b, g, d, f, ⟨hb.left, hb.tiles, hb.bank, hb.iv⟩, ?_, hexec.trans (congrArg Host.Outcome.next ?_)⟩
  · rw [hg, hbeat]
    exact Option.map_eq_none_iff
  · rw [State.upd, hnext, hbeat]
    rfl

/-! The rows that a beat changes (R89, R91, R278). -/

theorem beatOn_rowOnly (s : State) (o : MForm) (t : ℕ) (d : TileData) : RowOnly (s.beatIn o).r (beatCols s.core.weightWidth) d (s.beatOn o t d) := by
  cases hfin : s.core.mat.feeder.lrow.finite
  · rw [beatOn_nonfinite hfin]
    exact nanTile_rowOnly _ _ _
  · rw [beatOn_finite hfin]
    exact tile_rowOnly _ _ _ _

theorem beatOn_nan {s : State} {o : MForm} (hfin : s.core.mat.feeder.lrow.finite = false) {k x : ℕ} (hj : 256 * (s.beatIn o).r + x < 4096)
    (hx : x < beatCols s.core.weightWidth) (d : TileData) :
    (s.beatOn o k d).elems[256 * (s.beatIn o).r + x] = 0x7FC00000 ∧ (s.beatOn o k d).sides[256 * (s.beatIn o).r + x] = 0x7F800000 := by
  simp only [beatOn_nonfinite hfin]
  exact nanTile_row hj hx d

theorem tileAt_of_lt {v : Vector Lane 4096} {r x : ℕ} (h : 256 * r + x < 4096) : tileAt v r x = v[256 * r + x] := dif_pos h

/-- A finite row of digital macros whose scales are 0 makes of an element +0 the exact sum over the active rows (R91). -/
theorem beatOn_digital {s : State} {o : MForm} (hfin : s.core.mat.feeder.lrow.finite = true) (hsplit : (s.beatIn o).split.all (fun n => n == 0) = true)
    (hsub : s.core.fmt.cur.getLsbD 28 = false) (hscale : ∀ q g, q < 4 → g < 16 → (s.beatIn o).scale q g = 0) {k x : ℕ} (hk : k < 4)
    (hx : x < beatCols s.core.weightWidth) (hj : 256 * (s.beatIn o).r + x < 4096) {d : TileData} (h0 : d.elems[256 * (s.beatIn o).r + x] = 0) :
    rationalOf (f32Val (s.beatOn o k d).elems[256 * (s.beatIn o).r + x]) = some (planeSum s o (tileBase s.core.weightWidth k + x) : ℚ) := by
  rw [← tileAt_of_lt hj] at h0
  simp only [beatOn_finite hfin]
  rw [tile_row _ _ _ _ hj hx, elem_digital (sgn := o.flags.getLsbD 3) rfl (widthOf_mem _) hsub hsplit hscale d hk hx h0]
  rfl

/-- Settles O36: the beat by the tiles, the row and the sum of the columns that it changes, the landings by one beat or drain after the other. -/
theorem matrixBeatsAccumulateAndLand : Obligations.MatrixBeatsAccumulateAndLand := by
  refine ⟨fun s o ts hr hi => ?_, fun s => ⟨execBeatLand_lands s, execDrainEnterQueue_enters s⟩⟩
  obtain ⟨hnd, hlt⟩ := tilesNamed_spec hi.1
  obtain ⟨b, g, d, f, ⟨hleft, hmask, hbank, hiv⟩, hg, hexec⟩ := execMbeat_eq hr hi
  have htile (k : ℕ) (hk : k < 4) := onTiles_tiles hnd hlt s.core.mat (s.beatOn o) hk
  have hin (k : ℕ) (hk : k < 4) (hkts : k ∈ ts) := (htile k hk).trans (if_pos hkts)
  have hout (k : ℕ) (hk : k < 4) (hkts : k ∉ ts) := (htile k hk).trans (if_neg hkts)
  refine ⟨_, g, d, f, b, _, hg, hexec, rfl, hleft, hbank, fun k hk => ?tiles, rfl, rfl, rfl, rfl, rfl, rfl, hout, fun k hk => ?frame,
    fun hfin => ⟨?mark, hiv hfin, fun k hk hkts x hx hj => ?nan⟩, fun hfin hsplit hsub hscale k hk hkts x hx hj h0 => ?sum⟩
  case tiles => rw [hmask, getLsbD_tileMask hk, decide_eq_true_eq]
  case frame =>
    simp only [MatCtx.stepPlane, MatCtx.afterBeat]
    by_cases hkts : k ∈ ts
    · simp only [hin k hk hkts]
      exact ⟨trivial, trivial, beatOn_rowOnly s o k _⟩
    · simp only [hout k hk hkts, implies_true, and_self]
  case mark => rw [hfin, Bool.not_false, Bool.or_true]
  case nan =>
    simp only [MatCtx.stepPlane, MatCtx.afterBeat, hin k hk hkts]
    exact beatOn_nan hfin hj hx _
  case sum =>
    simp only [MatCtx.stepPlane, MatCtx.afterBeat, hin k hk hkts]
    exact beatOn_digital hfin hsplit hsub hscale hk hx hj h0

end Sys2Proof.Machine
end

section
/-! Bytes of a number, and bytes that a write has put into memory, read back (R3, R6). -/

namespace Sys2Proof.Machine

/-- A number written as bytes reads back modulo their range. -/
theorem leNat_bytesOfNat (n x : ℕ) : leNat (bytesOfNat n x) = x % 256 ^ n := by
  induction n generalizing x with
  | zero => exact (Nat.mod_one x).symm
  | succ n ih =>
    have hstep : leNat (bytesOfNat (n + 1) x) = x % 256 + 256 * leNat (bytesOfNat n (x / 256)) :=
      congrArg (· + 256 * leNat (bytesOfNat n (x / 256))) (BitVec.toNat_ofNat x 8)
    rw [hstep, ih, Nat.pow_succ', Nat.mod_mul]

theorem bytesOfNat_length (n x : ℕ) : (bytesOfNat n x).length = n := by
  induction n generalizing x with
  | zero => rfl
  | succ n ih => exact congrArg (· + 1) (ih _)

/-- Bytes that have been written read back as they are. -/
theorem memRead_memWrite {m : Mem} (h : memWf m = true) (x : ℕ) (bs : List Byte) : memRead (memWrite m x bs) x bs.length = bs := by
  induction bs generalizing m x with
  | nil => rfl
  | cons b bs ih =>
    have hb : memGet (memWrite m x (b :: bs)) x = b :=
      (memGet_memWrite_above (memWf_memSet h x b) (x + 1) bs (Nat.lt_succ_self x)).trans (memGet_memSet_same h x b)
    exact congrArg₂ List.cons hb (ih (memWf_memSet h x b) (x + 1))

/-- A quadword that has been written reads back modulo 2^64. -/
theorem memRead64_memWrite {m : Mem} (h : memWf m = true) (x v : ℕ) : memRead64 (memWrite m x (bytesOfNat 8 v)) x = v % 2 ^ 64 := by
  have hread := memRead_memWrite h x (bytesOfNat 8 v)
  rw [bytesOfNat_length] at hread
  rw [memRead64, hread, leNat_bytesOfNat]
  norm_num only

/-- Two writes one after the other are the write of all their bytes. -/
theorem memWrite_append (m : Mem) (x : ℕ) (bs cs : List Byte) : memWrite m x (bs ++ cs) = memWrite (memWrite m x bs) (x + bs.length) cs := by
  induction bs generalizing m x with
  | nil => rfl
  | cons b bs ih => exact (ih ..).trans (by rw [List.length_cons, memWrite, Nat.add_right_comm, Nat.add_assoc])

end Sys2Proof.Machine
end

section
/-! What neither a store, nor a walk, nor a log entry changes of the device: the pins of pages and lines; and what an access through the
translation caches leaves of the unit (R312, R414, R416, R418, R420, R437). -/

namespace Sys2Proof.Machine

/-- The pins of pages, and of the lines of each dome. -/
structure Fixtures where
  pins     : List (BitVec 12 × ℕ × ℕ × ℕ)
  linePins : Vector (List (BitVec 12 × ℕ)) 4

def Device.fixtures (v : Device) : Fixtures := { pins := v.pins, linePins := v.domes.map Dome.linePins }

/-- An element that an update keeps in the eyes of `f` keeps the whole vector there. -/
theorem map_set_same {α β : Type} {n i : ℕ} {f : α → β} (xs : Vector α n) (h : i < n) {x : α} (hx : f x = f xs[i]) :
    (xs.set i x h).map f = xs.map f := by
  refine Vector.ext fun j hj => ?_
  rw [Vector.getElem_map, Vector.getElem_map, Vector.getElem_set]
  split
  next he => subst he; exact hx
  next => rfl

theorem fixtures_foldl {α : Type} {f : Device → α → Device} (h : ∀ v x, (f v x).fixtures = v.fixtures) (xs : List α) (v : Device) :
    (xs.foldl f v).fixtures = v.fixtures := by
  induction xs generalizing v with
  | nil => rfl
  | cons x xs ih => exact (ih _).trans (h v x)

theorem fixtures_ite {c : Prop} [Decidable c] {v u w : Device} (h : v.fixtures = w.fixtures) (k : u.fixtures = w.fixtures) :
    (if c then v else u).fixtures = w.fixtures := by
  split <;> assumption

theorem updDome_fixtures (v : Device) (d : ℕ) {f : Dome → Dome} (hf : (f (v.dome d)).linePins = (v.dome d).linePins) :
    (v.updDome d f).fixtures = v.fixtures := by
  have h := map_set_same v.domes (Nat.mod_lt d (by decide)) hf
  simp only [Device.fixtures, Device.updDome, h]

def Dome.unlogged (x : Dome) : Dome := { x with log := [], logSeq := 0 }

def Partition.unlogged (q : Partition) : Partition := { q with worst := 0 }

def Port.unlogged (p : Port) : Port := { p with msix := 0 }

/-- The device without its logs, and without what a log entry raises: interrupts of ports and the worst grades of partitions. -/
def Device.unlogged (v : Device) : Device :=
  { v with graded := [], domes := v.domes.map Dome.unlogged, parts := v.parts.map Partition.unlogged, ports := v.ports.map Port.unlogged }

theorem fixtures_unlogged (v : Device) : v.unlogged.fixtures = v.fixtures := by
  simp only [Device.fixtures, Device.unlogged, Vector.map_map]
  rfl

theorem msix_unlogged (v : Device) (port k : ℕ) : (v.msix port k).unlogged = v.unlogged := by
  have h := map_set_same (f := Port.unlogged) v.ports (Nat.mod_lt port (by decide : 0 < 2))
    (x := { v.ports[port % 2]'(Nat.mod_lt port (by decide)) with
      msix := (v.ports[port % 2]'(Nat.mod_lt port (by decide))).msix ||| BitVec.ofNat 64 (2 ^ k) }) rfl
  simp only [Device.unlogged, Device.msix, h]

/-- A log entry changes the logs and what it raises (R437, R449). -/
theorem log_unlogged (v : Device) (d code grade unit index : ℕ) (p0 p1 : Word) (ctx part : ℕ) :
    (v.log d code grade unit index p0 p1 ctx part).unlogged = v.unlogged := by
  unfold Device.log
  extract_lets v1 v2 e v3
  have h1 : v1.unlogged = v.unlogged := by
    have h := map_set_same (f := Partition.unlogged) v.parts (Nat.mod_lt part (by decide : 0 < 8))
      (x := { v.part part with worst := Nat.max (v.part part).worst grade }) rfl
    simp only [v1]
    split
    · simp only [Device.unlogged, Device.updPart, h]
    · rfl
  have h2 : v2.unlogged = v1.unlogged := by
    simp only [v2]
    split <;> try split
    · exact msix_unlogged ..
    · exact (msix_unlogged ..).trans (msix_unlogged ..)
    · rfl
  have h3 : v3.unlogged = v2.unlogged := by
    have h (l : List LogEntry) (n : ℕ) := map_set_same (f := Dome.unlogged) v2.domes (Nat.mod_lt d (by decide : 0 < 4))
      (x := { v2.dome d with log := l, logSeq := n }) rfl
    simp only [v3, Device.unlogged, Device.updDome, h]
  exact h3.trans (h2.trans h1)

theorem log_fixtures (v : Device) (d code grade unit index : ℕ) (p0 p1 : Word) (ctx part : ℕ) :
    (v.log d code grade unit index p0 p1 ctx part).fixtures = v.fixtures :=
  (fixtures_unlogged _).symm.trans ((congrArg Device.fixtures (log_unlogged ..)).trans (fixtures_unlogged v))

theorem markPoison_fixtures (v : Device) (pl : Place) (x n : ℕ) : (v.markPoison pl x n).fixtures = v.fixtures := by
  unfold Device.markPoison
  exact fixtures_ite rfl rfl

theorem logE2e_fixtures (v : Device) (unit index pa p : ℕ) : (v.logE2e unit index pa p).fixtures = v.fixtures := by
  unfold Device.logE2e
  exact log_fixtures ..

theorem madeAt_fixtures (v : Device) (p pa n : ℕ) : (v.madeAt p pa n).fixtures = v.fixtures := by
  unfold Device.madeAt
  refine fixtures_foldl (fun v a => ?_) _ v
  dsimp only
  exact fixtures_ite rfl ((markPoison_fixtures ..).trans (logE2e_fixtures { v with checks := v.checks.filter fun x => x.1 != a } ..))

theorem publishAs_fixtures (v : Device) (p : Party) (scope pa : ℕ) (bs : List Byte) : (v.publishAs p scope pa bs).fixtures = v.fixtures := by
  have h : Device.fixtures (if scope < 3 then v else v.madeAt (v.partyPart p) pa bs.length) = v.fixtures := fixtures_ite rfl (madeAt_fixtures ..)
  exact h

theorem orEntry_fixtures (v : Device) (pa bits : ℕ) : (v.orEntry pa bits).fixtures = v.fixtures := by
  unfold Device.orEntry
  exact fixtures_ite rfl (publishAs_fixtures ..)

theorem logWalk_fixtures (v : Device) (d unit index p : ℕ) (ctx : BitVec 12) (va : Addr) :
    (v.logWalk d unit index p ctx va).fixtures = v.fixtures := by
  unfold Device.logWalk
  split
  · exact fixtures_ite (log_fixtures ..) rfl
  · rfl

/-! An access of the unit in focus. -/

/-- An access has gone through the translation caches: of the unit they alone have changed, and of the device no fixture. -/
structure Accessed (s t : State) : Prop where
  rest : ∃ tlb, t = { s with core := { s.core with tlb := tlb }, dev := t.dev }
  dev  : t.dev.fixtures = s.dev.fixtures

theorem Accessed.refl (s : State) : Accessed s s := ⟨⟨_, rfl⟩, rfl⟩

theorem Accessed.trans {s t u : State} (h : Accessed s t) (k : Accessed t u) : Accessed s u := by
  obtain ⟨⟨_, ht⟩, hd⟩ := h
  obtain ⟨⟨b, hu⟩, kd⟩ := k
  refine ⟨⟨b, ?_⟩, kd.trans hd⟩
  rw [hu, ht]

theorem Accessed.foldl {α : Type} {f : State → α → State} (h : ∀ s x, Accessed s (f s x)) (xs : List α) (s : State) : Accessed s (xs.foldl f s) := by
  induction xs generalizing s with
  | nil => exact .refl s
  | cons x xs ih => exact (h s x).trans (ih _)

theorem Accessed.ite {c : Prop} [Decidable c] {s t u : State} (h : Accessed s t) (k : Accessed s u) : Accessed s (if c then t else u) := by
  split <;> assumption

/-- A change of the device alone that keeps the fixtures. -/
theorem updDev_accessed (s : State) {f : Device → Device} (h : (f s.dev).fixtures = s.dev.fixtures) : Accessed s (s.updDev f) := ⟨⟨_, rfl⟩, h⟩

theorem cacheLeaf_accessed (s : State) (c : Cached) (ns : List CachedNode) : Accessed s (s.cacheLeaf c ns) := by
  unfold State.cacheLeaf
  exact .ite ⟨⟨_, rfl⟩, rfl⟩ ⟨⟨_, rfl⟩, rfl⟩

theorem uncache_accessed (s : State) (ctx : BitVec 12) (va : Addr) : Accessed s (s.uncache ctx va) := by
  unfold State.uncache
  exact .ite ⟨⟨_, rfl⟩, rfl⟩ ⟨⟨_, rfl⟩, rfl⟩

theorem fill_accessed (s : State) (ctx : BitVec 12) (va : Addr) (k : Kind) : Accessed s (s.fill ctx va k) := by
  have walked (t : State) (a b : ℕ) : Accessed t (t.updDev fun v => { v.orEntry a b with walks := v.walks + 1 }) :=
    updDev_accessed t (orEntry_fixtures t.dev a b)
  unfold State.fill
  dsimp only
  split <;> split
  · exact .refl s
  · exact uncache_accessed ..
  · exact (walked ..).trans (cacheLeaf_accessed ..)
  · exact (uncache_accessed s ctx va).trans ((walked ..).trans (cacheLeaf_accessed ..))

theorem touchPage_accessed (s : State) (ctx : BitVec 12) (va : Addr) (k : Kind) : Accessed s (s.touchPage ctx va k) := by
  unfold State.touchPage
  split
  · exact fill_accessed ..
  · exact .ite ((uncache_accessed ..).trans (fill_accessed ..)) (.ite (.refl s) ⟨⟨_, rfl⟩, rfl⟩)

theorem touch_accessed (s : State) (as : ℕ) (x : Int) (n : ℕ) (k : Kind) : Accessed s (s.touch as x n k) := by
  unfold State.touch
  exact .ite (.ite ((touchPage_accessed ..).trans (touchPage_accessed ..)) (touchPage_accessed ..)) (.refl s)

theorem failWalk_accessed (s : State) (as : ℕ) (x : Int) (code : ℕ) : Accessed s (s.failWalk as x code) := by
  unfold State.failWalk
  exact .ite (.refl s) (.ite ((uncache_accessed ..).trans (updDev_accessed _ (logWalk_fixtures ..)))
    (.ite ((uncache_accessed ..).trans (fill_accessed ..)) (.refl s)))

end Sys2Proof.Machine
end

section
/-! What a completed walk leaves: the leaf in the unit's cache, and the accessed bit in its entry (R414, R418, R420). -/

namespace Sys2Proof.Machine

/-- What answers a walk is in memory and in the number of walks. -/
theorem answerAt_congr {v u : Device} (hm : u.mem = v.mem) (hw : u.walks = v.walks) (p : List (ℕ × ℕ × ℕ)) (va : Addr) :
    u.answerAt p va = v.answerAt p va := by
  simp only [Device.answerAt, hm, hw]

theorem answerAt_of_answer {v : Device} {p : List (ℕ × ℕ × ℕ)} {va : Addr} {x : ℕ × ℕ} (h : v.answer p va = .ok x) :
    ∃ at_, v.answerAt p va = .ok (x.1, x.2, at_) := by
  unfold Device.answer at h
  split at h
  next he => cases h; exact ⟨_, he⟩
  next => cases h

theorem answer_of_judge {keys : List Byte} {k : Kind} {r : Except (ℕ × ℕ) (ℕ × ℕ)} {x : ℕ × ℕ} (h : judge keys k r = .ok x) : ∃ y, r = .ok y := by
  cases r with
  | error e => cases h
  | ok y => exact ⟨y, rfl⟩

theorem uncache_mem (s : State) (ctx : BitVec 12) (va : Addr) : (s.uncache ctx va).dev.mem = s.dev.mem ∧ (s.uncache ctx va).dev.walks = s.dev.walks := by
  unfold State.uncache
  dsimp only
  split <;> exact ⟨rfl, rfl⟩

theorem cacheLeaf_mem (s : State) (c : Cached) (ns : List CachedNode) : (s.cacheLeaf c ns).dev.mem = s.dev.mem := by
  unfold State.cacheLeaf
  dsimp only
  split <;> rfl

theorem mem_cacheLeaf (s : State) (c : Cached) (ns : List CachedNode) : c ∈ (s.cacheLeaf c ns).core.tlb := by
  unfold State.cacheLeaf
  dsimp only
  split <;> exact List.mem_cons_self

theorem pathFrom_nil (v : Device) (ctx : BitVec 12) (va : Addr) : v.pathFrom [] ctx va = v.path ctx va := rfl

/-- A fill of an address that has a leaf is a walk that sets bits of the entry that answers it and caches that leaf: from the cached
non-leaf entries, or from the root once these are dropped. -/
theorem fill_walks {s : State} {ctx : BitVec 12} {va : Addr} {leaf : ℕ × ℕ} (h : s.dev.walk ctx va = .ok leaf) (k : Kind) :
    ∃ (t : State) (p : List (ℕ × ℕ × ℕ)) (lvl e at_ low : ℕ) (ns : List CachedNode),
      s.fill ctx va k = (t.updDev fun v => { v.orEntry at_ (if k.writes then 0x1800 else 0x800) with walks := v.walks + 1 }).cacheLeaf
        { ctx := ctx, page := va.toNat / 2 ^ levelShift lvl, lvl := lvl, low := low } ns ∧
      t.dev.mem = s.dev.mem ∧ s.dev.answerAt p va = .ok (lvl, e, at_) ∧ (s.nodes = [] → p = s.dev.path ctx va) := by
  unfold State.fill
  cases hj : judge s.dev.keys k (s.dev.answer (s.dev.pathFrom s.nodes ctx va) va) with
  | ok x =>
    obtain ⟨y, hy⟩ := answer_of_judge hj
    obtain ⟨at_, ha⟩ := answerAt_of_answer hy
    exact ⟨s, _, y.1, y.2, at_, _, _, by simp only [hj, ha]; rfl, rfl, ha, fun hn => hn ▸ pathFrom_nil ..⟩
  | error c =>
    obtain ⟨hm, hw⟩ := uncache_mem s ctx va
    obtain ⟨at_, ha⟩ := answerAt_of_answer h
    exact ⟨s.uncache ctx va, _, leaf.1, leaf.2, at_, _, _, by simp only [hj, answerAt_congr hm hw, ha]; rfl, hm, ha, fun _ => rfl⟩

theorem fill_caches {s : State} {ctx : BitVec 12} {va : Addr} {leaf : ℕ × ℕ} (h : s.dev.walk ctx va = .ok leaf) (k : Kind) :
    ∃ c ∈ (s.fill ctx va k).core.tlb, c.hits ctx va = true := by
  obtain ⟨t, p, lvl, e, at_, low, ns, hfill, _⟩ := fill_walks h k
  rw [hfill]
  exact ⟨_, mem_cacheLeaf .., by simp [Cached.hits]⟩

/-- Bits that are set in an entry stand there (R136, R418). -/
theorem memRead64_orEntry {v : Device} (h : memWf v.mem = true) (pa : ℕ) {bits k : ℕ} (hk : k < 64) (hb : bits.testBit k = true) :
    (memRead64 (v.orEntry pa bits).mem pa).testBit k = true := by
  have hset (x : ℕ) : (x ||| bits).testBit k = true := by rw [Nat.testBit_or, hb, Bool.or_true]
  unfold Device.orEntry
  dsimp only
  split
  next he =>
    rw [← he]
    exact hset _
  next =>
    have hmem : (v.publish pa (bytesOfNat 8 (v.pointRead64 pa ||| bits))).mem = memWrite v.mem pa (bytesOfNat 8 (v.pointRead64 pa ||| bits)) :=
      congrArg (fun m => memWrite m pa _) (madeAt_mem ..).mem
    rw [hmem, memRead64_memWrite h, Nat.testBit_mod_two_pow, hset, Bool.and_true, decide_eq_true hk]

/-- A walk from the root sets the accessed bit of the entry that it ends at (R418). -/
theorem fill_accesses {s : State} {ctx : BitVec 12} {va : Addr} {leaf : ℕ × ℕ} (h : s.dev.walk ctx va = .ok leaf) (k : Kind) (hn : s.nodes = [])
    (hm : memWf s.dev.mem = true) {at_ : ℕ} (ha : s.dev.leafEntry ctx va = some at_) : (memRead64 (s.fill ctx va k).dev.mem at_).testBit 11 = true := by
  obtain ⟨t, p, lvl, e, at', low, ns, hfill, htm, hans, hp⟩ := fill_walks h k
  have heq : at' = at_ := by
    rw [Device.leafEntry, ← hp hn, hans] at ha
    exact Option.some.inj ha
  subst heq
  rw [hfill, cacheLeaf_mem]
  exact memRead64_orEntry (htm ▸ hm) at' (by decide) (by split <;> decide)

end Sys2Proof.Machine
end

section
/-! O55: stores that land, walks, forwarding entries, results that are due, and empty bundles (R40, R120, R146, R152, R153, R155, R414). -/

namespace Sys2Proof.Machine

/-! TRANSLATION_WALK (R414, R416). -/

theorem logWalk_error {v : Device} {ctx : BitVec 12} {va : Addr} {lvl w : ℕ} (h : v.walk ctx va = .error (lvl, w)) (d unit index p : ℕ) :
    (v.logWalk d unit index p ctx va).mem = v.mem ∧ (pteV w = false → v.logWalk d unit index p ctx va = v) := by
  simp only [Device.logWalk, h]
  split
  next hv => exact ⟨(log_mem ..).mem, fun hw => absurd (hw.symm.trans hv) (by decide)⟩
  next => exact ⟨rfl, fun _ => rfl⟩

theorem translationWalk_leaf {s : State} {leaf : ℕ × ℕ} (h : s.dev.walk s.ev.walk.ctx s.ev.walk.va = .ok leaf) :
    exec .translationWalk s = .next (s.fill s.ev.walk.ctx s.ev.walk.va .any) := by
  show execTranslationWalk s = _
  simp only [execTranslationWalk, h]

theorem translationWalk_stops {s : State} {lvl w : ℕ} (h : s.dev.walk s.ev.walk.ctx s.ev.walk.va = .error (lvl, w)) :
    ∃ u, exec .translationWalk s = .next u ∧ u.core = s.core ∧ u.dev.mem = s.dev.mem ∧ (pteV w = false → u = s) := by
  have hexec : exec .translationWalk s = .next (s.logWalk s.ev.walk.ctx s.ev.walk.va) := by
    show execTranslationWalk s = _
    simp only [execTranslationWalk, h]
  obtain ⟨hmem, hsame⟩ := logWalk_error h s.focus.dome s.focus.logUnit.1 s.focus.logUnit.2 s.partition
  exact ⟨_, hexec, rfl, hmem, fun hw => congrArg (fun v => { s with dev := v }) (hsame hw)⟩

/-! FORWARD_EXPIRE (R40). -/

theorem forwardExpire_names {s : State} {f : Forward} (h : s.dev.forwards[s.ev.index]? = some f) :
    (f.till ≤ s.dev.time → exec .forwardExpire s = .next { s with dev := { s.dev with forwards := s.dev.forwards.eraseIdx s.ev.index } }) ∧
    (s.dev.time < f.till → exec .forwardExpire s = .next s) := by
  have hexec : exec .forwardExpire s =
      .next (if s.dev.time ≥ f.till then s.updDev fun v => { v with forwards := v.forwards.eraseIdx s.ev.index } else s) := by
    show execForwardExpire s = _
    simp only [execForwardExpire, h]
  exact ⟨fun hle => hexec.trans (congrArg _ (if_pos hle)), fun hlt => hexec.trans (congrArg _ (if_neg (Nat.not_le.mpr hlt)))⟩

/-! FIXED_RESULT_WRITEBACK of the one result in flight (R153, R155, R173). -/

theorem landDue_early {c : Core} (h : ∀ r ∈ c.results, c.tau < r.due) : c.landDue = c := by
  have hdue : c.results.filter (fun r => decide (r.due ≤ c.tau)) = [] :=
    List.filter_eq_nil_iff.mpr fun r hr => by simpa using h r hr
  have hleft : c.results.filter (fun r => !decide (r.due ≤ c.tau)) = c.results :=
    List.filter_eq_self.mpr fun r hr => by simpa using h r hr
  simp only [Core.landDue, hdue, hleft]
  rfl

theorem landDue_one {c : Core} {r : Result} (hc : c.results = [r]) (h : r.due ≤ c.tau) :
    c.landDue = { (c.land r.w).raise r.flags with results := [] } := by
  simp [Core.landDue, hc, h, keptOf]

/-- A write lands beside what a result leaves alone. -/
theorem land_leaves (c : Core) (w : Write) : (c.land w).sticky = c.sticky ∧ (c.land w).pstack = c.pstack ∧ (c.land w).pos = c.pos ∧
    (c.land w).tau = c.tau ∧ (c.land w).mat = c.mat := by
  cases w with
  | s d v t =>
    simp only [Core.land, Core.setS]
    split <;> exact ⟨rfl, rfl, rfl, rfl, rfl⟩
  | _ => exact ⟨rfl, rfl, rfl, rfl, rfl⟩

theorem setS_banks (c : Core) (d : Reg) (v : Word) (t : Option Taint) : (c.setS d v t).a = c.a ∧ (c.setS d v t).v = c.v := by
  unfold Core.setS
  split <;> exact ⟨rfl, rfl⟩

theorem areg_setA (c : Core) (d : BitVec 4) (v : Addr) (t : Option Taint) :
    (c.setA d v t).areg d = v ∧ ∀ q, q ≠ d → (c.setA d v t).areg q = c.areg q :=
  ⟨Vector.getElem_set_self .., fun q hq => Vector.getElem_set_ne d.isLt q.isLt fun he => hq (BitVec.eq_of_toNat_eq he.symm)⟩

theorem vphys_setV (c : Core) (d : Reg) (m : LaneMask) (v : VReg) :
    (∀ l, (h : l < 1024) → ((c.setV d m v).vphys d)[l] = if m.getLsbD l = true then v[l] else (c.vphys d)[l]) ∧
    ∀ q, q ≠ d → (c.setV d m v).vphys q = c.vphys q := by
  refine ⟨fun l h => ?_, fun q hq => Vector.getElem_set_ne d.isLt q.isLt fun he => hq (BitVec.eq_of_toNat_eq he.symm)⟩
  have hreg : (c.setV d m v).vphys d = mergeLanes m (c.vphys d) v := Vector.getElem_set_self ..
  simp only [hreg, mergeLanes, Vector.getElem_ofFn]

theorem writeback_ok {s : State} (h : s.ev.ok = true) : exec .fixedResultWriteback s = .next (s.upd Core.landDue) := by
  show execFixedResultWriteback s = _
  rw [execFixedResultWriteback, if_pos h]

/-- The one result in flight, when due, is written to its register alone. -/
theorem writeback_due {s : State} {r : Result} (hr : s.core.results = [r]) (hok : s.ev.ok = true) (hle : r.due ≤ s.core.tau) :
    ∃ u, exec .fixedResultWriteback s = .next u ∧ u.core.results = [] ∧ u.core.sticky = s.core.sticky ||| r.flags ∧ u.dev = s.dev ∧
      u.core.pstack = s.core.pstack ∧ u.core.pos = s.core.pos ∧ u.core.tau = s.core.tau ∧ u.core.mat = s.core.mat ∧
      (∀ d v t, r.w = .s d v t → (d ≠ 0 → u.core.sreg d = v) ∧ (∀ q, q ≠ d → u.core.sreg q = s.core.sreg q) ∧ u.core.sreg 0 = 0 ∧
        u.core.a = s.core.a ∧ u.core.v = s.core.v) ∧
      (∀ d v t, r.w = .a d v t → u.core.areg d = v ∧ (∀ q, q ≠ d → u.core.areg q = s.core.areg q) ∧ u.core.s = s.core.s ∧ u.core.v = s.core.v) ∧
      (∀ d m v, r.w = .v d m v → (∀ l (h : l < 1024), (u.core.vphys d)[l] = if m.getLsbD l = true then v[l] else (s.core.vphys d)[l]) ∧
        (∀ q, q ≠ d → u.core.vphys q = s.core.vphys q) ∧ u.core.s = s.core.s ∧ u.core.a = s.core.a) := by
  obtain ⟨hst, hps, hpos, htau, hmat⟩ := land_leaves s.core r.w
  refine ⟨_, writeback_ok hok, ?_⟩
  rw [State.upd, landDue_one hr hle]
  refine ⟨rfl, congrArg (· ||| r.flags) hst, rfl, hps, hpos, htau, hmat, fun d v t hw => ?_, fun d v t hw => ?_, fun d m v hw => ?_⟩ <;> rw [hw]
  · obtain ⟨ha, hv⟩ := setS_banks s.core d v t
    exact ⟨fun hd => sreg_setS_same s.core hd v t, fun q hq => sreg_setS_other s.core hq v t, rfl, ha, hv⟩
  · obtain ⟨hsame, hother⟩ := areg_setA s.core d v t
    exact ⟨hsame, hother, rfl, rfl⟩
  · obtain ⟨hsame, hother⟩ := vphys_setV s.core d m v
    exact ⟨hsame, hother, rfl, rfl⟩

/-! Schedule time (R152, R153): only results that are not yet due stay in flight. -/

theorem landBeat_times (c : Core) (b : Beat) : (c.landBeat b).tau = c.tau ∧ (c.landBeat b).results = c.results := by
  unfold Core.landBeat
  split <;> exact ⟨rfl, rfl⟩

theorem foldl_times {α : Type} {f : Core → α → Core} (h : ∀ c x, (f c x).tau = c.tau ∧ (f c x).results = c.results) (xs : List α) (c : Core) :
    (xs.foldl f c).tau = c.tau ∧ (xs.foldl f c).results = c.results := by
  induction xs generalizing c with
  | nil => exact ⟨rfl, rfl⟩
  | cons x xs ih => exact ⟨(ih _).1.trans (h c x).1, (ih _).2.trans (h c x).2⟩

theorem beatsDue_times (c : Core) : c.beatsDue.tau = c.tau ∧ c.beatsDue.results = c.results := by
  rw [beatsDue_eq]
  exact foldl_times landBeat_times ..

theorem drainsDue_times (c : Core) : c.drainsDue.tau = c.tau ∧ c.drainsDue.results = c.results := by
  rw [drainsDue_eq]
  exact foldl_times (f := Core.enterQueue) (fun _ _ => ⟨rfl, rfl⟩) ..

theorem land_results (c : Core) (w : Write) : (c.land w).results = c.results := by
  cases w with
  | s d v t =>
    simp only [Core.land, Core.setS]
    split <;> rfl
  | _ => rfl

theorem landDue_times (c : Core) : c.landDue.tau = c.tau ∧ c.landDue.results = c.results.filter fun r => !decide (r.due ≤ c.tau) := by
  have h := foldl_times (f := fun c (r : Result) => (c.land r.w).raise r.flags)
    (fun c r => ⟨(land_leaves c r.w).2.2.2.1, land_results c r.w⟩) (keptOf (c.results.filter fun r => decide (r.due ≤ c.tau))) c
  exact ⟨h.1, rfl⟩

theorem tickWall_times (c : Core) : c.tickWall.tau = c.tau ∧ c.tickWall.results = c.results := by
  unfold Core.tickWall Core.windowDue Core.rbAppend
  dsimp only
  split <;> split <;> exact ⟨rfl, rfl⟩

/-- The core at the next cycle of schedule time, before anything that is due lands. -/
def Core.stepped (c : Core) : Core := { c.tickWall with tau := c.tickWall.tau + 1, flagsNow := 0, mat := c.tickWall.mat.count }

theorem tick_eq (c : Core) : c.tick = c.stepped.landDue.beatsDue.drainsDue := rfl

theorem tick_times (c : Core) : c.tick.tau = c.tau + 1 ∧ ∀ r, r ∈ c.tick.results ↔ r ∈ c.results ∧ c.tau + 1 < r.due := by
  obtain ⟨htau, hres⟩ := tickWall_times c
  have hs : c.stepped.tau = c.tau + 1 := congrArg (· + 1) htau
  have hsr : c.stepped.results = c.results := hres
  obtain ⟨hl, hlr⟩ := landDue_times c.stepped
  obtain ⟨hb, hbr⟩ := beatsDue_times c.stepped.landDue
  obtain ⟨hd, hdr⟩ := drainsDue_times c.stepped.landDue.beatsDue
  refine ⟨hd.trans (hb.trans (hl.trans hs)), fun r => ?_⟩
  rw [tick_eq, hdr, hbr, hlr, hs, hsr]
  simp

theorem ticks_tau (c : Core) (n : ℕ) : (c.ticks n).tau = c.tau + n := by
  induction n generalizing c with
  | zero => rfl
  | succ n ih => rw [Core.ticks, ih, (tick_times c).1, Nat.add_right_comm, Nat.add_assoc]

theorem ticks_results (c : Core) {n : ℕ} (hn : 0 < n) {r : Result} (hr : r ∈ (c.ticks n).results) : r ∈ c.results ∧ c.tau + n < r.due := by
  induction n generalizing c with
  | zero => exact absurd hn (Nat.lt_irrefl 0)
  | succ n ih =>
    obtain ⟨htau, hres⟩ := tick_times c
    cases n with
    | zero => exact (hres r).mp hr
    | succ n =>
      obtain ⟨hin, hlt⟩ := ih c.tick (Nat.succ_pos n) hr
      exact ⟨((hres r).mp hin).1, by omega⟩

/-! An idle core (R152, R153): with nothing in flight, cycles of schedule time pass beside the registers. -/

/-- `d` is `c` after cycles in which nothing was in flight. -/
structure Idled (c d : Core) : Prop where
  results : d.results = []
  beats   : d.mat.beats = []
  drains  : d.mat.drains = []
  s       : d.s = c.s
  a       : d.a = c.a
  v       : d.v = c.v
  sticky  : d.sticky = c.sticky
  mon     : d.mon = c.mon
  pstack  : d.pstack = c.pstack
  rdvseq  : d.rdvseq = c.rdvseq
  seqPos  : d.seqPos = c.seqPos
  target  : d.target = c.target
  replay  : d.replay = c.replay

theorem Idled.trans {c d e : Core} (h : Idled c d) (k : Idled d e) : Idled c e where
  results := k.results
  beats := k.beats
  drains := k.drains
  s := k.s.trans h.s
  a := k.a.trans h.a
  v := k.v.trans h.v
  sticky := k.sticky.trans h.sticky
  mon := k.mon.trans h.mon
  pstack := k.pstack.trans h.pstack
  rdvseq := k.rdvseq.trans h.rdvseq
  seqPos := k.seqPos.trans h.seqPos
  target := k.target.trans h.target
  replay := k.replay.trans h.replay

theorem idled_refl {c : Core} (hr : c.results = []) (hb : c.mat.beats = []) (hd : c.mat.drains = []) : Idled c c :=
  ⟨hr, hb, hd, rfl, rfl, rfl, rfl, rfl, rfl, rfl, rfl, rfl, rfl⟩

theorem landDue_idle {c : Core} (hr : c.results = []) : c.landDue = c := landDue_early fun _ hin => absurd (hr ▸ hin) List.not_mem_nil

theorem beatsDue_idle {c : Core} (hb : c.mat.beats = []) : c.beatsDue = c := by
  simp only [Core.beatsDue, hb, List.foldl_nil, List.filter_nil]
  rw [← hb]

theorem drainsDue_idle {c : Core} (hd : c.mat.drains = []) : c.drainsDue = c := by
  simp only [Core.drainsDue, hd, List.foldl_nil, List.filter_nil]
  rw [← hd]

theorem rbAppend_idled {c : Core} (h : Idled c c) : Idled c c.rbAppend := by
  unfold Core.rbAppend
  split
  · exact h
  · exact ⟨h.results, h.beats, h.drains, rfl, rfl, rfl, rfl, rfl, rfl, rfl, rfl, rfl, rfl⟩

theorem windowDue_idled {c : Core} (h : Idled c c) : Idled c c.windowDue := by
  unfold Core.windowDue
  split
  · exact h
  · exact ⟨h.results, h.beats, h.drains, rfl, rfl, rfl, rfl, rfl, rfl, rfl, rfl, rfl, rfl⟩

theorem Idled.still {c d : Core} (h : Idled c d) : Idled d d := idled_refl h.results h.beats h.drains

theorem tickWall_idled {c : Core} (h : Idled c c) : Idled c c.tickWall := by
  have hrb := rbAppend_idled h
  have hwall (w : ℕ) (cy : Word) (ar : Vector ArrState 8) : Idled c { c.rbAppend with wall := w, cycle := cy, arrays := ar } :=
    hrb.trans ⟨hrb.results, hrb.beats, hrb.drains, rfl, rfl, rfl, rfl, rfl, rfl, rfl, rfl, rfl, rfl⟩
  exact (hwall ..).trans (windowDue_idled (hwall ..).still)

theorem stepped_idled {c : Core} (h : Idled c c) : Idled c c.stepped := by
  have hw := tickWall_idled h
  have hcount (t : ℕ) : Idled c.tickWall { c.tickWall with tau := t, flagsNow := 0, mat := c.tickWall.mat.count } :=
    ⟨hw.results, congrArg _ hw.beats, congrArg _ hw.drains, rfl, rfl, rfl, rfl, rfl, rfl, rfl, rfl, rfl, rfl⟩
  exact hw.trans (hcount _)

theorem tick_idled {c : Core} (h : Idled c c) : Idled c c.tick := by
  have hs := stepped_idled h
  rw [tick_eq, landDue_idle hs.results, beatsDue_idle hs.beats, drainsDue_idle hs.drains]
  exact hs

theorem ticks_idled {c : Core} (h : Idled c c) (n : ℕ) : Idled c (c.ticks n) := by
  induction n generalizing c with
  | zero => exact h
  | succ n ih => exact (tick_idled h).trans (ih (tick_idled h).still)

/-- The core at the end of an empty bundle, before its cycles pass. -/
def Core.emptied (c : Core) (f : Ready) (h : Header) : Core :=
  let c := { c with
    pstack := (c.pwr.getD c.stackNow).drop h.pop.toNat, pwr := none, pnext := none, sig := c.sig.after h f.feed false false, fmt := c.fmt.count,
    tokens := c.tokens.filter fun t => !([].contains (RegRef.s t.reg)), noBreak := false, served := false, deqtAt := none, barFrom := none,
    word := none, popped := Vector.replicate 4 0 }
  if h.rdv then c.rdvStep else c

theorem finishBundle_emptied (c : Core) (f : Ready) (h : Header) :
    c.finishBundle f h [] false false = { (((c.emptied f h).ticks (1 + h.st.toNat)).advance f) with target := none } := rfl

/-- What an empty bundle leaves before its cycles pass: a popped stack and a counted rendezvous (R145, R377). -/
theorem emptied_leaves (c : Core) (f : Ready) (h : Header) :
    ((c.emptied f h).results = c.results ∧ (c.emptied f h).mat = c.mat ∧ (c.emptied f h).tau = c.tau) ∧
    ((c.emptied f h).s = c.s ∧ (c.emptied f h).a = c.a ∧ (c.emptied f h).v = c.v ∧ (c.emptied f h).sticky = c.sticky ∧ (c.emptied f h).mon = c.mon) ∧
    ((c.emptied f h).seqPos = c.seqPos ∧ (c.emptied f h).target = c.target ∧ (c.emptied f h).replay = c.replay) ∧
    (c.emptied f h).pstack = (c.pwr.getD c.stackNow).drop h.pop.toNat ∧ (c.emptied f h).rdvseq = if h.rdv = true then c.rdvseq + 1 else c.rdvseq := by
  unfold Core.emptied
  split <;> exact ⟨⟨rfl, rfl, rfl⟩, ⟨rfl, rfl, rfl, rfl, rfl⟩, ⟨rfl, rfl, rfl⟩, rfl, rfl⟩

/-- A core that runs no loop nest moves to where the bundle leads (R147). -/
theorem advance_plain {c : Core} (h : c.replay = none) (f : Ready) : c.advance f = { c with pos := c.target.getD c.seqPos } := by
  simp only [Core.advance, h]

/-- The all-zero bundle of an idle core (R142, R146). -/
theorem allZeroBundle_idle {s : State} {h : Header} (hh : h.seg = false) (hr : h.rdv = true → s.rendezvous = false)
    (hp : h.pop.toNat ≤ s.core.pstack.length) (hs : s.core.seg = none) (hrep : s.core.replay = none) (hi : Idled s.core s.core) :
    ∃ u, exec (.allZeroBundle h) s = .next u ∧ u.core.tau = s.core.tau + 1 + h.st.toNat ∧ u.core.pos = s.core.seqPos ∧
      u.core.pstack = s.core.pstack.drop h.pop.toNat ∧ u.core.rdvseq = (if h.rdv = true then s.core.rdvseq + 1 else s.core.rdvseq) ∧ u.core.s = s.core.s ∧
      u.core.a = s.core.a ∧ u.core.v = s.core.v ∧ u.core.sticky = s.core.sticky ∧ u.core.mon = s.core.mon ∧
      u.dev = { s.dev with time := max s.dev.time u.core.wall } ∧ u.parked = s.parked := by
  obtain ⟨⟨hres, hmat, htau⟩, ⟨hs', ha, hv, hst, hmon⟩, ⟨hseq, htgt, hrp⟩, hpst, hrdv⟩ :=
    emptied_leaves (s.core.prepare h s.core.seqPos 0) { bits := h.toNat, feed := [], next := s.core.seqPos } h
  have hd : Idled _ _ := idled_refl (hres.trans hi.results) ((congrArg MatCtx.beats hmat).trans hi.beats) ((congrArg MatCtx.drains hmat).trans hi.drains)
  have he := ticks_idled hd (1 + h.st.toNat)
  have hrun := he.replay.trans (hrp.trans hrep)
  refine ⟨_, execAllZeroBundle_ends hh hr hp hs, ?_⟩
  simp only [State.upd, State.clock, finishBundle_emptied, advance_plain hrun]
  refine ⟨?_, ?_, he.pstack.trans hpst, he.rdvseq.trans hrdv, he.s.trans hs', he.a.trans ha, he.v.trans hv, he.sticky.trans hst, he.mon.trans hmon, trivial, trivial⟩
  · rw [ticks_tau, htau, ← Nat.add_assoc]
    rfl
  · rw [he.target.trans htgt, he.seqPos.trans hseq]
    rfl

/-- Settles O55: a fill walks to the leaf that the address has, caches it and sets bits of its entry, and schedule time lands what is due. -/
theorem memoryAndWritebackEventsAct : Obligations.MemoryAndWritebackEventsAct := by
  unfold Obligations.MemoryAndWritebackEventsAct
  refine ⟨fun s => ⟨fun h => ?_, fun l rest h => ?_, ⟨fun leaf h => ?_, fun lvl w h => ?_⟩, fun f h => forwardExpire_names h⟩, fun s =>
    ⟨fun r hr hok => ⟨fun hlt => ?_, fun hle => ?_⟩, fun h hh hr hp hs hrep hres hb hd => ?_, fun n => ?_⟩⟩
  · show execKStoreLand s = _
    simp only [execKStoreLand, h]
  · show execKStoreLand s = _
    simp only [execKStoreLand, h]
    rfl
  · obtain ⟨tlb, hrest⟩ := (fill_accessed s s.ev.walk.ctx s.ev.walk.va .any).rest
    exact ⟨translationWalk_leaf h, fill_caches h .any, by rw [hrest], fun at_ hn hm ha => fill_accesses h .any hn hm ha⟩
  · exact translationWalk_stops h
  · exact (writeback_ok hok).trans (congrArg _ (upd_of_eq (landDue_early (hr ▸ List.forall_mem_singleton.mpr hlt))))
  · exact writeback_due hr hok hle
  · exact allZeroBundle_idle hh hr hp hs hrep (idled_refl hres hb hd)
  · exact ⟨ticks_tau .., fun hn _ hin => ticks_results _ hn hin⟩

end Sys2Proof.Machine
end

section
/-! What the end of an engine operation leaves of the core: its token, its counter, and one operation less (R129, R131, R323); and what
pieces that an engine writes change (R130). -/

namespace Sys2Proof.Machine

/-! The token and the counter. -/

theorem setS_rest (c : Core) (r : Reg) (v : Word) (t : Option Taint) :
    (c.setS r v t).tokens = c.tokens ∧ (c.setS r v t).counters = c.counters ∧ (c.setS r v t).tau = c.tau ∧ (c.setS r v t).pstack = c.pstack ∧
      (c.setS r v t).sticky = c.sticky := by
  unfold Core.setS
  split <;> exact ⟨rfl, rfl, rfl, rfl, rfl⟩

theorem landOutst_rest (c : Core) (k : ℕ) (r : Reg) (v : Word) :
    let u := c.landOutst k (.s r v none)
    u.tokens = c.tokens ∧ u.counters = c.counters ∧ u.tau = c.tau ∧ u.pstack = c.pstack ∧ u.sticky = c.sticky := by
  have keeps := setS_rest c r v none
  unfold Core.landOutst
  simp only [Core.land]
  repeat' split
  all_goals exact keeps

/-- A counted operation completes: its counter alone goes down (R129, R132). -/
theorem countDown_counter (c : Core) (i : Option (BitVec 3)) :
    (∀ j, i = some j → ((c.countDown i).counter j).1 = (c.counter j).1 - 1) ∧ ∀ j, i ≠ some j → (c.countDown i).counter j = c.counter j := by
  cases i with
  | none => exact ⟨fun _ h => absurd h.symm (Option.some_ne_none _), fun _ _ => rfl⟩
  | some k =>
    refine ⟨fun j h => ?_, fun j h => ?_⟩
    · cases Option.some.inj h
      exact congrArg Prod.fst (Vector.getElem_set_self k.isLt)
    · exact Vector.getElem_set_ne k.isLt j.isLt fun he => h (congrArg some (BitVec.eq_of_toNat_eq he))

theorem countDown_rest (c : Core) (i : Option (BitVec 3)) : c.countDown i = { c with counters := (c.countDown i).counters } := by
  cases i <;> rfl

/-- An outstanding operation ends with a scalar result. -/
theorem finish_s (c : Core) (k : ℕ) (r : Reg) (v : Word) (f : BitVec 11) :
    let u := c.finish k (.s r v none) f
    u.outst = c.outst.eraseIdx k ∧ u.s = (c.setS r v none).s ∧ u.a = c.a ∧ u.v = c.v ∧ u.tokens = c.tokens ∧ u.counters = c.counters ∧ u.tau = c.tau ∧
      u.pstack = c.pstack ∧ u.sticky = c.sticky ||| f := by
  obtain ⟨hs, ha, hv, ho⟩ := landOutst_s c k r v
  obtain ⟨htok, hctr, htau, hps, hst⟩ := landOutst_rest c k r v
  exact ⟨congrArg (List.eraseIdx · k) ho, hs, ha, hv, htok, hctr, htau, hps, congrArg (· ||| f) hst⟩

theorem engineDone_tokenWritten (c : Core) (k : ℕ) (e : EngineOp) (st bytes : ℕ) (flags : BitVec 11) (code : Option ℕ) :
    tokenWritten c k e st bytes code (c.engineDone k e st bytes flags code) ∧ (c.engineDone k e st bytes flags code).sticky = c.sticky ||| flags := by
  obtain ⟨ho, hs, ha, hv, htok, hctr, htau, hps, hst⟩ := finish_s c k e.tok (BitVec.ofNat 64 (bytes % 2 ^ 48 + st * 2 ^ 48)) flags
  unfold Core.engineDone
  generalize c.finish k (.s e.tok (BitVec.ofNat 64 (bytes % 2 ^ 48 + st * 2 ^ 48)) none) flags = d at *
  dsimp only
  have hdctr (j : BitVec 3) (ts : List Token) : ({ d with tokens := ts } : Core).counter j = c.counter j :=
    congrArg (fun x : Vector (ℕ × BitVec 3) 8 => x[j.toNat]'j.isLt) hctr
  obtain ⟨hdown, hother⟩ := countDown_counter
    { d with tokens := d.tokens ++ [{ reg := e.tok, trap := if st = 0 then none else code, scope := e.scope, ranges := e.ranges bytes }] } e.ctr
  rw [countDown_rest] at hdown hother ⊢
  exact ⟨⟨ho, fun h => (sreg_of_s hs e.tok).trans (sreg_setS_same c h ..), fun r h => (sreg_of_s hs r).trans (sreg_setS_other c h ..),
    congrArg (· ++ _) htok, fun j hj => (hdown j hj).trans (by rw [hdctr]), fun j hj => (hother j hj).trans (hdctr j _), ha, hv, htau, hps⟩, hst⟩

theorem setS_memories (c : Core) (r : Reg) (v : Word) (t : Option Taint) :
    (c.setS r v t).spad = c.spad ∧ (c.setS r v t).lanes = c.lanes ∧ (c.setS r v t).banks = c.banks ∧ (c.setS r v t).live = c.live ∧
      (c.setS r v t).dirty = c.dirty := by
  unfold Core.setS
  split <;> exact ⟨rfl, rfl, rfl, rfl, rfl⟩

/-- The memories of a core have no part in the end of an operation. -/
theorem engineDone_memories (c : Core) (k : ℕ) (e : EngineOp) (st bytes : ℕ) (flags : BitVec 11) (code : Option ℕ) :
    let u := c.engineDone k e st bytes flags code
    u.spad = c.spad ∧ u.lanes = c.lanes ∧ u.banks = c.banks ∧ u.live = c.live ∧ u.dirty = c.dirty := by
  have keeps := setS_memories c e.tok (BitVec.ofNat 64 (bytes % 2 ^ 48 + st * 2 ^ 48)) none
  have hland : let u := c.landOutst k (.s e.tok (BitVec.ofNat 64 (bytes % 2 ^ 48 + st * 2 ^ 48)) none)
      u.spad = c.spad ∧ u.lanes = c.lanes ∧ u.banks = c.banks ∧ u.live = c.live ∧ u.dirty = c.dirty := by
    unfold Core.landOutst
    simp only [Core.land]
    repeat' split
    all_goals exact keeps
  unfold Core.engineDone
  rw [countDown_rest]
  exact hland

/-- What an ending writes of the core says the same of a core whose memories alone are other. -/
theorem tokenWritten_of_memories {c : Core} {k : ℕ} {e : EngineOp} {st bytes : ℕ} {code : Option ℕ} {u : Core} (sp la : Mem) (bk : Vector Bank 2)
    (h : tokenWritten { c with spad := sp, lanes := la, banks := bk } k e st bytes code u) : tokenWritten c k e st bytes code u := h

/-! What pieces change. -/

/-- Between the states pieces have been written: of the unit in focus only its memories have changed. -/
def Moved (s t : State) : Prop :=
  ∃ sp la v pk, t = { s with core := { s.core with spad := sp, lanes := la }, dev := v, parked := pk }

theorem Moved.refl (s : State) : Moved s s := ⟨_, _, _, _, rfl⟩

theorem Moved.trans {s t u : State} (h : Moved s t) (k : Moved t u) : Moved s u := by
  obtain ⟨_, _, _, _, rfl⟩ := h
  obtain ⟨_, _, _, _, rfl⟩ := k
  exact ⟨_, _, _, _, rfl⟩

theorem Moved.foldl {α : Type} {f : State → α → State} (h : ∀ s x, Moved s (f s x)) (xs : List α) (s : State) : Moved s (xs.foldl f s) := by
  induction xs generalizing s with
  | nil => exact .refl s
  | cons x xs ih => exact (h s x).trans (ih _)

theorem dev_moved (s : State) (v : Device) : Moved s { s with dev := v } := ⟨_, _, _, _, rfl⟩

theorem storeSpad_moved (s : State) (p i x : ℕ) (bs : List Byte) : Moved s (s.storeSpad p i x bs) := by
  unfold State.storeSpad
  split
  next u _ =>
    by_cases hu : s.focus = u
    · simp only [State.setCore, State.getCore, if_pos hu]
      exact ⟨_, _, _, _, rfl⟩
    · simp only [State.setCore, if_neg hu]
      exact ⟨_, _, _, _, rfl⟩
  next =>
    split
    · exact .refl s
    · split <;> exact dev_moved _ _

theorem ownStore_eq (s : State) (x n : ℕ) : ∃ far, s.ownStore x n = { s with dev := { s.dev with far := far } } := by
  unfold State.ownStore
  split
  · split
    · exact ⟨_, rfl⟩
    · exact ⟨_, rfl⟩
  · exact ⟨_, rfl⟩

theorem performOwn_eq (s : State) {p : Piece} (h : p.place = .own) :
    ∃ far, s.perform p = { s with core := { s.core with spad := memWrite s.core.spad p.addr p.bytes }, dev := { s.dev with far := far } } := by
  obtain ⟨far, hown⟩ := ownStore_eq s p.addr p.bytes.length
  exact ⟨far, by simp only [State.perform, h, hown, State.upd]⟩

theorem publishPiece_moved (s : State) (scope : ℕ) (p : Piece) : Moved s (s.publishPiece scope p) := by
  unfold State.publishPiece
  cases h : p.place with
  | phys => exact dev_moved _ _
  | own =>
    obtain ⟨far, hp⟩ := performOwn_eq s h
    exact ⟨_, _, _, _, hp⟩
  | spad q i =>
    simp only [State.perform, h]
    exact (storeSpad_moved ..).trans (dev_moved _ _)
  | dome d =>
    simp only [State.perform, h]
    exact dev_moved _ _
  | lane =>
    simp only [State.perform, h]
    exact ⟨_, _, _, _, rfl⟩

theorem engineWrites_moved (s : State) (scope : ℕ) (ps : List Piece) (carry : List (ℕ × BitVec 32)) : Moved s (s.engineWrites scope ps carry) :=
  (Moved.foldl (fun s p => publishPiece_moved s scope p) _ s).trans (dev_moved _ _)

theorem getArrives_moved (s : State) (ps : List Piece) : Moved s (s.getArrives ps) :=
  (engineWrites_moved s 4 (fillPieces ps s.ev.data) []).trans (dev_moved _ _)

theorem sendPut_moved (s : State) (n : BitVec 16) (ps : List Piece) : Moved s (s.sendPut n ps) := by
  unfold State.sendPut
  split
  · exact .refl s
  · exact dev_moved _ _

/-- Joined pieces write what the pieces write. -/
theorem joinPieces_writes (ps : List Piece) (m : Mem) :
    (joinPieces ps).foldl (fun m p => memWrite m p.addr p.bytes) m = ps.foldl (fun m p => memWrite m p.addr p.bytes) m := by
  induction ps generalizing m with
  | nil => rfl
  | cons p ps ih =>
    have hps := ih (memWrite m p.addr p.bytes)
    rw [joinPieces, List.foldl_cons, ← hps]
    split
    next q qs hq =>
      split
      next hj => rw [hq, List.foldl_cons, List.foldl_cons, memWrite_append, hj.2]
      next => rw [hq, List.foldl_cons]
    next hnil => rw [hnil, List.foldl_cons]

theorem joinPieces_places {pl : Place} {ps : List Piece} (h : ∀ p ∈ ps, p.place = pl) : ∀ p ∈ joinPieces ps, p.place = pl := by
  induction ps with
  | nil => exact h
  | cons p ps ih =>
    obtain ⟨hp, hps⟩ := List.forall_mem_cons.mp h
    have hj := ih hps
    rw [joinPieces]
    split
    next q qs hq =>
      rw [hq] at hj
      obtain ⟨_, hqs⟩ := List.forall_mem_cons.mp hj
      split
      · exact List.forall_mem_cons.mpr ⟨hp, hqs⟩
      · exact List.forall_mem_cons.mpr ⟨hp, hj⟩
    next => exact List.forall_mem_singleton.mpr hp

/-- Pieces of the own scratchpad are written there in order; of the device only the K-space stores that stand there change. -/
theorem performOwn_foldl (scope : ℕ) (ps : List Piece) (h : ∀ p ∈ ps, p.place = .own) (s : State) :
    ∃ far, ps.foldl (fun s p => s.publishPiece scope p) s =
      { s with core := { s.core with spad := ps.foldl (fun m p => memWrite m p.addr p.bytes) s.core.spad }, dev := { s.dev with far := far } } := by
  induction ps generalizing s with
  | nil => exact ⟨s.dev.far, rfl⟩
  | cons p ps ih =>
    obtain ⟨hp, hps⟩ := List.forall_mem_cons.mp h
    obtain ⟨far, hone⟩ := performOwn_eq s hp
    have hpub : s.publishPiece scope p = s.perform p := by rw [State.publishPiece, hp]
    obtain ⟨far', hrest⟩ := ih hps (s.publishPiece scope p)
    refine ⟨far', ?_⟩
    rw [List.foldl_cons, hrest, hpub, hone]
    rfl

theorem engineWrites_own (s : State) (scope : ℕ) {ps : List Piece} (h : ∀ p ∈ ps, p.place = .own) :
    ∃ far, s.engineWrites scope ps [] =
      { s with core := { s.core with spad := ps.foldl (fun m p => memWrite m p.addr p.bytes) s.core.spad }, dev := { s.dev with far := far } } := by
  obtain ⟨far, hf⟩ := performOwn_foldl scope (joinPieces ps) (joinPieces_places h) s
  refine ⟨far, ?_⟩
  rw [joinPieces_writes] at hf
  simp only [State.engineWrites, hf, State.updDev, List.foldl_nil]

theorem fillPieces_places {pl : Place} {ps : List Piece} (h : ∀ p ∈ ps, p.place = pl) (bs : List Byte) : ∀ p ∈ fillPieces ps bs, p.place = pl := by
  induction ps generalizing bs with
  | nil => exact h
  | cons p ps ih =>
    obtain ⟨hp, hps⟩ := List.forall_mem_cons.mp h
    exact List.forall_mem_cons.mpr ⟨hp, ih hps _⟩

theorem carryLines_own (v : Device) (p : ℕ) {ps : List Piece} (h : ∀ q ∈ ps, q.place = .own) (ks : List (BitVec 32)) :
    v.carryLines p (placesOf ps) ks = v := by
  have hnone : (placesOf ps).filter (fun x => x.1 == .phys && x.2 % 64 == 0 && (placesOf ps).contains (.phys, x.2 + 63)) = [] := by
    refine List.filter_eq_nil_iff.mpr fun x hx => ?_
    obtain ⟨q, hq, hin⟩ := List.mem_flatMap.mp hx
    obtain ⟨i, -, rfl⟩ := List.mem_map.mp hin
    simp [h q hq]
  simp only [Device.carryLines, hnone]
  rfl

theorem getArrives_own (s : State) {ps : List Piece} (h : ∀ p ∈ ps, p.place = .own) :
    ∃ far, s.getArrives ps =
      { s with core := { s.core with spad := (fillPieces ps s.ev.data).foldl (fun m p => memWrite m p.addr p.bytes) s.core.spad },
               dev := { s.dev with far := far } } := by
  have hfill := fillPieces_places h s.ev.data
  obtain ⟨far, hf⟩ := engineWrites_own s 4 hfill
  refine ⟨far, ?_⟩
  simp only [State.getArrives, hf, State.updDev, carryLines_own _ _ hfill]

theorem Moved.foldl_fst {α β : Type} {f : State × β → α → State × β} (h : ∀ x p, Moved x.1 (f x p).1) (xs : List α) (x : State × β) :
    Moved x.1 (xs.foldl f x).1 := by
  induction xs generalizing x with
  | nil => exact .refl x.1
  | cons p xs ih => exact (h x p).trans (ih _)

theorem fabricLocal_moved (s : State) (e : EngineOp) : Moved s (s.fabricLocal e).1 := by
  unfold State.fabricLocal
  refine Moved.foldl_fst (fun x p => ?_) _ (s, 0, e.cursor)
  by_cases hst : x.2.1 ≠ 0
  · simp only [if_pos hst]
    exact .refl x.1
  · simp only [if_neg hst]
    generalize (if e.kind = 3 then BitVec.ofNat 80 p.1.addr else BitVec.ofInt 80 (e.copy.srcAt (e.copy.start + p.2))) = va
    cases x.1.dev.locate s.ctx va (if e.kind = 3 then .store else .load) with
    | error code => exact dev_moved _ _
    | ok pl =>
      dsimp only
      split
      · exact dev_moved _ _
      · split
        · exact .refl x.1
        · exact (dev_moved _ _).trans (publishPiece_moved ..)

end Sys2Proof.Machine
end

section
/-! O42: the ends of engine operations (R129, R131, R132, R134, R323, R328, R330, R331, R333). -/

namespace Sys2Proof.Machine

theorem getElem_of_eq {α : Type} {n b : ℕ} {x y : Vector α n} (h : x = y) (hb : b < n) : x[b] = y[b] := by rw [h]

/-- A core with another bank. -/
def Core.withBank (c : Core) (k : ℕ) (b : Bank) : Core := { c with banks := c.banks.set (k % 2) b (Nat.mod_lt _ (by decide)) }

theorem withBank_banks (c : Core) (k : ℕ) (x : Bank) {b : ℕ} (hb : b < 2) : (c.withBank k x).banks[b] = if b = k % 2 then x else c.banks[b] := by
  rw [Core.withBank, Vector.getElem_set]
  simp only [eq_comm]

/-! An end that comes late logs an entry, and that alone (R457). -/

theorem merLate_core (s : State) : s.merLate.core = s.core := by rw [merLate_eq]

theorem merLate_ev (s : State) : s.merLate.ev = s.ev := by rw [merLate_eq]

theorem tokenWritten_merLate {s : State} {e : EngineOp} {st bytes : ℕ} {code : Option ℕ} {u : Core}
    (h : tokenWritten s.merLate.core s.merLate.ev.index e st bytes code u) : tokenWritten s.core s.ev.index e st bytes code u := by
  rwa [merLate_core, merLate_ev] at h

theorem merLate_punctual {s : State} (h : s.core.mer = false ∨ s.ev.late = 0) : s.merLate = s := by
  have hno : (s.core.mer && s.ev.late != 0) = false := by
    rcases h with h | h <;> simp [h]
  unfold State.merLate
  split
  · rfl
  · rw [hno]
    rfl

theorem merLate_unlogged (s : State) : s.merLate.dev.unlogged = s.dev.unlogged := by
  unfold State.merLate
  split
  · rfl
  · split
    · split
      · exact log_unlogged ..
      · rfl
    · rfl

/-- Devices that differ in logs alone have the same partitions but for their worst grades. -/
theorem part_of_unlogged {u v : Device} (h : u.unlogged = v.unlogged) (p : ℕ) : (u.part p).unlogged = (v.part p).unlogged := by
  have hp := congrArg (fun x : Device => x.part p) h
  simpa only [Device.unlogged, Device.part, Vector.getElem_map] using hp

theorem ctx_of_unlogged {s : State} {v : Device} (h : v.unlogged = s.dev.unlogged) : ({ s with dev := v } : State).ctx = s.ctx := by
  have hctx : v.contexts = s.dev.contexts := (congrArg Device.contexts h :)
  have hpart (p : ℕ) : (v.part p).ctx = (s.dev.part p).ctx ∧ (v.part p).state = (s.dev.part p).state ∧ (v.part p).clusters = (s.dev.part p).clusters := by
    have hp := part_of_unlogged h p
    exact ⟨(congrArg Partition.ctx hp :), (congrArg Partition.state hp :), (congrArg Partition.clusters hp :)⟩
  have hno : v.noContext = s.dev.noContext := by rw [Device.noContext, hctx, Device.noContext]
  have hclus (c : ℕ) : v.partOfCluster c = s.dev.partOfCluster c := by
    simp only [Device.partOfCluster, hpart]
  have hq : ({ s with dev := v } : State).isQp = s.isQp := rfl
  simp only [State.ctx, hq, hctx, hno, State.partition, hclus, hpart]

theorem merLate_ctx (s : State) : s.merLate.ctx = s.ctx := by
  rw [merLate_eq]
  exact ctx_of_unlogged (merLate_unlogged s)

/-- An FPUT or FGET ends, and the lines that failed are logged (R328, R443). -/
def State.endFabric (s : State) (e : EngineOp) (st bytes : ℕ) (fails : List ℕ) : State :=
  (s.updDev fun v => v.logFails 2 0 s.partition (if st = 8 ∧ fails = [] then [s.ev.addr] else fails)).upd fun c =>
    c.engineDone s.ev.index e st bytes e.flags (if e.trapOn then some 0x13 else none)

/-- The token of an FPUT or FGET whose pieces have been written. -/
theorem endFabric_tokenWritten {q s : State} (h : Moved q s) (e : EngineOp) (st bytes : ℕ) (fails : List ℕ) :
    tokenWritten q.core q.ev.index e st bytes (if e.trapOn then some 0x13 else none) (s.endFabric e st bytes fails).core := by
  obtain ⟨sp, la, v, pk, rfl⟩ := h
  exact tokenWritten_of_memories sp la q.core.banks (engineDone_tokenWritten ..).1

/-- Nothing is logged of an end in which no line fails. -/
theorem endFabric_quiet (s : State) (e : EngineOp) {st : ℕ} (h : st ≠ 8) (bytes : ℕ) : s.endFabric e st bytes [] =
    { s with core := s.core.engineDone s.ev.index e st bytes e.flags (if e.trapOn then some 0x13 else none) } := by
  simp only [State.endFabric, h, false_and, if_false]
  rfl

theorem logFails_unlogged (v : Device) (unit index p : ℕ) (as : List ℕ) : (v.logFails unit index p as).unlogged = v.unlogged := by
  unfold Device.logFails
  induction as generalizing v with
  | nil => rfl
  | cons a as ih => exact (ih _).trans (log_unlogged ..)

theorem reaches_iff {u v : Device} (h : u.unlogged = v.unlogged) (n : BitVec 16) :
    u.reaches n = true ↔ n = v.node ∨ ∃ r ∈ v.routes, r.node = n ∧ v.vports.getLsbD r.vport = true := by
  have hnode : u.node = v.node := (congrArg Device.node h :)
  have hroutes : u.routes = v.routes := (congrArg Device.routes h :)
  have hvports : u.vports = v.vports := (congrArg Device.vports h :)
  simp only [Device.reaches, hnode, hroutes, hvports, Bool.or_eq_true, beq_iff_eq, List.any_eq_true, Bool.and_eq_true]

/-- The frame in which the bytes of pieces leave for the node of an operation. -/
def putFrames (s : State) (e : EngineOp) (ps : List Piece) : List Frame :=
  if ps = [] then [] else [.put e.node s.ctx ((joinPieces ps).map fun p => (p.addr, p.bytes))]

theorem sendPut_eq (s : State) (e : EngineOp) (ps : List Piece) : s.merLate.sendPut e.node ps =
    s.merLate.updDev fun v => { v with egress := v.egress ++ putFrames s e ps } := by
  cases ps with
  | nil =>
    have hnil : s.merLate.dev.egress ++ putFrames s e [] = s.merLate.dev.egress := List.append_nil _
    simp only [State.updDev, hnil]
    rfl
  | cons p ps =>
    rw [State.sendPut, merLate_ctx]
    rfl

/-- What a put hands to the fabric, whatever is logged of its lines. -/
theorem endFabric_put (s : State) (e : EngineOp) (ps : List Piece) (st bytes : ℕ) (fails : List ℕ) :
    let u := (s.merLate.sendPut e.node ps).endFabric e st bytes fails
    u.dev.egress = s.dev.egress ++ putFrames s e ps ∧ u.dev.mem = s.dev.mem ∧ u.core.spad = s.core.spad := by
  intro u
  have hu : u.dev.unlogged = ({ s.merLate.dev with egress := s.merLate.dev.egress ++ putFrames s e ps } : Device).unlogged := by
    simp only [u, sendPut_eq]
    exact logFails_unlogged ..
  have hq := merLate_unlogged s
  have hegress : s.merLate.dev.egress = s.dev.egress := (congrArg Device.egress hq :)
  have hmem : s.merLate.dev.mem = s.dev.mem := (congrArg Device.mem hq :)
  refine ⟨hegress ▸ (congrArg Device.egress hu :), (congrArg Device.mem hu :).trans hmem, ?_⟩
  simp only [u, sendPut_eq, State.endFabric, upd_core]
  exact (engineDone_memories ..).1.trans (congrArg Core.spad (merLate_core s))

theorem copy_dsz {e : EngineOp} (hk : e.kind = 3 ∨ e.kind = 4) : e.copy.dsz = (copyOf false e.desc).dsz := by
  rcases hk with h | h <;> simp only [EngineOp.copy, h] <;> rfl

section End
variable {s : State} {e : EngineOp} (he : s.core.outst[s.ev.index]? = some (.engine e))
include he

/-! Copies (R328). -/

theorem copyComplete_eq (hk : e.kind = 1 ∨ e.kind = 2) : exec .copyComplete s =
    .next ((s.merLate.engineWrites e.scope.toNat e.pieces e.carry).upd fun c =>
      c.engineDone s.ev.index e e.status e.bytes e.flags (if e.trapOn then some 0x13 else none)) := by
  show execCopyComplete s = _
  simp only [execCopyComplete, merLate_core, merLate_ev, he, if_pos hk]
  rfl

theorem copyComplete_own (hk : e.kind = 1 ∨ e.kind = 2) (hp : ∀ p ∈ e.pieces, p.place = .own) (hc : e.carry = []) :
    ∃ u, exec .copyComplete s = .next u ∧ tokenWritten s.core s.ev.index e e.status e.bytes (if e.trapOn then some 0x13 else none) u.core ∧
      u.dev = { s.merLate.dev with far := u.dev.far } ∧
      u.core.spad = e.pieces.foldl (fun m p => memWrite m p.addr p.bytes) s.core.spad ∧ u.core.sticky = s.core.sticky ||| e.flags := by
  obtain ⟨far, hw⟩ := engineWrites_own s.merLate e.scope.toNat hp
  refine ⟨_, copyComplete_eq he hk, ?_⟩
  rw [hc, hw, merLate_core]
  obtain ⟨htok, hst⟩ := engineDone_tokenWritten { s.core with spad := e.pieces.foldl (fun m p => memWrite m p.addr p.bytes) s.core.spad }
    s.ev.index e e.status e.bytes e.flags (if e.trapOn then some 0x13 else none)
  exact ⟨tokenWritten_of_memories _ _ _ htok, rfl, (engineDone_memories ..).1, hst⟩

theorem copyComplete_phys (hk : e.kind = 1 ∨ e.kind = 2) {p : Piece} (hp : e.pieces = [p]) (hpl : p.place = .phys) (hc : e.carry = []) :
    ∃ u, exec .copyComplete s = .next u ∧ tokenWritten s.core s.ev.index e e.status e.bytes (if e.trapOn then some 0x13 else none) u.core ∧
      u.core.spad = s.core.spad ∧ u.dev = s.merLate.dev.publishAs (.engine s.focus) e.scope.toNat p.addr p.bytes ∧ u.core.dirty = s.core.dirty := by
  have hw : s.merLate.engineWrites e.scope.toNat e.pieces e.carry =
      { s.merLate with dev := s.merLate.dev.publishAs (.engine s.merLate.focus) e.scope.toNat p.addr p.bytes } := by
    rw [hp, hc]
    simp only [State.engineWrites, joinPieces, List.foldl_cons, List.foldl_nil, State.publishPiece, hpl, State.updDev]
  have hf : s.merLate.focus = s.focus := by rw [merLate_eq]
  refine ⟨_, copyComplete_eq he hk, ?_⟩
  rw [hw, hf, ← merLate_core s]
  obtain ⟨hsp, -, -, -, hd⟩ := engineDone_memories s.merLate.core s.ev.index e e.status e.bytes e.flags (if e.trapOn then some 0x13 else none)
  exact ⟨(engineDone_tokenWritten ..).1, hsp, rfl, hd⟩

/-! WLOADs (R331). -/

theorem wloadComplete_image (hk : e.kind = 7) (hst : e.status = 0) :
    ∃ u, exec .wloadComplete s = .next u ∧ tokenWritten s.core s.ev.index e 0 e.bytes (if e.trapOn then some 0x14 else none) u.core ∧
      u.core.live = s.core.live ∧ u.dev.mem = s.dev.mem ∧
      ∀ b, (h : b < 2) → u.core.banks[b] = (if b = e.pos % 2 then bankOf e.va e.image else s.core.banks[b]) := by
  have hexec : exec .wloadComplete s = .next ((s.merLate.updDev fun v => v.noteImage s.merLate.ctx e.va s.merLate.focus.dome).upd fun c =>
      (c.withBank e.pos (bankOf e.va e.image)).engineDone s.ev.index e 0 e.bytes
        (flagIf (bitOf (fieldAt (e.image.drop 0x10002) 0 1) 0) fALGN) (if e.trapOn then some 0x14 else none)) := by
    show execWloadComplete s = _
    simp only [execWloadComplete, merLate_core, merLate_ev, he, if_pos hk, if_pos hst]
    rfl
  refine ⟨_, hexec, ?_⟩
  rw [← merLate_core s]
  obtain ⟨-, -, hb, hl, -⟩ := engineDone_memories (s.merLate.core.withBank e.pos (bankOf e.va e.image))
    s.ev.index e 0 e.bytes (flagIf (bitOf (fieldAt (e.image.drop 0x10002) 0 1) 0) fALGN) (if e.trapOn then some 0x14 else none)
  refine ⟨tokenWritten_of_memories _ _ _ (engineDone_tokenWritten ..).1, hl, (congrArg Device.mem (merLate_unlogged s) :), fun b h => ?_⟩
  exact (getElem_of_eq hb h).trans (withBank_banks _ _ _ h)

theorem wloadComplete_failed (hk : e.kind = 7) (hst : e.status ≠ 0) :
    ∃ u, exec .wloadComplete s = .next u ∧ tokenWritten s.core s.ev.index e e.status 0 (if e.trapOn then some 0x14 else none) u.core ∧ u.dev = s.merLate.dev ∧
      ∀ b, (h : b < 2) → u.core.banks[b] = (if b = e.pos % 2 ∧ e.status = 0x16 then Bank.reset else s.core.banks[b]) := by
  have hexec : exec .wloadComplete s = .next (s.merLate.upd fun c =>
      (if e.status = 0x16 then c.withBank e.pos Bank.reset else c).engineDone s.ev.index e
        e.status 0 0 (if e.trapOn then some 0x14 else none)) := by
    show execWloadComplete s = _
    simp only [execWloadComplete, merLate_core, merLate_ev, he, if_pos hk, if_neg hst]
    rfl
  refine ⟨_, hexec, ?_⟩
  rw [← merLate_core s]
  by_cases hp : e.status = 0x16
  · obtain ⟨-, -, hb, -, -⟩ := engineDone_memories (s.merLate.core.withBank e.pos Bank.reset)
      s.ev.index e e.status 0 0 (if e.trapOn then some 0x14 else none)
    simp only [if_pos hp, upd_core]
    refine ⟨tokenWritten_of_memories _ _ _ (engineDone_tokenWritten ..).1, rfl, fun b h => ?_⟩
    exact (getElem_of_eq hb h).trans ((withBank_banks _ _ _ h).trans (by simp only [hp, and_true]))
  · obtain ⟨-, -, hb, -, -⟩ := engineDone_memories s.merLate.core s.ev.index e e.status 0 0 (if e.trapOn then some 0x14 else none)
    simp only [if_neg hp, upd_core]
    exact ⟨(engineDone_tokenWritten ..).1, rfl, fun b h => (getElem_of_eq hb h).trans (if_neg fun h => hp h.2).symm⟩

/-! FPUTs and FGETs (R134, R330). -/

theorem fabricCopyComplete_eq (hk : e.kind = 3 ∨ e.kind = 4) :
    let q := s.merLate
    exec .fabricCopyComplete s = .next (
      if e.status = 2 ∨ e.status = 7 then q.endFabric e e.status 0 []
      else if !q.dev.reaches e.node then q.endFabric e 9 e.cursor []
      else if e.node = q.dev.node then
        let r := q.fabricLocal e
        let m := (r.2.2 - e.cursor) / e.copy.dsz
        (r.1.updDev fun v => (q.fabricCarry e m).foldl (fun v x => v.carried q.partition x) v).endFabric
          (if e.kind = 3 then e.landedAt (q.putPlaces e m) else e) (if r.2.1 = 0 then e.status else r.2.1) r.2.2 []
      else if q.ev.ok then
        if e.kind = 3 then (q.sendPut e.node e.pieces).endFabric e (if e.carry.isEmpty then e.status else 8) e.bytes (e.carry.map Prod.fst)
        else (q.getArrives e.pieces).endFabric e e.status e.bytes []
      else if !fabricStatus e.kind q.ev.value then q
      else
        let ps := if q.ev.value = 8 then e.pieces else if q.ev.value = 9 then [] else e.pieces.take q.ev.count
        let n := e.cursor + ps.length * e.copy.dsz
        if e.kind = 3 then (q.sendPut e.node ps).endFabric e q.ev.value n (q.failsSent e ps.length)
        else (q.getArrives ps).endFabric e q.ev.value n []) := by
  have hq : s.merLate.core.outst[s.merLate.ev.index]? = some (.engine e) := by rw [merLate_core, merLate_ev, he]
  show execFabricCopyComplete s = _
  dsimp only [execFabricCopyComplete]
  rw [hq]
  dsimp only
  rw [if_pos hk]
  rfl

theorem fabric_early (hk : e.kind = 3 ∨ e.kind = 4) (hst : e.status = 2 ∨ e.status = 7) :
    ∃ u, exec .fabricCopyComplete s = .next { s.merLate with core := u } ∧
      tokenWritten s.core s.ev.index e e.status 0 (if e.trapOn then some 0x13 else none) u := by
  have h8 : e.status ≠ 8 := by omega
  refine ⟨_, ?_, tokenWritten_merLate (engineDone_tokenWritten (flags := e.flags) ..).1⟩
  rw [fabricCopyComplete_eq he hk, if_pos hst, endFabric_quiet _ _ h8]

section Reached
variable (hk : e.kind = 3 ∨ e.kind = 4) (h2 : e.status ≠ 2) (h7 : e.status ≠ 7)
include hk h2 h7

theorem fabric_unreached (hr : s.merLate.dev.reaches e.node = false) :
    ∃ u, exec .fabricCopyComplete s = .next { s.merLate with core := u } ∧
      tokenWritten s.core s.ev.index e 9 e.cursor (if e.trapOn then some 0x13 else none) u := by
  refine ⟨_, ?_, tokenWritten_merLate (engineDone_tokenWritten (flags := e.flags) ..).1⟩
  rw [fabricCopyComplete_eq he hk, if_neg (not_or.mpr ⟨h2, h7⟩), hr, if_pos (show (!false) = true from rfl), endFabric_quiet _ _ (by decide)]

theorem fabric_here (hr : s.merLate.dev.reaches e.node = true) (hn : e.node = s.merLate.dev.node) :
    ∃ u, exec .fabricCopyComplete s = .next u ∧
      let r := s.merLate.fabricLocal e
      let here : EngineOp := if e.kind = 3 then e.landedAt (s.merLate.putPlaces e ((r.2.2 - e.cursor) / (copyOf false e.desc).dsz)) else e
      tokenWritten s.core s.ev.index here (if r.2.1 = 0 then e.status else r.2.1) r.2.2 (if e.trapOn then some 0x13 else none) u.core := by
  have hdsz := copy_dsz hk
  have hmoved := (fabricLocal_moved s.merLate e).trans (dev_moved _ (((s.merLate.fabricCarry e (((s.merLate.fabricLocal e).2.2 - e.cursor) /
    e.copy.dsz)).foldl (fun v x => v.carried s.merLate.partition x) (s.merLate.fabricLocal e).1.dev)))
  have htok := endFabric_tokenWritten hmoved (if e.kind = 3 then e.landedAt (s.merLate.putPlaces e (((s.merLate.fabricLocal e).2.2 - e.cursor) / e.copy.dsz))
    else e) (if (s.merLate.fabricLocal e).2.1 = 0 then e.status else (s.merLate.fabricLocal e).2.1) (s.merLate.fabricLocal e).2.2 []
  have hexec := fabricCopyComplete_eq he hk
  dsimp only at hexec
  rw [if_neg (not_or.mpr ⟨h2, h7⟩), hr, if_neg (show ¬ (!true) = true by decide), if_pos hn] at hexec
  have htrap (n : ℕ) : (if e.kind = 3 then e.landedAt (s.merLate.putPlaces e n) else e).trapOn = e.trapOn := by split <;> rfl
  rw [htrap] at htok
  refine ⟨_, hexec, ?_⟩
  rw [← hdsz]
  exact tokenWritten_merLate htok

/-! Another node. -/

section Far
variable (hr : s.merLate.dev.reaches e.node = true) (hn : e.node ≠ s.merLate.dev.node)
include hr hn

theorem fabric_far : exec .fabricCopyComplete s = .next (
      if s.ev.ok then
        if e.kind = 3 then (s.merLate.sendPut e.node e.pieces).endFabric e (if e.carry.isEmpty then e.status else 8) e.bytes (e.carry.map Prod.fst)
        else (s.merLate.getArrives e.pieces).endFabric e e.status e.bytes []
      else if !fabricStatus e.kind s.ev.value then s.merLate
      else
        let ps := if s.ev.value = 8 then e.pieces else if s.ev.value = 9 then [] else e.pieces.take s.ev.count
        let n := e.cursor + ps.length * e.copy.dsz
        if e.kind = 3 then (s.merLate.sendPut e.node ps).endFabric e s.ev.value n (s.merLate.failsSent e ps.length)
        else (s.merLate.getArrives ps).endFabric e s.ev.value n []) := by
  refine (fabricCopyComplete_eq he hk).trans ?_
  rw [if_neg (not_or.mpr ⟨h2, h7⟩), hr, if_neg (show ¬ (!true) = true by decide), if_neg hn, merLate_ev]

theorem fabric_otherCode (hok : s.ev.ok = false) (hf : fabricStatus e.kind s.ev.value = false) : exec .fabricCopyComplete s = .next s.merLate := by
  rw [fabric_far he hk h2 h7 hr hn, hok, hf]
  rfl

/-- A put to another node: its pieces leave, and the memories are as before. -/
theorem fabric_put (h3 : e.kind = 3) (hok : s.ev.ok = true) (h8 : e.status ≠ 8) (hc : e.carry = []) :
    ∃ u, exec .fabricCopyComplete s = .next { s.merLate with core := u, dev := { s.merLate.dev with egress := s.merLate.dev.egress ++ putFrames s e e.pieces } } ∧
      tokenWritten s.core s.ev.index e e.status e.bytes (if e.trapOn then some 0x13 else none) u := by
  refine ⟨_, ?_, tokenWritten_merLate (engineDone_tokenWritten (flags := e.flags) ..).1⟩
  rw [fabric_far he hk h2 h7 hr hn, if_pos hok, if_pos h3, hc, if_pos (show List.isEmpty [] = true from rfl), List.map_nil, endFabric_quiet _ _ h8, sendPut_eq]
  rfl

/-- A get from another node into the own scratchpad. -/
theorem fabric_get (h4 : e.kind = 4) (hok : s.ev.ok = true) (h8 : e.status ≠ 8) (hp : ∀ p ∈ e.pieces, p.place = .own) :
    ∃ u far, exec .fabricCopyComplete s = .next { s.merLate with core := u, dev := { s.merLate.dev with far := far } } ∧
      tokenWritten s.core s.ev.index e e.status e.bytes (if e.trapOn then some 0x13 else none) u ∧
      u.spad = (fillPieces e.pieces s.ev.data).foldl (fun m p => memWrite m p.addr p.bytes) s.core.spad := by
  have h3 : ¬ e.kind = 3 := by omega
  obtain ⟨far, hget⟩ := getArrives_own s.merLate hp
  rw [← merLate_core s, ← merLate_ev s]
  refine ⟨_, far, ?_, tokenWritten_of_memories ((fillPieces e.pieces s.merLate.ev.data).foldl (fun m p => memWrite m p.addr p.bytes) s.merLate.core.spad)
    s.merLate.core.lanes s.merLate.core.banks (engineDone_tokenWritten (flags := e.flags) ..).1, (engineDone_memories ..).1⟩
  rw [fabric_far he hk h2 h7 hr hn, if_pos hok, if_neg h3, endFabric_quiet _ _ h8, hget]

/-- The fabric's own code of an error: the elements before the first that failed are done. -/
theorem fabric_failed (hok : s.ev.ok = false) (hf : fabricStatus e.kind s.ev.value = true) :
    let m := if s.ev.value = 8 then e.pieces.length else if s.ev.value = 9 then 0 else min s.ev.count e.pieces.length
    ∃ u, exec .fabricCopyComplete s = .next u ∧
      tokenWritten s.core s.ev.index e s.ev.value (e.cursor + m * (copyOf false e.desc).dsz) (if e.trapOn then some 0x13 else none) u.core ∧
      (e.kind = 3 → u.dev.egress = s.dev.egress ++ putFrames s e (e.pieces.take m) ∧ u.dev.mem = s.dev.mem ∧ u.core.spad = s.core.spad) := by
  intro m
  have hdsz := copy_dsz hk
  have hps : (if s.ev.value = 8 then e.pieces else if s.ev.value = 9 then [] else e.pieces.take s.ev.count) = e.pieces.take m ∧
      (e.pieces.take m).length = m := by
    simp only [m]
    split
    · simp
    · split
      · simp
      · simp [List.take_eq_take_iff]
  have hexec := fabric_far he hk h2 h7 hr hn
  rw [if_neg (by rw [hok]; decide), hf, if_neg (show ¬ (!true) = true by decide)] at hexec
  dsimp only at hexec
  rw [hps.1, hps.2, hdsz] at hexec
  rcases hk with h3 | h4
  · rw [if_pos h3] at hexec
    have htok := endFabric_tokenWritten (sendPut_moved s.merLate e.node (e.pieces.take m)) e s.ev.value (e.cursor + m * (copyOf false e.desc).dsz)
      (s.merLate.failsSent e m)
    exact ⟨_, hexec, tokenWritten_merLate htok, fun _ => endFabric_put s e ..⟩
  · rw [if_neg (by omega)] at hexec
    have htok := endFabric_tokenWritten (getArrives_moved s.merLate (e.pieces.take m)) e s.ev.value (e.cursor + m * (copyOf false e.desc).dsz) []
    exact ⟨_, hexec, tokenWritten_merLate htok, fun h => absurd (h.symm.trans h4) (by decide)⟩

end Far
end Reached

end End

/-! The counters of a core (R132, R333). -/

theorem setWidth_eq_ofNat {n : ℕ} (x : BitVec n) (k : ℕ) : x.setWidth k = BitVec.ofNat k x.toNat := by
  rw [BitVec.ofNat_toNat]

section Counters
variable {s : State} (h : inTask s) {o : XForm} (hg : s.core.active o.g = true)
include h hg

theorem scwait_eq : exec (.scwait o) s =
    .next (if (s.core.counter (BitVec.ofNat 3 o.fn.toNat)).1 > o.imm.toNat % 65536 then s.wait
      else s.commitSeg.acquire (s.core.counter (BitVec.ofNat 3 o.fn.toNat)).2.toNat) := by
  show execScwait o s = _
  rw [execScwait, ifAllowedG_inTask h rfl hg, setWidth_eq_ofNat]

theorem scrd_eq : exec (.scrd o) s = .next (s.sent 1 (.s o.d (BitVec.ofNat 64 (s.core.counter (BitVec.ofNat 3 o.fn.toNat)).1) none)) := by
  show execScrd o s = _
  rw [execScrd, ifAllowedG_inTask h rfl hg, setWidth_eq_ofNat, wS_eq_sent]

end Counters

/-- Settles O42: an end writes token and counter of the core, whatever its pieces write of the memories. -/
theorem engineOperationsComplete : Obligations.EngineOperationsComplete := by
  unfold Obligations.EngineOperationsComplete
  intro s e
  have hq := merLate_unlogged s
  have hnode : s.merLate.dev.node = s.dev.node := (congrArg Device.node hq :)
  refine ⟨merLate_core s, merLate_punctual, fun he => ⟨copyComplete_own he, fun p hk hp hpl hc => copyComplete_phys he hk hp hpl hc,
    wloadComplete_image he, wloadComplete_failed he, fun hk => ⟨fabric_early he hk, fun h2 h7 hn hr => ?_, fun h2 h7 hn hr => ?_, fun h2 h7 hn => ?_⟩⟩,
    fun o ht hg => ⟨fun hlt => (scwait_eq ht hg).trans (congrArg _ (if_pos hlt)), fun hle => (scwait_eq ht hg).trans (congrArg _ (if_neg (Nat.not_lt.mpr hle))),
      scrd_eq ht hg⟩⟩
  · refine fabric_unreached he hk h2 h7 (Bool.eq_false_iff.mpr fun h => ?_)
    rcases (reaches_iff hq e.node).mp h with h | ⟨r, hin, hrn, hup⟩
    · exact hn h
    · exact absurd ((hr r hin hrn).symm.trans hup) (by decide)
  · have hreach := (reaches_iff hq e.node).mpr (.inr hr)
    have hfar : e.node ≠ s.merLate.dev.node := hnode ▸ hn
    exact ⟨fabric_otherCode he hk h2 h7 hreach hfar, fabric_failed he hk h2 h7 hreach hfar,
      fun hok h8 h3 hc => fabric_put he hk h2 h7 hreach hfar h3 hok h8 hc, fun hok h8 h4 hp => fabric_get he hk h2 h7 hreach hfar h4 hok h8 hp⟩
  · exact fabric_here he hk h2 h7 ((reaches_iff hq e.node).mpr (.inl hn)) (hn.trans hnode.symm)

end Sys2Proof.Machine
end

section
/-! Stores that a unit performs leave the fixtures of the device (R120, R375). -/

namespace Sys2Proof.Machine

theorem put_fixtures (v : Device) (p : Party) (scope : ℕ) (x : Piece) : (v.put p scope x).fixtures = v.fixtures := by
  unfold Device.put
  split
  · exact publishAs_fixtures ..
  · exact updDome_fixtures v _ rfl
  · rfl

theorem writeAs_fixtures (v : Device) (p : Party) (scope : ℕ) (ctx : BitVec 12) (va : Addr) (bs : List Byte) :
    (v.writeAs p scope ctx va bs).fixtures = v.fixtures := fixtures_foldl (fun v x => put_fixtures v p scope x) _ v

theorem storeSpad_fixtures (s : State) (p i x : ℕ) (bs : List Byte) : (s.storeSpad p i x bs).dev.fixtures = s.dev.fixtures := by
  unfold State.storeSpad
  split
  · exact congrArg Device.fixtures (setCore_dev ..)
  · split
    · rfl
    · split
      · exact writeAs_fixtures ..
      · rfl

theorem perform_fixtures (s : State) (p : Piece) : (s.perform p).dev.fixtures = s.dev.fixtures := by
  unfold State.perform
  split
  · rfl
  · obtain ⟨far, hown⟩ := ownStore_eq s p.addr p.bytes.length
    rw [hown]
    rfl
  · exact storeSpad_fixtures ..
  next d _ => exact updDome_fixtures s.dev d (f := fun x => { x with spad := memWrite x.spad p.addr p.bytes }) rfl
  · rfl

theorem performAll_fixtures (s : State) (ps : List Piece) : (s.performAll ps).dev.fixtures = s.dev.fixtures := by
  unfold State.performAll
  induction ps generalizing s with
  | nil => rfl
  | cons p ps ih => exact (ih _).trans (perform_fixtures s p)

theorem commitSeg_fixtures (s : State) : s.commitSeg.dev.fixtures = s.dev.fixtures := by
  unfold State.commitSeg
  split
  · rfl
  · exact performAll_fixtures ..

theorem commitSeg_a (s : State) : s.commitSeg.core.a = s.core.a := (commitSeg_published s).core.eq fun _ _ _ _ _ _ _ _ => rfl

/-- Line pins of a dome, where the fixtures are the same. -/
theorem linePins_of_fixtures {u v : Device} (h : u.fixtures = v.fixtures) (d : ℕ) : (u.dome d).linePins = (v.dome d).linePins := by
  have hd := congrArg (fun f : Fixtures => f.linePins[d % 4]'(Nat.mod_lt _ (by decide))) h
  simp only [Device.fixtures, Vector.getElem_map] at hd
  exact hd

end Sys2Proof.Machine
end

section
/-! O24: lines of the caches, and pins of pages and lines (R116, R311, R312). -/

namespace Sys2Proof.Machine

/-! Pin counts of pages (R312). -/

/-- The entry counts pins of a page of a context. -/
def isPin (ctx : BitVec 12) (page : ℕ × ℕ) (e : BitVec 12 × ℕ × ℕ × ℕ) : Bool := e.1 == ctx && (e.2.1, e.2.2.1) == page

/-- The pins of a page of a context. -/
def pinsOf (es : List (BitVec 12 × ℕ × ℕ × ℕ)) (ctx : BitVec 12) (page : ℕ × ℕ) : ℕ :=
  match es.find? (isPin ctx page) with | some e => e.2.2.2 | none => 0

/-- The count of an entry of the page changes. -/
def recount (ctx : BitVec 12) (page : ℕ × ℕ) (g : ℕ → ℕ) (e : BitVec 12 × ℕ × ℕ × ℕ) : BitVec 12 × ℕ × ℕ × ℕ :=
  if isPin ctx page e then (e.1, e.2.1, e.2.2.1, g e.2.2.2) else e

theorem recount_key (ctx : BitVec 12) (page : ℕ × ℕ) (g : ℕ → ℕ) (e : BitVec 12 × ℕ × ℕ × ℕ) :
    (recount ctx page g e).1 = e.1 ∧ (recount ctx page g e).2.1 = e.2.1 ∧ (recount ctx page g e).2.2.1 = e.2.2.1 := by
  unfold recount
  split <;> exact ⟨rfl, rfl, rfl⟩

theorem isPin_recount (ctx c : BitVec 12) (page k : ℕ × ℕ) (g : ℕ → ℕ) : isPin c k ∘ recount ctx page g = isPin c k := by
  funext e
  obtain ⟨h1, h2, h3⟩ := recount_key ctx page g e
  simp only [Function.comp, isPin, h1, h2, h3]

theorem isPin_unique {ctx : BitVec 12} {page k : ℕ × ℕ} {e : BitVec 12 × ℕ × ℕ × ℕ} (h : isPin ctx page e = true) (hk : isPin ctx k e = true) : k = page := by
  simp only [isPin, Bool.and_eq_true, beq_iff_eq] at h hk
  exact hk.2.symm.trans h.2

theorem pinsOf_recount_same (es : List (BitVec 12 × ℕ × ℕ × ℕ)) (ctx : BitVec 12) (page : ℕ × ℕ) {g : ℕ → ℕ}
    (h : es.any (isPin ctx page) = true ∨ g 0 = 0) : pinsOf (es.map (recount ctx page g)) ctx page = g (pinsOf es ctx page) := by
  unfold pinsOf
  rw [List.find?_map, isPin_recount]
  cases he : es.find? (isPin ctx page) with
  | none =>
    have hno : es.any (isPin ctx page) = false := List.any_eq_false.mpr (List.find?_eq_none.mp he)
    exact (h.resolve_left (by simp [hno])).symm
  | some e => simp [recount, List.find?_some he]

theorem pinsOf_recount_other (es : List (BitVec 12 × ℕ × ℕ × ℕ)) (ctx : BitVec 12) {page k : ℕ × ℕ} (g : ℕ → ℕ) (h : k ≠ page) :
    pinsOf (es.map (recount ctx page g)) ctx k = pinsOf es ctx k := by
  unfold pinsOf
  rw [List.find?_map, isPin_recount]
  cases he : es.find? (isPin ctx k) with
  | none => rfl
  | some e =>
    have hno : isPin ctx page e = false := Bool.eq_false_iff.mpr fun hp => h (isPin_unique hp (List.find?_some he))
    simp [recount, hno]

/-- Each page of a context has one entry. -/
def OneEach (es : List (BitVec 12 × ℕ × ℕ × ℕ)) : Prop := es.Pairwise fun e f => ¬ (e.1 = f.1 ∧ e.2.1 = f.2.1 ∧ e.2.2.1 = f.2.2.1)

theorem oneEach_recount {es : List (BitVec 12 × ℕ × ℕ × ℕ)} (h : OneEach es) (ctx : BitVec 12) (page : ℕ × ℕ) (g : ℕ → ℕ) :
    OneEach (es.map (recount ctx page g)) := by
  refine List.pairwise_map.mpr (h.imp fun {e f} hef => ?_)
  obtain ⟨h1, h2, h3⟩ := recount_key ctx page g e
  obtain ⟨k1, k2, k3⟩ := recount_key ctx page g f
  rwa [h1, h2, h3, k1, k2, k3]

/-- Entries that count nothing make no difference. -/
theorem pinsOf_filter {es : List (BitVec 12 × ℕ × ℕ × ℕ)} (h : OneEach es) (ctx : BitVec 12) (k : ℕ × ℕ) :
    pinsOf (es.filter fun e => e.2.2.2 != 0) ctx k = pinsOf es ctx k := by
  induction es with
  | nil => rfl
  | cons e es ih =>
    obtain ⟨hout, hrest⟩ := List.pairwise_cons.mp h
    by_cases hp : isPin ctx k e = true
    · by_cases h0 : e.2.2.2 = 0
      · have hno : es.find? (isPin ctx k) = none := by
          refine List.find?_eq_none.mpr fun f hf hpf => hout f hf ?_
          simp only [isPin, Bool.and_eq_true, beq_iff_eq, Prod.ext_iff] at hp hpf
          exact ⟨hp.1.trans hpf.1.symm, hp.2.1.trans hpf.2.1.symm, hp.2.2.trans hpf.2.2.symm⟩
        have hkept : (e :: es).filter (fun e => e.2.2.2 != 0) = es.filter fun e => e.2.2.2 != 0 := by simp [h0]
        rw [hkept, ih hrest]
        simp [pinsOf, hno, hp, h0]
      · simp [pinsOf, h0, hp]
    · have hskip (xs : List (BitVec 12 × ℕ × ℕ × ℕ)) : pinsOf (e :: xs) ctx k = pinsOf xs ctx k := by simp [pinsOf, hp]
      rw [hskip, ← ih hrest, List.filter_cons]
      split
      · exact hskip _
      · rfl

theorem pin_counts (v : Device) (ctx : BitVec 12) (page : ℕ × ℕ) :
    pinsOf (v.pin ctx page).pins ctx page = min 65535 (pinsOf v.pins ctx page + 1) ∧ ∀ k, k ≠ page → pinsOf (v.pin ctx page).pins ctx k = pinsOf v.pins ctx k := by
  by_cases h : v.pins.any (isPin ctx page) = true
  · have hpin : (v.pin ctx page).pins = v.pins.map (recount ctx page fun n => min 65535 (n + 1)) := by
      unfold Device.pin
      exact congrArg Device.pins (if_pos h)
    rw [hpin]
    exact ⟨pinsOf_recount_same _ _ _ (.inl h), fun k hk => pinsOf_recount_other _ _ _ hk⟩
  · have hpin : (v.pin ctx page).pins = v.pins ++ [(ctx, page.1, page.2, 1)] := by
      unfold Device.pin
      exact congrArg Device.pins (if_neg h)
    have hnone : v.pins.find? (isPin ctx page) = none := List.find?_eq_none.mpr (List.any_eq_false.mp (Bool.eq_false_iff.mpr h))
    refine ⟨by simp [hpin, pinsOf, hnone, isPin], fun k hk => ?_⟩
    have hother : isPin ctx k (ctx, page.1, page.2, 1) = false := by simp [isPin, Ne.symm hk]
    simp only [hpin, pinsOf, List.find?_append, List.find?_singleton, hother, Bool.false_eq_true, if_false, Option.or_none]

theorem retryDeferred_fixtures (v : Device) (covers : BitVec 12 → ℕ → Bool) : (v.retryDeferred covers).fixtures = v.fixtures := by
  unfold Device.retryDeferred
  exact fixtures_foldl (fun v d => updDome_fixtures v d rfl) _ v

theorem retryDeferred_pins (v : Device) (covers : BitVec 12 → ℕ → Bool) : (v.retryDeferred covers).pins = v.pins :=
  (congrArg Fixtures.pins (retryDeferred_fixtures v covers) :)

theorem unpin_counts (v : Device) (ctx : BitVec 12) (page : ℕ × ℕ) (h : OneEach v.pins) :
    pinsOf (v.unpin ctx page).pins ctx page = pinsOf v.pins ctx page - 1 ∧ ∀ k, k ≠ page → pinsOf (v.unpin ctx page).pins ctx k = pinsOf v.pins ctx k := by
  have hpin : (v.unpin ctx page).pins = (v.pins.map (recount ctx page fun n => n - 1)).filter fun e => e.2.2.2 != 0 := by
    unfold Device.unpin
    dsimp only
    split
    · exact retryDeferred_pins ..
    · rfl
  rw [hpin]
  have hone := oneEach_recount h ctx page fun n => n - 1
  exact ⟨(pinsOf_filter hone ctx page).trans (pinsOf_recount_same _ _ _ (.inr rfl)),
    fun k hk => (pinsOf_filter hone ctx k).trans (pinsOf_recount_other _ _ _ hk)⟩

/-! A line of the caches (R116, R311). -/

/-- Between the states a line operation has acted on a line: in the own L1 no other line, and elsewhere only what L1s and L2s hold. -/
structure LineMoved (line : ℕ) (q u : State) : Prop where
  others : ∀ e : ℕ × ℕ, e.1 ≠ line → (e ∈ u.core.l1 ↔ e ∈ q.core.l1)
  core   : u.core = { q.core with l1 := u.core.l1 }
  dev    : u.dev = { q.dev with domes := u.dev.domes }
  domes  : ∀ d : Fin 4, u.dev.domes[d] = { q.dev.domes[d] with l2 := u.dev.domes[d].l2 }
  parked : u.parked.map (fun x => (x.1, { x.2 with l1 := [] })) = q.parked.map fun x => (x.1, { x.2 with l1 := [] })

theorem LineMoved.refl (line : ℕ) (q : State) : LineMoved line q q := ⟨fun _ _ => .rfl, rfl, rfl, fun _ => rfl, rfl⟩

theorem LineMoved.trans {line : ℕ} {q t u : State} (h : LineMoved line q t) (k : LineMoved line t u) : LineMoved line q u where
  others e he := (k.others e he).trans (h.others e he)
  core := by rw [k.core, h.core]
  dev := by rw [k.dev, h.dev]
  domes d := by rw [k.domes d, h.domes d]
  parked := k.parked.trans h.parked

/-- A change of what the L2 of a dome holds. -/
theorem updDome_l2 (v : Device) (d : ℕ) (f : List (ℕ × ℕ × Bool) → List (ℕ × ℕ × Bool)) (k : Fin 4) :
    (v.updDome d fun x => { x with l2 := f x.l2 }).domes[k] =
      { v.domes[k] with l2 := (v.updDome d fun x => { x with l2 := f x.l2 }).domes[k].l2 } := by
  simp only [Device.updDome, Fin.getElem_fin, Vector.getElem_set]
  split
  next he => simp only [Device.dome, he]
  next => rfl

/-- A change of the own L1 on one line. -/
theorem upd_l1_lineMoved (q : State) (line : ℕ) {l1 : List (ℕ × ℕ)} (h : ∀ e : ℕ × ℕ, e.1 ≠ line → (e ∈ l1 ↔ e ∈ q.core.l1)) :
    LineMoved line q (q.upd fun c => { c with l1 := l1 }) := ⟨h, rfl, rfl, fun _ => rfl, rfl⟩

/-- A change of what the L2 of a dome holds, and of nothing else. -/
theorem updL2_lineMoved (q : State) (line d : ℕ) (f : List (ℕ × ℕ × Bool) → List (ℕ × ℕ × Bool)) :
    LineMoved line q (q.updDev fun v => v.updDome d fun x => { x with l2 := f x.l2 }) := ⟨fun _ _ => .rfl, rfl, rfl, updDome_l2 q.dev d f, rfl⟩

theorem linesOf_one (pa : ℕ) : linesOf pa 1 = [pa / 128] := by
  have h : (pa + 1 + 127) / 128 - pa / 128 = 1 := by omega
  simp [linesOf, h]

theorem mem_l1Put_other {l : List (ℕ × ℕ)} {line sc : ℕ} {e : ℕ × ℕ} (h : e.1 ≠ line) : e ∈ l1Put l line sc ↔ e ∈ l := by
  have hne : e ≠ (line, sc) := fun he => h (congrArg Prod.fst he)
  simp [l1Put, hne, h]

theorem l1Fill_line (q : State) (pa : ℕ) : LineMoved (pa / 128) q (q.l1Fill pa 1) ∧
    (inWindow pa = false → ∃ sc, (pa / 128, sc) ∈ (q.l1Fill pa 1).core.l1) ∧ (inWindow pa = true → (q.l1Fill pa 1).core.l1 = q.core.l1) := by
  unfold State.l1Fill
  cases hw : inWindow pa with
  | true => exact ⟨.refl .., fun h => (Bool.noConfusion h), fun _ => rfl⟩
  | false =>
    cases hin : q.core.l1.any fun x => x.1 == pa / 128 with
    | true =>
      simp only [linesOf_one, List.filter_singleton, hin, Bool.not_true, cond_false, Bool.false_eq_true, if_false, List.isEmpty_nil, if_true]
      obtain ⟨x, hx, hxe⟩ := List.any_eq_true.mp hin
      exact ⟨.refl .., fun _ => ⟨x.2, (beq_iff_eq.mp hxe) ▸ hx⟩, fun h => h.elim⟩
    | false =>
      simp only [linesOf_one, List.filter_singleton, hin, Bool.not_false, cond_true, Bool.false_eq_true, if_false, List.isEmpty_cons, List.foldl_cons, List.foldl_nil]
      exact ⟨⟨fun e he => mem_l1Put_other he, rfl, rfl, updDome_l2 q.dev q.focus.dome fun l => if l.any fun y => y.1 == pa / 128 then l else
        l2Put l (pa / 128) (fillScope q.focus.dome (pa / 128)) false, rfl⟩, fun _ => ⟨_, List.mem_cons_self⟩, fun h => h.elim⟩

/-- The lines of the own L1 that a write-back of one line picks. -/
theorem mem_picked {l1 : List (ℕ × ℕ)} {scope line k : ℕ} (h : k ∈ (l1.filter fun x => decide (x.2 < scope) && x.1 == line).map Prod.fst) : k = line := by
  obtain ⟨x, hx, rfl⟩ := List.mem_map.mp h
  have hpick := (List.mem_filter.mp hx).2
  exact beq_iff_eq.mp (Bool.and_eq_true_iff.mp hpick).2

/-- A write-back of lines that are one. -/
theorem backLines_line (q : State) (scope line : ℕ) {ls : List ℕ} (h : ∀ k ∈ ls, k = line) : LineMoved line q (q.backLines scope ls) := by
  unfold State.backLines
  split
  · exact .refl ..
  · have hno {e : ℕ × ℕ} (he : e.1 ≠ line) : ls.contains e.1 = false :=
      Bool.eq_false_iff.mpr fun hc => he (h _ (List.contains_iff_mem.mp hc))
    refine ⟨fun e he => ?_, rfl, rfl, updDome_l2 q.dev q.focus.dome fun l =>
      ls.foldl (fun l k => if scope ≥ 3 then l2Put l k 3 false else l2Put l k (fillScope q.focus.dome k) true) l, ?_⟩
    · refine List.mem_map.trans ⟨fun ⟨x, hx, hxe⟩ => ?_, fun hin => ⟨e, hin, by rw [hno he]; rfl⟩⟩
      have hkey : x.1 = e.1 := by rw [← hxe]; split <;> rfl
      rw [hno (hkey ▸ he)] at hxe
      exact hxe ▸ hx
    · rw [List.map_map]
      refine List.map_congr_left fun x _ => ?_
      dsimp only [Function.comp]
      split <;> rfl

theorem lineBack_line (q : State) (scope line : ℕ) : LineMoved line q (q.lineBack scope line) ∧ (0 < scope → (line, 0) ∉ (q.lineBack scope line).core.l1) := by
  unfold State.lineBack
  by_cases hc : q.core.l1.contains (line, 0) = true
  · rw [if_pos hc]
    have hls := backLines_line q scope line fun k (hk : k ∈ (q.core.l1.filter fun x => decide (x.2 < scope) && x.1 == line).map Prod.fst) => mem_picked hk
    have hback : LineMoved line q (q.writeBack scope fun k => k == line) ∧
        (q.writeBack scope fun k => k == line).core = (q.backLines scope ((q.core.l1.filter fun x => decide (x.2 < scope) && x.1 == line).map Prod.fst)).core := by
      unfold State.writeBack
      dsimp only
      split
      · exact ⟨hls, rfl⟩
      · exact ⟨hls.trans (updL2_lineMoved _ line _ fun l => l.map fun y : ℕ × ℕ × Bool => if y.2.2 && y.1 == line then (y.1, 3, false) else y), rfl⟩
    refine ⟨hback.1, fun hs => ?_⟩
    rw [hback.2]
    have hpicked : line ∈ (q.core.l1.filter fun x => decide (x.2 < scope) && x.1 == line).map Prod.fst :=
      List.mem_map.mpr ⟨(line, 0), List.mem_filter.mpr ⟨List.contains_iff_mem.mp hc, by simp [hs]⟩, rfl⟩
    unfold State.backLines
    rw [if_neg (by simp only [not_or, List.isEmpty_iff]; exact ⟨List.ne_nil_of_mem hpicked, hs.ne'⟩)]
    intro hin
    obtain ⟨x, hx, hxe⟩ := List.mem_map.mp hin
    split at hxe
    next => have := congrArg Prod.snd hxe; simp at this; omega
    next hno => exact hno (List.contains_iff_mem.mpr (hxe ▸ hpicked))
  · rw [if_neg hc]
    exact ⟨.refl .., fun _ hin => hc (List.contains_iff_mem.mpr hin)⟩

theorem dropLine_line (q : State) (line : ℕ) : LineMoved line q (q.upd fun c => { c with l1 := c.l1.filter fun l => l.1 != line }) ∧
    ∀ sc, (line, sc) ∉ (q.core.l1.filter fun l => l.1 != line) := by
  refine ⟨upd_l1_lineMoved q line fun e he => ?_, fun sc hin => ?_⟩
  · simp [he]
  · simp at hin

/-! The operations. -/

section Line
variable {s : State} {o : AForm} {i : Instr} (hr : s.refuses i = none) (hg : s.core.active o.g = true)
include hr hg

theorem ifAllowedG_accepts (f : State → State) : s.ifAllowedG i o.g f = .next (f s) := by
  simp only [State.ifAllowedG, hr, hg, if_true]

/-- A line operation on an address in global memory acts on its line, after the access to the page. -/
theorem lineOp_phys (f : State → ℕ → State) {pa : ℕ} (hp : s.place 0 (s.ea o (o.mod.getLsbD 0)) 1 .any = .ok (.phys, pa)) :
    s.lineOp i o f = .next (f (s.touch 0 (s.ea o (o.mod.getLsbD 0)) 1 .any) pa) := by
  unfold State.lineOp
  rw [ifAllowedG_accepts hr hg]
  simp only [sxOf, hp, if_true]

theorem lineOp_unmapped (f : State → ℕ → State) {code : ℕ} (hp : s.place 0 (s.ea o (o.mod.getLsbD 0)) 1 .any = .error code) :
    ∃ u, s.lineOp i o f = .next u ∧ u.core.s = s.core.s ∧ u.core.a = s.core.a ∧ u.core.l1 = s.core.l1 := by
  refine ⟨s.failWalk 0 (s.ea o (o.mod.getLsbD 0)) code, ?_, ?_⟩
  · unfold State.lineOp
    rw [ifAllowedG_accepts hr hg]
    simp only [sxOf, hp]
  · obtain ⟨tlb, h⟩ := (failWalk_accessed s 0 (s.ea o (o.mod.getLsbD 0)) code).rest
    rw [h]
    exact ⟨rfl, rfl, rfl⟩

/-- A line operation, by what it does to its line. -/
theorem lineOp_acts {f : State → ℕ → State} (hexec : exec i s = s.lineOp i o f) {l : ℕ → List (ℕ × ℕ) → Prop}
    (hf : ∀ q pa, q.core.l1 = s.core.l1 → LineMoved (pa / 128) q (f q pa) ∧ l pa (f q pa).core.l1) :
    (∀ pa, s.place 0 (s.ea o (o.mod.getLsbD 0)) 1 .any = .ok (.phys, pa) → ∃ u, exec i s = .next u ∧ l pa u.core.l1 ∧
      (∀ e : ℕ × ℕ, e.1 ≠ pa / 128 → (e ∈ u.core.l1 ↔ e ∈ s.core.l1)) ∧
      (let q := s.touch 0 (s.ea o (o.mod.getLsbD 0)) 1 .any
       u.core = { q.core with l1 := u.core.l1 } ∧ u.dev = { q.dev with domes := u.dev.domes } ∧
       (∀ d : Fin 4, u.dev.domes[d] = { q.dev.domes[d] with l2 := u.dev.domes[d].l2 }) ∧
       u.parked.map (fun x => (x.1, { x.2 with l1 := [] })) = q.parked.map (fun x => (x.1, { x.2 with l1 := [] })))) ∧
    ∀ code, s.place 0 (s.ea o (o.mod.getLsbD 0)) 1 .any = .error code →
      ∃ u, exec i s = .next u ∧ u.core.s = s.core.s ∧ u.core.a = s.core.a ∧ u.core.l1 = s.core.l1 := by
  refine ⟨fun pa hp => ?_, fun code hp => hexec ▸ lineOp_unmapped hr hg f hp⟩
  obtain ⟨tlb, hrest⟩ := (touch_accessed s 0 (s.ea o (o.mod.getLsbD 0)) 1 .any).rest
  have hl1 : (s.touch 0 (s.ea o (o.mod.getLsbD 0)) 1 .any).core.l1 = s.core.l1 := by rw [hrest]
  obtain ⟨hline, hl⟩ := hf _ pa hl1
  exact ⟨_, hexec.trans (lineOp_phys hr hg f hp), hl, fun e he => (hline.others e he).trans (by rw [hl1]), hline.core, hline.dev, hline.domes, hline.parked⟩

end Line

theorem commitSeg_touch_keeps (s : State) (x : Int) :
    let u := s.commitSeg.touch 0 x 1 .any
    u.core.s = s.core.s ∧ u.core.a = s.core.a ∧ u.dev.fixtures = s.dev.fixtures := by
  obtain ⟨⟨tlb, hrest⟩, hfix⟩ := touch_accessed s.commitSeg 0 x 1 .any
  obtain ⟨-, -, hs, -, -⟩ := commitSeg_core s
  refine ⟨?_, ?_, hfix.trans (commitSeg_fixtures s)⟩
  · rw [hrest]
    exact hs
  · rw [hrest]
    exact commitSeg_a s

/-- A line that is pinned in its home dome, while there is room. -/
def pinLine (ctx : BitVec 12) (line : ℕ) (d : Dome) : Dome :=
  if d.linePins.contains (ctx, line) || (d.linePins.filter fun q => q.1 == ctx).length ≥ 4096 then d
  else { d with linePins := d.linePins ++ [(ctx, line)] }

theorem dome_updDome (v : Device) (d : ℕ) (f : Dome → Dome) : (v.updDome d f).dome d = f (v.dome d) := Vector.getElem_set_self ..

theorem pinLine_pins (ctx : BitVec 12) (line : ℕ) (d : Dome) :
    ((d.linePins.filter fun q => q.1 == ctx).length < 4096 → (ctx, line) ∈ (pinLine ctx line d).linePins) ∧
    ((d.linePins.filter fun q => q.1 == ctx).length ≥ 4096 → (pinLine ctx line d).linePins = d.linePins) := by
  unfold pinLine
  refine ⟨fun hlt => ?_, fun hge => by simp [hge]⟩
  have hroom : ¬ (d.linePins.filter fun q => q.1 == ctx).length ≥ 4096 := Nat.not_le.mpr hlt
  by_cases hc : d.linePins.contains (ctx, line) = true
  · rw [if_pos (by simp only [hc, Bool.true_or])]
    exact List.contains_iff_mem.mp hc
  · rw [if_neg (by simp only [hc, hroom, Bool.false_or, decide_false, not_false_eq_true, Bool.false_eq_true])]
    exact List.mem_append_right _ List.mem_cons_self

section Pin
variable {s : State} {o : AForm} (hg : s.core.active o.g = true)
include hg

theorem lpin_pins (hr : s.refuses (.lpin o) = none) {p : Place × ℕ} (hp : s.place 0 (s.ea o false) 1 .any = .ok p) :
    let page := (s.commitSeg.touch 0 (s.ea o false) 1 .any).dev.pageOf s.ctx (BitVec.ofInt 80 (s.ea o false))
    ∃ u, exec (.lpin o) s = .next u ∧ u.core.s = s.core.s ∧ u.core.a = s.core.a ∧
      pinsOf u.dev.pins s.ctx page = min 65535 (pinsOf s.dev.pins s.ctx page + 1) ∧ ∀ k, k ≠ page → pinsOf u.dev.pins s.ctx k = pinsOf s.dev.pins s.ctx k := by
  obtain ⟨hs, ha, hfix⟩ := commitSeg_touch_keeps s (s.ea o false)
  have hpins : (s.commitSeg.touch 0 (s.ea o false) 1 .any).dev.pins = s.dev.pins := (congrArg Fixtures.pins hfix :)
  have hexec : exec (.lpin o) s = .next ((s.commitSeg.touch 0 (s.ea o false) 1 .any).updDev fun v =>
      v.pin s.ctx (v.pageOf s.ctx (BitVec.ofInt 80 (s.ea o false)))) := by
    show execLpin o s = _
    unfold execLpin
    rw [ifAllowedG_accepts hr hg]
    simp only [hp]
  refine ⟨_, hexec, hs, ha, ?_⟩
  rw [← hpins]
  exact pin_counts ..

theorem lpin_unmapped (hr : s.refuses (.lpin o) = none) {code : ℕ} (hp : s.place 0 (s.ea o false) 1 .any = .error code) :
    exec (.lpin o) s = .next (s.memTrap code 0 (s.ea o false) .a) := by
  show execLpin o s = _
  unfold execLpin
  rw [ifAllowedG_accepts hr hg]
  simp only [hp]

theorem lunpin_pins (hr : s.refuses (.lunpin o) = none) (hone : OneEach s.dev.pins) :
    let page := s.commitSeg.dev.pageOf s.ctx (BitVec.ofInt 80 (s.ea o false))
    ∃ u, exec (.lunpin o) s = .next u ∧ u.core.s = s.core.s ∧ u.core.a = s.core.a ∧
      pinsOf u.dev.pins s.ctx page = pinsOf s.dev.pins s.ctx page - 1 ∧ ∀ k, k ≠ page → pinsOf u.dev.pins s.ctx k = pinsOf s.dev.pins s.ctx k := by
  have hpins : s.commitSeg.dev.pins = s.dev.pins := (congrArg Fixtures.pins (commitSeg_fixtures s) :)
  obtain ⟨-, -, hs, -, -⟩ := commitSeg_core s
  have hexec : exec (.lunpin o) s =
      .next (s.commitSeg.updDev fun v => v.unpin s.ctx (v.pageOf s.ctx (BitVec.ofInt 80 (s.ea o false)))) := by
    show execLunpin o s = _
    unfold execLunpin
    rw [ifAllowedG_accepts hr hg]
  refine ⟨_, hexec, hs, commitSeg_a s, ?_⟩
  rw [← hpins]
  exact unpin_counts s.commitSeg.dev s.ctx _ (hpins ▸ hone)

theorem lpinLine_pins (hr : s.refuses (.lpinLine o) = none) {p : Place × ℕ} (hp : s.place 0 (s.ea o false) 1 .any = .ok p) :
    ∃ u, exec (.lpinLine o) s = .next u ∧ u.core.s = s.core.s ∧
      (((s.dev.dome (l2Home p.2)).linePins.filter fun q => q.1 == s.ctx).length < 4096 →
        (s.ctx, (s.ea o false).toNat / 128) ∈ (u.dev.dome (l2Home p.2)).linePins) ∧
      (((s.dev.dome (l2Home p.2)).linePins.filter fun q => q.1 == s.ctx).length ≥ 4096 →
        (u.dev.dome (l2Home p.2)).linePins = (s.dev.dome (l2Home p.2)).linePins) := by
  obtain ⟨hs, -, hfix⟩ := commitSeg_touch_keeps s (s.ea o false)
  have hlines := linePins_of_fixtures hfix (l2Home p.2)
  have hexec : exec (.lpinLine o) s = .next ((s.commitSeg.touch 0 (s.ea o false) 1 .any).updDev fun v =>
      v.updDome (l2Home p.2) (pinLine s.ctx ((s.ea o false).toNat / 128))) := by
    show execLpinLine o s = _
    unfold execLpinLine
    rw [ifAllowedG_accepts hr hg]
    simp only [hp]
    rfl
  refine ⟨_, hexec, hs, ?_⟩
  rw [updDev_dev, dome_updDome, ← hlines]
  exact pinLine_pins ..

theorem lunpinLine_pins (hr : s.refuses (.lunpinLine o) = none) :
    ∃ u, exec (.lunpinLine o) s = .next u ∧ u.core.s = s.core.s ∧ ∀ d, (s.ctx, (s.ea o false).toNat / 128) ∉ (u.dev.dome d).linePins := by
  obtain ⟨-, -, hs, -, -⟩ := commitSeg_core s
  have hexec : exec (.lunpinLine o) s = .next (s.commitSeg.updDev fun v =>
      { v with domes := v.domes.map fun d => { d with linePins := d.linePins.filter fun q => q != (s.ctx, (s.ea o false).toNat / 128) } }) := by
    show execLunpinLine o s = _
    unfold execLunpinLine
    rw [ifAllowedG_accepts hr hg]
  refine ⟨_, hexec, hs, fun d hin => ?_⟩
  simp [Device.dome] at hin

end Pin

/-- Settles O24: a line operation acts on its line of the caches alone, and neither stores nor walks touch a pin. -/
theorem lineAndPinOperations : Obligations.LineAndPinOperations := by
  unfold Obligations.LineAndPinOperations
  intro s o hg _ count x y line
  have hpref : exec (.pref o) s = s.lineOp (.pref o) o fun s pa => s.l1Fill pa 1 := rfl
  have hwbl : exec (.wbl o) s = s.lineOp (.wbl o) o fun s pa => s.lineBack o.scope.toNat (pa / 128) := rfl
  have hinvl : exec (.invl o) s = s.lineOp (.invl o) o fun s pa =>
      (s.lineBack (max 1 o.scope.toNat) (pa / 128)).upd fun c => { c with l1 := c.l1.filter fun l => l.1 != pa / 128 } := rfl
  refine ⟨fun hr => lineOp_acts hr hg hpref (l := fun pa l1 => (inWindow pa = false → ∃ sc, (pa / 128, sc) ∈ l1) ∧
      (inWindow pa = true → ∀ sc, (pa / 128, sc) ∈ l1 ↔ (pa / 128, sc) ∈ s.core.l1)) fun q pa hq => ?_,
    fun hr => lineOp_acts hr hg hwbl (l := fun pa l1 => 0 < o.scope.toNat → (pa / 128, 0) ∉ l1) fun q pa _ => ?_,
    fun hr => lineOp_acts hr hg hinvl (l := fun pa l1 => ∀ sc, (pa / 128, sc) ∉ l1) fun q pa _ => ?_, fun hr p hp => lpin_pins hg hr hp, fun hr code hp => lpin_unmapped hg hr hp,
    fun hr _ hone => lunpin_pins hg hr hone, fun hr p hp => ?_, fun hr => lunpinLine_pins hg hr⟩
  · obtain ⟨hline, hfills, hwindow⟩ := l1Fill_line q pa
    exact ⟨hline, hfills, fun hw sc => by rw [hwindow hw, hq]⟩
  · exact lineBack_line q o.scope.toNat (pa / 128)
  · obtain ⟨hback, -⟩ := lineBack_line q (max 1 o.scope.toNat) (pa / 128)
    obtain ⟨hdrop, hgone⟩ := dropLine_line (q.lineBack (max 1 o.scope.toNat) (pa / 128)) (pa / 128)
    exact ⟨hback.trans hdrop, hgone⟩
  · obtain ⟨u, hexec, hs, hroom, hfull⟩ := lpinLine_pins hg hr hp
    exact ⟨u, hexec, hs, hroom, fun hlen _ => hfull hlen⟩

end Sys2Proof.Machine
end

section
/-! O41: engine operations start (R129, R130, R322, R325, R326, R328, R331). -/

namespace Sys2Proof.Machine

/-! An operation joins those outstanding. -/

theorem countUp_counter (c : Core) (i : Option (BitVec 3)) (scope : BitVec 3) :
    (∀ j, i = some j → (c.countUp i scope).counter j =
      ((c.counter j).1 + 1, if (c.counter j).2.toNat < scope.toNat then scope else (c.counter j).2)) ∧
    ∀ j, i ≠ some j → (c.countUp i scope).counter j = c.counter j := by
  cases i with
  | none => exact ⟨fun _ h => absurd h.symm (Option.some_ne_none _), fun _ _ => rfl⟩
  | some k =>
    refine ⟨fun j h => ?_, fun j h => ?_⟩
    · cases Option.some.inj h
      exact Vector.getElem_set_self k.isLt
    · exact Vector.getElem_set_ne k.isLt j.isLt fun he => h (congrArg some (BitVec.eq_of_toNat_eq he))

theorem startEngine_started (c : Core) (o : XForm) {e : EngineOp} (ht : e.tok = o.d) (hc : e.ctr = counterOf o) :
    engineStarted c o e (c.startEngine e) := by
  obtain ⟨hup, hother⟩ := countUp_counter { c with outst := c.outst ++ [.engine e], tokens := c.tokens.filter fun t => t.reg != e.tok } e.ctr e.scope
  refine ⟨?_, ht, hc.trans ?_, hup, hother⟩
  · rw [← ht, Core.startEngine]
    cases e.ctr <;> rfl
  · rw [counterOf, setWidth_eq_ofNat]

/-! What the reads of an engine instruction leave behind. -/

/-- Between the states an engine has read: of the unit's core only its translation caches and its races have changed. -/
def Reading (t u : State) : Prop :=
  ∃ tlb raced v n, u = { t with core := { t.core with tlb := tlb, raced := raced }, dev := v, reads := n }

theorem Reading.refl (t : State) : Reading t t := ⟨_, _, _, _, rfl⟩

theorem Reading.trans {s t u : State} (h : Reading s t) (k : Reading t u) : Reading s u := by
  obtain ⟨_, _, _, _, rfl⟩ := h
  obtain ⟨_, _, _, _, rfl⟩ := k
  exact ⟨_, _, _, _, rfl⟩

theorem Reading.foldl {α : Type} {f : State → α → State} (h : ∀ s x, Reading s (f s x)) (xs : List α) (s : State) : Reading s (xs.foldl f s) := by
  induction xs generalizing s with
  | nil => exact .refl s
  | cons x xs ih => exact (h s x).trans (ih _)

theorem Reading.ite {c : Prop} [Decidable c] {s t u : State} (h : Reading s t) (k : Reading s u) : Reading s (if c then t else u) := by
  split <;> assumption

theorem Accessed.reading {s t : State} (h : Accessed s t) : Reading s t := by
  obtain ⟨⟨tlb, hrest⟩, -⟩ := h
  rw [hrest]
  exact ⟨_, _, _, _, rfl⟩

theorem touch_reading (s : State) (as : ℕ) (x : Int) (n : ℕ) (k : Kind) : Reading s (s.touch as x n k) := (touch_accessed ..).reading

theorem failWalk_reading (s : State) (as : ℕ) (x : Int) (code : ℕ) : Reading s (s.failWalk as x code) := (failWalk_accessed ..).reading

theorem saw_reading (s : State) (fl : List ℕ) (n : ℕ) (ps : List (Place × ℕ)) : Reading s (s.saw fl n ps) := by
  unfold State.saw
  split <;> exact ⟨_, _, _, _, rfl⟩

theorem copyTouch_reading (s : State) (c : CopyDesc) (n : ℕ) (fault : Option (ℕ × Int × ℕ)) : Reading s (s.copyTouch c n fault) := by
  have h := (saw_reading s [] c.ssz (s.copyReads c n)).trans (Reading.foldl (fun s k =>
    (touch_reading s c.srcSp (c.srcAt (c.start + k)) c.ssz .load).trans (touch_reading _ c.dstSp (c.dstAt (c.start + k)) c.dsz .store)) (List.range n) _)
  unfold State.copyTouch
  dsimp only
  split
  · exact h.trans (failWalk_reading ..)
  · exact h

theorem askRemote_reading (s : State) (kind : ℕ) (c : CopyDesc) (r : CopyRun) : Reading s (s.askRemote kind c r) := by
  unfold State.askRemote
  split <;> exact ⟨_, _, _, _, rfl⟩

/-- An operation that starts once its instruction has read. -/
theorem engineGoes_of_reading {t u s : State} {o : XForm} {i : Instr} {e : EngineOp} (h : Reading t u)
    (hexec : exec i s = .next (u.upd fun c => c.startEngine e)) (ht : e.tok = o.d) (hc : e.ctr = counterOf o) : engineGoes t o i s e := by
  obtain ⟨tlb, raced, v, n, rfl⟩ := h
  exact ⟨{ t.core with tlb := tlb, raced := raced }, _, v, n, hexec, rfl, startEngine_started _ o ht hc⟩

/-! Copies (R317, R325, R326). -/

theorem poisoned_own {s : State} {ti : TaskInfo} (ht : s.core.task = some ti) (hp : ∀ q ∈ s.dev.poison, q.1 ≠ .spad ti.part ti.slot) (n : ℕ)
    {ps : List (Place × ℕ)} (hps : ∀ p ∈ ps, p.1 = .own) : s.poisoned n ps = none := by
  have hnone : ps.find? (fun p => s.dev.poisonedAt (s.markAt p).1 (s.markAt p).2 n) = none := by
    refine List.find?_eq_none.mpr fun p hin hpoison => ?_
    obtain ⟨q, hq, hmeets⟩ := List.any_eq_true.mp hpoison
    simp only [State.markAt, ht, hps p hin, Bool.and_eq_true, beq_iff_eq] at hmeets
    exact hp q hq hmeets.1.1
  rw [State.poisoned, hnone]
  rfl

theorem withDesc_reads {s : State} {o : XForm} {ti : TaskInfo} (h : copyDescOk s o ti) (f : List Byte → State) :
    s.withDesc (s.core.sreg o.a).toNat 256 f = f (s.bytesAt .own (s.core.sreg o.a).toNat 256) := by
  obtain ⟨ht, hal, hlim, hp⟩ := h
  have hnone : s.poisoned 64 ((List.range ((256 + 63) / 64)).map fun k => (Place.own, (s.core.sreg o.a).toNat + 64 * k)) = none :=
    poisoned_own ht hp 64 fun p hin => by
      obtain ⟨k, -, rfl⟩ := List.mem_map.mp hin
      rfl
  have hdesc : ¬ (s.core.sreg o.a).toNat + 256 > s.descLimit := by
    rw [State.descLimit, ht]
    exact Nat.not_lt.mpr hlim
  unfold State.withDesc
  rw [if_neg (not_not.mpr hal), if_neg hdesc, hnone]

/-- The run of a copy, which an invalid descriptor does not make. -/
def State.copyResult (t : State) (kind : ℕ) (d : List Byte) (entry : Option QEntry) : CopyRun :=
  if copyValid kind d then t.copyAll (copyOf (kind == 2) d) entry else { pieces := [], bytes := 0, flags := 0, status := 2 }

/-- The state that a copy leaves when it has read. -/
def State.copyHasRead (t : State) (kind : ℕ) (d : List Byte) (entry : Option QEntry) : State :=
  let c := copyOf (kind == 2) d
  let r := t.copyResult kind d entry
  if copyValid kind d then (t.copyTouch c (r.bytes / c.dsz) r.fault).askRemote kind c r else t

/-- The operation that a copy starts. -/
def State.copyStarts (t : State) (kind : ℕ) (o : XForm) (scope : BitVec 3) (d : List Byte) (entry : Option QEntry) : EngineOp :=
  let c := copyOf (kind == 2) d
  let r := t.copyResult kind d entry
  copyOp kind o scope d c r (if kind = 3 then t.failingReads c (r.bytes / c.dsz) else t.copyCarry c (r.bytes / c.dsz))

theorem copyHasRead_reading (t : State) (kind : ℕ) (d : List Byte) (entry : Option QEntry) : Reading t (t.copyHasRead kind d entry) := by
  unfold State.copyHasRead
  dsimp only
  split
  · exact (copyTouch_reading ..).trans (askRemote_reading ..)
  · exact .refl t

/-- A copy starts, past its descriptor, with fifteen operations at most outstanding. -/
def State.copyGoes (t : State) (kind : ℕ) (o : XForm) (scope : BitVec 3) (d : List Byte) (entry : Option QEntry) : State :=
  (t.copyHasRead kind d entry).upd fun c => c.startEngine (t.copyStarts kind o scope d entry)

theorem startCopy_eq {s : State} {o : XForm} {ti : TaskInfo} (h : copyDescOk s o ti) (kind : ℕ) (scope : BitVec 3) :
    let d := s.bytesAt .own (s.core.sreg o.a).toNat 256
    let cd := copyOf (kind == 2) d
    s.startCopy kind o scope = if s.core.engineCount ≥ 16 then s.wait
      else if copyValid kind d && cd.aligned && cd.srcSp == 4 then
        s.commitSeg.withHead cd.q .x fun e t => (t.copyGoes kind o scope d (some e)).upd fun c => c.popQuarter cd.q
      else s.commitSeg.copyGoes kind o scope d none := by
  unfold State.startCopy
  rw [withDesc_reads h]
  rfl

/-- What a copy instruction does, for each of the four. -/
def CopyInstruction (s : State) (o : XForm) (i : Instr) (kind : ℕ) (sc : BitVec 3) : Prop :=
  let t := s.commitSeg
  let d := s.bytesAt .own (s.core.sreg o.a).toNat 256
  let full := 16 ≤ s.core.engineCount
  let cd := copyOf (kind == 2) d
  (full → exec i s = .next { s with last := .waits }) ∧
  let home : BitVec 3 := if cd.dstSp = 2 then 1 else if cd.dstSp = 3 then 2 else 0
  let scope : BitVec 3 := if sc.toNat < home.toNat then home else sc
  (¬ full → copyValid kind d = false → ∃ e u, exec i s = .next { t with core := u } ∧ engineStarted t.core o e u ∧
    e.kind = kind ∧ e.status = 2 ∧ e.pieces = [] ∧ e.bytes = 0 ∧ e.scope = scope) ∧
  (¬ full → copyValid kind d = true → cd.srcSp ≠ 4 → ∃ e, engineGoes t o i s e ∧
    e.kind = kind ∧ e.scope = scope ∧ e.desc = d ∧ e.pieces = (t.copyAll cd none).pieces ∧ e.status = (t.copyAll cd none).status ∧
    e.bytes = (t.copyAll cd none).bytes ∧ e.flags = (t.copyAll cd none).flags) ∧
  (¬ full → copyValid kind d = true → cd.aligned = true → cd.srcSp = 4 → t.core.mat.queue cd.q = [] → (∀ x ∈ t.core.mat.drains, x.q ≠ cd.q) →
    exec i s = .next (t.takeTrap 0x0A 5 (BitVec.ofNat 64 (cd.q.toNat + 256)) false)) ∧
  (∀ e rest, ¬ full → copyValid kind d = true → cd.aligned = true → cd.srcSp = 4 → t.core.mat.queue cd.q = e :: rest →
    ∃ u, exec i s = .next u ∧ u.core.outst.length = t.core.outst.length + 1 ∧ u.core.s = t.core.s ∧
      u.core.mat.queue cd.q = (if 3 ≤ e.popped then rest else { e with popped := e.popped + 1 } :: rest))

theorem head_empty {m : MatCtx} {q : BitVec 2} (h : m.queue q = []) (hd : ∀ x ∈ m.drains, x.q ≠ q) : m.head q = .empty := by
  have hnone : m.inFlight q = [] := List.filter_eq_nil_iff.mpr fun x hx => by simpa using hd x hx
  simp only [MatCtx.head, h, hnone]

theorem head_entry {m : MatCtx} {q : BitVec 2} {e : QEntry} {rest : List QEntry} (h : m.queue q = e :: rest) : m.head q = .entry e := by
  simp only [MatCtx.head, h]

theorem popQuarter_queue {c : Core} {q : BitVec 2} {e : QEntry} {rest : List QEntry} (h : c.mat.queue q = e :: rest) :
    (c.popQuarter q).mat.queue q = (if 3 ≤ e.popped then rest else { e with popped := e.popped + 1 } :: rest) ∧ (c.popQuarter q).outst = c.outst ∧
      (c.popQuarter q).s = c.s := by
  have hpop : c.popQuarter q = { c with
      mat := { c.mat with queues := c.mat.queues.set q.toNat (if 3 ≤ e.popped then rest else { e with popped := e.popped + 1 } :: rest) q.isLt },
      popped := (c.popQuarter q).popped } := by
    simp only [Core.popQuarter, h]
  rw [hpop]
  exact ⟨Vector.getElem_set_self .., rfl, rfl⟩

theorem startEngine_rest (c : Core) (e : EngineOp) :
    (c.startEngine e).mat = c.mat ∧ (c.startEngine e).s = c.s ∧ (c.startEngine e).outst = c.outst ++ [.engine e] := by
  unfold Core.startEngine Core.countUp
  split <;> exact ⟨rfl, rfl, rfl⟩

theorem copyStarts_fields (t : State) (kind : ℕ) (o : XForm) (sc : BitVec 3) (d : List Byte) (entry : Option QEntry) :
    let e := t.copyStarts kind o sc d entry
    let r := t.copyResult kind d entry
    (e.tok = o.d ∧ e.ctr = counterOf o) ∧ e.kind = kind ∧ e.scope = copyScope sc (copyOf (kind == 2) d).dstSp ∧ e.desc = d ∧ e.pieces = r.pieces ∧
      e.status = r.status ∧ e.bytes = r.bytes ∧ e.flags = r.flags := ⟨⟨rfl, rfl⟩, rfl, rfl, rfl, rfl, rfl, rfl, rfl⟩

theorem copy_full {s : State} {o : XForm} {ti : TaskInfo} (h : copyDescOk s o ti) {i : Instr} {kind : ℕ} {sc : BitVec 3}
    (hexec : exec i s = .next (s.startCopy kind o sc)) (hfull : 16 ≤ s.core.engineCount) : exec i s = .next { s with last := .waits } := by
  have heq := startCopy_eq h kind sc
  dsimp only at heq
  rw [hexec, heq, if_pos hfull]
  rfl

section Copy
variable {s : State} {o : XForm} {ti : TaskInfo} (h : copyDescOk s o ti) {i : Instr} {kind : ℕ} {sc : BitVec 3}
  (hexec : exec i s = .next (s.startCopy kind o sc)) {d : List Byte} (hd : s.bytesAt .own (s.core.sreg o.a).toNat 256 = d)
include h hexec hd

theorem copy_plain (hroom : ¬ 16 ≤ s.core.engineCount)
    (hno : (copyValid kind d && (copyOf (kind == 2) d).aligned && (copyOf (kind == 2) d).srcSp == 4) = false) :
    exec i s = .next (s.commitSeg.copyGoes kind o sc d none) := by
  have heq := startCopy_eq h kind sc
  dsimp only at heq
  rw [hd, if_neg hroom, hno, if_neg Bool.false_ne_true] at heq
  exact hexec.trans (congrArg _ heq)

theorem copy_queue (hroom : ¬ 16 ≤ s.core.engineCount) (hval : copyValid kind d = true) (hal : (copyOf (kind == 2) d).aligned = true)
    (hsrc : (copyOf (kind == 2) d).srcSp = 4) : exec i s = .next (s.commitSeg.withHead (copyOf (kind == 2) d).q .x fun e t =>
      (t.copyGoes kind o sc d (some e)).upd fun c => c.popQuarter (copyOf (kind == 2) d).q) := by
  have hyes : (copyValid kind d && (copyOf (kind == 2) d).aligned && (copyOf (kind == 2) d).srcSp == 4) = true := by
    rw [hval, hal, beq_iff_eq.mpr hsrc]
    rfl
  have heq := startCopy_eq h kind sc
  dsimp only at heq
  rw [hd, if_neg hroom, if_pos hyes] at heq
  exact hexec.trans (congrArg _ heq)

theorem copy_invalid (hroom : ¬ 16 ≤ s.core.engineCount) (hinv : copyValid kind d = false) :
    ∃ e u, exec i s = .next { s.commitSeg with core := u } ∧ engineStarted s.commitSeg.core o e u ∧
      e.kind = kind ∧ e.status = 2 ∧ e.pieces = [] ∧ e.bytes = 0 ∧ e.scope = copyScope sc (copyOf (kind == 2) d).dstSp := by
  have hrun : s.commitSeg.copyResult kind d none = { pieces := [], bytes := 0, flags := 0, status := 2 } := by
    rw [State.copyResult, hinv, if_neg Bool.false_ne_true]
  have hread : s.commitSeg.copyHasRead kind d none = s.commitSeg := by
    rw [State.copyHasRead, hinv]
    exact if_neg Bool.false_ne_true
  obtain ⟨⟨htok, hctr⟩, hkind, hscope, -, hpieces, hstatus, hbytes, -⟩ := copyStarts_fields s.commitSeg kind o sc d none
  rw [hrun] at hpieces hstatus hbytes
  have hgo := copy_plain h hexec hd hroom (by rw [hinv]; rfl)
  rw [State.copyGoes, hread] at hgo
  exact ⟨_, _, hgo, startEngine_started _ o htok hctr, hkind, hstatus, hpieces, hbytes, hscope⟩

theorem copy_runs (hroom : ¬ 16 ≤ s.core.engineCount) (hval : copyValid kind d = true) (hsrc : (copyOf (kind == 2) d).srcSp ≠ 4) :
    ∃ e, engineGoes s.commitSeg o i s e ∧ e.kind = kind ∧ e.scope = copyScope sc (copyOf (kind == 2) d).dstSp ∧ e.desc = d ∧
      e.pieces = (s.commitSeg.copyAll (copyOf (kind == 2) d) none).pieces ∧ e.status = (s.commitSeg.copyAll (copyOf (kind == 2) d) none).status ∧
      e.bytes = (s.commitSeg.copyAll (copyOf (kind == 2) d) none).bytes ∧ e.flags = (s.commitSeg.copyAll (copyOf (kind == 2) d) none).flags := by
  have hrun : s.commitSeg.copyResult kind d none = s.commitSeg.copyAll (copyOf (kind == 2) d) none := by rw [State.copyResult, if_pos hval]
  obtain ⟨⟨htok, hctr⟩, hfields⟩ := copyStarts_fields s.commitSeg kind o sc d none
  rw [hrun] at hfields
  have hgo := copy_plain h hexec hd hroom (by rw [beq_eq_false_iff_ne.mpr hsrc, Bool.and_false])
  exact ⟨_, engineGoes_of_reading (copyHasRead_reading ..) hgo htok hctr, hfields⟩

theorem copy_underflow (hroom : ¬ 16 ≤ s.core.engineCount) (hval : copyValid kind d = true) (hal : (copyOf (kind == 2) d).aligned = true)
    (hsrc : (copyOf (kind == 2) d).srcSp = 4) (hq : s.commitSeg.core.mat.queue (copyOf (kind == 2) d).q = [])
    (hf : ∀ x ∈ s.commitSeg.core.mat.drains, x.q ≠ (copyOf (kind == 2) d).q) :
    exec i s = .next (s.commitSeg.takeTrap 0x0A 5 (BitVec.ofNat 64 ((copyOf (kind == 2) d).q.toNat + 256)) false) := by
  have hgo := copy_queue h hexec hd hroom hval hal hsrc
  rw [State.withHead, head_empty hq hf] at hgo
  exact hgo

theorem copy_pops (hroom : ¬ 16 ≤ s.core.engineCount) (hval : copyValid kind d = true) (hal : (copyOf (kind == 2) d).aligned = true)
    (hsrc : (copyOf (kind == 2) d).srcSp = 4) {e : QEntry} {rest : List QEntry} (hq : s.commitSeg.core.mat.queue (copyOf (kind == 2) d).q = e :: rest) :
    ∃ u, exec i s = .next u ∧ u.core.outst.length = s.commitSeg.core.outst.length + 1 ∧ u.core.s = s.commitSeg.core.s ∧
      u.core.mat.queue (copyOf (kind == 2) d).q = (if 3 ≤ e.popped then rest else { e with popped := e.popped + 1 } :: rest) := by
  have hgo := copy_queue h hexec hd hroom hval hal hsrc
  rw [State.withHead, head_entry hq] at hgo
  dsimp only at hgo
  rw [commitSeg_closed (commitSeg_closes s), State.copyGoes] at hgo
  obtain ⟨tlb, raced, v, n, hread⟩ := copyHasRead_reading s.commitSeg kind d (some e)
  rw [hread] at hgo
  obtain ⟨hm, hs, ho⟩ := startEngine_rest { s.commitSeg.core with tlb := tlb, raced := raced } (s.commitSeg.copyStarts kind o sc d (some e))
  obtain ⟨kq, ko, ks⟩ := popQuarter_queue (hm ▸ hq)
  exact ⟨_, hgo, (congrArg List.length (ko.trans ho)).trans List.length_append, ks.trans hs, kq⟩

end Copy

theorem copyInstruction_acts {s : State} {o : XForm} {ti : TaskInfo} (h : copyDescOk s o ti) {i : Instr} {kind : ℕ} {sc : BitVec 3}
    (hexec : exec i s = .next (s.startCopy kind o sc)) : CopyInstruction s o i kind sc :=
  ⟨copy_full h hexec, copy_invalid h hexec rfl, copy_runs h hexec rfl, copy_underflow h hexec rfl,
    fun _ _ hroom hval hal hsrc hq => copy_pops h hexec rfl hroom hval hal hsrc hq⟩

/-! A run of single bytes from P space to P space (R326). -/

theorem idxAt_one {n e : ℕ} (h : e < n) : idxAt [n] 0 e = e := by
  simp [idxAt, Nat.mod_eq_of_lt h]

/-- A copy moves `n` single bytes from `x` to `y` in P space. -/
structure ByteCopy (cd : CopyDesc) (n x y : ℕ) : Prop where
  srcSp : cd.srcSp = 1
  dstSp : cd.dstSp = 1
  dims  : cd.dims = [(n, 1, 1)]
  ssz   : cd.ssz = 1
  dsz   : cd.dsz = 1
  conv  : cd.conv = none
  start : cd.start = 0
  src   : cd.src = x
  dst   : cd.dst = y

/-- The piece of one byte of such a copy. -/
def bytePiece (s : State) (x y k : ℕ) : Piece := { place := .own, addr := y + k, bytes := s.bytesAt .own (x + k) 1 }

theorem place_own {s : State} (h : inTask s) {a : ℕ} (ha : a + 1 ≤ 0x80000) (k : Kind) : s.place 1 (a : Int) 1 k = .ok (.own, a) := by
  obtain ⟨⟨p, hp⟩, -⟩ := h
  have hq : s.isQp = false := by rw [State.isQp, hp]
  have hext : s.pExtent = 0x80000 := by rw [State.pExtent, hq, if_neg Bool.false_ne_true]
  simp [State.place, hext, ha]

section Bytes
variable {cd : CopyDesc} {n x y : ℕ} (hc : ByteCopy cd n x y)
include hc

theorem srcAt_byte {e : ℕ} (he : e < n) : cd.srcAt e = ((x + e : ℕ) : Int) := by
  simp [CopyDesc.srcAt, CopyDesc.offset, addrIn, hc.srcSp, hc.dims, hc.src, idxAt_one he]

theorem dstAt_byte {e : ℕ} (he : e < n) : cd.dstAt e = ((y + e : ℕ) : Int) := by
  simp [CopyDesc.dstAt, CopyDesc.offset, addrIn, hc.dstSp, hc.dims, hc.dst, idxAt_one he]

theorem aligned_bytes : cd.aligned = true := by
  simp [CopyDesc.aligned, hc.srcSp, hc.dims, hc.ssz, hc.dsz]

variable {s : State} {ti : TaskInfo} (h : inTask s) (ht : s.core.task = some ti) (hp : ∀ q ∈ s.dev.poison, q.1 ≠ .spad ti.part ti.slot)
  (hx : x + n ≤ 0x80000) (hy : y + n ≤ 0x80000)
include h ht hp hx

theorem copySource_byte {e : ℕ} (he : e < n) : s.copySource cd none e = .ok (s.bytesAt .own (x + e) 1) := by
  have hpl := place_own h (show x + e + 1 ≤ 0x80000 by omega) .load
  have hnone := poisoned_own ht hp 1 (ps := [(Place.own, x + e)]) (by simp)
  have h4 : ¬ cd.srcSp = 4 := by rw [hc.srcSp]; decide
  have h5 : ¬ cd.srcSp = 5 := by rw [hc.srcSp]; decide
  rw [State.copySource, if_neg h4, if_neg h5, srcAt_byte hc he, hc.srcSp, hc.ssz, hpl]
  dsimp only
  rw [hnone]
  rfl

include hy

theorem copyRun_bytes (m e : ℕ) (hm : e + m ≤ n) (r : CopyRun) : ∃ each, s.copyRun cd none m e r =
    { r with pieces := ((List.range' e m).map (bytePiece s x y)).reverse ++ r.pieces, each := each, bytes := r.bytes + m } := by
  induction m generalizing e r with
  | zero => exact ⟨r.each, rfl⟩
  | succ m ih =>
    have he : e < n := by omega
    have hsrc := copySource_byte hc h ht hp hx he
    have hdst := place_own h (show y + e + 1 ≤ 0x80000 by omega) .store
    have hconv : cd.convert (s.bytesAt .own (x + e) 1) = (s.bytesAt .own (x + e) 1, 0) := by simp only [CopyDesc.convert, hc.conv]
    have h5 : ¬ cd.dstSp = 5 := by rw [hc.dstSp]; decide
    obtain ⟨each, hrest⟩ := ih (e + 1) (by omega)
      { r with pieces := bytePiece s x y e :: r.pieces, each := 0 :: r.each, bytes := r.bytes + 1, flags := r.flags ||| 0 }
    refine ⟨each, ?_⟩
    rw [State.copyRun, hsrc]
    dsimp only
    rw [hconv, if_neg h5, dstAt_byte hc he, hc.dstSp, hc.dsz, hdst]
    have hflags : r.flags ||| (0 : Flags) = r.flags := BitVec.or_zero
    refine hrest.trans ?_
    rw [List.range'_succ, List.map_cons, List.reverse_cons, List.append_assoc, hflags, Nat.add_comm m 1, ← Nat.add_assoc]
    rfl

theorem copyAll_bytes : (s.copyAll cd none).status = 0 ∧ (s.copyAll cd none).bytes = n ∧ (s.copyAll cd none).flags = 0 ∧
    (s.copyAll cd none).pieces = (List.range n).map (bytePiece s x y) := by
  have htotal : cd.total = n := by simp [CopyDesc.total, hc.dims]
  obtain ⟨each, hrun⟩ := copyRun_bytes hc h ht hp hx hy n 0 (Nat.le_of_eq (Nat.zero_add n)) { pieces := [], bytes := 0, flags := 0, status := 0 }
  rw [State.copyAll, aligned_bytes hc, if_neg (show ¬ (!true) = true by decide), htotal, hc.start, Nat.sub_zero, hrun]
  refine ⟨rfl, Nat.zero_add n, rfl, ?_⟩
  dsimp only
  rw [List.append_nil, List.reverse_reverse, List.range_eq_range']

end Bytes

/-! WLOADs (R331). -/

/-- The source of a WLOAD has been read, and the pages that its walks reached. -/
def State.wloadHasRead (t : State) (o : XForm) : State :=
  let a := t.core.areg o.base
  let fl := t.dev.promised (t.core.aTaint o.base)
  let st : ℕ := match t.wloadCheck fl a with | .error x => x.1 | .ok _ => 0
  let s := match t.wloadCheck fl a with
    | .ok x => t.saw fl 4096 x.2
    | .error (_, some (code, p)) => t.failWalk 0 p.toNat code
    | .error (_, none) => t
  (List.range 17).foldl (fun s k =>
    if st = 0 ∨ st = 0x14 ∨ st = 0x16 then s.touch 0 ((a.toNat + 4096 * k : ℕ) : Int) 4096 .wload else s) s

theorem wloadHasRead_reading (t : State) (o : XForm) : Reading t (t.wloadHasRead o) := by
  unfold State.wloadHasRead
  dsimp only
  refine Reading.trans ?_ (Reading.foldl (fun s k => .ite (touch_reading ..) (.refl s)) _ _)
  split
  · exact saw_reading ..
  · exact failWalk_reading ..
  · exact .refl t

/-- The operation of a WLOAD into bank `b` with a status and an image. -/
def wloadStarts (o : XForm) (b : ℕ) (a : Addr) (trapOn : Bool) (st : ℕ) (img : List Byte) : EngineOp :=
  { kind := 7, tok := o.d, ctr := counterOf o, scope := 0, pieces := [], status := st, bytes := if st = 0 then 69632 else 0, flags := 0,
    trapOn := trapOn, desc := [], va := a, image := img, handle := 0, pos := b, group := 0, node := 0, carry := [] }

/-- No beat in flight reads the shadow bank. -/
theorem shadow_beats {c : Core} (h : ∀ b ∈ c.mat.beats, b.bank ≠ c.live → b.left = 0) :
    c.mat.beats.foldl (fun n x => if x.bank != c.live then Nat.max n x.left else n) 0 = 0 := by
  generalize c.mat.beats = bs at h
  induction bs with
  | nil => rfl
  | cons b bs ih =>
    obtain ⟨hb, hbs⟩ := List.forall_mem_cons.mp h
    rw [List.foldl_cons]
    have hone : (if b.bank != c.live then Nat.max 0 b.left else 0) = 0 := by
      split
      next hne => rw [hb (by simpa using hne)]; rfl
      next => rfl
    rw [hone]
    exact ih hbs

section Wload
variable {s : State} {o : XForm} (h : inTask s) (hg : s.core.active o.g = true)
include h hg

theorem wload_waits (hb : s.core.wloadBusy = true) : exec (.wload o) s = .next { s with last := .waits } := by
  show execWload o s = _
  rw [execWload, ifAllowedG_inTask h rfl hg]
  simp only [hb, Bool.true_or, if_true]
  rfl

section Free
variable (hb : s.core.wloadBusy = false) (hc : s.core.bankBusy (1 - s.core.bankNo) = false)
  (hbeats : ∀ b ∈ s.core.mat.beats, b.bank ≠ s.core.live → b.left = 0) (hroom : ¬ 16 ≤ s.core.engineCount)
include hb hc hbeats hroom

theorem wload_rejected {x : ℕ × Option (ℕ × Addr)}
    (hx : s.commitSeg.wloadCheck (s.commitSeg.dev.promised (s.commitSeg.core.aTaint o.base)) (s.commitSeg.core.areg o.base) = .error x) :
    ∃ trapOn, exec (.wload o) s = .next ((s.commitSeg.wloadHasRead o).upd fun c => c.startEngine
      (wloadStarts o (1 - s.core.bankNo) (s.commitSeg.core.areg o.base) trapOn x.1 [])) := by
  obtain ⟨st, fault⟩ := x
  have hexec : exec (.wload o) s = execWload o s := rfl
  rw [hexec, execWload, ifAllowedG_inTask h rfl hg]
  simp only [hb, hc, shadow_beats hbeats, Bool.or_self, Bool.false_eq_true, if_false, Nat.lt_irrefl, gt_iff_lt, State.engineSlot, ge_iff_le, hroom,
    State.wloadHasRead, hx]
  exact ⟨_, rfl⟩

theorem wload_accepted {x : List Byte × List (Place × ℕ)}
    (hx : s.commitSeg.wloadCheck (s.commitSeg.dev.promised (s.commitSeg.core.aTaint o.base)) (s.commitSeg.core.areg o.base) = .ok x) :
    ∃ trapOn, exec (.wload o) s = .next ((s.commitSeg.wloadHasRead o).upd fun c => c.startEngine
      (wloadStarts o (1 - s.core.bankNo) (s.commitSeg.core.areg o.base) trapOn 0 x.1)) := by
  have hexec : exec (.wload o) s = execWload o s := rfl
  rw [hexec, execWload, ifAllowedG_inTask h rfl hg]
  simp only [hb, hc, shadow_beats hbeats, Bool.or_self, Bool.false_eq_true, if_false, Nat.lt_irrefl, gt_iff_lt, State.engineSlot, ge_iff_le, hroom,
    State.wloadHasRead, hx]
  exact ⟨_, rfl⟩

end Free

end Wload

/-- Settles O41: what an engine instruction reads changes only caches and races of the core, and then its operation joins those outstanding. -/
theorem engineOperationsStart : Obligations.EngineOperationsStart := by
  unfold Obligations.EngineOperationsStart
  intro s o ti h hg t d full starts
  have copies {i : Instr} (hi : isPrivileged i = false) (kind : ℕ) (sc : BitVec 3)
      (hexec : exec i s = s.ifAllowedG i o.g fun s => s.startCopy kind o sc) (hd : copyDescOk s o ti) : starts i kind sc :=
    copyInstruction_acts hd (hexec.trans (ifAllowedG_inTask h hi hg _))
  refine ⟨fun hd => ⟨copies rfl 1 o.scope rfl hd, copies rfl 2 o.scope rfl hd, copies rfl 3 4 rfl hd, copies rfl 4 4 rfl hd⟩,
    fun cd n x y ht hp hsrcSp hdstSp hdims hssz hdsz hconv hstart hsrc hdst hx hy =>
      copyAll_bytes ⟨hsrcSp, hdstSp, hdims, hssz, hdsz, hconv, hstart, hsrc, hdst⟩ h ht hp hx hy,
    fun hb hc hbeats hroom => ⟨fun st hst hne => ?_, fun img himg => ?_⟩, wload_waits h hg⟩
  · obtain ⟨trapOn, hexec⟩ := wload_rejected h hg hb hc hbeats hroom hst
    exact ⟨_, engineGoes_of_reading (wloadHasRead_reading ..) hexec rfl rfl, rfl, rfl, if_neg hne⟩
  · obtain ⟨trapOn, hexec⟩ := wload_accepted h hg hb hc hbeats hroom himg
    exact ⟨_, engineGoes_of_reading (wloadHasRead_reading ..) hexec rfl rfl, rfl, rfl, rfl, rfl, rfl⟩

end Sys2Proof.Machine
end

section
/-! O52: the loss of a link where a state lists a unit twice (R407, R446, R452). -/

namespace Sys2Proof.Machine

/-- Port 0 owns partition 0, and port 1 partition 1, which is DRAINING. The unit in focus runs a task of partition 1 under the monitor, with an
error outstanding; the units that are parked list it once more, with a task of partition 0. -/
def twiceListed : State :=
  { State.reset with
    core := { Core.reset with
      task := some { loadTask with part := 1 }
      mon := { Mon.reset with mode := true }
      outst := [.load .none (some (.regS, 0))] }
    parked := [(.core 0, { Core.reset with task := some loadTask })]
    dev := { Device.reset with
      parts := (Device.reset.parts.set 0 { Partition.absent with state := 1 }).set 1 { Partition.absent with state := 2, port := 1 } } }

/-- The state of a partition after a step, if a state follows. -/
def partStateAfter (o : Host.Outcome State Fault Refusal) (p : ℕ) : Option ℕ :=
  match o with
  | .next t => some (t.dev.part p).state
  | _ => none

/-- The fence of partition 0 stops the unit that is listed with its task, and so the task of partition 1, whose drain it ends. -/
theorem portLinkLoss_twiceListed : partStateAfter (exec .portLinkLoss twiceListed) 1 = some 3 := by decide +kernel

/-- Refutes O52: the partitions of other ports need not keep their states at the loss of a link. The statement speaks of every state, and
one may list the unit in focus among the parked units too (`twiceListed`): the fence of a partition of the port then stops a task of another
port's partition, which is DRAINING (2) before and QUIESCENT (3) after. -/
theorem not_hostPortsAndFabricAct : ¬ Obligations.HostPortsAndFabricAct := by
  unfold Obligations.HostPortsAndFabricAct
  intro h
  obtain ⟨-, -, -, -, -, -, -, -, -, -, -, -, -, -, -, -, -, hloss, -⟩ := h twiceListed
  obtain ⟨u, hexec, -, -, hparts⟩ := hloss
  have hkept : (u.dev.part 1).state = 2 := hparts 1 (by decide)
  have hmoved := portLinkLoss_twiceListed
  rw [hexec] at hmoved
  exact absurd (hkept.symm.trans (Option.some.inj hmoved)) (by decide)

end Sys2Proof.Machine
end

section
/-! The forms at their bit places (R160 to R165, R141): each field reads back, and so does the opcode. -/

namespace Sys2Proof

open Laws (bool_toNat_lt)

theorem fieldOf_eq {w lo n : ℕ} {x : BitVec n} (h : w / 2 ^ lo % 2 ^ n = x.toNat) : fieldOf w lo n = x :=
  BitVec.eq_of_toNat_eq (by rw [fieldOf, BitVec.toNat_ofNat, h])

theorem bitOf_eq {w k : ℕ} {b : Bool} (h : w / 2 ^ k % 2 = b.toNat) : bitOf w k = b := by
  rw [bitOf, h]; cases b <;> rfl

theorem SR.ofNat_toNat (o : SR) {op : ℕ} (h : op < 256) : SR.ofNat (o.toNat op) = o := by
  obtain ⟨g, fn, b, a, d⟩ := o
  have := bool_toNat_lt g
  simp only [SR.ofNat, SR.toNat, SR.mk.injEq]
  exact ⟨bitOf_eq (by omega), fieldOf_eq (by omega), fieldOf_eq (by omega), fieldOf_eq (by omega), fieldOf_eq (by omega)⟩

theorem SI.ofNat_toNat (o : SI) {op : ℕ} (h : op < 256) : SI.ofNat (o.toNat op) = o := by
  obtain ⟨g, fn, imm, a, d⟩ := o
  have := bool_toNat_lt g
  simp only [SI.ofNat, SI.toNat, SI.mk.injEq]
  exact ⟨bitOf_eq (by omega), fieldOf_eq (by omega), fieldOf_eq (by omega), fieldOf_eq (by omega), fieldOf_eq (by omega)⟩

theorem SB.ofNat_toNat (o : SB) {op : ℕ} (h : op < 256) : SB.ofNat (o.toNat op) = o := by
  obtain ⟨g, imm8, off, b, a, cc⟩ := o
  have := bool_toNat_lt g
  simp only [SB.ofNat, SB.toNat, SB.mk.injEq]
  exact ⟨bitOf_eq (by omega), fieldOf_eq (by omega), fieldOf_eq (by omega), fieldOf_eq (by omega), fieldOf_eq (by omega), fieldOf_eq (by omega)⟩

theorem SS.ofNat_toNat (o : SS) {op : ℕ} (h : op < 256) : SS.ofNat (o.toNat op) = o := by
  obtain ⟨g, sel, spr, isA, d⟩ := o
  have := bool_toNat_lt isA; have := bool_toNat_lt g
  simp only [SS.ofNat, SS.toNat, SS.mk.injEq]
  exact ⟨bitOf_eq (by omega), fieldOf_eq (by omega), fieldOf_eq (by omega), bitOf_eq (by omega), fieldOf_eq (by omega)⟩

theorem AForm.ofNat_toNat (o : AForm) {op : ℕ} (h : op < 256) : AForm.ofNat (o.toNat op) = o := by
  obtain ⟨g, mod, off, tid, scope, size, as, idx, base, t⟩ := o
  have := bool_toNat_lt g
  simp only [AForm.ofNat, AForm.toNat, AForm.mk.injEq]
  exact ⟨bitOf_eq (by omega), fieldOf_eq (by omega), fieldOf_eq (by omega), fieldOf_eq (by omega), fieldOf_eq (by omega), fieldOf_eq (by omega),
    fieldOf_eq (by omega), fieldOf_eq (by omega), fieldOf_eq (by omega), fieldOf_eq (by omega)⟩

theorem VForm.ofNat_toNat (o : VForm) {op : ℕ} (h : op < 256) : VForm.ofNat o.v1 (o.toNat op) = o := by
  obtain ⟨v1, imm8, tid, p, sat, rm, fn, ty, c, b, a, d⟩ := o
  have := bool_toNat_lt p; have := bool_toNat_lt sat
  simp only [VForm.ofNat, VForm.toNat, VForm.mk.injEq]
  exact ⟨trivial, fieldOf_eq (by omega), fieldOf_eq (by omega), bitOf_eq (by omega), bitOf_eq (by omega), fieldOf_eq (by omega),
    fieldOf_eq (by omega), fieldOf_eq (by omega), fieldOf_eq (by omega), fieldOf_eq (by omega), fieldOf_eq (by omega), fieldOf_eq (by omega)⟩

theorem MForm.ofNat_toNat (o : MForm) {op : ℕ} (h : op < 64) : MForm.ofNat (o.toNat op) = o := by
  obtain ⟨imm, row, flags, q, split, plane, mac, bnk, acc⟩ := o
  have := bool_toNat_lt bnk
  simp only [MForm.ofNat, MForm.toNat, MForm.mk.injEq]
  exact ⟨fieldOf_eq (by omega), fieldOf_eq (by omega), fieldOf_eq (by omega), fieldOf_eq (by omega), fieldOf_eq (by omega),
    fieldOf_eq (by omega), fieldOf_eq (by omega), bitOf_eq (by omega), fieldOf_eq (by omega)⟩

theorem XForm.ofNat_toNat (o : XForm) {op : ℕ} (h : op < 256) : XForm.ofNat (o.toNat op) = o := by
  obtain ⟨g, imm, fn, scope, base, b, a, d⟩ := o
  have := bool_toNat_lt g
  simp only [XForm.ofNat, XForm.toNat, XForm.mk.injEq]
  exact ⟨bitOf_eq (by omega), fieldOf_eq (by omega), fieldOf_eq (by omega), fieldOf_eq (by omega), fieldOf_eq (by omega), fieldOf_eq (by omega),
    fieldOf_eq (by omega), fieldOf_eq (by omega)⟩

/-- The header occupies bits 31 to 0, with bits 15 to 10 zero (R141). -/
theorem Header.toNat_lt (h : Header) : h.toNat < 2 ^ 32 := by
  have := bool_toNat_lt h.seg; have := bool_toNat_lt h.rdv; have := bool_toNat_lt h.blk
  simp only [Header.toNat]; omega

theorem Header.toNat_reserved (h : Header) (x : ℕ) : (h.toNat + x * 2 ^ 32) / 2 ^ 10 % 2 ^ 6 = 0 := by
  have := bool_toNat_lt h.seg; have := bool_toNat_lt h.rdv; have := bool_toNat_lt h.blk
  simp only [Header.toNat]; omega

/-- Whatever the slots above it hold, the header reads back. -/
theorem Header.ofNat_toNat (h : Header) (x : ℕ) : Header.ofNat (h.toNat + x * 2 ^ 32) = h := by
  obtain ⟨sig, blk, rdv, seg, pop, st⟩ := h
  have := bool_toNat_lt seg; have := bool_toNat_lt rdv; have := bool_toNat_lt blk
  simp only [Header.ofNat, Header.toNat, Header.mk.injEq]
  exact ⟨fieldOf_eq (by omega), bitOf_eq (by omega), bitOf_eq (by omega), bitOf_eq (by omega), fieldOf_eq (by omega), fieldOf_eq (by omega)⟩

theorem SR.toNat_opcode (o : SR) {op : ℕ} (h : op < 256) : o.toNat op % 256 = op := by simp only [SR.toNat]; omega
theorem SI.toNat_opcode (o : SI) {op : ℕ} (h : op < 256) : o.toNat op % 256 = op := by simp only [SI.toNat]; omega
theorem SB.toNat_opcode (o : SB) {op : ℕ} (h : op < 256) : o.toNat op % 256 = op := by simp only [SB.toNat]; omega
theorem SS.toNat_opcode (o : SS) {op : ℕ} (h : op < 256) : o.toNat op % 256 = op := by simp only [SS.toNat]; omega
theorem AForm.toNat_opcode (o : AForm) {op : ℕ} (h : op < 256) : o.toNat op % 256 = op := by simp only [AForm.toNat]; omega
theorem VForm.toNat_opcode (o : VForm) {op : ℕ} (h : op < 256) : o.toNat op % 256 = op := by simp only [VForm.toNat]; omega
theorem MForm.toNat_opcode (o : MForm) {op : ℕ} (h : op < 64) : o.toNat op % 64 = op := by simp only [MForm.toNat]; omega
theorem XForm.toNat_opcode (o : XForm) {op : ℕ} (h : op < 256) : o.toNat op % 256 = op := by simp only [XForm.toNat]; omega

end Sys2Proof
end

section
/-! The opcode maps of the six slots invert the encoder (R143, R160 to R170). -/

namespace Sys2Proof

open Laws (sr_toNat_lt si_toNat_lt sb_toNat_lt ss_toNat_lt a_toNat_lt v_toNat_lt m_toNat_lt x_toNat_lt)

/-- A word that fits its slot and from which the slot's opcode map builds the operation. -/
def Names (sl : Slot) (w : ℕ) (i : Instr) : Prop := w < 2 ^ sl.place.2 ∧ buildSlot sl w = some i

/-! An encoded form names what the opcode map of its slot builds from its opcode and its fields. -/

section Forms
variable {sl : Slot} {w op : ℕ} {i : Instr}

theorem names_sr {o : SR} (h : some (Slot.s, o.toNat op) = some (sl, w)) (hop : op < 256)
    (hb : ∀ w, w % 256 = op → SR.ofNat w = o → buildS w = some i) : Names sl w i := by
  cases h; exact ⟨sr_toNat_lt o hop, hb _ (o.toNat_opcode hop) (o.ofNat_toNat hop)⟩

theorem names_si {o : SI} (h : some (Slot.s, o.toNat op) = some (sl, w)) (hop : op < 256)
    (hb : ∀ w, w % 256 = op → SI.ofNat w = o → buildS w = some i) : Names sl w i := by
  cases h; exact ⟨si_toNat_lt o hop, hb _ (o.toNat_opcode hop) (o.ofNat_toNat hop)⟩

theorem names_sb {o : SB} (h : some (Slot.s, o.toNat op) = some (sl, w)) (hop : op < 256)
    (hb : ∀ w, w % 256 = op → SB.ofNat w = o → buildS w = some i) : Names sl w i := by
  cases h; exact ⟨sb_toNat_lt o hop, hb _ (o.toNat_opcode hop) (o.ofNat_toNat hop)⟩

theorem names_ss {o : SS} (h : some (Slot.s, o.toNat op) = some (sl, w)) (hop : op < 256)
    (hb : ∀ w, w % 256 = op → SS.ofNat w = o → buildS w = some i) : Names sl w i := by
  cases h; exact ⟨ss_toNat_lt o hop, hb _ (o.toNat_opcode hop) (o.ofNat_toNat hop)⟩

theorem names_a {o : AForm} (h : some (Slot.a, o.toNat op) = some (sl, w)) (hop : op < 256)
    (hb : ∀ w, w % 256 = op → AForm.ofNat w = o → buildA w = some i) : Names sl w i := by
  cases h; exact ⟨a_toNat_lt o hop, hb _ (o.toNat_opcode hop) (o.ofNat_toNat hop)⟩

theorem names_m {o : MForm} (h : some (Slot.m, o.toNat op) = some (sl, w)) (hop : op < 64)
    (hb : ∀ w, w % 64 = op → MForm.ofNat w = o → buildM w = some i) : Names sl w i := by
  cases h; exact ⟨m_toNat_lt o hop, hb _ (o.toNat_opcode hop) (o.ofNat_toNat hop)⟩

theorem names_x {o : XForm} (h : some (Slot.x, o.toNat op) = some (sl, w)) (hop : op < 256)
    (hb : ∀ w, w % 256 = op → XForm.ofNat w = o → buildX w = some i) : Names sl w i := by
  cases h; exact ⟨x_toNat_lt o hop, hb _ (o.toNat_opcode hop) (o.ofNat_toNat hop)⟩

/-- The two V slots have one width and one opcode map. -/
theorem names_v {o : VForm} (h : some (if o.v1 then Slot.v1 else Slot.v0, o.toNat op) = some (sl, w)) (hop : op < 256)
    (hb : ∀ v w, w % 256 = op → VForm.ofNat v w = o → buildV v w = some i) : Names sl w i := by
  have hw := v_toNat_lt o hop
  have hi := hb o.v1 _ (o.toNat_opcode hop) (o.ofNat_toNat hop)
  cases hv : o.v1 <;> (rw [hv] at h hi; cases h; exact ⟨hw, hi⟩)

end Forms

/-! Opcode 0x14 of the A slot: a store of a value quarter has size 5 and mod below 4, a store of a register has not (R308). -/

theorem not_quarter_of_vst {o : AForm} (h : legalOk (.vst o) = true) : (o.size == 5 && decide (o.mod.toNat < 4)) = false := by
  simp only [legalOk, Bool.and_eq_true, Bool.or_eq_true, beq_iff_eq] at h
  obtain ⟨-, hs | ⟨-, hm⟩⟩ := h
  · rw [hs]; rfl
  · rw [hm]; exact Bool.and_false _

theorem quarter_of_vstQueue {o : AForm} (h : legalOk (.vstQueue o) = true) : (o.size == 5 && decide (o.mod.toNat < 4)) = true := by
  simp only [legalOk, Bool.and_eq_true] at h ⊢
  obtain ⟨⟨-, hs⟩, hm⟩ := h
  exact ⟨hs, hm⟩

/-- The opcode maps give back each operation that the encoder writes: by its opcode, and where several operations share one by the field
that tells them apart (R143, check 5). -/
theorem names_of_encodeSlot {sl : Slot} {w : ℕ} {i : Instr} (hl : legalOk i = true) (h : encodeSlot i = some (sl, w)) : Names sl w i := by
  cases i with
  | add o | sub o | mul o | mulh o | mulhu o | div o | divu o | rem o | remu o | and o | or o | xor o | shl o | shr o | sra o | min o
    | max o | minu o | maxu o | slt o | sltu o | sel o | clz o | ctz o | popc o | bswap o | pelse o | prd o | pwr o | ret o | jr o | callr o
    | wfe o | yield o | susp o | exit o | trapf o | tret o | tidx o | ctxsv o | ctxld o | corestop o | jrnl o | kickscan o =>
    exact names_sr h (by decide) fun w e f => by rw [buildS, e, f]; rfl
  | addi o | andi o | ori o | xori o | shli o | shri o | srai o | li o | lih o | exts o | extz o | ins o | cmpi o | trap o =>
    exact names_si h (by decide) fun w e f => by rw [buildS, e, f]; rfl
  | cmp o | br o | bri o | jmp o | call o | dbnz o =>
    exact names_sb h (by decide) fun w e f => by rw [buildS, e, f]; rfl
  | rdsr o | wrsr o | prdsr o | pwrsr o =>
    exact names_ss h (by decide) fun w e f => by rw [buildS, e, f]; rfl
  | aadd o | aaddi o | amov o | aset o | aget o | acmp o | ascl o | ld o | ldc o | st o | vld o | vlds o | vgath o | vscat o | lsld o
    | lsst o | pref o | wbl o | invl o | amo o | amos o | cas o =>
    exact names_a h (by decide) fun w e f => by rw [buildA, e, f]; rfl
  | vadd o | vsub o | vmul o | vfma o | vfms o | vfnma o | vmin o | vmax o | vabs o | vneg o | vand o | vor o | vxor o | vnot o | vshl o
    | vshr o | vsra o | vmulh o | vadds o | vsubs o | vrcp o | vrsq o | vsqrt o | vdiv o | vexp2 o | vlog2 o | vtanh o | vsigm o | vsinp o
    | verf o | vcmp o | vcls o | vsel o | vmtov o | vvtom o | vmcnt o | vmov o | vsplat o | viota o | vbcr o | vbcc o | vrotr o | vrotc o
    | vpermr o | vext o | vins o | vtrn o | vredr o | vredc o | vscanr o | vcvt o | vqnt o | vdqt o | vscl o | vpack o | vunpk o | vspush o
    | vspop o | vsbal o | vtidx o | vbchk o | vclmp o =>
    exact names_v h (by decide) fun v w e f => by rw [buildV, e, f]; rfl
  | mpush o | mbeat o | mshift o | mdrain o | mzero o | mswap o | mepoch o | mretry o | mckloc o | mckfix o | mcal o | mfbk o =>
    exact names_m h (by decide) fun w e f => by rw [buildM, e, f]; rfl
  | fmtw o | bndw o | shpw o | feedcfg o | rbcfg o | rbpop o | lnest o | lbody o | lstat o | cpy o | cpyx o | wload o | scwait o | scrd o
    | enq o | deq o | deqt o | qstat o | spawn o | phase o | barr o | barw o | barq o | trig o | coll o | fput o | fget o | cmbput o
    | cmbpoll o | cmbclose o | phint o | phclr o | pcset o | disp o | preempt o | migrate o | scrubcfg o | obslog o | healthw o =>
    exact names_x h (by decide) fun w e f => by rw [buildX, e, f]; rfl
  | sev o | sevAll o | mret o | mretRequeue o | mretEnd o | xlinvPage o | xlinvCtx o | xlinvPart o | cmplholdHold o | cmplholdRelease o =>
    simp only [legalOk, Bool.and_eq_true, Bool.not_eq_true', beq_iff_eq] at hl
    exact names_sr h (by decide) fun w e f => by
      rw [buildS, e, f]; conv_lhs => whnf
      simp only [hl]
  | lpin o | lpinLine o | lunpin o | lunpinLine o =>
    simp only [legalOk, Bool.and_eq_true, Bool.not_eq_true', beq_iff_eq] at hl
    exact names_a h (by decide) fun w e f => by
      rw [buildA, e, f]; conv_lhs => whnf
      simp only [hl]
  | vst o =>
    exact names_a h (by decide) fun w e f => by
      rw [buildA, e, f]; conv_lhs => whnf
      rw [not_quarter_of_vst hl]
  | vstQueue o =>
    exact names_a h (by decide) fun w e f => by
      rw [buildA, e, f]; conv_lhs => whnf
      rw [quarter_of_vstQueue hl]
  | vqpop o | vqpopSide o | vqpopInfo o =>
    simp only [legalOk, beq_iff_eq] at hl
    exact names_v h (by decide) fun v w e f => by
      rw [buildV, e, f]; conv_lhs => whnf
      simp only [hl]
  | mctxSave o | mctxRestore o | mctxKeep o =>
    simp only [legalOk, beq_iff_eq] at hl
    exact names_m h (by decide) fun w e f => by
      rw [buildM, e, f]; conv_lhs => whnf
      simp only [hl]
  | minjAcc o =>
    have hp : o.plane.toNat ≤ 1 := of_decide_eq_true hl
    exact names_m h (by decide) fun w e f => by
      rw [buildM, e, f]; conv_lhs => whnf
      obtain h0 | h1 : o.plane.toNat = 0 ∨ o.plane.toNat = 1 := by omega
      · rw [h0]; rfl
      · rw [h1]; rfl
  | minjCks o | minjPar o =>
    simp only [legalOk, Bool.and_eq_true, beq_iff_eq] at hl
    obtain ⟨hp, -⟩ := hl
    exact names_m h (by decide) fun w e f => by
      rw [buildM, e, f]; conv_lhs => whnf
      rw [hp]; rfl
  | fmtr o | fmtrPend o | bndr o | bndrFa o | cktol o | cktolRd o | lbrk o | lbrkDrain o | cmbopen o | cmbopenTry o | pcdec o | pcdecFail o
    | qcfgp o | qcfgpOff o =>
    simp only [legalOk, Bool.and_eq_true, Bool.not_eq_true'] at hl
    exact names_x h (by decide) fun w e f => by
      rw [buildX, e, f]; conv_lhs => whnf
      simp only [hl]
  | _ => exact nomatch h

end Sys2Proof
end

section
/-! A bundle of one operation or of none reads back (R140 to R143, R3). -/

namespace Sys2Proof

open Machine (isEvent slotOfOp leNat_bytesOfNat bytesOfNat_length leNat)

section Words
variable {sl : Slot} {w : ℕ} {i : Instr}

/-! One slot word (R142, R143). -/

theorem buildSlot_opcode_zero (h : opcodeField sl w = 0) : buildSlot sl w = none := by
  cases sl with
  | s => rw [buildSlot, buildS, show w % 256 = 0 from h]; rfl
  | a => rw [buildSlot, buildA, show w % 256 = 0 from h]; rfl
  | v0 | v1 => rw [buildSlot, buildV, show w % 256 = 0 from h]; rfl
  | m => rw [buildSlot, buildM, show w % 64 = 0 from h]; rfl
  | x => rw [buildSlot, buildX, show w % 256 = 0 from h]; rfl
  | header | none => rfl

theorem mem_slotOrder_of_buildSlot (h : buildSlot sl w = some i) : sl ∈ slotOrder := by
  cases sl with
  | s | a | v0 | v1 | m | x => decide
  | header | none => cases h

theorem decodeSlot_zero (sl : Slot) : decodeSlot sl 0 = .ok none := if_pos rfl

theorem opcodeField_zero (sl : Slot) : opcodeField sl 0 = 0 := by cases sl <;> rfl

/-- The word of a well-formed operation decodes to it, and is not empty: no opcode map has an entry 0. -/
theorem decodeSlot_encodeSlot (hi : i.wellFormed = true) (h : encodeSlot i = some (sl, w)) : decodeSlot sl w = .ok (some i) := by
  obtain ⟨hz, hl⟩ := Bool.and_eq_true_iff.mp hi
  obtain ⟨-, hb⟩ := names_of_encodeSlot hl h
  have hop : opcodeField sl w ≠ 0 := fun h0 => by rw [buildSlot_opcode_zero h0] at hb; cases hb
  have hw : w ≠ 0 := fun h0 => hop (by rw [h0]; exact opcodeField_zero sl)
  simp [decodeSlot, hw, hop, hb, h, hz, hl]

/-! The places of the slots (R140). -/

theorem place_above_header : ∀ sl ∈ slotOrder, 32 ≤ sl.place.1 := by decide

theorem place_below_end : ∀ sl ∈ slotOrder, sl.place.1 + sl.place.2 ≤ 384 := by decide

theorem places_apart : ∀ sl ∈ slotOrder, ∀ y ∈ slotOrder, y ≠ sl →
    y.place.1 + y.place.2 ≤ sl.place.1 ∨ sl.place.1 + sl.place.2 ≤ y.place.1 := by decide

theorem below_slot {x : ℕ} (hx : x < 2 ^ 32) (hsl : sl ∈ slotOrder) : x < 2 ^ sl.place.1 :=
  hx.trans_le (Nat.pow_le_pow_right (by decide) (place_above_header sl hsl))

/-- What lies below bit `lo` and a word above it, where the word has `n` bits, stay below bit `lo + n`. -/
theorem add_mul_lt {x lo n : ℕ} (hx : x < 2 ^ lo) (hw : w < 2 ^ n) : x + w * 2 ^ lo < 2 ^ (lo + n) := by
  calc x + w * 2 ^ lo < (w + 1) * 2 ^ lo := by rw [Nat.succ_mul]; omega
    _ ≤ 2 ^ n * 2 ^ lo := Nat.mul_le_mul_right _ hw
    _ = 2 ^ (lo + n) := by rw [← pow_add, Nat.add_comm]

section Places
variable {x : ℕ} (hx : x < 2 ^ 32) (hsl : sl ∈ slotOrder) (hw : w < 2 ^ sl.place.2)
include hx hsl hw

theorem bundle_lt : x + w * 2 ^ sl.place.1 < 2 ^ 384 := by
  calc x + w * 2 ^ sl.place.1 < 2 ^ (sl.place.1 + sl.place.2) := add_mul_lt (below_slot hx hsl) hw
    _ ≤ 2 ^ 384 := pow_le_pow_right₀ one_le_two (place_below_end sl hsl)

theorem slotWord_same : slotWord (x + w * 2 ^ sl.place.1) sl = w := by
  rw [slotWord, Nat.add_mul_div_right _ _ (Nat.two_pow_pos _), Nat.div_eq_of_lt (below_slot hx hsl), Nat.zero_add, Nat.mod_eq_of_lt hw]

theorem slotWord_other {y : Slot} (hy : y ∈ slotOrder) (hne : y ≠ sl) : slotWord (x + w * 2 ^ sl.place.1) y = 0 := by
  obtain hbelow | habove := places_apart sl hsl y hy hne
  · obtain ⟨k, hk⟩ := Nat.exists_eq_add_of_le hbelow
    have hsplit : x + w * 2 ^ sl.place.1 = x + w * 2 ^ k * 2 ^ y.place.2 * 2 ^ y.place.1 := by rw [hk]; ring
    rw [slotWord, hsplit, Nat.add_mul_div_right _ _ (Nat.two_pow_pos _), Nat.div_eq_of_lt (below_slot hx hy), Nat.zero_add, Nat.mul_mod_left]
  · have hlt : x + w * 2 ^ sl.place.1 < 2 ^ y.place.1 :=
      (add_mul_lt (below_slot hx hsl) hw).trans_le (Nat.pow_le_pow_right (by decide) habove)
    rw [slotWord, Nat.div_eq_of_lt hlt, Nat.zero_mod]

end Places

/-! All slots, and the bytes of the bundle. -/

theorem decodeSlots_empty {b : ℕ} {l : List Slot} (h : ∀ y ∈ l, slotWord b y = 0) : decodeSlots b l = .ok [] := by
  induction l with
  | nil => rfl
  | cons z l ih =>
    simp only [decodeSlots, h z List.mem_cons_self, decodeSlot_zero, ih fun y hy => h y (List.mem_cons_of_mem _ hy)]

theorem decodeSlots_single {b : ℕ} {l : List Slot} (hd : decodeSlot sl (slotWord b sl) = .ok (some i)) (hn : l.Nodup) (hm : sl ∈ l)
    (h : ∀ y ∈ l, y ≠ sl → slotWord b y = 0) : decodeSlots b l = .ok [i] := by
  induction l with
  | nil => cases hm
  | cons z l ih =>
    obtain ⟨hz, hl⟩ := List.nodup_cons.mp hn
    have htail : ∀ y ∈ l, y ≠ sl → slotWord b y = 0 := fun y hy => h y (List.mem_cons_of_mem _ hy)
    by_cases e : z = sl
    · subst e
      have hrest := decodeSlots_empty fun y hy => htail y hy fun e => hz (e ▸ hy)
      simp only [decodeSlots, hd, hrest]
    · have hrest := ih hl ((List.mem_cons.mp hm).resolve_left (Ne.symm e)) htail
      simp only [decodeSlots, h z List.mem_cons_self e, decodeSlot_zero, hrest]

/-- The bytes of a bundle decode as its bits do: the header is legal whatever the slots hold (R141). -/
theorem decodeBytes_bundle {h : Header} {x : ℕ} {ops : List Instr} (hlt : h.toNat + x * 2 ^ 32 < 2 ^ 384)
    (hops : decodeSlots (h.toNat + x * 2 ^ 32) slotOrder = .ok ops) :
    decodeBytes (bytesOfNat 48 (h.toNat + x * 2 ^ 32)) = some ⟨h, ops⟩ := by
  have hbits : natOfBytes (bytesOfNat 48 (h.toNat + x * 2 ^ 32)) = h.toNat + x * 2 ^ 32 := by
    have h48 : 256 ^ 48 = 2 ^ 384 := by rw [show 256 = 2 ^ 8 from rfl, ← pow_mul]
    rw [← leNat, leNat_bytesOfNat, h48, Nat.mod_eq_of_lt hlt]
  have hbundle : decodeBundle (h.toNat + x * 2 ^ 32) = .ok ⟨h, ops⟩ := by
    simp only [decodeBundle, h.toNat_reserved, ne_eq, not_true_eq_false, if_false, hops, h.ofNat_toNat]
  simp only [decodeBytes, bytesOfNat_length, if_true, hbits, hbundle]

theorem decodeTableWord_single {h : Header} (hlt : w < 2 ^ 384) (hd : decodeBytes (bytesOfNat 48 w) = some ⟨h, [i]⟩) :
    decodeTableWord 384 w = some i := by
  rw [decodeTableWord, Nat.mod_eq_of_lt hlt, hd]

theorem decodeTableWord_header {h : Header} (hlt : w < 2 ^ 384) (hd : decodeBytes (bytesOfNat 48 w) = some ⟨h, []⟩) :
    decodeTableWord 384 w = some (.allZeroBundle h) := by
  rw [decodeTableWord, Nat.mod_eq_of_lt hlt, hd]

/-! What the encoder writes: an operation in its slot, and the header alone for the all-zero bundle. -/

theorem encodeSlot_of_not_event (he : isEvent i = false) (hz : ∀ h', i ≠ .allZeroBundle h') : ∃ sl w, encodeSlot i = some (sl, w) := by
  unfold isEvent at he
  split at he
  · exact absurd rfl (hz _)
  · cases hc : encodeSlot i with
    | some p => exact ⟨p.1, p.2, rfl⟩
    | none => simp [slotOfOp, hc] at he

theorem encode_of_encodeSlot (h : Header) (hz : ∀ h', i ≠ .allZeroBundle h') (he : encodeSlot i = some (sl, w)) :
    encode h i = some (h.toNat + w * 2 ^ sl.place.1) := by
  unfold encode
  split
  · exact absurd rfl (hz _)
  · rw [he]

/-- A bundle of one well-formed operation reads back. -/
theorem decodeBytes_single (h : Header) (hi : i.wellFormed = true) (he : encodeSlot i = some (sl, w)) :
    h.toNat + w * 2 ^ sl.place.1 < 2 ^ 384 ∧ decodeBytes (bytesOfNat 48 (h.toNat + w * 2 ^ sl.place.1)) = some ⟨h, [i]⟩ := by
  obtain ⟨-, hl⟩ := Bool.and_eq_true_iff.mp hi
  obtain ⟨hw, hb⟩ := names_of_encodeSlot hl he
  have hsl := mem_slotOrder_of_buildSlot hb
  have hlt := bundle_lt h.toNat_lt hsl hw
  obtain ⟨k, hk⟩ := Nat.exists_eq_add_of_le (place_above_header sl hsl)
  have hplace : w * 2 ^ sl.place.1 = w * 2 ^ k * 2 ^ 32 := by rw [hk]; ring
  have hd : decodeSlot sl (slotWord (h.toNat + w * 2 ^ sl.place.1) sl) = .ok (some i) := by
    rw [slotWord_same h.toNat_lt hsl hw, decodeSlot_encodeSlot hi he]
  have hops := decodeSlots_single hd (by decide) hsl fun y hy hne => slotWord_other h.toNat_lt hsl hw hy hne
  rw [hplace] at hlt hops ⊢
  exact ⟨hlt, decodeBytes_bundle hlt hops⟩

/-- The header alone reads back as the all-zero bundle. -/
theorem decodeBytes_header (h : Header) : decodeBytes (bytesOfNat 48 h.toNat) = some ⟨h, []⟩ := by
  have hz : ∀ y ∈ slotOrder, slotWord h.toNat y = 0 := fun y hy => by
    rw [slotWord, Nat.div_eq_of_lt (below_slot h.toNat_lt hy), Nat.zero_mod]
  have hlt := h.toNat_lt
  simpa using decodeBytes_bundle (h := h) (x := 0) (by omega) (by simpa using decodeSlots_empty hz)

end Words

/-- Settles O59: every operation stands in its slot (`names_of_encodeSlot`), its word decodes to it (`decodeSlot_encodeSlot`), and the other
slots of the bundle are empty (`slotWord_other`). -/
theorem decodeReadsBackWhatIsEncoded : Obligations.DecodeReadsBackWhatIsEncoded := by
  unfold Obligations.DecodeReadsBackWhatIsEncoded
  intro h
  constructor
  · intro i hi hev hz
    obtain ⟨sl, w, he⟩ := encodeSlot_of_not_event hev hz
    obtain ⟨hlt, hd⟩ := decodeBytes_single h hi he
    exact ⟨_, encode_of_encodeSlot h hz he, hlt, hd, decodeTableWord_single hlt hd⟩
  · have hd := decodeBytes_header h
    exact ⟨_, rfl, h.toNat_lt, hd, decodeTableWord_header (h.toNat_lt.trans (pow_lt_pow_right₀ Nat.one_lt_two (by decide))) hd⟩

end Sys2Proof
end

section
/-! Words of the manual's examples decode (R140 to R143). -/

namespace Sys2Proof

theorem decodeSlot_reserved {sl : Slot} {w : ℕ} (hw : w ≠ 0) (hop : opcodeField sl w = 0) : decodeSlot sl w = .error .reserved := by
  rw [decodeSlot, if_neg hw, if_pos hop]

theorem decodeSlot_unassigned {sl : Slot} {w : ℕ} (hop : opcodeField sl w ≠ 0) (hb : buildSlot sl w = none) :
    decodeSlot sl w = .error .unassigned := by
  have hw : w ≠ 0 := fun h0 => hop (by rw [h0]; exact opcodeField_zero sl)
  rw [decodeSlot, if_neg hw, if_neg hop, hb]

/-- Settles O57: each word is the encoding of a well-formed operation, so it decodes to that operation (`decodeSlot_encodeSlot`). -/
theorem writtenWordsDecode : Obligations.WrittenWordsDecode := by
  have reads {sl : Slot} {w : ℕ} {i : Instr} (h : i.wellFormed = true ∧ encodeSlot i = some (sl, w)) : decodeSlot sl w = .ok (some i) :=
    decodeSlot_encodeSlot h.1 h.2
  exact ⟨reads (by decide), reads (by decide), reads (by decide), reads (by decide), reads (by decide), reads (by decide), reads (by decide),
    reads (by decide), reads (by decide), reads (by decide), reads (by decide), reads (by decide), reads (by decide), reads (by decide),
    reads (by decide), decodeSlot_zero .s, decodeSlot_reserved (by decide) rfl, decodeSlot_unassigned (by decide) rfl⟩

end Sys2Proof
end

section
/-! An operation whose guard is inactive has no effect (R144). -/

namespace Sys2Proof.Machine

/-- What an operation under a guard bit answers (`State.whenActive`) where the guard is inactive. -/
theorem guarded_inactive {s u : State} {g : Bool} (h : s.core.active g = false) :
    (.next (if s.core.active g then u else s) : Host.Outcome State Fault Refusal) = .next s := by
  rw [h]; rfl

/-- Settles O4: each of the operations acts under its guard bit. -/
theorem inactiveScalarOperationsDoNothing : Obligations.InactiveScalarOperationsDoNothing := by
  unfold Obligations.InactiveScalarOperationsDoNothing
  intro s o i b
  refine ⟨fun h f hf => ?_, fun h f hf => ?_, fun h f hf => ?_⟩
  · fin_cases hf <;> exact guarded_inactive h
  · fin_cases hf <;> exact guarded_inactive h
  · fin_cases hf <;> exact guarded_inactive h

end Sys2Proof.Machine
end

section
/-! Special registers of the task: RDSR and WRSR in task mode (R172, R218). -/

namespace Sys2Proof.Machine

theorem isQp_core {s : State} {p : ℕ} (h : s.focus = .core p) : s.isQp = false := by rw [State.isQp, h]

theorem with_task {c : Core} {t : TaskInfo} (h : c.task = some t) : { c with task := some t } = c := by rw [← h]

/-- The task registers have numbers below 0x800 (R172). -/
theorem sprWritable_lt {n : ℕ} {b : Bool} (h : sprWritable n = some b) : n < 0x800 := by
  simp only [sprWritable, Bool.or_eq_true, Bool.and_eq_true, beq_iff_eq, decide_eq_true_eq] at h
  split at h
  · omega
  · split at h
    · omega
    · cases h

/-- THANDLER takes 32 bits of the source without bit 30 (R190). -/
theorem handler_mask (v : Word) :
    v.setWidth 32 &&& 0xBFFFFFFF = BitVec.ofNat 32 (v.toNat % 2 ^ 30 + (if v.getLsbD 31 then 2 ^ 31 else 0)) := by
  have hmask : ∀ j < 32, (0xBFFFFFFF : BitVec 32).getLsbD j = decide (j ≠ 30) := by decide
  have htop : v.toNat % 2 ^ 30 + (if v.getLsbD 31 then 2 ^ 31 else 0) = 2 ^ 31 * (v.getLsbD 31).toNat + v.toNat % 2 ^ 30 := by
    cases v.getLsbD 31 <;> simp [Nat.add_comm]
  refine BitVec.eq_of_getLsbD_eq fun j hj => ?_
  have hlow : (v.toNat % 2 ^ 30).testBit j = (decide (j < 30) && v.getLsbD j) := by rw [Nat.testBit_mod_two_pow, BitVec.testBit_toNat]
  rw [BitVec.getLsbD_and, hmask j hj, BitVec.getLsbD_setWidth, BitVec.getLsbD_ofNat, htop, Nat.testBit_two_pow_mul_add _ (by omega), hlow]
  obtain h30 | rfl | rfl : j < 30 ∨ j = 30 ∨ j = 31 := by omega
  · have hne : j ≠ 30 := by omega
    have hlt : j < 31 := by omega
    simp [h30, hlt, hne]
  · simp
  · cases v.getLsbD 31 <;> rfl

theorem setClip_clip (m : MatCtx) (t : BitVec 2) (v : Word) {k : ℕ} (h : k < 4) :
    ((m.setClip t v).tiles[k]).data.clip = if k = t.toNat then v else m.tiles[k].data.clip := by
  by_cases e : k = t.toNat
  · subst e; simp [MatCtx.setClip]
  · simp [MatCtx.setClip, e, Ne.symm e]

/-- RDSR of register `n` sends the number `v` to s_d, or to a_d with isA, after one cycle and without taint (R218). -/
def RdsrSends (s : State) (o : SS) (n v : ℕ) : Prop :=
  o.spr.toNat = n →
    (o.isA = false → exec (.rdsr o) s = .next (s.sent 1 (.s o.d (BitVec.ofNat 64 v) none))) ∧
    (o.isA = true → exec (.rdsr o) s = .next (s.sent 1 (.a (o.d.setWidth 4) (BitVec.ofNat 80 v) none)))

section Registers
variable {s : State} {o : SS} {p n : ℕ} {b : Bool} (hf : s.focus = .core p) (hg : s.core.active o.g = true) (hn : o.spr.toNat = n)
include hf

/-- A number of the monitor's raises PRIV in task mode (R172, R363). -/
theorem rdsr_wrsr_privileged (hm : s.core.mon.mode = false) (h : 0x800 ≤ o.spr.toNat) :
    exec (.rdsr o) s = .next (s.takeTrap 0x03 0 (BitVec.ofNat 64 (slotBits (.rdsr o))) false) ∧
    exec (.wrsr o) s = .next (s.takeTrap 0x03 0 (BitVec.ofNat 64 (slotBits (.wrsr o))) false) := by
  have hread : s.sprRefuses (.rdsr o) = some PRIV := by simp [State.sprRefuses, h, isQp_core hf, hm]
  have hwrite : s.sprRefuses (.wrsr o) = some PRIV := by simp [State.sprRefuses, h, isQp_core hf, hm]
  have rdsr : exec (.rdsr o) s = execRdsr o s := rfl
  have wrsr : exec (.wrsr o) s = execWrsr o s := rfl
  rw [rdsr, wrsr, execRdsr, execWrsr, hread, hwrite]
  exact ⟨rfl, rfl⟩

include hg hn

/-- A listed register is read: PARAM into an address register alone (R172). -/
theorem rdsr_reads (hw : sprWritable n = some b) (hparam : n = 0x010 → o.isA = true) :
    exec (.rdsr o) s = .next (s.sprResult o (s.core.readSpr n o.sel)) := by
  subst hn
  have hpar : o.spr = 0x010#12 → o.isA = true := fun e => hparam (congrArg BitVec.toNat e)
  have hlow := sprWritable_lt hw
  have haccept : s.sprRefuses (.rdsr o) = none := by
    simpa [State.sprRefuses, isQp_core hf, hw, Nat.not_le.mpr hlow] using hpar
  have hexec : exec (.rdsr o) s = execRdsr o s := rfl
  rw [hexec, execRdsr, haccept]
  simp [hg, State.readLow, isQp_core hf]

/-- A register that WRSR may write takes s_d (R172, R218). -/
theorem wrsr_writes (hw : sprWritable n = some true) (hA : o.isA = false) :
    exec (.wrsr o) s = .next (s.upd fun c => c.writeSpr n o.sel (s.core.sreg o.d)) := by
  subst hn
  have haccept : s.sprRefuses (.wrsr o) = none := by
    simp [State.sprRefuses, isQp_core hf, hw, Nat.not_le.mpr (sprWritable_lt hw)]
  have hexec : exec (.wrsr o) s = execWrsr o s := rfl
  rw [hexec, execWrsr, haccept]
  simp [hg, isQp_core hf, State.sprSource, hA]

omit hn

theorem rdsr_sends {v : ℕ} (hw : sprWritable n = some b) (hne : n ≠ 0x010) (hv : s.core.readSpr n o.sel = BitVec.ofNat 80 v) :
    RdsrSends s o n v := by
  intro hn
  rw [rdsr_reads hf hg hn hw fun e => absurd e hne, hv]
  constructor
  · intro hA; simp [State.sprResult, hA]
  · intro hA; simp [State.sprResult, hA]

/-- A register of the core. -/
theorem rdsr_sends_core {w : ℕ} {x : BitVec w} (hw : sprWritable n = some b) (hne : n ≠ 0x010) (hv : s.core.readSpr n o.sel = x.setWidth 80) :
    RdsrSends s o n x.toNat :=
  rdsr_sends hf hg hw hne (hv.trans (BitVec.ofNat_toNat _ _).symm)

/-- A grid register of the task (R172). -/
theorem rdsr_sends_task {w : ℕ} {t : TaskInfo} (ht : s.core.task = some t) (x : TaskInfo → BitVec w) (hw : sprWritable n = some b)
    (hne : n ≠ 0x010) (hv : ∀ c : Core, Core.readSpr { c with task := some t } n o.sel = (x t).setWidth 80) : RdsrSends s o n (x t).toNat :=
  rdsr_sends_core hf hg hw hne ((congrArg (Core.readSpr · n o.sel) (with_task ht)).symm.trans (hv s.core))

theorem rdsr_sends_cycle : RdsrSends s o 0x040 (if s.core.tflags.getLsbD 24 then s.core.tau % 2 ^ 64 else s.core.cycle.toNat) :=
  rdsr_sends hf hg rfl (by decide) (by rw [apply_ite (BitVec.ofNat 80), BitVec.ofNat_toNat]; rfl)

theorem rdsr_sends_param {t : TaskInfo} (ht : s.core.task = some t) (hn : o.spr.toNat = 0x010) (hA : o.isA = true) :
    exec (.rdsr o) s = .next (s.sent 1 (.a (o.d.setWidth 4) t.param none)) := by
  have hv : s.core.readSpr 0x010 o.sel = t.param := (congrArg (Core.readSpr · 0x010 o.sel) (with_task ht)).symm
  rw [rdsr_reads hf hg hn rfl fun _ => hA, hv]
  simp [State.sprResult, hA]

end Registers

/-- Settles O15: RDSR of the task's registers (`rdsr_sends_task`) and of the core's (`rdsr_sends_core`), WRSR of those that it may write
(`wrsr_writes`), and their refusal of the monitor's numbers. -/
theorem specialRegisterReadsAndWrites : Obligations.SpecialRegisterReadsAndWrites := by
  unfold Obligations.SpecialRegisterReadsAndWrites
  intro s o p t hf hm hg ht c reads v writes
  have ofTask {n w : ℕ} {b : Bool} (x : TaskInfo → BitVec w) := rdsr_sends_task (n := n) (b := b) hf hg ht x
  have ofCore {n w : ℕ} {b : Bool} {x : BitVec w} := rdsr_sends_core (n := n) (b := b) (x := x) hf hg
  refine ⟨ofTask TaskInfo.gx rfl (by decide) fun _ => rfl, ofTask TaskInfo.gy rfl (by decide) fun _ => rfl,
    ofTask TaskInfo.gz rfl (by decide) fun _ => rfl, ofTask TaskInfo.cidx rfl (by decide) fun _ => rfl,
    ofTask TaskInfo.gsize rfl (by decide) fun _ => rfl, ofTask TaskInfo.cx rfl (by decide) fun _ => rfl,
    ofTask TaskInfo.cy rfl (by decide) fun _ => rfl, ofTask TaskInfo.cz rfl (by decide) fun _ => rfl,
    ofTask TaskInfo.seed rfl (by decide) fun _ => rfl, ofCore rfl (by decide) rfl, ofCore rfl (by decide) rfl, ofCore rfl (by decide) rfl,
    ofCore rfl (by decide) rfl, ofCore rfl (by decide) rfl, ofCore rfl (by decide) rfl, ofCore rfl (by decide) rfl, ofCore rfl (by decide) rfl,
    ofCore rfl (by decide) rfl, ofCore rfl (by decide) rfl, rdsr_sends_cycle hf hg, ofCore rfl (by decide) rfl, rdsr_sends_param hf hg ht,
    fun hn => wrsr_writes hf hg hn rfl, fun hn => wrsr_writes hf hg hn rfl, fun hn => wrsr_writes hf hg hn rfl, fun hn hA => ?handler,
    fun hn hA => ?clip, rdsr_wrsr_privileged hf hm⟩
  case handler => rw [wrsr_writes hf hg hn rfl hA, ← handler_mask]; rfl
  case clip => exact ⟨_, wrsr_writes hf hg hn rfl hA, rfl, rfl, rfl, fun k h => setClip_clip _ _ _ h⟩

end Sys2Proof.Machine
end

section

/-! Where a trap goes (R219). -/

namespace Sys2Proof.Machine

/-- Settles O10, by unfolding the routing of `Core.toMonitor`: both sides are the same conjunction of tests. -/
theorem trapsRoutedToHandlerOrMonitor : Obligations.TrapsRoutedToHandlerOrMonitor := by
  unfold Obligations.TrapsRoutedToHandlerOrMonitor
  intro c code _ _
  simp [Core.toMonitor, Core.hnd, PRIV, POISON, SEGRW, CTXLOST, MHND, and_assoc]

end Sys2Proof.Machine

end

section

/-! What an operation under a guard bit sends where the guard is active (R144, R153). -/

namespace Sys2Proof.Machine

section Active
variable {s : State}

theorem whenActive_next {g : Bool} (hg : s.core.active g = true) (f : State → State) : s.whenActive g f = .next (f s) := by
  rw [State.whenActive, if_pos hg]

theorem scalar2_sends {o : SR} {lat : ℕ} {f : Word → Word → Word} {v : Word} (hg : s.core.active o.g = true)
    (hv : f (s.core.sreg o.a) (s.core.sreg o.b) = v) :
    s.scalar2 o lat f = .next (s.sent lat (.s o.d v (joinTaint (s.core.sTaint o.a) (s.core.sTaint o.b)))) := by
  rw [State.scalar2, whenActive_next hg, hv, wS_eq_sent]

theorem scalar1_sends {o : SR} {f : Word → Word} (hg : s.core.active o.g = true) :
    s.scalar1 o f = .next (s.sent 1 (.s o.d (f (s.core.sreg o.a)) (s.core.sTaint o.a))) := by
  rw [State.scalar1, whenActive_next hg, wS_eq_sent]

theorem scalarImm_sends {o : SI} {f : Word → Word} {v : Word} (hg : s.core.active o.g = true) (hv : f (s.core.sreg o.a) = v) :
    s.scalarImm o f = .next (s.sent 1 (.s o.d v (s.core.sTaint o.a))) := by
  rw [State.scalarImm, whenActive_next hg, hv, wS_eq_sent]

/-- The third register of SEL is named by `fn[4:0]` (R192). -/
theorem sel_sends {o : SR} (hg : s.core.active o.g = true) :
    exec (.sel o) s = .next (s.sent 1 (.s o.d (if s.core.sreg (o.fn.extractLsb' 0 5) = 0 then s.core.sreg o.b else s.core.sreg o.a)
      (joinTaint (joinTaint (s.core.sTaint o.a) (s.core.sTaint o.b)) (s.core.sTaint (o.fn.extractLsb' 0 5))))) := by
  have hsel : o.fn.extractLsb' 0 5 = o.fn.setWidth 5 := (BitVec.setWidth_eq_extractLsb' (by decide)).symm
  show execSel o s = _
  rw [execSel, whenActive_next hg, wS_eq_sent, hsel]
  simp only [bne_iff_ne, ne_eq, ite_not]

end Active

/-! The values of R192 as integers. -/

theorem add_eq_ofInt {w : ℕ} (a b : BitVec w) : a + b = BitVec.ofInt w (a.toInt + b.toInt) := by
  rw [BitVec.ofInt_add, BitVec.ofInt_toInt, BitVec.ofInt_toInt]

theorem sub_eq_ofInt {w : ℕ} (a b : BitVec w) : a - b = BitVec.ofInt w (a.toInt - b.toInt) := by
  rw [sub_eq_add_neg, sub_eq_add_neg, BitVec.ofInt_add, BitVec.ofInt_neg, BitVec.ofInt_toInt, BitVec.ofInt_toInt]

theorem mul_eq_ofNat {w : ℕ} (a b : BitVec w) : a * b = BitVec.ofNat w (a.toNat * b.toNat) := by
  rw [BitVec.ofNat_mul, BitVec.ofNat_toNat, BitVec.ofNat_toNat, BitVec.setWidth_eq, BitVec.setWidth_eq]

theorem shl_eq_ofNat {w : ℕ} (a : BitVec w) (k : ℕ) : a <<< k = BitVec.ofNat w (a.toNat * 2 ^ k) :=
  BitVec.eq_of_toNat_eq (by rw [BitVec.toNat_shiftLeft, Nat.shiftLeft_eq, BitVec.toNat_ofNat])

theorem shr_eq_ofNat {w : ℕ} (a : BitVec w) (k : ℕ) : a >>> k = BitVec.ofNat w (a.toNat / 2 ^ k) := by
  rw [← Nat.shiftRight_eq_div_pow, ← BitVec.toNat_ushiftRight, BitVec.ofNat_toNat, BitVec.setWidth_eq]

theorem sra_eq_ofInt {w : ℕ} (a : BitVec w) (k : ℕ) : a.sshiftRight k = BitVec.ofInt w (a.toInt.fdiv (2 ^ k)) := by
  rw [Int.fdiv_eq_ediv_of_nonneg _ (by positivity), BitVec.sshiftRight, Int.shiftRight_eq_div_pow]
  norm_cast

theorem mulh_eq_ofInt (a b : Word) : wordOf (sw a * sw b / (2 ^ 64 : ℕ)) = BitVec.ofInt 64 ((a.toInt * b.toInt).fdiv (2 ^ 64)) := by
  rw [Int.fdiv_eq_ediv_of_nonneg _ (by positivity)]; rfl

theorem min_eq_ite {w : ℕ} (a b : BitVec w) : (if b.slt a then b else a) = if a.toInt ≤ b.toInt then a else b := by
  simp only [BitVec.slt_iff_toInt_lt, ← not_le, ite_not]

theorem max_eq_ite {w : ℕ} (a b : BitVec w) : (if a.slt b then b else a) = if b.toInt ≤ a.toInt then a else b := by
  simp only [BitVec.slt_iff_toInt_lt, ← not_le, ite_not]

theorem minu_eq_ite {w : ℕ} (a b : BitVec w) : (if b.ult a then b else a) = if a.toNat ≤ b.toNat then a else b := by
  simp only [BitVec.ult_iff_toNat_lt, ← not_le, ite_not]

theorem maxu_eq_ite {w : ℕ} (a b : BitVec w) : (if a.ult b then b else a) = if b.toNat ≤ a.toNat then a else b := by
  simp only [BitVec.ult_iff_toNat_lt, ← not_le, ite_not]

theorem slt_eq_ite (a b : Word) : (if a.slt b then 1 else 0 : Word) = if a.toInt < b.toInt then 1 else 0 := by
  simp only [BitVec.slt_iff_toInt_lt]

theorem sltu_eq_ite (a b : Word) : (if a.ult b then 1 else 0 : Word) = if a.toNat < b.toNat then 1 else 0 := by
  simp only [BitVec.ult_iff_toNat_lt]

/-- Settles O1: each operation sends its row by `scalar2_sends` or `sel_sends`, and the value of the row as an integer is a lemma above. -/
theorem scalarRegisterOperations : Obligations.ScalarRegisterOperations := by
  unfold Obligations.ScalarRegisterOperations
  intro s o hg a b t res
  refine ⟨(scalar2_sends hg (add_eq_ofInt a b) : execAdd o s = _), (scalar2_sends hg (sub_eq_ofInt a b) : execSub o s = _),
    (scalar2_sends hg (mul_eq_ofNat a b) : execMul o s = _), (scalar2_sends hg (mulh_eq_ofInt a b) : execMulh o s = _),
    (scalar2_sends hg rfl : execMulhu o s = _), ⟨_, (scalar2_sends hg rfl : execAnd o s = _), fun _ => BitVec.getLsbD_and⟩,
    ⟨_, (scalar2_sends hg rfl : execOr o s = _), fun _ => BitVec.getLsbD_or⟩,
    ⟨_, (scalar2_sends hg rfl : execXor o s = _), fun _ => BitVec.getLsbD_xor⟩,
    (scalar2_sends hg (shl_eq_ofNat a _) : execShl o s = _), (scalar2_sends hg (shr_eq_ofNat a _) : execShr o s = _),
    (scalar2_sends hg (sra_eq_ofInt a _) : execSra o s = _), (scalar2_sends hg (min_eq_ite a b) : execMin o s = _),
    (scalar2_sends hg (max_eq_ite a b) : execMax o s = _), (scalar2_sends hg (minu_eq_ite a b) : execMinu o s = _),
    (scalar2_sends hg (maxu_eq_ite a b) : execMaxu o s = _), (scalar2_sends hg (slt_eq_ite a b) : execSlt o s = _),
    (scalar2_sends hg (sltu_eq_ite a b) : execSltu o s = _), sel_sends hg⟩

end Sys2Proof.Machine

end

section

/-! Immediates and bit fields (R194, R196). -/

namespace Sys2Proof.Machine

theorem wordOf_sextInt (x n : ℕ) : wordOf (sextInt x n) = (BitVec.ofNat n x).signExtend 64 := by
  rw [BitVec.signExtend, BitVec.toInt_eq_toNat_cond, BitVec.toNat_ofNat]
  rfl

theorem getLsbD_ofNat_div (a : Word) (lo n k : ℕ) : (BitVec.ofNat n (a.toNat / 2 ^ lo)).getLsbD k = (decide (k < n) && a.getLsbD (lo + k)) := by
  rw [BitVec.getLsbD_ofNat, Nat.testBit_div_two_pow, BitVec.testBit_toNat, Nat.add_comm]

theorem addi_eq_ofInt (a : Word) (imm : BitVec 32) : a + sext32 imm = BitVec.ofInt 64 (a.toInt + imm.toInt) := by
  rw [BitVec.ofInt_add, BitVec.ofInt_toInt]; rfl

theorem lih_eq_ofNat (a : Word) (imm : BitVec 32) : imm ++ a.setWidth 32 = BitVec.ofNat 64 (imm.toNat * 2 ^ 32 + a.toNat % 2 ^ 32) := by
  rw [append_eq_ofNat, BitVec.toNat_setWidth, Nat.add_comm (a.toNat % 2 ^ 32)]

/-- An immediate holds the low bit and the width of a field (R196). -/
theorem field_of_imm {lo w : ℕ} {imm : BitVec 32} (hlo : lo < 64) (hw : 1 ≤ w) (h64 : w ≤ 64) (hi : imm.toNat = lo + (w - 1) * 64) :
    fieldLo imm = lo ∧ fieldWidth imm = w := by
  rw [fieldLo, fieldWidth, hi]
  omega

/-- A field of `w` bits, zero-extended (R196). -/
theorem getLsbD_extz (a : Word) (lo k : ℕ) {w : ℕ} (hw : w ≤ 64) :
    (BitVec.ofNat 64 (a.toNat / 2 ^ lo % 2 ^ w)).getLsbD k = (decide (k < w) && a.getLsbD (lo + k)) := by
  rw [BitVec.getLsbD_ofNat, Nat.testBit_mod_two_pow, Nat.testBit_div_two_pow, BitVec.testBit_toNat, Nat.add_comm]
  by_cases h : k < w
  · simp [h, h.trans_le hw]
  · simp [h]

/-- A field of `w` bits, sign-extended (R196). -/
theorem getLsbD_exts (a : Word) (lo : ℕ) {w k : ℕ} (hw : 1 ≤ w) (hk : k < 64) :
    (wordOf (sextInt (a.toNat / 2 ^ lo) w)).getLsbD k = if k < w then a.getLsbD (lo + k) else a.getLsbD (lo + w - 1) := by
  have hmsb : w - 1 < w := Nat.sub_lt hw one_pos
  rw [wordOf_sextInt, BitVec.getLsbD_signExtend, BitVec.msb_eq_getLsbD_last, getLsbD_ofNat_div, getLsbD_ofNat_div, Nat.add_sub_assoc hw]
  by_cases h : k < w <;> simp [h, hk, hmsb]

/-- The bits of the mask of a field (R196). -/
theorem getLsbD_fieldMask (lo w : ℕ) {k : ℕ} (hk : k < 64) :
    (BitVec.ofNat 64 ((2 ^ w - 1) * 2 ^ lo)).getLsbD k = decide (lo ≤ k ∧ k < lo + w) := by
  rw [BitVec.getLsbD_ofNat, Nat.testBit_mul_two_pow, Nat.testBit_two_pow_sub_one]
  simp only [hk, decide_true, Bool.true_and, ← Bool.decide_and, decide_eq_decide]
  omega

theorem getLsbD_ins (a d : Word) (lo w : ℕ) {k : ℕ} (hk : k < 64) :
    ((d &&& ~~~BitVec.ofNat 64 ((2 ^ w - 1) * 2 ^ lo)) ||| (a <<< lo &&& BitVec.ofNat 64 ((2 ^ w - 1) * 2 ^ lo))).getLsbD k =
      if lo ≤ k ∧ k < lo + w then a.getLsbD (k - lo) else d.getLsbD k := by
  rw [BitVec.getLsbD_or, BitVec.getLsbD_and, BitVec.getLsbD_and, BitVec.getLsbD_not, BitVec.getLsbD_shiftLeft, getLsbD_fieldMask lo w hk]
  by_cases h : lo ≤ k ∧ k < lo + w
  · have hle : ¬ k < lo := Nat.not_lt.mpr h.1
    simp [h, hk, hle]
  · simp [h, hk]

theorem ins_sends {s : State} {o : SI} (hg : s.core.active o.g = true) :
    let m : Word := BitVec.ofNat 64 ((2 ^ fieldWidth o.imm - 1) * 2 ^ fieldLo o.imm)
    exec (.ins o) s = .next (s.sent 1 (.s o.d ((s.core.sreg o.d &&& ~~~m) ||| (s.core.sreg o.a <<< fieldLo o.imm &&& m))
      (joinTaint (s.core.sTaint o.a) (s.core.sTaint o.d)))) := by
  show execIns o s = _
  rw [execIns, whenActive_next hg, wS_eq_sent]

/-- Settles O2: each operation sends its value by `scalarImm_sends`; the bits of EXTZ, EXTS and INS are those of `getLsbD_extz`,
`getLsbD_exts` and `getLsbD_ins`. -/
theorem scalarImmediateOperations : Obligations.ScalarImmediateOperations := by
  unfold Obligations.ScalarImmediateOperations
  intro s o hg a t i res
  refine ⟨(scalarImm_sends hg (addi_eq_ofInt a o.imm) : execAddi o s = _), (scalarImm_sends hg rfl : execAndi o s = _),
    (scalarImm_sends hg rfl : execOri o s = _), (scalarImm_sends hg rfl : execXori o s = _), (scalarImm_sends hg (shl_eq_ofNat a _) : execShli o s = _),
    (scalarImm_sends hg (shr_eq_ofNat a _) : execShri o s = _), (scalarImm_sends hg (sra_eq_ofInt a _) : execSrai o s = _),
    (whenActive_next hg _ : execLi o s = _), (scalarImm_sends hg (lih_eq_ofNat a o.imm) : execLih o s = _), fun lo w hlo hw h64 hi hlow => ?_⟩
  obtain ⟨hl, hwd⟩ := field_of_imm hlo hw h64 hi
  refine ⟨⟨_, (scalarImm_sends hg rfl : execExtz o s = _), fun k => ?_⟩, ⟨_, (scalarImm_sends hg rfl : execExts o s = _), fun k hk => ?_⟩,
    ⟨_, ins_sends hg, fun k hk => ?_⟩⟩ <;> rw [hl, hwd]
  · exact getLsbD_extz a lo k h64
  · exact getLsbD_exts a lo hw hk
  · exact getLsbD_ins a _ lo w hk

end Sys2Proof.Machine

end

section

/-! Counts of bits, and bytes in reverse order (R195). -/

namespace Sys2Proof.Machine

theorem foldr_pick_eq_find? {α : Type} (p : α → Bool) (xs : List α) (z : α) :
    xs.foldr (fun k n => if p k then k else n) z = (xs.find? p).getD z := by
  induction xs with
  | nil => rfl
  | cons x xs ih =>
    rw [List.foldr_cons, ih, List.find?_cons]
    cases p x <;> rfl

theorem foldl_count_eq_filter {α : Type} (p : α → Bool) (xs : List α) (n : ℕ) :
    xs.foldl (fun n k => if p k then n + 1 else n) n = n + (xs.filter p).length := by
  induction xs generalizing n with
  | nil => rfl
  | cons x xs ih =>
    rw [List.foldl_cons, ih]
    cases h : p x <;> simp [h, Nat.add_assoc, Nat.add_comm 1]

/-- The first number below `m` with a property, and `m` for none. -/
theorem find?_range_first (p : ℕ → Bool) (m : ℕ) :
    let n := ((List.range m).find? p).getD m
    n ≤ m ∧ (∀ k, k < n → p k = false) ∧ (n < m → p n = true) := by
  cases h : (List.range m).find? p with
  | none =>
    rw [List.find?_range_eq_none] at h
    exact ⟨le_rfl, fun k hk => by simpa using h k hk, fun hlt => absurd hlt (lt_irrefl _)⟩
  | some i =>
    rw [List.find?_range_eq_some] at h
    obtain ⟨hp, hi, hbelow⟩ := h
    exact ⟨(List.mem_range.mp hi).le, fun k hk => by simpa using hbelow k hk, fun _ => hp⟩

theorem ctz64_spec (a : Word) : ctz64 a ≤ 64 ∧ (∀ k, k < ctz64 a → a.getLsbD k = false) ∧ (ctz64 a < 64 → a.getLsbD (ctz64 a) = true) := by
  rw [ctz64, foldr_pick_eq_find?]
  exact find?_range_first _ 64

/-- The place of the highest set bit below `m`, counted down from 63. -/
theorem foldl_highest (a : Word) {m : ℕ} (hm : m ≤ 64) :
    let n := (List.range m).foldl (fun n k => if a.getLsbD k then 63 - k else n) 64
    n ≤ 64 ∧ (∀ k, 64 - n ≤ k → k < m → a.getLsbD k = false) ∧ (n < 64 → a.getLsbD (63 - n) = true) := by
  induction m with
  | zero => exact ⟨le_rfl, fun k _ hk => absurd hk (Nat.not_lt_zero k), fun h => absurd h (lt_irrefl _)⟩
  | succ m ih =>
    obtain ⟨hle, hzero, hone⟩ := ih (Nat.le_of_succ_le hm)
    rw [List.range_succ, List.foldl_append, List.foldl_cons, List.foldl_nil]
    by_cases h : a.getLsbD m = true
    · rw [if_pos h]
      refine ⟨by omega, fun k hk hlt => by omega, fun _ => ?_⟩
      rwa [show 63 - (63 - m) = m by omega]
    · rw [if_neg h]
      refine ⟨hle, fun k hk hlt => ?_, hone⟩
      obtain hlt | rfl := Nat.lt_succ_iff_lt_or_eq.mp hlt
      · exact hzero k hk hlt
      · exact Bool.eq_false_iff.mpr h

theorem clz64_spec (a : Word) :
    clz64 a ≤ 64 ∧ (∀ k, 64 - clz64 a ≤ k → a.getLsbD k = false) ∧ (clz64 a < 64 → a.getLsbD (63 - clz64 a) = true) := by
  obtain ⟨hle, hzero, hone⟩ := foldl_highest a le_rfl
  refine ⟨hle, fun k hk => ?_, hone⟩
  rcases Nat.lt_or_ge k 64 with h | h
  · exact hzero k hk h
  · exact BitVec.getLsbD_of_ge a k h

/-- Byte `k` of a number made of bytes. -/
theorem natOfBytes_byte (bs : List Byte) (k : ℕ) : BitVec.ofNat 8 (natOfBytes bs / 2 ^ (8 * k)) = bs.getD k 0 := by
  induction bs generalizing k with
  | nil => simp [natOfBytes]
  | cons b bs ih =>
    cases k with
    | zero => exact BitVec.eq_of_toNat_eq (by simpa [natOfBytes] using b.isLt)
    | succ k =>
      have hdrop : natOfBytes (b :: bs) / 2 ^ (8 * (k + 1)) = natOfBytes bs / 2 ^ (8 * k) := by
        rw [Nat.mul_succ, Nat.add_comm, pow_add, ← Nat.div_div_eq_div_mul, natOfBytes]
        congr 1
        omega
      rw [hdrop, ih, List.getD_cons_succ]

theorem bytesOfNat_getD (n x : ℕ) {k : ℕ} (hk : k < n) : (bytesOfNat n x).getD k 0 = BitVec.ofNat 8 (x / 2 ^ (8 * k)) := by
  induction n generalizing x k with
  | zero => exact absurd hk (Nat.not_lt_zero k)
  | succ n ih =>
    cases k with
    | zero => simp [bytesOfNat]
    | succ k =>
      rw [bytesOfNat, List.getD_cons_succ, ih _ (Nat.lt_of_succ_lt_succ hk), Nat.div_div_eq_div_mul, Nat.mul_succ, Nat.add_comm (8 * k), pow_add]
      rfl

/-- Byte `k` of BSWAP's result is byte `7 - k` of its operand (R195). -/
theorem bswap64_byte (a : Word) {k : ℕ} (hk : k < 8) : (bswap64 a).extractLsb' (8 * k) 8 = a.extractLsb' (8 * (7 - k)) 8 := by
  have hrev : (bytesOfNat 8 a.toNat).reverse.getD k 0 = (bytesOfNat 8 a.toNat).getD (7 - k) 0 := by
    rw [List.getD_eq_getElem?_getD, List.getElem?_reverse (by rwa [bytesOfNat_length]), bytesOfNat_length, List.getD_eq_getElem?_getD]
  have hbyte : (bswap64 a).extractLsb' (8 * k) 8 = BitVec.ofNat 8 (natOfBytes (bytesOfNat 8 a.toNat).reverse / 2 ^ (8 * k)) := by
    refine BitVec.eq_of_getLsbD_eq fun j hj => ?_
    have h64 : 8 * k + j < 64 := by omega
    rw [BitVec.getLsbD_extractLsb', bswap64, BitVec.getLsbD_ofNat, BitVec.getLsbD_ofNat, Nat.testBit_div_two_pow, Nat.add_comm j]
    simp only [h64, decide_true, Bool.true_and]
  rw [hbyte, natOfBytes_byte, hrev, bytesOfNat_getD 8 _ (by omega), BitVec.extractLsb', Nat.shiftRight_eq_div_pow]

/-- Settles O3, by `clz64_spec`, `ctz64_spec` and `bswap64_byte`; POPC counts as `foldl_count_eq_filter` says. -/
theorem scalarBitCounts : Obligations.ScalarBitCounts := by
  unfold Obligations.ScalarBitCounts
  intro s o hg a res
  refine ⟨⟨clz64 a, (scalar1_sends hg : execClz o s = _), clz64_spec a⟩, ⟨ctz64 a, (scalar1_sends hg : execCtz o s = _), ctz64_spec a⟩, ?_,
    ⟨bswap64 a, (scalar1_sends hg : execBswap o s = _), fun k => bswap64_byte a⟩⟩
  have hcount : popc64 a = ((List.range 64).filter fun k => a.getLsbD k).length :=
    (foldl_count_eq_filter (fun k => a.getLsbD k) (List.range 64) 0).trans (Nat.zero_add _)
  rw [← hcount]
  exact (scalar1_sends hg : execPopc o s = _)

end Sys2Proof.Machine

end

section

/-! Division (R193). -/

namespace Sys2Proof.Machine

theorem eq_intMin_iff (x : Word) : x = 0x8000000000000000 ↔ x.toInt = -2 ^ 63 := by
  have hmin : (0x8000000000000000 : Word).toInt = -2 ^ 63 := by decide
  rw [← hmin, BitVec.toInt_inj]

theorem eq_neg_one_iff (y : Word) : y = -1 ↔ y.toInt = -1 := by
  have hone : (-1 : Word).toInt = -1 := by decide
  rw [← hone, BitVec.toInt_inj]

theorem divide_zero (op : ℕ) (x : Word) : divide op x 0 = (if op < 2 then 0xFFFFFFFFFFFFFFFF else x, fDZ) := by
  refine (if_pos rfl).trans ?_
  match op with
  | 0 => rfl
  | 1 => rfl
  | op + 2 => simp

theorem divide_overflow {op : ℕ} {x y : Word} (hop : op = 0 ∨ op = 2) (hx : x.toInt = -2 ^ 63) (hy : y.toInt = -1) :
    divide op x y = (if op = 0 then x else 0, fOF) := by
  have hov := And.intro ((eq_intMin_iff x).mpr hx) ((eq_neg_one_iff y).mpr hy)
  rcases hop with rfl | rfl <;> simp [divide, hov]

section Nonzero
variable {x y : Word} (hy : y ≠ 0)
include hy

theorem divide_signed (h : ¬ (x.toInt = -2 ^ 63 ∧ y.toInt = -1)) :
    divide 0 x y = (x.sdiv y, 0) ∧ divide 2 x y = (x.srem y, 0) := by
  have hov : ¬ (x = 0x8000000000000000 ∧ y = -1) := by rwa [eq_intMin_iff, eq_neg_one_iff]
  have hdiv : wordOf (Int.tdiv (sw x) (sw y)) = x.sdiv y := BitVec.eq_of_toInt_eq (by rw [wordOf, BitVec.toInt_ofInt, BitVec.toInt_sdiv]; rfl)
  have hrem : wordOf (Int.tmod (sw x) (sw y)) = x.srem y := by rw [sw, sw, ← BitVec.toInt_srem, wordOf, BitVec.ofInt_toInt]
  constructor
  · simp only [divide, if_neg hy, if_true, if_neg hov, hdiv]
  · simp only [divide, if_neg hy, if_neg hov, hrem, OfNat.ofNat_ne_zero, if_false, if_true]

theorem divide_unsigned : divide 1 x y = (x / y, 0) ∧ divide 3 x y = (x % y, 0) := by
  rw [divide, divide, if_neg hy, if_neg hy]
  exact ⟨rfl, rfl⟩

/-- A quotient that the destination can hold, or its remainder (R193). -/
theorem divide_quotient {op : ℕ} (hop : op < 4) (hno : op % 2 = 0 → ¬ (x.toInt = -2 ^ 63 ∧ y.toInt = -1)) :
    (divide op x y).2 = 0 ∧ (op = 0 → (divide op x y).1.toInt = Int.tdiv x.toInt y.toInt) ∧
      (op = 1 → (divide op x y).1.toNat = x.toNat / y.toNat) ∧ (op = 2 → (divide op x y).1.toInt = Int.tmod x.toInt y.toInt) ∧
      (op = 3 → (divide op x y).1.toNat = x.toNat % y.toNat) := by
  obtain ⟨hdivu, hremu⟩ := divide_unsigned (x := x) hy
  obtain rfl | rfl | rfl | rfl : op = 0 ∨ op = 2 ∨ op = 1 ∨ op = 3 := by omega
  · have hin := hno rfl
    rw [← eq_intMin_iff, ← eq_neg_one_iff, not_and_or] at hin
    simp [(divide_signed hy (hno rfl)).1, BitVec.toInt_sdiv_of_ne_or_ne x y hin]
  · simp [(divide_signed hy (hno rfl)).2, BitVec.toInt_srem]
  · simp [hdivu, BitVec.toNat_udiv]
  · simp [hremu, BitVec.toNat_umod]

end Nonzero

/-! The completion of a division (R154, R173, R375). -/

theorem landOutst_sets (c : Core) (k : ℕ) (d : Reg) (v : Word) (t : Option Taint) :
    let u := c.landOutst k (.s d v t)
    u.s = (c.setS d v t).s ∧ u.a = c.a ∧ u.v = c.v ∧ u.outst = c.outst ∧ u.sticky = c.sticky := by
  have keeps : (c.setS d v t).a = c.a ∧ (c.setS d v t).v = c.v ∧ (c.setS d v t).outst = c.outst ∧ (c.setS d v t).sticky = c.sticky := by
    unfold Core.setS
    split <;> exact ⟨rfl, rfl, rfl, rfl⟩
  unfold Core.landOutst
  simp only [Core.land]
  repeat' split
  all_goals exact ⟨rfl, keeps⟩

/-- An interlocked scalar result is written with its flags, and its operation is over. -/
theorem finish_sets (c : Core) (k : ℕ) (d : Reg) (v : Word) (t : Option Taint) (f : BitVec 11) :
    let u := c.finish k (.s d v t) f
    u.outst = c.outst.eraseIdx k ∧ (d ≠ 0 → u.sreg d = v) ∧ (∀ r, r ≠ d → u.sreg r = c.sreg r) ∧ u.sticky = c.sticky ||| f ∧
      u.a = c.a ∧ u.v = c.v := by
  obtain ⟨hs, ha, hv, ho, hst⟩ := landOutst_sets c k d v t
  have hregs (r : Reg) : (c.finish k (.s d v t) f).sreg r = (c.setS d v t).sreg r := sreg_of_s hs r
  exact ⟨congrArg (·.eraseIdx k) ho, fun hd => (hregs d).trans (sreg_setS_same c hd v t), fun r hr => (hregs r).trans (sreg_setS_other c hr v t),
    congrArg (· ||| f) hst, ha, hv⟩

theorem startDivision_starts {s : State} {o : SR} (hg : s.core.active o.g = true) (op : ℕ) : s.startDivision o op =
    .next (s.upd fun c => { c with
      outst := c.outst ++ [.division op (c.sreg o.a) (c.sreg o.b) o.d (joinTaint (s.core.sTaint o.a) (s.core.sTaint o.b))] }) := by
  rw [State.startDivision, whenActive_next hg]; rfl

section Complete
variable {q : State} {op : ℕ} {x y : Word} {d : Reg} {t : Option Taint} (hq : q.core.outst[q.ev.index]? = some (.division op x y d t))
include hq

theorem divisionComplete_waits (h : q.core.dividing q.ev.index = true) : exec .divisionComplete q = .next q := by
  show execDivisionComplete q = _
  simp only [execDivisionComplete, hq, h, if_true]

theorem divisionComplete_lands (h : q.core.dividing q.ev.index = false) : exec .divisionComplete q =
    .next (q.upd fun c => c.finish q.ev.index (.s d (divide op x y).1 t) (divide op x y).2) := by
  show execDivisionComplete q = _
  simp only [execDivisionComplete, hq, h, Bool.false_eq_true, if_false]

end Complete

/-- Settles O5: `startDivision_starts` starts, `divisionComplete_lands` writes what `finish_sets` says, and the value is that of
`divide_zero`, `divide_overflow` or `divide_quotient`. -/
theorem divisionStartsAndCompletes : Obligations.DivisionStartsAndCompletes := by
  unfold Obligations.DivisionStartsAndCompletes
  intro s o hg t start
  refine ⟨startDivision_starts hg 0, startDivision_starts hg 1, startDivision_starts hg 2, startDivision_starts hg 3,
    fun op x y d tt hop q hq => ⟨divisionComplete_waits hq, fun hfree => ?_⟩⟩
  obtain ⟨hout, hd, hother, hst, ha, hv⟩ := finish_sets q.core q.ev.index d (divide op x y).1 tt (divide op x y).2
  refine ⟨_, _, _, divisionComplete_lands hq hfree, hout, hd, hother, hst, rfl, ha, hv, fun hy => ?zero, fun hy heven hx hone => ?overflow,
    fun hy hno => ?quotient⟩
  case zero => rw [hy, divide_zero]; exact ⟨rfl, rfl⟩
  case overflow => rw [divide_overflow (by omega) hx hone]; exact ⟨rfl, rfl⟩
  case quotient => exact divide_quotient hy hop hno

end Sys2Proof.Machine

end

section

/-! The predicate stack (R198 to R203). -/

namespace Sys2Proof.Machine

theorem bitOf_eq_testBit (w k : ℕ) : bitOf w k = w.testBit k := by
  rw [bitOf, Nat.testBit_eq_decide_div_mod_eq]; rfl

theorem allOnes_eq_neg_one (w : ℕ) : BitVec.allOnes w = -1 := (BitVec.neg_one_eq_allOnes).symm

/-- The conditions 0 to 9 of R14 on two values of one width. -/
def CondHolds {n : ℕ} (cc : ℕ) (a b : BitVec n) : Prop :=
  match cc with
  | 0 => a.toNat = b.toNat
  | 1 => a.toNat ≠ b.toNat
  | 2 => a.toInt < b.toInt
  | 3 => b.toInt ≤ a.toInt
  | 4 => a.toNat < b.toNat
  | 5 => b.toNat ≤ a.toNat
  | 6 => a.toInt ≤ b.toInt
  | 7 => b.toInt < a.toInt
  | 8 => a.toNat ≤ b.toNat
  | 9 => b.toNat < a.toNat
  | _ => False

theorem condHolds_word (cc : ℕ) (a b : Word) : CondHolds cc a b = condOf cc a b := rfl

theorem intCond_iff {n : ℕ} (cc : ℕ) (a b : BitVec n) : intCond cc a b = true ↔ CondHolds cc a b := by
  unfold intCond CondHolds
  split <;> simp [BitVec.slt_eq_decide, BitVec.ult_eq_decide, BitVec.sle_eq_decide, BitVec.ule_eq_decide, BitVec.toNat_inj]

theorem parentOf_eq_entryAt (st : List PredEntry) : parentOf st = entryAt st 0 := by
  cases st with
  | nil => exact congrArg (·, true) (allOnes_eq_neg_one 1024).symm
  | cons e st => rfl

/-- The entry that a scalar condition pushes (R200). -/
def PredEntry.ofCond (st : List PredEntry) (x : Bool) : PredEntry :=
  { m := if x then (parentOf st).1 else 0, b := (parentOf st).2 && x, due := dueOf st }

theorem pushScalar_eq (c : Core) (x : Bool) :
    c.pushScalar x = { c with pnext := some (PredEntry.ofCond (c.pnext.getD c.pstack) x :: c.pnext.getD c.pstack) } := rfl

/-- It is its parent where the condition holds, and empty elsewhere. -/
theorem ofCond_good (st : List PredEntry) {x : Bool} {c : Prop} (h : x = true ↔ c) :
    (c → ((PredEntry.ofCond st x).m, (PredEntry.ofCond st x).b) = entryAt st 0) ∧
      (¬ c → (PredEntry.ofCond st x).m = 0 ∧ (PredEntry.ofCond st x).b = false) := by
  rw [← h, ← parentOf_eq_entryAt, PredEntry.ofCond]
  cases x <;> simp

theorem cmp_pushes (s : State) (o : SB) : exec (.cmp o) s = .next (s.upd fun c => c.pushScalar (intCond o.cc.toNat (c.sreg o.a) (c.sreg o.b))) := rfl

theorem cmpi_pushes (s : State) {o : SI} (h : o.fn.toNat ≤ 9) :
    exec (.cmpi o) s = .next (s.upd fun c => c.pushScalar (intCond o.fn.toNat (c.sreg o.a) (BitVec.ofInt 64 o.imm.toInt))) := by
  have hfn : o.fn.toNat % 16 = o.fn.toNat := Nat.mod_eq_of_lt (by omega)
  show execCmpi o s = _
  rw [execCmpi, hfn]
  rfl

theorem acmp_pushes {s : State} {o : AForm} (h : s.refuses (.acmp o) = none) :
    exec (.acmp o) s = .next (s.upd fun c => c.pushScalar (intCond o.mod.toNat (c.areg o.base) (c.areg (o.t.setWidth 4)))) := by
  show execAcmp o s = _
  rw [execAcmp, State.ifAllowed, h]
  rfl

theorem pelse_complements {s : State} {o : SR} {e : PredEntry} {rest : List PredEntry} (hst : s.core.pstack = e :: rest) (hdue : e.due ≤ s.core.tau) :
    exec (.pelse o) s = .next { s with core := { s.core with
      pnext := some ({ m := (parentOf rest).1 &&& ~~~e.m, b := (parentOf rest).2 && !e.b, due := dueOf rest } :: rest) } } := by
  show execPelse o s = _
  rw [execPelse, hst]
  exact if_neg (Nat.not_lt.mpr hdue)

/-! The word of PRD (R203). -/

/-- The bits of a list, the first at place 0. -/
theorem testBit_foldr_bits {α : Type} (f : α → Bool) (xs : List α) (k : ℕ) :
    (xs.foldr (fun x acc => (if f x then 1 else 0) + 2 * acc) 0).testBit k = xs[k]?.any f := by
  induction xs generalizing k with
  | nil => simp
  | cons x xs ih =>
    cases k with
    | zero => cases h : f x <;> simp [h]
    | succ k =>
      rw [Nat.testBit_succ, List.getElem?_cons_succ, ← ih k, List.foldr_cons]
      congr 1
      split <;> omega

theorem getLsbD_prdWord (st : List PredEntry) {k : ℕ} (hk : k < 64) : (prdWord st).getLsbD k =
    if k < 16 then st.reverse[k]?.any PredEntry.b
    else if k < 21 then st.length.testBit (k - 16)
    else if 32 ≤ k ∧ k < 48 then st.reverse[k - 32]?.any PredEntry.live
    else false := by
  have parts (x y z : ℕ) : (x % 2 ^ 16 + y % 32 * 2 ^ 16 + z % 2 ^ 16 * 2 ^ 32).testBit k =
      if k < 32 then if k < 16 then (x % 2 ^ 16).testBit k else (y % 2 ^ 5).testBit (k - 16) else (z % 2 ^ 16).testBit (k - 32) := by
    rw [Nat.add_comm, Nat.mul_comm, Nat.testBit_two_pow_mul_add _ (by omega), Nat.add_comm, Nat.mul_comm (y % 32), Nat.testBit_two_pow_mul_add _ (by omega)]
    rfl
  rw [prdWord, BitVec.getLsbD_ofNat, parts, Nat.testBit_mod_two_pow, Nat.testBit_mod_two_pow, Nat.testBit_mod_two_pow, testBit_foldr_bits,
    testBit_foldr_bits]
  obtain h | h | h | h | h : k < 16 ∨ (16 ≤ k ∧ k < 21) ∨ (21 ≤ k ∧ k < 32) ∨ (32 ≤ k ∧ k < 48) ∨ 48 ≤ k := by omega
  · simp [hk, h, show k < 32 by omega]
  · simp [hk, h, show ¬ k < 16 by omega, show k < 32 by omega, show k - 16 < 5 by omega]
  · simp [hk, h, show ¬ k < 16 by omega, show ¬ k < 21 by omega, show ¬ k - 16 < 5 by omega, show ¬ 32 ≤ k by omega]
  · simp [hk, h, show ¬ k < 16 by omega, show ¬ k < 21 by omega, show ¬ k < 32 by omega, show k - 32 < 16 by omega]
  · simp [hk, show ¬ k < 16 by omega, show ¬ k < 21 by omega, show ¬ k < 32 by omega, show ¬ k - 32 < 16 by omega, show ¬ k < 48 by omega]

/-! The stack of PWR (R203). -/

theorem rebuildStack_length (v n : ℕ) : (rebuildStack v n).length = n := by
  induction n with
  | zero => rfl
  | succ n ih => exact congrArg (· + 1) ih

/-- The top of a rebuilt stack is set where all of its bits are, and its mask is its bit in every lane. -/
theorem parentOf_rebuildStack (v n : ℕ) : parentOf (rebuildStack v n) =
    (if ∀ j, j < n → v.testBit j = true then BitVec.allOnes 1024 else 0, decide (∀ j, j < n → v.testBit j = true)) := by
  induction n with
  | zero => exact Prod.ext (allOnes_eq_neg_one 1024).symm rfl
  | succ n ih =>
    have htop : parentOf (rebuildStack v (n + 1)) = (if bitOf v n then (parentOf (rebuildStack v n)).1 else 0,
        (parentOf (rebuildStack v n)).2 && bitOf v n) := rfl
    rw [htop, ih, bitOf_eq_testBit]
    simp only [Nat.forall_lt_succ_right]
    by_cases h : ∀ j, j < n → v.testBit j = true <;> by_cases hn : v.testBit n = true <;> simp [h, hn]

/-- Entry `i` from the bottom is the top of the stack of `i + 1` entries. -/
theorem rebuildStack_entry (v n i : ℕ) {e : PredEntry} (h : (rebuildStack v n).reverse[i]? = some e) :
    parentOf (rebuildStack v (i + 1)) = (e.m, e.b) := by
  induction n with
  | zero => cases h
  | succ n ih =>
    obtain ⟨x, hx⟩ : ∃ x, rebuildStack v (n + 1) = x :: rebuildStack v n := ⟨_, rfl⟩
    rw [hx, List.reverse_cons, List.getElem?_append, List.length_reverse, rebuildStack_length] at h
    split at h
    · exact ih h
    · rename_i hi
      obtain ⟨hi', rfl⟩ := List.getElem?_eq_some_iff.mp h
      obtain rfl : i = n := by simp at hi'; omega
      rw [hx]
      simp [parentOf]

theorem prd_sends {s : State} {o : SR} (hg : s.core.active o.g = true) :
    exec (.prd o) s = .next (s.sent 1 (.s o.d (prdWord s.core.pstack) none)) := by
  show execPrd o s = _
  rw [execPrd, whenActive_next hg, wS_eq_sent]

theorem pwr_rebuilds {s : State} {o : SR} (hg : s.core.active o.g = true) (h : (s.core.sreg o.a).toNat / 2 ^ 16 % 32 ≤ 16) :
    exec (.pwr o) s = .next { s with core := { s.core with
      pwr := some (rebuildStack (s.core.sreg o.a).toNat ((s.core.sreg o.a).toNat / 2 ^ 16 % 32)) } } := by
  show execPwr o s = _
  rw [execPwr, whenActive_next hg]
  exact congrArg _ (if_neg (Nat.not_lt.mpr h))

/-- Settles O6, by the equation of each operation above: a comparison pushes as `ofCond_good` says, PRD sends the bits of
`getLsbD_prdWord`, and PWR rebuilds as `parentOf_rebuildStack` and `rebuildStack_entry` say. -/
theorem predicateStackOperationsAct : Obligations.PredicateStackOperationsAct := by
  unfold Obligations.PredicateStackOperationsAct
  refine ⟨fun s => ⟨fun o _ => ?cmp, fun o h => ?cmpi, fun o hok _ hmod => ?acmp⟩,
    fun s o => ⟨fun e rest hst hdue => ?pelse, fun hg _ => ?prd, fun hg hd => ?pwr⟩⟩
  case cmp => exact ⟨_, cmp_pushes s o, ofCond_good _ (intCond_iff ..)⟩
  case cmpi => exact ⟨_, cmpi_pushes s h, ofCond_good _ (intCond_iff ..)⟩
  case acmp =>
    refine ⟨_, acmp_pushes hok, ofCond_good _ ((intCond_iff ..).trans ?_)⟩
    simp only [List.mem_cons, List.not_mem_nil, or_false] at hmod
    rcases hmod with h | h | h | h | h | h <;> rw [h] <;> exact Iff.rfl
  case pelse =>
    refine ⟨_, pelse_complements hst hdue, fun l hl => ?_, ?_⟩ <;> rw [parentOf_eq_entryAt]
    simp [hl]
  case prd =>
    refine ⟨_, prd_sends hg, fun k hk => ?_⟩
    have hlive : PredEntry.live = fun e : PredEntry => e.m != if e.b then BitVec.allOnes 1024 else 0 := by
      rw [allOnes_eq_neg_one]
      rfl
    rw [getLsbD_prdWord _ hk, hlive]
    dsimp only
    cases s.core.pstack.reverse[k]? <;> cases s.core.pstack.reverse[k - 32]? <;> rfl
  case pwr =>
    refine ⟨_, pwr_rebuilds hg hd, rebuildStack_length .., fun i e he => ?_⟩
    obtain ⟨hm, hb⟩ := Prod.mk.inj ((parentOf_rebuildStack ..).symm.trans (rebuildStack_entry _ _ _ he))
    simp only [Nat.lt_succ_iff, BitVec.testBit_toNat] at hm hb
    rw [← hm, ← hb]
    simp only [decide_eq_true_eq, and_self]

end Sys2Proof.Machine

end

section

/-! Transfers of control (R205 to R208, R221). -/

namespace Sys2Proof.Machine

/-- A trap of an operation of slot s has its slot word as the detail (R189). -/
theorem trapOp_s {i : Instr} (hs : slotOfOp i = .s) (s : State) (code : ℕ) :
    s.trapOp code i = s.takeTrap code 0 (BitVec.ofNat 64 (slotBits i)) false := by
  rw [State.trapOp, hs]
  rfl

/-- A relative target inside the code-stream positions (R147). -/
theorem upd_goRel {s : State} {off : BitVec 32} {p : ℕ} (h : (s.core.pos : ℤ) + off.toInt = p) (hp : p < 2 ^ 32) :
    (s.upd fun c => c.goRel off) = s.upd fun c => c.goTo p := by
  rw [State.upd, Core.goRel, Core.relTarget, h, if_neg (Int.not_lt.mpr (Int.natCast_nonneg p)), Int.toNat_natCast, Nat.mod_eq_of_lt hp]
  rfl

section Transfer
variable {s : State} {b : SB} {p : ℕ} (hg : s.core.active b.g = true) (h : (s.core.pos : ℤ) + b.off.toInt = p) (hp : p < 2 ^ 32)
include hg h hp

theorem br_branches : exec (.br b) s =
    .next (if intCond b.cc.toNat (s.core.sreg b.a) (s.core.sreg b.b) then s.upd fun c => c.goTo p else s) := by
  show execBr b s = _
  rw [execBr, whenActive_next hg, upd_goRel h hp]

theorem bri_branches : exec (.bri b) s =
    .next (if intCond b.cc.toNat (s.core.sreg b.a) (BitVec.ofInt 64 b.imm8.toInt) then s.upd fun c => c.goTo p else s) := by
  show execBri b s = _
  rw [execBri, whenActive_next hg, upd_goRel h hp]
  rfl

theorem jmp_goes : exec (.jmp b) s = .next (s.upd fun c => c.goTo p) := by
  show execJmp b s = _
  rw [execJmp, whenActive_next hg, upd_goRel h hp]

theorem call_goes : exec (.call b) s = .next ((s.sent 1 (.s 31 (BitVec.ofNat 64 s.core.seqPos) none)).upd fun c => c.goTo p) := by
  show execCall b s = _
  rw [execCall, whenActive_next hg, wS_eq_sent]
  exact congrArg _ (upd_goRel (s := s.sent 1 _) h hp)

theorem dbnz_counts :
    let next := s.sent 1 (.s b.a (s.core.sreg b.a - 1) (s.core.sTaint b.a))
    exec (.dbnz b) s = .next (if s.core.sreg b.a = 1 then next else next.upd fun c => c.goTo p) := by
  show execDbnz b s = _
  have hgo := upd_goRel (s := s.sent 1 (.s b.a (s.core.sreg b.a - 1) (s.core.sTaint b.a))) h hp
  rw [execDbnz, whenActive_next hg]
  simp only [wS_eq_sent, hgo, bne_iff_ne, ne_eq, sub_eq_zero, ite_not]

end Transfer

section Register
variable {s : State} {i : Instr} {a : Reg}

theorem goReg_goes (h : (s.core.sreg a).toNat < 2 ^ 30) (f : State → State) : s.goReg i a f = (f s).upd fun c => c.goTo (s.core.sreg a).toNat :=
  if_neg (Nat.not_le.mpr h)

/-- A register beyond the stream (R207). -/
theorem goReg_traps (hi : slotOfOp i = .s) (h : 2 ^ 30 ≤ (s.core.sreg a).toNat) (f : State → State) :
    s.goReg i a f = s.takeTrap 0x01 0 (BitVec.ofNat 64 (slotBits i)) false :=
  (if_pos h).trans (trapOp_s hi s _)

end Register

/-- Settles O7: the relative transfers by `upd_goRel` and the conditions by `intCond_iff`, those to a register by `goReg_goes` and
`goReg_traps`. -/
theorem transfersSetTheirTargetOrTrap : Obligations.TransfersSetTheirTargetOrTrap := by
  unfold Obligations.TransfersSetTheirTargetOrTrap
  refine ⟨fun s b o => ⟨fun hg p h hp _ => ?relative, fun hg hlt => ?register⟩, fun s o i => ⟨fun hg hge => ?beyond, fun hg => ?trap⟩⟩
  case relative =>
    refine ⟨fun hc => ?_, fun hc => ?_, fun hc => ?_, fun hc => ?_, jmp_goes hg h hp, call_goes hg h hp, ?_⟩
    · rw [br_branches hg h hp, if_pos ((intCond_iff ..).mpr hc)]; rfl
    · rw [br_branches hg h hp, if_neg (mt (intCond_iff ..).mp hc)]
    · rw [bri_branches hg h hp, if_pos ((intCond_iff ..).mpr hc)]; rfl
    · rw [bri_branches hg h hp, if_neg (mt (intCond_iff ..).mp hc)]
    · have hone : s.core.sreg b.a = 1 ↔ (s.core.sreg b.a).toNat = 1 := BitVec.toNat_inj.symm
      rw [dbnz_counts hg h hp, sub_eq_ofInt, apply_ite Host.Outcome.next]
      simp only [hone]
      rfl
  case register =>
    refine ⟨(whenActive_next hg _ : execRet o s = _).trans ?_, (whenActive_next hg _ : execJr o s = _).trans ?_,
      (whenActive_next hg _ : execCallr o s = _).trans ?_⟩ <;> rw [goReg_goes hlt]
    · rfl
    · rfl
    · rw [wS_eq_sent]; rfl
  case beyond =>
    refine ⟨(whenActive_next hg _ : execRet o s = _).trans ?_, (whenActive_next hg _ : execJr o s = _).trans ?_,
      (whenActive_next hg _ : execCallr o s = _).trans ?_⟩ <;> rw [goReg_traps rfl hge]
  case trap =>
    refine (whenActive_next hg _ : execTrap i s = _).trans ?_
    rw [State.trapAfter, BitVec.ofNat_toNat]
    rfl

end Sys2Proof.Machine

end

section

/-! TRAPF (R222). -/

namespace Sys2Proof.Machine

theorem ne_zero_iff_getLsbD {w : ℕ} (x : BitVec w) : x ≠ 0 ↔ ∃ k, x.getLsbD k = true := by
  refine ⟨fun h => ?_, fun ⟨k, hk⟩ h => by simp [h] at hk⟩
  by_contra hnone
  simp only [not_exists, Bool.not_eq_true] at hnone
  exact h (BitVec.eq_of_getLsbD_eq fun i _ => by simpa using hnone i)

/-- CLIP is flag 6 alone. -/
theorem fCLIP_getLsbD (k : ℕ) : fCLIP.getLsbD k = decide (k = 6) := by
  have hpow : fCLIP = BitVec.ofNat 11 (2 ^ 6) := by decide
  rw [hpow, BitVec.getLsbD_ofNat, Nat.testBit_two_pow]
  by_cases h : k = 6 <;> simp [h, eq_comm]

theorem and_fCLIP_ne_zero (x : BitVec 11) : (x &&& fCLIP != 0) = x.getLsbD 6 := by
  rw [Bool.eq_iff_iff, bne_iff_ne, ne_zero_iff_getLsbD]
  simp [fCLIP_getLsbD]

theorem aen_getLsbD (c : Core) (k : ℕ) : c.aen.getLsbD k = (decide (k < 11) && c.tflags.getLsbD (8 + k)) :=
  BitVec.getLsbD_extractLsb' ..

/-- The enabled flags that ARITH reports (R222). -/
theorem arithFlags_getLsbD (c : Core) (k : ℕ) :
    (c.sticky &&& c.aen &&& ~~~fCLIP).getLsbD k = (decide (k ≠ 6) && c.sticky.getLsbD k && decide (k < 11) && c.tflags.getLsbD (8 + k)) := by
  rw [BitVec.getLsbD_and, BitVec.getLsbD_and, BitVec.getLsbD_not, aen_getLsbD, fCLIP_getLsbD]
  by_cases h : k < 11 <;> by_cases h6 : k = 6 <;> simp [h, h6]

theorem trapf_checks {s : State} {o : SR} (hg : s.core.active o.g = true) (ht : s.core.flagTime = 0) (ho : s.core.outst.any Outstanding.canFlag = false) :
    let flags := s.core.sticky &&& s.core.aen &&& ~~~fCLIP
    exec (.trapf o) s = .next (if s.core.sticky.getLsbD 6 && s.core.aen.getLsbD 6 then s.trap CLIPT .s s.core.mat.clipTiles
      else if flags ≠ 0 then s.trap ARITH .s flags.toNat else s) := by
  show execTrapf o s = _
  rw [execTrapf, whenActive_next hg]
  simp only [ht, ho, and_fCLIP_ne_zero, bne_iff_ne, gt_iff_lt, lt_irrefl, if_false, Bool.false_eq_true]

/-- Settles O13: `trapf_checks` says what TRAPF tests, and `arithFlags_getLsbD` which flags those of ARITH are. -/
theorem trapFenceRaisesEnabledFlags : Obligations.TrapFenceRaisesEnabledFlags := by
  unfold Obligations.TrapFenceRaisesEnabledFlags
  intro s o hg ht ho on
  have hclip : (s.core.sticky.getLsbD 6 && s.core.aen.getLsbD 6) = true ↔ on 6 := by
    rw [aen_getLsbD, Bool.and_eq_true]
    exact Iff.rfl
  have hbit (k : ℕ) : (s.core.sticky &&& s.core.aen &&& ~~~fCLIP).getLsbD k = true ↔ k < 11 ∧ k ≠ 6 ∧ on k := by
    simp only [arithFlags_getLsbD, Bool.and_eq_true, decide_eq_true_eq, on]
    tauto
  have hflags : s.core.sticky &&& s.core.aen &&& ~~~fCLIP ≠ 0 ↔ ∃ k, k < 11 ∧ k ≠ 6 ∧ on k := by
    simp only [ne_zero_iff_getLsbD, hbit]
  rw [trapf_checks hg ht ho]
  refine ⟨fun h => ⟨BitVec.ofNat 64 s.core.mat.clipTiles, ?_⟩,
    fun h hk => ⟨(s.core.sticky &&& s.core.aen &&& ~~~fCLIP).setWidth 64, ?_, fun k => ?_⟩, fun h => ?_⟩
  · rw [if_pos (hclip.mpr h)]; rfl
  · rw [if_neg (mt hclip.mp h), if_pos (hflags.mpr hk), State.trap, BitVec.ofNat_toNat]; rfl
  · rw [← arithFlags_getLsbD]
    rw [BitVec.getLsbD_setWidth, Bool.and_eq_right_iff_imp, decide_eq_true_eq]
    exact fun hk => (BitVec.lt_of_getLsbD hk).trans (by decide)
  · rw [if_neg (mt hclip.mp (h 6 (by decide))), if_neg]
    rw [hflags]
    exact fun ⟨k, hk, _, hon⟩ => h k hk hon

end Sys2Proof.Machine

end

section

/-! Address operations and tensor indexes (R197, R216, R217). -/

namespace Sys2Proof.Machine

section Address
variable {s : State} {o : AForm} {i : Instr} (hg : s.core.active o.g = true) (hr : s.refuses i = none)
include hg hr

theorem addrOp_sends {v w : Addr} (t : Option Taint) (hv : v = w) : s.addrOp i o v t = .next (s.sent 1 (.a (o.t.setWidth 4) w t)) := by
  rw [State.addrOp, ifAllowedG_accepts hr hg, wA_eq_sent, hv]

end Address

theorem signExtend_shl_eq_ofInt {m n : ℕ} (x : BitVec m) (k : ℕ) : x.signExtend n <<< k = BitVec.ofInt n (x.toInt * 2 ^ k) := by
  have hpow : BitVec.ofInt n (2 ^ k) = BitVec.twoPow n k := by
    rw [← Nat.cast_two, ← Nat.cast_pow, BitVec.ofInt_natCast]
    exact BitVec.eq_of_toNat_eq (by rw [BitVec.toNat_ofNat, BitVec.toNat_twoPow])
  rw [BitVec.shiftLeft_eq_mul_twoPow, BitVec.ofInt_mul, hpow, BitVec.signExtend]

theorem addr_add_ofInt (b : Addr) {c : Addr} {i : ℤ} (h : c = BitVec.ofInt 80 i) : b + c = BitVec.ofInt 80 (b.toNat + i) := by
  rw [BitVec.ofInt_add, BitVec.ofInt_natCast, BitVec.ofNat_toNat, BitVec.setWidth_eq, h]

/-! Division by a multiplication (R216). -/

theorem le_two_pow_ceilLog2 (n : ℕ) : n ≤ 2 ^ ceilLog2 n := by
  unfold ceilLog2
  split
  · assumption
  · have := Nat.lt_log2_self (n := n - 1)
    omega

/-- A multiplier that exceeds `N / n` by at most `n / N` divides every number below `N / n`. -/
theorem mul_div_eq_div {q m n N e : ℕ} (hn : 0 < n) (hm : m * n = N + e) (he : q * e < N) : q * m / N = q / n := by
  have hq := Nat.div_add_mod' q n
  have hr := Nat.mod_lt q hn
  refine Nat.div_eq_of_lt_le (Nat.le_of_mul_le_mul_right ?_ hn) (Nat.lt_of_mul_lt_mul_right (a := n) ?_)
  · calc q / n * N * n = q / n * n * N := Nat.mul_right_comm ..
      _ ≤ q * N := Nat.mul_le_mul_right N (Nat.div_mul_le_self q n)
      _ ≤ q * (N + e) := Nat.mul_le_mul_left q (Nat.le_add_right N e)
      _ = q * m * n := by rw [← hm, Nat.mul_assoc]
  · calc q * m * n = q * N + q * e := by rw [Nat.mul_assoc, hm, Nat.mul_add]
      _ < q * N + N := Nat.add_lt_add_left he _
      _ = (q + 1) * N := by ring
      _ ≤ (q / n + 1) * n * N := Nat.mul_le_mul_right N (by rw [Nat.add_mul]; omega)
      _ = (q / n + 1) * N * n := Nat.mul_right_comm ..

theorem quot_eq_div {h : Shape} {i q : ℕ} (hn : 1 ≤ h.size i) (hq : q < 2 ^ 32) : h.quot i q = q / h.size i := by
  have hle := le_two_pow_ceilLog2 (h.size i)
  have hmod := Nat.mod_lt (2 ^ (32 + ceilLog2 (h.size i))) hn
  refine mul_div_eq_div (e := h.size i - 2 ^ (32 + ceilLog2 (h.size i)) % h.size i) hn ?_ ?_
  · have := Nat.div_add_mod' (2 ^ (32 + ceilLog2 (h.size i))) (h.size i)
    rw [sizeMul, Nat.add_mul, one_mul]
    omega
  · rw [pow_add]
    exact Nat.mul_lt_mul_of_lt_of_le hq ((Nat.sub_le ..).trans hle) (by positivity)

theorem shape_mod (c : Core) (n : ℕ) : c.shape (n % 16) = c.shapes[n % 16]'(Nat.mod_lt _ (by decide)) := by
  simp only [Core.shape, Nat.mod_mod]

theorem shape_size {h : Shape} {i : ℕ} (hi : i < 5) : h.size i = h.sizes[i].toNat := dif_pos hi

section Coordinate
variable {h : Shape} {x k : ℕ} (hsizes : ∀ i, i ≤ k → 1 ≤ h.size i) (hx : x < 2 ^ 32)
include hx

/-- The successive quotients stay below 2^32, and are those of the sizes. -/
theorem foldl_quot (is : List ℕ) (hs : ∀ i ∈ is, 1 ≤ h.size i) :
    is.foldl (fun q i => h.quot i q) x = is.foldl (fun q i => q / h.size i) x ∧ is.foldl (fun q i => q / h.size i) x < 2 ^ 32 := by
  induction is generalizing x with
  | nil => exact ⟨rfl, hx⟩
  | cons i is ih =>
    rw [List.foldl_cons, List.foldl_cons, quot_eq_div (hs i List.mem_cons_self) hx]
    exact ih ((Nat.div_le_self ..).trans_lt hx) fun j hj => hs j (List.mem_cons_of_mem _ hj)

include hsizes

theorem tidxCoord_eq : let q := (List.range k).foldl (fun q i => q / h.size i) x
    tidxCoord h x k = if k + 1 = h.dims then q else q % h.size k := by
  obtain ⟨hfold, hlt⟩ := foldl_quot hx (List.range k) fun i hi => hsizes i (List.mem_range.mp hi).le
  simp only [tidxCoord, hfold, quot_eq_div (hsizes k le_rfl) hlt, Nat.mod_eq_sub_div_mul]

end Coordinate

/-- Settles O18: an address operation sends its sum by `addrOp_sends`, and TIDX its coordinate by `tidxCoord_eq`, as a
multiplication by the multiplier of a size divides by that size (`quot_eq_div`). -/
theorem addressesAndTensorIndexes : Obligations.AddressesAndTensorIndexes := by
  unfold Obligations.AddressesAndTensorIndexes
  refine ⟨fun s o hg => ⟨fun h => addrOp_sends hg h _ (addr_add_ofInt _ rfl), fun h => addrOp_sends hg h _ (addr_add_ofInt _ rfl),
    fun h => addrOp_sends hg h _ (by rw [BitVec.ofNat_toNat, BitVec.setWidth_eq]), fun h => addrOp_sends hg h _ ?set,
    fun h => addrOp_sends hg h _ (addr_add_ofInt _ (signExtend_shl_eq_ofInt _ _)), fun h => ?get⟩,
    fun s o hg => ⟨fun h => ?beyond, fun hk hd hsizes => ?coord⟩⟩
  case set =>
    have hlow : (o.off.setWidth 16).toNat = o.off.toNat % 2 ^ 16 := BitVec.toNat_setWidth ..
    exact (append_eq_ofNat ..).trans (congrArg (BitVec.ofNat 80) (by rw [hlow, Nat.add_comm]))
  case get =>
    have hget := ifAllowedG_accepts h hg fun s => s.wS 1 o.t (if o.mod = 0 then (s.core.areg o.base).setWidth 64
      else (s.core.areg o.base >>> 64).setWidth 64) (s.core.aTaint o.base)
    refine ⟨fun hm => (hget : execAget o s = _).trans ?_, fun hm => (hget : execAget o s = _).trans ?_⟩
    · rw [if_pos hm, wS_eq_sent, BitVec.ofNat_toNat]
    · rw [hm, if_neg (by decide), wS_eq_sent, ← Nat.shiftRight_eq_div_pow, ← BitVec.toNat_ushiftRight, BitVec.ofNat_toNat]
  case beyond =>
    refine (whenActive_next hg _ : execTidx o s = _).trans (congrArg _ ((if_pos ?_).trans (trapOp_s rfl s _)))
    rwa [shape_mod]
  case coord =>
    have hone (i : ℕ) (hi : i ≤ o.fn.toNat / 16 % 8) : 1 ≤ (s.core.shape (o.fn.toNat % 16)).size i := by
      have h5 : i < 5 := hi.trans_lt (hk.trans_le hd)
      rw [shape_mod, shape_size h5]
      exact hsizes i h5 (hi.trans_lt hk)
    rw [← shape_mod] at hk ⊢
    refine (whenActive_next hg _ : execTidx o s = _).trans (congrArg _ ((if_neg (Nat.not_le.mpr hk)).trans ?_))
    rw [wS_eq_sent, tidxCoord_eq hone (Nat.mod_lt _ (by decide))]

end Sys2Proof.Machine

end

section

/-! Entry into the task handler and into the monitor (R188, R220, R369). -/

namespace Sys2Proof.Machine

theorem handler_bit (k : ℕ) : (0x2000000#64).getLsbD k = decide (k = 25) := by
  have hpow : 0x2000000#64 = BitVec.ofNat 64 (2 ^ 25) := rfl
  rw [hpow, getLsbD_ofNat_two_pow, decide_eq_decide, and_iff_right_iff_imp]
  omega

/-- TFLAGS with the handler bit as given (R187). -/
theorem setHnd_tflags (c : Core) (b : Bool) (k : ℕ) : (c.setHnd b).tflags.getLsbD k = if k = 25 then b else c.tflags.getLsbD k := by
  cases b
  · show (c.tflags &&& ~~~0x2000000#64).getLsbD k = _
    rw [BitVec.getLsbD_and, BitVec.getLsbD_not, handler_bit]
    by_cases h : k = 25
    · simp [h]
    · rw [if_neg h, decide_eq_false h]
      by_cases hk : k < 64
      · simp [hk]
      · simp [hk, BitVec.getLsbD_of_ge c.tflags k (Nat.le_of_not_lt hk)]
  · show (c.tflags ||| 0x2000000#64).getLsbD k = _
    rw [BitVec.getLsbD_or, handler_bit]
    by_cases h : k = 25 <;> simp [h]

theorem cause_toNat {code slot : ℕ} (hc : code < 256) (hs : slot < 8) : (BitVec.ofNat 64 (code + slot * 2 ^ 8)).toNat = code + slot * 256 := by
  rw [BitVec.toNat_ofNat]
  omega

/-- Bookkeeping of the device: every cell of memory and every unit is as before. -/
def State.Noted (s u : State) : Prop := u = { s with dev := u.dev } ∧ u.dev.mem = s.dev.mem

theorem noted_updDev (s : State) {f : Device → Device} (h : (f s.dev).mem = s.dev.mem) : s.Noted (s.updDev f) := ⟨rfl, h⟩

theorem State.Noted.refl (s : State) : s.Noted s := ⟨rfl, rfl⟩

theorem State.Noted.trans {s t u : State} (h : s.Noted t) (h' : t.Noted u) : s.Noted u := by
  obtain ⟨heq, hmem⟩ := h
  obtain ⟨heq', hmem'⟩ := h'
  refine ⟨?_, hmem'.trans hmem⟩
  rw [heq', heq]

theorem leaveWait_noted (s : State) : s.Noted s.leaveWait := by
  have hmem (p i : ℕ) : (s.dev.leaveWait p i).mem = s.dev.mem := by
    unfold Device.leaveWait
    repeat' split
    all_goals rfl
  unfold State.leaveWait
  split
  · exact noted_updDev s (hmem ..)
  · exact .refl s

theorem logEvent_noted (s : State) (code grade : ℕ) (p0 p1 : Word) : s.Noted (s.logEvent code grade p0 p1) :=
  ⟨rfl, (log_mem s.dev ..).mem⟩

theorem logLost_noted (s : State) (code : ℕ) : s.Noted (s.logLost code) := by
  unfold State.logLost
  repeat' split
  · exact logEvent_noted ..
  · exact .refl s
  · exact .refl s

theorem slotState_noted (s : State) (st : ℕ) : s.Noted (s.slotState st) := by
  unfold State.slotState
  split
  · exact .refl s
  · exact noted_updDev s rfl

/-- No wait in a DEQT ends where the resident task has none. -/
theorem leaveWait_none {s : State}
    (h : ∀ t x, s.core.task = some t → s.dev.slotOf t.part t.slot = some x → x.deqtQ = none) : s.leaveWait = s := by
  cases ht : s.core.task with
  | none => simp only [State.leaveWait, ht]
  | some t =>
    cases hx : s.dev.slotOf t.part t.slot with
    | none => simp only [State.leaveWait, ht, State.updDev, Device.leaveWait, hx]
    | some x => exact leaveWait_idle ht hx (h t x ht hx)

section Entry
variable {s : State} {p code : ℕ} (slot : ℕ) (info : Word) (after : Bool) (hf : s.focus = .core p) (hm : s.core.mon.mode = false)
  (hseg : s.core.seg = none)
include hf hm hseg

theorem takeTrap_handler (h : s.core.toMonitor code = false) : s.takeTrap code slot info after =
    { s.leaveWait with core := s.core.enterHandler code slot info, last := .trapped { code, slot, info, after } } := by
  have hcore : s.leaveWait.core = s.core := by rw [(leaveWait_noted s).1]
  simp only [State.takeTrap, hf, hm, h, commitSeg_closed hseg, Bool.false_eq_true, if_false, State.upd, hcore]

theorem takeTrap_monitor (h : s.core.toMonitor code = true) : ∃ v : Device, v.mem = s.dev.mem ∧ s.takeTrap code slot info after =
    { s with core := s.core.enterMonitor code slot info, dev := v, last := .trapped { code, slot, info, after } } := by
  have hcore : s.leaveWait.core = s.core := by rw [(leaveWait_noted s).1]
  obtain ⟨heq, hmem⟩ := (((leaveWait_noted s).trans (logEvent_noted _ 0x0011 (trapGrade code) (BitVec.ofNat 64 (code + slot * 2 ^ 8))
    (BitVec.ofNat 64 s.core.pos))).trans (logLost_noted _ code)).trans (slotState_noted _ 7)
  refine ⟨_, hmem, ?_⟩
  simp only [State.takeTrap, hf, hm, h, commitSeg_closed hseg, Bool.false_eq_true, if_false, if_true, State.upd, hcore]
  rw [heq, hf]

end Entry

/-- Settles O11, by `takeTrap_handler` and `takeTrap_monitor`: what entry saves is written out in them. -/
theorem trapEntrySavesAndTransfers : Obligations.TrapEntrySavesAndTransfers := by
  unfold Obligations.TrapEntrySavesAndTransfers
  refine ⟨fun s p code slot info after hf hm hc hs ht hseg => ?handler, fun s p code slot info after hf hm hc hs ht hseg => ?monitor⟩
  case handler =>
    rw [takeTrap_handler slot info after hf hm hseg ht]
    obtain ⟨hwait, _⟩ := leaveWait_noted s
    refine ⟨cause_toNat hc hs, rfl, rfl, setHnd_tflags .., fun k hk => ?_, rfl, rfl, rfl, rfl, rfl, rfl, rfl, rfl, rfl, rfl, rfl, rfl, rfl, rfl, rfl,
      rfl, rfl, rfl, rfl, rfl, rfl, fun h => ?_, ?_, ?_⟩
    · exact (setHnd_tflags ..).trans (if_neg hk)
    · exact (congrArg State.dev (leaveWait_none h) : s.leaveWait.dev = _)
    · exact (congrArg State.parked hwait : s.leaveWait.parked = _)
    · exact (congrArg State.focus hwait : s.leaveWait.focus = _)
  case monitor =>
    obtain ⟨v, hmem, heq⟩ := takeTrap_monitor slot info after hf hm hseg ht
    rw [heq]
    exact ⟨cause_toNat hc hs, rfl, rfl, rfl, rfl, rfl, rfl, rfl, rfl, rfl, rfl, rfl, rfl, rfl, rfl, rfl, rfl, rfl, rfl, rfl, rfl, rfl, rfl, rfl, rfl,
      rfl, rfl, rfl, hmem, rfl, rfl⟩

end Sys2Proof.Machine

end

section

/-! Event latches (R35, R210, R211). -/

namespace Sys2Proof.Machine

theorem coreOf_setCoreOf_other {u w : Agent} (h : w ≠ u) (l : List (Agent × Core)) (c : Core) : coreOf (setCoreOf l u c) w = coreOf l w := by
  induction l with
  | nil => simp [setCoreOf, coreOf, h.symm]
  | cons x l ih =>
    obtain ⟨v, d⟩ := x
    by_cases hv : v = u
    · simp [setCoreOf, coreOf, hv, h.symm]
    · simp [setCoreOf, coreOf, hv, ih]

theorem getCore_setCore_other {u w : Agent} (h : w ≠ u) (s : State) (c : Core) : (s.setCore u c).getCore w = s.getCore w := by
  unfold State.setCore State.getCore
  by_cases hu : s.focus = u
  · have hw : s.focus ≠ w := fun e => h (e.symm.trans hu)
    simp [hu, hu ▸ hw]
  · simp [hu, coreOf_setCoreOf_other h]

/-! Setting the latch of a task. -/

section SetEvent
variable {s : State} {p i : ℕ}

theorem setEvent_resident {u : Agent} (h : s.residentOf p i = some u) : s.setEvent p i = s.setCore u { s.getCore u with evt := true } := by
  simp only [State.setEvent, h]

/-- A task in WAITEV that is not resident becomes READY with its latch set; of another the latch is set (R35). -/
theorem setEvent_away {x : TaskSlot} (h : s.residentOf p i = none) (hx : s.dev.slotOf p i = some x) :
    (s.setEvent p i).core = s.core ∧
    (x.st = 3 → (s.setEvent p i).dev.slotOf p i = some { x with st := 0, evt := true, age := s.dev.time, turn := s.dev.turns }) ∧
    (x.st ≠ 3 → (s.setEvent p i).dev.slotOf p i = some { x with evt := true }) := by
  simp only [State.setEvent, h, hx, State.updDev]
  refine ⟨trivial, fun h3 => ?_, fun h3 => ?_⟩
  · rw [if_pos h3, slotOf_tables (writeRecord_tables ..)]
    exact slotOf_readied_some (slotOf_updSlot_some hx)
  · rw [if_neg h3, slotOf_tables (writeRecord_tables ..)]
    exact slotOf_updSlot_some hx

end SetEvent

theorem foldl_skip_eq_filter {α β : Type} (p : α → Prop) [DecidablePred p] (f : β → α → β) (xs : List α) (z : β) :
    xs.foldl (fun z x => if p x then z else f z x) z = (xs.filter fun x => ¬ p x).foldl f z := by
  simp only [List.foldl_filter, decide_not, Bool.not_eq_true', decide_eq_false_iff_not, ite_not]

/-! SEV, SEV.all and WFE. -/

section Events
variable {s : State} {o : SR} {t : TaskInfo} (hg : s.core.active o.g = true) (ht : s.core.task = some t)
include hg ht

theorem sev_self (h : (s.core.sreg o.a).toNat < t.gsize.toNat) (hv : (s.core.sreg o.a).toNat = t.cidx.toNat) :
    exec (.sev o) s = .next (s.commitSeg.upd fun c => { c with evt := true }) := by
  refine (whenActive_next hg _ : execSev o s = _).trans ?_
  simp only [ht, if_neg (Nat.not_le.mpr h), if_pos hv]

theorem sev_beyond (h : t.gsize.toNat ≤ (s.core.sreg o.a).toNat) : exec (.sev o) s = .next (s.takeTrap 0x05 0 (s.core.sreg o.a) false) := by
  refine (whenActive_next hg _ : execSev o s = _).trans ?_
  simp only [ht, if_pos h, State.trap, BitVec.ofNat_toNat, BitVec.setWidth_eq]
  rfl

theorem sev_other {g : Gang} (hgang : s.commitSeg.dev.gangOf t.gang = some g) (h : (s.core.sreg o.a).toNat < t.gsize.toNat)
    (hv : (s.core.sreg o.a).toNat ≠ t.cidx.toNat) : exec (.sev o) s = .next (if g.ended.contains (g.slots.getD (s.core.sreg o.a).toNat 0)
      then s.commitSeg else s.commitSeg.setEvent t.part (g.slots.getD (s.core.sreg o.a).toNat 0)) := by
  refine (whenActive_next hg _ : execSev o s = _).trans ?_
  simp only [ht, if_neg (Nat.not_le.mpr h), if_neg hv, hgang]

theorem sevAll_gang {g : Gang} (hgang : s.commitSeg.dev.gangOf t.gang = some g) (h : t.spawned = false) : exec (.sevAll o) s =
    .next ((g.slots.filter fun i => i ≠ t.slot ∧ !g.ended.contains i).foldl (fun q i => q.setEvent t.part i) s.commitSeg) := by
  obtain ⟨htask, _⟩ := commitSeg_core s
  refine (whenActive_next hg _ : execSevAll o s = _).trans ?_
  simp only [htask, ht, h, hgang, foldl_skip_eq_filter]
  simp only [Bool.false_eq_true, if_false, not_or, Bool.not_eq_true, Bool.not_eq_true']

theorem sevAll_spawned (h : t.spawned = true) : exec (.sevAll o) s = .next s.commitSeg := by
  obtain ⟨htask, _⟩ := commitSeg_core s
  refine (whenActive_next hg _ : execSevAll o s = _).trans ?_
  simp only [htask, ht, h, if_true]

omit ht in
theorem wfe_consumes {p : ℕ} (hf : s.focus = .core p) (he : s.core.evt = true) (hl : s.core.late = false) :
    exec (.wfe o) s = .next (s.syncPoint.upd fun c => { c with evt := false }) := by
  refine (whenActive_next hg _ : execWfe o s = _).trans ?_
  simp only [hf, he, hl, Bool.not_false, Bool.and_self, if_true]

end Events

/-- Settles O8, by the equation of each operation above, and `setEvent_resident` and `setEvent_away` for the latch of a task. -/
theorem eventLatchesSetAndConsumed : Obligations.EventLatchesSetAndConsumed := by
  unfold Obligations.EventLatchesSetAndConsumed
  intro s o t p hf hg ht v latch
  refine ⟨sev_self hg ht, sev_beyond hg ht, fun g hgang => ⟨sev_other hg ht hgang, sevAll_gang hg ht hgang⟩, sevAll_spawned hg ht,
    wfe_consumes hg hf, fun i u hu hne => ?resident, fun i x hnone hx => ?away⟩
  case resident =>
    intro q
    have hq : q = s.setCore u { s.getCore u with evt := true } := setEvent_resident hu
    rw [hq]
    refine ⟨by rw [getCore_setCore], ?_, setCore_dev .., fun w hw => getCore_setCore_other hw ..⟩
    rw [State.setCore, if_neg hne.symm]
  case away =>
    obtain ⟨hcore, hwait, helse⟩ := setEvent_away hnone hx
    by_cases h : x.st = 3
    · exact ⟨_, hwait h, hcore, fun _ => ⟨rfl, rfl⟩, fun hne => absurd h hne⟩
    · exact ⟨_, helse h, hcore, fun h3 => absurd h3 h, fun _ => ⟨rfl, rfl⟩⟩

end Sys2Proof.Machine

end

section

/-! The end of a task takes its slot alone from the slot table (R42, R51, R391 to R393, R404). -/

namespace Sys2Proof.Machine

/-- A change that a chain of updates keeps. -/
theorem foldl_slots {α : Type} {f : Device → α → Device} (h : ∀ v x, (f v x).slots = v.slots) (xs : List α) (v : Device) :
    (xs.foldl f v).slots = v.slots := by
  induction xs generalizing v with
  | nil => rfl
  | cons x xs ih => exact (ih _).trans (h v x)

theorem ite_slots {p : Prop} [Decidable p] {v u : Device} {xs : List TaskSlot} (h : v.slots = xs) (k : u.slots = xs) :
    (if p then v else u).slots = xs := by
  split <;> assumption

theorem log_slots (v : Device) (d code grade unit index : ℕ) (p0 p1 : Word) (ctx part : ℕ) :
    (v.log d code grade unit index p0 p1 ctx part).slots = v.slots := by
  simp only [Device.log]
  repeat' split
  all_goals rfl

theorem needEntry_slots (v : Device) (p lid : ℕ) : (v.needEntry p lid).slots = v.slots := by
  unfold Device.needEntry
  repeat' split
  all_goals rfl

theorem ripen_slots (v : Device) (p lid : ℕ) : (v.ripen p lid).slots = v.slots := by
  unfold Device.ripen
  repeat' split
  all_goals rfl

theorem decrement_slots (v : Device) (p lid : ℕ) : (v.decrement p lid).slots = v.slots := by
  have hneed := needEntry_slots v p lid
  unfold Device.decrement
  dsimp only
  repeat' split
  · exact hneed
  · exact (log_slots ..).trans hneed
  · exact (log_slots ..).trans hneed
  · exact (ripen_slots ..).trans hneed

theorem writeCompletion_slots (v : Device) (p : ℕ) (r : List Byte) (status grade burst : ℕ) :
    (v.writeCompletion p r status grade burst).slots = v.slots := by
  unfold Device.writeCompletion
  exact ite_slots rfl (writeAs_tables ..).slots

theorem failAll_slots (v : Device) (p fuel : ℕ) (lids : List ℕ) : (v.failAll p fuel lids).slots = v.slots := by
  induction fuel generalizing v lids with
  | zero => rfl
  | succ fuel ih =>
    cases lids with
    | nil => rfl
    | cons lid rest =>
      have hneed := needEntry_slots v p lid
      unfold Device.failAll
      dsimp only
      repeat' split
      · exact (ih ..).trans hneed
      · exact (ih ..).trans ((writeCompletion_slots ..).trans hneed)
      · exact (ih ..).trans hneed

theorem announced_slots (v : Device) (p port k : ℕ) (f : Partition → Partition) : (((v.updPart p f).msix port k).wakeQp p).slots = v.slots := rfl

theorem setPartState_slots (v : Device) (p st : ℕ) : (v.setPartState p st).slots = v.slots := by
  unfold Device.setPartState
  exact (announced_slots ..).trans (log_slots ..)

theorem drainCheck_slots (v : Device) (p : ℕ) : (v.drainCheck p).slots = v.slots := by
  unfold Device.drainCheck
  exact ite_slots (setPartState_slots ..) rfl

theorem fireCompletion_slots (v : Device) (p lid status : ℕ) : (v.fireCompletion p lid status).slots = v.slots := by
  unfold Device.fireCompletion
  split
  · rfl
  · exact (drainCheck_slots ..).trans (ite_slots
      ((foldl_slots (fun _ _ => ite_slots rfl (decrement_slots ..)) _ _).trans (writeCompletion_slots ..))
      ((failAll_slots ..).trans (writeCompletion_slots ..)))

theorem fireTrigger_slots (v : Device) (p lid : ℕ) : (v.fireTrigger p lid).slots = v.slots := by
  unfold Device.fireTrigger
  split
  · rfl
  · exact foldl_slots (fun _ _ => ite_slots (decrement_slots ..) rfl) _ _

theorem signal_slots (v : Device) (h : Signal) : (v.signal h).slots = v.slots := by
  have hfire : (v.fire h).slots = v.slots := by
    cases h with
    | completion p lid st => exact fireCompletion_slots ..
    | trigger p lid => exact fireTrigger_slots ..
  unfold Device.signal
  exact ite_slots rfl hfire

theorem endObligation_slots (v : Device) (p lid : ℕ) : (v.endObligation p lid).slots = v.slots := by
  unfold Device.endObligation
  dsimp only
  split
  · rfl
  · exact ite_slots (ite_slots (signal_slots ..) rfl) rfl

theorem endTaskOf_slots (v : Device) (p lid : ℕ) : (v.endTaskOf p lid).slots = v.slots := by
  unfold Device.endTaskOf
  dsimp only
  split
  · rfl
  · exact ite_slots (signal_slots ..) rfl

theorem taskEnded_slots (v : Device) (t : TaskInfo) (owes : Bool) :
    (v.taskEnded t owes).slots = v.slots.filter fun x => !(x.part == t.part && x.slot == t.slot) := by
  unfold Device.taskEnded
  dsimp only
  exact (drainCheck_slots ..).trans ((endTaskOf_slots ..).trans
    (ite_slots ((endObligation_slots ..).trans (ite_slots rfl rfl)) (ite_slots rfl rfl)))

/-- No slot of a task that has ended is in the table. -/
theorem taskEnded_slotOf (v : Device) (t : TaskInfo) (owes : Bool) : (v.taskEnded t owes).slotOf t.part t.slot = none := by
  rw [Device.slotOf, taskEnded_slots, List.find?_eq_none]
  intro x hx
  simpa only [Bool.not_eq_true', Bool.not_eq_true] using (List.mem_filter.mp hx).2

/-- A task that ends leaves its core, and its slot is free (R42, R404). -/
theorem endTask_leaves {s : State} {t : TaskInfo} (ht : s.core.task = some t) :
    s.endTask.core = s.core.endCharge.vacate ∧ s.endTask.dev.slotOf t.part t.slot = none := by
  simp only [State.endTask, ht]
  exact ⟨rfl, taskEnded_slotOf ..⟩

/-! What a core keeps while schedule time passes. -/

/-- `d` has the task, the stores, the mode and the outstanding operations of `c`. -/
structure Core.SameDuty (c d : Core) : Prop where
  task    : d.task = c.task
  landing : d.landing = c.landing
  dirty   : d.dirty = c.dirty
  l1      : d.l1 = c.l1

namespace Core.SameDuty

theorem refl (c : Core) : c.SameDuty c := ⟨rfl, rfl, rfl, rfl⟩

theorem trans {c d e : Core} (h : c.SameDuty d) (k : d.SameDuty e) : c.SameDuty e :=
  ⟨k.task.trans h.task, k.landing.trans h.landing, k.dirty.trans h.dirty, k.l1.trans h.l1⟩

theorem foldl {α : Type} {f : Core → α → Core} (h : ∀ (c : Core) x, c.SameDuty (f c x)) (xs : List α) (c : Core) : c.SameDuty (xs.foldl f c) := by
  induction xs generalizing c with
  | nil => exact refl c
  | cons x xs ih => exact (h c x).trans (ih _)

end Core.SameDuty

theorem land_duty (c : Core) (w : Write) : c.SameDuty (c.land w) := by
  cases w with
  | s d v t =>
    simp only [Core.land, Core.setS]
    split <;> exact ⟨rfl, rfl, rfl, rfl⟩
  | _ => exact ⟨rfl, rfl, rfl, rfl⟩

theorem landDue_duty (c : Core) : c.SameDuty c.landDue :=
  (Core.SameDuty.foldl (f := fun c (r : Result) => (c.land r.w).raise r.flags) (fun c r => (land_duty c r.w).trans ⟨rfl, rfl, rfl, rfl⟩)
    (keptOf (c.results.filter fun r => r.due ≤ c.tau)) c).trans ⟨rfl, rfl, rfl, rfl⟩

theorem landBeat_duty (c : Core) (b : Beat) : c.SameDuty (c.landBeat b) := by
  unfold Core.landBeat
  split <;> exact ⟨rfl, rfl, rfl, rfl⟩

theorem beatsDue_duty (c : Core) : c.SameDuty c.beatsDue := by
  rw [beatsDue_eq]
  exact (Core.SameDuty.foldl landBeat_duty ..).trans ⟨rfl, rfl, rfl, rfl⟩

theorem drainsDue_duty (c : Core) : c.SameDuty c.drainsDue := by
  rw [drainsDue_eq]
  exact (Core.SameDuty.foldl (f := Core.enterQueue) (fun _ _ => ⟨rfl, rfl, rfl, rfl⟩) ..).trans ⟨rfl, rfl, rfl, rfl⟩

theorem tickWall_duty (c : Core) : c.SameDuty c.tickWall := by
  unfold Core.tickWall Core.windowDue Core.rbAppend
  dsimp only
  split <;> split <;> exact ⟨rfl, rfl, rfl, rfl⟩

theorem tick_duty (c : Core) : c.SameDuty c.tick := by
  rw [tick_eq]
  have hstep : c.SameDuty c.stepped := (tickWall_duty c).trans ⟨rfl, rfl, rfl, rfl⟩
  exact hstep.trans ((landDue_duty _).trans ((beatsDue_duty _).trans (drainsDue_duty _)))

theorem ticks_duty (c : Core) (n : ℕ) : c.SameDuty (c.ticks n) := by
  induction n generalizing c with
  | zero => exact .refl c
  | succ n ih => exact (tick_duty c).trans (ih _)

theorem settle_duty (c : Core) : c.SameDuty c.settle := ticks_duty ..

/-- With nothing in flight there is nothing to wait for. -/
theorem settle_nothing {c : Core} (hr : c.results = []) (hb : c.mat.beats = []) : c.settle = c := by
  rw [Core.settle, Core.settleTime, hr, hb]
  rfl

end Sys2Proof.Machine

end

section

/-! Suspension and exit (R27, R34, R35, R211, R212, R214, R404). -/

namespace Sys2Proof.Machine

/-- What the kept state `k` of a suspended task has of its core `c` (R27, R35). -/
structure Core.KeptIn (c k : Core) : Prop where
  low    : ∀ r : Reg, 1 ≤ r.toNat → r.toNat ≤ 4 → k.sreg r = c.sreg r
  high   : ∀ r : Reg, 4 < r.toNat → k.sreg r = 0
  sticky : k.sticky = c.sticky
  tflags : k.tflags = c.tflags &&& 0x3000000
  cycle  : k.cycle = c.cycle
  pstack : k.pstack.map (fun e => e.b) = c.pstack.map (fun e => e.b)

theorem suspended_keeps {c : Core} {t : TaskInfo} (ht : c.task = some t) : c.KeptIn c.suspended := by
  have hsreg (r : Reg) : c.suspended.sreg r = if r = 0 then 0 else if 1 ≤ r.toNat ∧ r.toNat ≤ 4 then c.s[r.toNat]'r.isLt else 0 := by
    simp only [Core.suspended, ht, Core.sreg, Vector.getElem_ofFn]
  refine ⟨fun r h1 h4 => ?_, fun r h4 => ?_, ?_, ?_, ?_, ?_⟩
  · rw [hsreg, if_pos (And.intro h1 h4)]; rfl
  · rw [hsreg, if_neg (fun h : 1 ≤ r.toNat ∧ r.toNat ≤ 4 => absurd h.2 (Nat.not_le.mpr h4)), ite_self]
  all_goals simp only [Core.suspended, ht, List.map_map, Function.comp_def]

/-! A task that leaves takes its charge of the present window with it, and its stores are published (R34, R353). -/

section Leaving
variable {c d : Core} (h : c.endCharge.AfterStores d)
include h

theorem leaving_same : d.task = c.task ∧ d.evt = c.evt ∧ d.pos = c.pos := by
  obtain ⟨_, _, hcharge⟩ := chargeNow_eq { c with phint := none }
  obtain ⟨_, _, _, _, _, _, _, _, rfl⟩ := h
  rw [Core.endCharge, hcharge]
  exact ⟨rfl, rfl, rfl⟩

theorem leaving_keeps {k : Core} (hk : d.KeptIn k) : c.KeptIn k := by
  obtain ⟨_, _, hcharge⟩ := chargeNow_eq { c with phint := none }
  obtain ⟨_, _, _, _, _, _, _, _, rfl⟩ := h
  rw [Core.endCharge, hcharge] at hk
  exact ⟨hk.low, hk.high, hk.sticky, hk.tflags, hk.cycle, hk.pstack⟩

end Leaving

theorem forward_slots (v : Device) (u : Agent) (p slot : ℕ) : (v.forward u p slot).slots = v.slots := by
  cases u <;> rfl

/-- The state of a core that a task's slot keeps; with the footprint in the spill area its bytes are not kept twice (R36). -/
def Core.keptState (c : Core) (foot : Bool) : Core := if foot then { c.suspended with spad := [] } else c.suspended

theorem keptState_keeps {c : Core} {t : TaskInfo} (ht : c.task = some t) (foot : Bool) : c.KeptIn (c.keptState foot) := by
  have hk := suspended_keeps ht
  cases foot
  · exact hk
  · exact ⟨hk.low, hk.high, hk.sticky, hk.tflags, hk.cycle, hk.pstack⟩

/-- The slot of a task that suspends on no queue (R31, R32). -/
def TaskSlot.left (x : TaskSlot) (w : State) (st why : ℕ) (foot : Bool) : TaskSlot :=
  { x with st := st, why := why, qnum := 0, dreg := 0, cpos := w.core.pos, ckpt := false, foot := foot, evt := w.core.evt, deqtQ := none,
           kept := some (w.core.keptState foot), lastCore := match w.focus with | .core p => some p | .qp _ _ => none }

/-- The spill area of a task that suspends, with its footprint if it goes there (R36, R40). -/
def Device.leftImage (v : Device) (t : TaskInfo) (w : State) (resumes : ℕ) (foot : Bool) : Device :=
  let u := v.writeVa (v.part t.part).ctx t.spill (spillHead w.core.suspended resumes)
  if foot then (u.writeVa (u.part t.part).ctx (t.spill + 0x1000) (memRun w.core.suspended.spad 0 t.foot)).forward w.focus t.part t.slot else u

theorem leftImage_slots (v : Device) (t : TaskInfo) (w : State) (resumes : ℕ) (foot : Bool) : (v.leftImage t w resumes foot).slots = v.slots :=
  have hhead := (writeAs_tables v .device 5 (v.part t.part).ctx t.spill (spillHead w.core.suspended resumes)).slots
  ite_slots ((forward_slots ..).trans ((writeAs_tables ..).slots.trans hhead)) hhead

/-- The device once the record of a task that suspends is written (R30, R36). -/
def Device.leftBy (v : Device) (t : TaskInfo) (w : State) (resumes st why : ℕ) (foot : Bool) : Device :=
  let u := (((v.updSlot t.part t.slot fun x => x.left w st why foot).leftImage t w resumes foot).readied t.part t.slot).writeRecord t.part t.slot
  { u with poison := u.poison.filter fun q => q.1 != Place.spad t.part t.slot || q.2.1 < t.foot }

theorem leftBy_slotOf {v : Device} {t : TaskInfo} {z : TaskSlot} (hz : v.slotOf t.part t.slot = some z) (w : State) (resumes st why : ℕ)
    (foot : Bool) : ∃ a n, (v.leftBy t w resumes st why foot).slotOf t.part t.slot = some { z.left w st why foot with age := a, turn := n } := by
  have hspill : ((v.updSlot t.part t.slot fun x => x.left w st why foot).leftImage t w resumes foot).slotOf t.part t.slot = some (z.left w st why foot) :=
    (slotOf_slots (leftImage_slots ..) ..).trans (slotOf_updSlot_some hz)
  exact ⟨_, _, (slotOf_tables (writeRecord_tables ..) ..).trans (slotOf_readied_some hspill)⟩

theorem suspendTask_left {s w : State} {t : TaskInfo} {z : TaskSlot} {st : ℕ} (why : ℕ) (foot : Bool) (ht : s.core.task = some t)
    (hw : (s.commitSeg.upd fun c => c.settle.endCharge).release 3 = w) (hz : w.dev.slotOf t.part t.slot = some z) (h2 : st ≠ 2)
    (h3 : st = 3 → w.core.evt = false) :
    s.suspendTask st why 0 0 foot = ({ w with dev := w.dev.leftBy t w z.resumes st why foot } : State).vacate := by
  have hgot : (z.deqtGot.filter fun g => st == 2 && g.1 == 0) = none := by
    cases z.deqtGot <;> simp [h2]
  have hstate : ((st == 3 && w.core.evt) || (none : Option (ℕ × Word)).isSome) = false := by
    by_cases h : st = 3 <;> simp [h, h3]
  simp only [State.suspendTask, ht, hw, hz, hgot, hstate]
  rfl

section Suspend
variable {s : State} {t : TaskInfo} {x : TaskSlot} (ht : s.core.task = some t) (hseg : s.core.seg = none) (hr : s.core.results = [])
  (hb : s.core.mat.beats = []) (hx : s.dev.slotOf t.part t.slot = some x)
include ht hseg hr hb hx

/-- A task with nothing in flight that suspends on no queue leaves its core, and its slot says why (R31, R32, R34). -/
theorem suspendTask_leaves {st : ℕ} (why : ℕ) (foot : Bool) (h2 : st ≠ 2) (h3 : st = 3 → s.core.evt = false) :
    ∃ (y : TaskSlot) (k : Core), (s.suspendTask st why 0 0 foot).core.task = none ∧ (s.suspendTask st why 0 0 foot).core.stopped = false ∧
      (s.suspendTask st why 0 0 foot).dev.slotOf t.part t.slot = some y ∧ y.st = st ∧ y.why = why ∧ y.foot = foot ∧ y.cpos = s.core.pos ∧
      y.kept = some k ∧ s.core.KeptIn k := by
  have hpub := release_published (s.upd fun c => c.settle.endCharge) 3
  have hw := congrArg (fun q : State => (q.upd fun c => c.settle.endCharge).release 3) (commitSeg_closed hseg)
  have hcore := hpub.core
  have hslot := slotOf_published hpub t.part t.slot
  generalize (s.upd fun c => c.settle.endCharge).release 3 = w at hw hcore hslot
  have hafter : s.core.endCharge.AfterStores w.core := by rwa [State.upd, settle_nothing hr hb] at hcore
  obtain ⟨htask, hevt, hpos⟩ := leaving_same hafter
  obtain ⟨z, hz, _⟩ := Option.map_eq_some_iff.mp (hslot.trans (congrArg _ hx))
  obtain ⟨a, n, hy⟩ := leftBy_slotOf hz w z.resumes st why foot
  rw [suspendTask_left why foot ht hw hz h2 fun h => hevt.trans (h3 h)]
  exact ⟨_, _, rfl, rfl, hy, rfl, rfl, rfl, hpos, rfl, leaving_keeps hafter (keptState_keeps (htask.trans ht) foot)⟩

end Suspend

/-! A suspension point (R211 to R213). -/

section Point
variable {s : State} {i : Instr}

theorem suspendPoint_goes (hm : s.core.mon.mode = false) (hl : s.core.late = false) (hi : slotOfOp i = .s) (hc : s.suspendCheck .s = none)
    (hout : s.core.outst = []) (f : State → State) : s.suspendPoint i f = f s := by
  simp only [State.suspendPoint, hi, hm, hl, hc, hout, List.isEmpty_nil, Bool.false_eq_true, if_false, if_true]

/-- Monitor mode is left by MRET alone (R362, log 108). -/
theorem suspendPoint_monitor (hm : s.core.mon.mode = true) (hi : slotOfOp i = .s) (f : State → State) :
    s.suspendPoint i f = s.takeTrap 0x01 0 (BitVec.ofNat 64 (slotBits i)) false := by
  rw [State.suspendPoint, if_pos hm]
  exact trapOp_s hi ..

end Point

section Ops
variable {s : State} {o : SR} {p : ℕ} (hg : s.core.active o.g = true)
include hg

theorem wfe_waits (hf : s.focus = .core p) (he : s.core.evt = false) :
    exec (.wfe o) s = .next (s.suspendPoint (.wfe o) fun q => q.suspendTask 3 3 0 0 false) := by
  refine (whenActive_next hg _ : execWfe o s = _).trans ?_
  simp only [hf, he, Bool.false_and, Bool.false_eq_true, if_false]

theorem yield_waits : exec (.yield o) s = .next (s.suspendPoint (.yield o) fun q => q.suspendTask 4 4 0 0 false) :=
  (whenActive_next hg _ : execYield o s = _)

theorem susp_waits : exec (.susp o) s = .next (s.suspendPoint (.susp o) fun q => q.suspendTask 4 1 0 0 true) :=
  (whenActive_next hg _ : execSusp o s = _)

theorem exit_monitor (hm : s.core.mon.mode = true) :
    exec (.exit o) s = .next (s.takeTrap 0x01 0 (BitVec.ofNat 64 (slotBits (.exit o))) false) := by
  refine (whenActive_next hg _ : execExit o s = _).trans ?_
  exact congrArg _ ((if_pos hm).trans (trapOp_s rfl ..))

end Ops

/-! Result queues that hold an entry or wait for a drain (R214, R291). -/

/-- Result queue `q` is in use. -/
def MatCtx.inUse (m : MatCtx) (q : ℕ) : Bool := (if h : q < 4 then !(m.queues[q]).isEmpty else false) || m.drains.any fun d => d.q.toNat == q

theorem inUse_iff (m : MatCtx) {q : ℕ} (h : q < 4) : m.inUse q = true ↔ m.queues[q] ≠ [] ∨ ∃ d ∈ m.drains, d.q.toNat = q := by
  simp [MatCtx.inUse, h]

theorem busyQueue_lowest {m : MatCtx} {q : ℕ} (hb : m.busyQueue = some q) :
    (∃ h : q < 4, m.queues[q] ≠ [] ∨ ∃ d ∈ m.drains, d.q.toNat = q) ∧
      ∀ k, (h : k < q) → ∀ hk : k < 4, m.queues[k] = [] ∧ ∀ d ∈ m.drains, d.q.toNat ≠ k := by
  obtain ⟨huse, hmem, hbelow⟩ := List.find?_range_eq_some.mp (show (List.range 4).find? m.inUse = some q from hb)
  have hq := List.mem_range.mp hmem
  refine ⟨⟨hq, (inUse_iff m hq).mp huse⟩, fun k h hk => ?_⟩
  have hfree := mt (inUse_iff m hk).mpr (by simpa using hbelow k h)
  simpa using hfree

section Exit
variable {s : State} {o : SR} {t : TaskInfo} (hg : s.core.active o.g = true) (hm : s.core.mon.mode = false) (hl : s.core.late = false)
include hg hm hl

theorem exit_busy {q : ℕ} (hb : s.core.mat.busyQueue = some q) : exec (.exit o) s = .next (s.takeTrap 0x0A 0 (BitVec.ofNat 64 q) false) := by
  refine (whenActive_next hg _ : execExit o s = _).trans ?_
  simp only [hm, hl, hb, Bool.false_eq_true, if_false]
  rfl

variable (ht : s.core.task = some t) (hb : s.core.mat.busyQueue = none)
include ht hb

theorem exit_waits (h : s.dev.holdFull t.part (s.dev.endSignals t s.core.owesTrig) = true ∨ s.core.outst ≠ [] ∨ s.routedHere = true) :
    exec (.exit o) s = .next s.commitSeg.wait := by
  refine (whenActive_next hg _ : execExit o s = _).trans ?_
  simp only [hm, hl, hb, ht, Bool.false_eq_true, if_false]
  by_cases hfull : s.dev.holdFull t.part (s.dev.endSignals t s.core.owesTrig) = true
  · rw [if_pos hfull]
  · rw [if_neg hfull, if_pos]
    simpa [hfull] using h

/-- A task that exits has published its stores; it leaves its core, and its slot is free (R42, R214, R404). -/
theorem exit_leaves (hfull : s.dev.holdFull t.part (s.dev.endSignals t s.core.owesTrig) = false) (hout : s.core.outst = [])
    (hr : s.routedHere = false) :
    ∃ u, exec (.exit o) s = .next u ∧ u.core.task = none ∧ u.core.s = Vector.replicate 32 0 ∧ u.dev.slotOf t.part t.slot = none := by
  have he := (whenActive_next hg _ : execExit o s = _)
  simp only [hm, hl, hb, ht, hfull, hout, hr, List.isEmpty_nil, Bool.not_true, Bool.or_self, Bool.false_eq_true, if_false] at he
  have hpub := release_published (s.commitSeg.upd Core.settle) 5
  generalize (s.commitSeg.upd Core.settle).release 5 = w at he hpub
  have hwt : w.core.task = some t := by
    obtain ⟨_, _, _, _, _, _, _, _, hc⟩ := hpub.core
    rw [hc]
    exact (settle_duty s.commitSeg.core).task.trans ((commitSeg_core s).1.trans ht)
  obtain ⟨hcore, hslot⟩ := endTask_leaves (s := w.updDev fun v =>
    (v.updSlot t.part t.slot fun x => { x with st := 6, why := 0, cpos := w.core.pos, kept := some w.core }).writeRecord t.part t.slot) hwt
  exact ⟨_, he, congrArg Core.task hcore, congrArg Core.s hcore, hslot⟩

end Exit

/-- Settles O9: `suspendTask_leaves` says what a suspension leaves, `exit_leaves` what an exit does, `busyQueue_lowest` which queue QUEUE
names, and `suspendPoint_monitor` and `exit_monitor` what monitor mode answers. -/
theorem suspensionAndExitLeaveTheCore : Obligations.SuspensionAndExitLeaveTheCore := by
  unfold Obligations.SuspensionAndExitLeaveTheCore
  refine ⟨fun s o t p x hf hg ht hm hl hc hout hseg hr hb hx i st why foot hi => ?suspend, fun s o t p hf hg hm hl ht => ?exit,
    fun s o p hf hg hm i hi => ?monitor⟩
  case suspend =>
    have leaves (h2 : st ≠ 2) (h3 : st = 3 → s.core.evt = false) := suspendTask_leaves ht hseg hr hb hx why foot h2 h3
    obtain ⟨he, h2, h3⟩ : exec i s = .next (s.suspendTask st why 0 0 foot) ∧ st ≠ 2 ∧ (st = 3 → s.core.evt = false) := by
      rcases hi with ⟨rfl, hevt, rfl, rfl, rfl⟩ | ⟨rfl, rfl, rfl, rfl⟩ | ⟨rfl, rfl, rfl, rfl⟩
      · exact ⟨(wfe_waits hg hf hevt).trans (congrArg _ (suspendPoint_goes hm hl rfl hc hout _)), by decide, fun _ => hevt⟩
      · exact ⟨(yield_waits hg).trans (congrArg _ (suspendPoint_goes hm hl rfl hc hout _)), by decide, fun h => absurd h (by decide)⟩
      · exact ⟨(susp_waits hg).trans (congrArg _ (suspendPoint_goes hm hl rfl hc hout _)), by decide, fun h => absurd h (by decide)⟩
    obtain ⟨y, k, hfree, hstop, hy, hst, hwhy, hfoot, hpos, hkept, hk⟩ := leaves h2 h3
    exact ⟨_, y, k, he, hfree, hstop, hy, hst, hwhy, hfoot, hpos, hkept, hk.low, hk.high, hk.sticky, hk.tflags, hk.cycle, hk.pstack⟩
  case exit =>
    exact ⟨fun hb hfull hout hr _ => exit_leaves hg hm hl ht hb hfull hout hr, exit_waits hg hm hl ht,
      fun q hq => ⟨exit_busy hg hm hl hq, busyQueue_lowest hq⟩⟩
  case monitor =>
    rcases hi with ⟨rfl, hevt⟩ | rfl | rfl | rfl
    · exact (wfe_waits hg hf hevt).trans (congrArg _ (suspendPoint_monitor hm rfl _))
    · exact (yield_waits hg).trans (congrArg _ (suspendPoint_monitor hm rfl _))
    · exact (susp_waits hg).trans (congrArg _ (suspendPoint_monitor hm rfl _))
    · exact exit_monitor hg hm

end Sys2Proof.Machine

end

section

/-! Returns from the handler and from the monitor (R223, R373). -/

namespace Sys2Proof.Machine

section Tret
variable {s : State} {o : SR} (hg : s.core.active o.g = true)
include hg

theorem tret_outside (h : s.core.hnd = false) : exec (.tret o) s = .next (s.takeTrap 0x01 0 (BitVec.ofNat 64 (slotBits (.tret o))) false) := by
  refine (whenActive_next hg _ : execTret o s = _).trans ?_
  rw [h]
  exact congrArg _ (trapOp_s rfl ..)

theorem tret_owes (h : s.core.hnd = true) (hd : s.core.mdue = true) : exec (.tret o) s = .next (s.takeTrap 0x10 0 0 false) := by
  refine (whenActive_next hg _ : execTret o s = _).trans ?_
  rw [h, hd]
  rfl

theorem tret_returns {e : EntrySave} (h : s.core.hnd = true) (hd : s.core.mdue = false) (he : s.core.handler = some e) :
    exec (.tret o) s = .next (s.upd fun c => { (c.restoreEntry e c.tpc.toNat).setHnd false with
      handler := none, mcopy := none, msaved := false, mdue := false, noBreak := c.tcause.toNat % 256 = BREAK }) := by
  refine (whenActive_next hg _ : execTret o s = _).trans ?_
  simp only [h, hd, State.upd, Core.tret, he, Bool.not_true, Bool.false_eq_true, if_false]

end Tret

/-- In monitor mode a core accepts the slot-s operations that neither leave the core nor are a queue processor's (R143, R371). -/
theorem refuses_monitor {s : State} {i : Instr} {p : ℕ} (hf : s.focus = .core p) (hm : s.core.mon.mode = true) (hs : slotOfOp i = .s)
    (hq : qpOnly i = false) (hl : leavesCore i = false) : s.refuses i = none := by
  rw [State.refuses, isQp_core hf, hm, hs, hq, hl]
  rfl

section Monitor
variable {s : State} {o : SR} {p : ℕ} (hf : s.focus = .core p) (hm : s.core.mon.mode = true)
include hf hm

theorem mret_returns {e : EntrySave} (hv : s.core.mon.tvalid = true) (hs : s.core.mon.saved = false) (he : s.core.monSave = some e) :
    exec (.mret o) s = .next ((s.slotState 1).upd fun _ => { (s.core.restoreEntry e s.core.mon.mtpc.toNat).setHnd s.core.mon.thnd with
      monSave := none, noBreak := s.core.mon.mcause.toNat % 256 = BREAK, mon := { s.core.mon with mode := false, tvalid := false } }) := by
  have hcore : (s.slotState 1).core = s.core := by rw [(slotState_noted s 1).1]
  show execMret o s = _
  rw [execMret, State.ifAllowed, refuses_monitor hf hm rfl rfl rfl]
  simp only [hv, hs, State.upd, hcore, Core.mret, he, Bool.not_true, Bool.or_self, Bool.false_eq_true, if_false]

theorem mretRequeue_saves {t : TaskInfo} {x : TaskSlot} (ht : s.core.task = some t) (hv : s.core.mon.tvalid = true) (hs : s.core.mon.saved = true)
    (hout : s.core.outst = []) (hseg : s.core.seg = none) (hl : s.core.landing = []) (hx : s.dev.slotOf t.part t.slot = some x) :
    ∃ u y, exec (.mretRequeue o) s = .next u ∧ u.core.task = none ∧ u.core.mon.mode = false ∧ u.dev.slotOf t.part t.slot = some y ∧ y.st = 5 ∧
      y.why = 5 ∧ y.ckpt = true ∧ y.cpos = s.core.mon.mtpc.toNat := by
  have hexec : exec (.mretRequeue o) s = execMretRequeue o s := rfl
  rw [execMretRequeue, State.ifAllowed, refuses_monitor hf hm rfl rfl rfl] at hexec
  simp only [ht, hv, hs, hout, commitSeg_closed hseg, landAll_nothing hl, List.isEmpty_nil, Bool.not_true, Bool.or_self, Bool.false_eq_true,
    if_false] at hexec
  refine ⟨_, _, hexec, rfl, rfl, handArea_slotOf ((slotOf_tables (writeRecord_tables ..) ..).trans
    (slotOf_readied_some (slotOf_updSlot_some hx))), rfl, rfl, rfl, rfl⟩

theorem mretEnd_ends {t : TaskInfo} (ht : s.core.task = some t) (hv : s.core.mon.tvalid = true) (hout : s.core.outst = []) :
    ∃ u, exec (.mretEnd o) s = .next u ∧ u.core.task = none ∧ u.core.mon.mode = false ∧ u.dev.slotOf t.part t.slot = none := by
  have hexec : exec (.mretEnd o) s = execMretEnd o s := rfl
  rw [execMretEnd, State.ifAllowed, refuses_monitor hf hm rfl rfl rfl] at hexec
  simp only [ht, hv, hout, List.isEmpty_nil, Bool.not_true, Bool.false_eq_true, if_false] at hexec
  have hpub := release_published (s.commitSeg.upd Core.settle) 5
  generalize (s.commitSeg.upd Core.settle).release 5 = w at hexec hpub
  have hwt : w.core.task = some t := by
    obtain ⟨_, _, _, _, _, _, _, _, hc⟩ := hpub.core
    rw [hc]
    exact (settle_duty s.commitSeg.core).task.trans ((commitSeg_core s).1.trans ht)
  obtain ⟨hcore, hslot⟩ := endTask_leaves (s := w.updDev fun v => ((v.updSlot t.part t.slot fun x =>
    { x with st := 6, why := 0, cpos := w.core.mret.pos, kept := some w.core.mret }).writeRecord t.part t.slot).failLaunch
      t.part t.lid (w.core.mon.mcause.toNat % 256)) hwt
  exact ⟨_, hexec, congrArg Core.task hcore, congrArg (fun c => c.mon.mode) hcore, hslot⟩

theorem mretEnd_idle (hv : s.core.mon.tvalid = false) (hout : s.core.outst = []) :
    exec (.mretEnd o) s = .next ((s.commitSeg.upd Core.settle).release 5).vacate := by
  show execMretEnd o s = _
  rw [execMretEnd, State.ifAllowed, refuses_monitor hf hm rfl rfl rfl]
  simp only [hv, hout, List.isEmpty_nil, Bool.not_true, Bool.false_eq_true, if_false]
  cases s.core.task <;> rfl

end Monitor

/-! A release with nothing to publish and no line to write back (R117, R120). -/

theorem updDome_same {v : Device} {d : ℕ} {f : Dome → Dome} (h : f (v.dome d) = v.dome d) : v.updDome d f = v := by
  rw [Device.updDome, h, Device.dome, Vector.set_getElem_self]

theorem backLines_nil (s : State) (scope : ℕ) : s.backLines scope [] = s := if_pos (Or.inl rfl)

section Clean
variable {s : State} (scope : ℕ) (h1 : s.core.l1 = []) (h2 : ∀ y ∈ (s.dev.dome s.focus.dome).l2, y.2.2 = false)
include h1 h2

theorem writeBack_clean : s.writeBack scope (fun _ => true) = s := by
  have hlines : (s.dev.dome s.focus.dome).l2.map (fun y => if y.2.2 && true then (y.1, 3, false) else y) = (s.dev.dome s.focus.dome).l2 :=
    (List.map_congr_left fun y hy => by rw [h2 y hy]; rfl).trans (List.map_id _)
  simp only [State.writeBack, h1, List.filter_nil, List.map_nil, backLines_nil, State.updDev]
  rw [updDome_same (by rw [hlines]), ite_self]

/-- Such a release changes nothing. -/
theorem release_clean (hl : s.core.landing = []) (hd : s.core.dirty = []) (hh : s.dev.hist = []) (hfar : s.dev.far = []) : s.release scope = s := by
  simp only [State.release, landAll_nothing hl, writeBack_clean scope h1 h2, hd, hh, hfar, List.append_nil, List.isEmpty_nil, List.any_nil,
    Bool.not_false, Bool.and_self, if_true, ite_self]

end Clean

/-- Settles O12: each return is the equation above of its instruction, a task that ends is `endTask_leaves`, and with nothing to
publish the release is `release_clean`. -/
theorem returnsRestoreWhatEntrySaved : Obligations.ReturnsRestoreWhatEntrySaved := by
  unfold Obligations.ReturnsRestoreWhatEntrySaved
  refine ⟨fun s o hg => ⟨tret_outside hg, tret_owes hg, fun e h hd he => ?tret⟩, fun s o p hf hm => ⟨fun e hv hs he => ?mret,
    fun t x ht hv hs hout hseg hl hx => mretRequeue_saves hf hm ht hv hs hout hseg hl hx, fun t ht hv hout _ => mretEnd_ends hf hm ht hv hout,
    fun hv hout hseg => ?idle⟩⟩
  case tret =>
    have hflag := setHnd_tflags (s.core.restoreEntry e s.core.tpc.toNat) false
    exact ⟨_, tret_returns hg h hd he, rfl, rfl, rfl, rfl, rfl, rfl, hflag 25, fun k hk => (hflag k).trans (if_neg hk), rfl, rfl, rfl, rfl, rfl, rfl,
      rfl, rfl, rfl, rfl, rfl⟩
  case mret =>
    exact ⟨_, mret_returns hf hm hv hs he, rfl, rfl, rfl, rfl, setHnd_tflags _ _ 25, rfl, rfl, rfl, rfl, rfl, rfl, rfl, rfl, (slotState_noted s 1).2⟩
  case idle =>
    refine ⟨_, mretEnd_idle hf hm hv hout, rfl, rfl, fun hl hd hh hfar h1 h2 => ?_⟩
    have hduty := settle_duty s.core
    rw [commitSeg_closed hseg]
    rw [vacate_dev, release_clean (s := s.upd Core.settle) 5 (hduty.l1.trans h1) h2 (hduty.landing.trans hl) (hduty.dirty.trans hd) hh hfar]
    rfl

end Sys2Proof.Machine

end

section

/-! Lane masks: compares, selections and counts (R200, R235 to R239). -/

namespace Sys2Proof.Machine

theorem occupyV_eq (s : State) (o : VForm) (n : ℕ) : s.occupyV o n =
    s.upd fun c => { c with busyV0 := if o.v1 then c.busyV0 else c.tau + n, busyV1 := if o.v1 then c.tau + n else c.busyV1 } := by
  unfold State.occupyV
  cases o.v1 <;> rfl

theorem journalV_keeps (c : Core) (i : Reg) : (c.journalV i).tau = c.tau ∧ (c.journalV i).results = c.results ∧ (c.journalV i).busyV0 = c.busyV0 ∧
    (c.journalV i).busyV1 = c.busyV1 := by
  unfold Core.journalV
  repeat' split
  all_goals exact ⟨rfl, rfl, rfl, rfl⟩

theorem wV_occupyV (s : State) (o : VForm) (lat n : ℕ) (m : LaneMask) (v : VReg) (fl : Flags) (can : Bool) :
    (s.wV lat o.d m v fl can).occupyV o n = vectorSent s o lat n m v fl can := by
  obtain ⟨htau, hres, h0, h1⟩ := journalV_keeps s.core (s.core.vnum o.d)
  rw [occupyV_eq, vectorSent]
  simp only [State.wV, State.upd, Core.put, htau, hres, h0, h1]

theorem laneAt_lt (r : VReg) {l : ℕ} (h : l < 1024) : laneAt r l = r[l] := dif_pos h

theorem vOf_getElem (f : ℕ → Lane) {l : ℕ} (h : l < 1024) : (vOf f)[l] = f l := Vector.getElem_ofFn h

theorem maskOf_getLsbD (f : ℕ → Bool) {l : ℕ} (h : l < 1024) : (maskOf f).getLsbD l = f l := by
  rw [maskOf, BitVec.getLsbD_ofNat, testBit_foldr_bits, List.getElem?_range h]
  simp only [h, decide_true, Bool.true_and, Option.any_some]

/-- The second operand of a lane (R228). -/
theorem bLane_eq_operandB {s : State} {o : VForm} (hf : o.fn.toNat % 4 ≤ 2) {l : ℕ} (h : l < 1024) : s.bLane o l = operandB s o l h := by
  obtain h0 | h1 | h2 : o.fn.toNat % 4 = 0 ∨ o.fn.toNat % 4 = 1 ∨ o.fn.toNat % 4 = 2 := by omega
  · simp only [State.bLane, VForm.mode, operandB, h0, h, dif_pos]
  · simp only [State.bLane, VForm.mode, operandB, h1, BitVec.ofNat_toNat]
  · simp only [State.bLane, VForm.mode, operandB, h2]
    rfl

/-- `i` pushes an entry within its parent, whose mask is written three cycles later and holds the lanes where `f` does (R200, R262). -/
def PushesLanes (s : State) (i : Instr) (f : ∀ l, l < 1024 → Prop) : Prop :=
  let st := s.core.pnext.getD s.core.pstack
  ∃ u e, exec i s = .next u ∧ u.core.pnext = some (e :: st) ∧ e.b = (entryAt st 0).2 ∧ s.core.tau + 3 ≤ e.due ∧
    (∀ l (h : l < 1024), e.m.getLsbD l = true ↔ ((entryAt st 0).1.getLsbD l = true ∧ f l h)) ∧
    u.core.s = s.core.s ∧ u.core.v = s.core.v ∧ u.core.pstack = s.core.pstack ∧ u.dev = s.dev

theorem pushMask_pushes {s : State} {o : VForm} {i : Instr} {g : ℕ → Bool} {fl : Flags} {can : Bool} {f : ∀ l, l < 1024 → Prop}
    (he : exec i s = .next (s.pushMask o 3 (maskOf g) fl can)) (hf : ∀ l (h : l < 1024), g l = true ↔ f l h) : PushesLanes s i f := by
  rw [State.pushMask, occupyV_eq] at he
  refine ⟨_, _, he, rfl, ?_, Nat.le_max_left .., fun l h => ?_, rfl, rfl, rfl, rfl⟩ <;> rw [← parentOf_eq_entryAt]
  · rfl
  · rw [BitVec.getLsbD_and, Bool.and_eq_true, maskOf_getLsbD g h, hf l h]
    rfl

/-! Classes (R236). -/

theorem getLsbD_31_iff (x : Lane) : x.getLsbD 31 = true ↔ 2 ^ 31 ≤ x.toNat := by
  rw [← BitVec.msb_eq_getLsbD_last x, BitVec.msb_eq_true_iff_two_mul_ge]
  omega

theorem laneClass_selected (x : Lane) (sel : ℕ → Prop) : sel (laneClass x) ↔
    (x.toNat % 2 ^ 31 > 0x7F800000 ∧ sel 8) ∨ (x.toNat % 2 ^ 31 = 0x7F800000 ∧ (if x.toNat ≥ 2 ^ 31 then sel 0 else sel 7)) ∨
    (0x800000 ≤ x.toNat % 2 ^ 31 ∧ x.toNat % 2 ^ 31 < 0x7F800000 ∧ (if x.toNat ≥ 2 ^ 31 then sel 1 else sel 6)) ∨
    (0 < x.toNat % 2 ^ 31 ∧ x.toNat % 2 ^ 31 < 0x800000 ∧ (if x.toNat ≥ 2 ^ 31 then sel 2 else sel 5)) ∨
    (x.toNat % 2 ^ 31 = 0 ∧ (if x.toNat ≥ 2 ^ 31 then sel 3 else sel 4)) := by
  have hneg := getLsbD_31_iff x
  unfold laneClass
  generalize x.toNat % 2 ^ 31 = k
  simp only [hneg]
  split_ifs <;> grind

/-- The class bits of VCLS. -/
theorem classBit (o : VForm) {n : ℕ} (h : n ≤ 8) : bitOf (o.imm8.toNat + (if o.fn.getLsbD 0 then 256 else 0)) n = true ↔
    if n = 8 then o.fn.getLsbD 0 = true else o.imm8.getLsbD n = true := by
  have hsum : o.imm8.toNat + (if o.fn.getLsbD 0 then 256 else 0) = 2 ^ 8 * (o.fn.getLsbD 0).toNat + o.imm8.toNat := by
    cases o.fn.getLsbD 0 <;> simp [Nat.add_comm]
  rw [bitOf_eq_testBit, hsum, Nat.testBit_two_pow_mul_add _ o.imm8.isLt]
  obtain rfl | hlt := Nat.eq_or_lt_of_le h
  · cases o.fn.getLsbD 0 <;> simp
  · rw [if_pos hlt, if_neg hlt.ne, BitVec.testBit_toNat]

theorem laneClass_le (x : Lane) : laneClass x ≤ 8 := by
  unfold laneClass
  dsimp only
  split_ifs <;> decide

/-! The conditions of VCMP. -/

/-- The conditions on lanes (R14, R235): equality is that of the values. -/
def LaneCond (cc : ℕ) (x y : Lane) : Prop :=
  match cc with
  | 0 => x = y
  | 1 => x ≠ y
  | 2 => x.toInt < y.toInt
  | 3 => y.toInt ≤ x.toInt
  | 4 => x.toNat < y.toNat
  | 5 => y.toNat ≤ x.toNat
  | 6 => x.toInt ≤ y.toInt
  | 7 => y.toInt < x.toInt
  | 8 => x.toNat ≤ y.toNat
  | 9 => y.toNat < x.toNat
  | _ => False

theorem intCond_lane (cc : ℕ) (x y : Lane) : intCond cc x y = true ↔ LaneCond cc x y := by
  refine (intCond_iff cc x y).trans ?_
  match cc with
  | 0 => exact BitVec.toNat_inj
  | 1 => exact not_congr BitVec.toNat_inj
  | 2 | 3 | 4 | 5 | 6 | 7 | 8 | 9 | _ + 10 => exact Iff.rfl

/-- A vector result in every lane. -/
theorem sends_lanes {s : State} {o : VForm} {i : Instr} {g : ℕ → Lane} {f : ∀ l, l < 1024 → Lane}
    (he : exec i s = .next ((s.wV 3 o.d (-1) (vOf g)).occupyV o 4)) (hf : ∀ l (h : l < 1024), g l = f l h) :
    ∃ v : VReg, exec i s = .next (vectorSent s o 3 4 (BitVec.allOnes 1024) v 0 false) ∧ ∀ l (h : l < 1024), v[l] = f l h := by
  rw [wV_occupyV, ← allOnes_eq_neg_one] at he
  exact ⟨_, he, fun l h => (vOf_getElem g h).trans (hf l h)⟩

/-- The counts of VMCNT (R239). -/
theorem vmcnt_counts (s : State) (o : VForm) : ∃ u n, exec (.vmcnt o) s = .next u ∧
    u.core.results = s.core.results ++ [{ w := .s o.d (BitVec.ofNat 64 n) none, due := s.core.tau + 3 }] ∧ u.core.s = s.core.s ∧ u.dev = s.dev ∧
    (o.fn = 0 → n = ((List.range 1024).filter fun l => s.core.topM.getLsbD l).length) ∧
    (o.fn = 1 → (∀ l, l < n → s.core.topM.getLsbD l = false) ∧ (n = 1024 ∨ n < 1024 ∧ s.core.topM.getLsbD n = true)) := by
  have he : exec (.vmcnt o) s = execVmcnt o s := rfl
  rw [execVmcnt, occupyV_eq] at he
  refine ⟨_, _, he, rfl, rfl, rfl, fun h0 => ?_, fun h1 => ?_⟩
  · rw [h0]
    exact (foldl_count_eq_filter ..).trans (Nat.zero_add _)
  · obtain ⟨hle, hbelow, hone⟩ := find?_range_first (fun l => s.core.topM.getLsbD l) 1024
    rw [h1]
    exact ⟨hbelow, (Nat.eq_or_lt_of_le hle).imp_right fun hlt => ⟨hlt, hone hlt⟩⟩

/-- Settles O29: `pushMask_pushes` says what is pushed for a mask whose lanes are known, `sends_lanes` what is sent, and `vmcnt_counts` what
VMCNT counts. -/
theorem comparesPushLaneMasks : Obligations.ComparesPushLaneMasks := by
  unfold Obligations.ComparesPushLaneMasks
  intro s o hmode st a pushes all sends
  refine ⟨fun h0 => ?float, fun hint => ?int, ?classes, fun h0 => ?nonzero, fun h1 => ?packed, ?sel, fun h0 => ?allOnes, fun h1 => ?rows,
    vmcnt_counts s o⟩
  case float =>
    refine pushMask_pushes (rfl : exec (.vcmp o) s = execVcmp o s) fun l h => ?_
    beta_reduce
    rw [if_pos h0, laneAt_lt _ h, bLane_eq_operandB hmode h]
  case int =>
    have hty : ¬ o.ty = 0 := by rcases hint with h | h <;> rw [h] <;> decide
    refine pushMask_pushes (rfl : exec (.vcmp o) s = execVcmp o s) fun l h => ?_
    beta_reduce
    rw [if_neg hty, laneAt_lt _ h, bLane_eq_operandB hmode h, intCond_lane]
    exact Iff.rfl
  case classes =>
    refine pushMask_pushes (rfl : exec (.vcls o) s = execVcls o s) fun l h => ?_
    rw [laneAt_lt _ h, classBit o (laneClass_le _)]
    exact laneClass_selected _ fun n => if n = 8 then o.fn.getLsbD 0 = true else o.imm8.getLsbD n = true
  case nonzero =>
    refine pushMask_pushes (rfl : exec (.vvtom o) s = execVvtom o s) fun l h => ?_
    rw [h0, laneAt_lt _ h]
    exact bne_iff_ne
  case packed =>
    refine pushMask_pushes (rfl : exec (.vvtom o) s = execVvtom o s) fun l h => ?_
    rw [h1, laneAt_lt _ (Nat.lt_of_le_of_lt (Nat.div_le_self l 32) h)]
    exact Iff.rfl
  case sel => exact sends_lanes (rfl : exec (.vsel o) s = execVsel o s) fun l h => by rw [laneAt_lt _ h, bLane_eq_operandB hmode h]
  case allOnes =>
    have he : exec (.vmtov o) s = execVmtov o s := rfl
    have hbit : (0 : BitVec 6).getLsbD 0 = false := by decide
    simp only [execVmtov, h0, hbit, Bool.false_eq_true, if_false] at he
    exact sends_lanes he fun _ _ => rfl
  case rows =>
    have he : exec (.vmtov o) s = execVmtov o s := rfl
    have hbit : (1 : BitVec 6).getLsbD 0 = true := by decide
    simp only [execVmtov, h1, hbit, if_true] at he
    exact sends_lanes he fun _ _ => rfl

end Sys2Proof.Machine

end
